-- ==== Sys2Proof/Word.lean ====
section
/-! DEFINITION. The words of the device: bytes, 32-bit and 64-bit register words (R6, R7). -/

namespace Sys2Proof

/-- One byte of memory, of a record or of a frame. -/
abbrev Byte := BitVec 8

/-- A register word (R7: a register is 32 bits wide unless its table says otherwise). -/
abbrev Word := BitVec 32

/-- A 64-bit register: two consecutive words, the low word at the lower address (R7). -/
abbrev DWord := BitVec 64

end Sys2Proof
end

