-- ==== Sys2Proof/Machine/Tab.lean ====
section
/-! DEFINITION. Sparse tables: a list of (key, value) pairs with strictly rising keys in which an unlisted key
reads as its default. Memory, the register stores and every indexed set of the device (rings, jobs, engines,
nodes, tags) are such tables, so that equal contents are equal data. -/

namespace Sys2Proof.Machine

/-- A sparse table. -/
abbrev Tab (α : Type) := List (Nat × α)

variable {α : Type}

/-- The value at key `k`; `d k` when the key is not listed. -/
def tget (d : Nat → α) : Tab α → Nat → α
  | [], k => d k
  | (a, v) :: t, k => if a = k then v else tget d t k

/-- The table without key `k`. -/
def tdel : Tab α → Nat → Tab α
  | [], _ => []
  | (a, v) :: t, k => if a = k then tdel t k else (a, v) :: tdel t k

/-- The table with `(k, v)` put before the first larger key. -/
def tins : Tab α → Nat → α → Tab α
  | [], k, v => [(k, v)]
  | (a, w) :: t, k, v => if k < a then (k, v) :: (a, w) :: t else (a, w) :: tins t k v

/-- Writes `v` at key `k`; the default value is never listed. -/
def tput [DecidableEq α] (d : Nat → α) (t : Tab α) (k : Nat) (v : α) : Tab α :=
  if v = d k then tdel t k else tins (tdel t k) k v

/-- Changes the value at key `k` by `f`. -/
def tmod [DecidableEq α] (d : Nat → α) (t : Tab α) (k : Nat) (f : α → α) : Tab α :=
  tput d t k (f (tget d t k))

/-- Every key of `t` is above `lo` (`none`: no bound), keys rise strictly and no entry holds its default. -/
def twfFrom [DecidableEq α] (d : Nat → α) : Option Nat → Tab α → Bool
  | _, [] => true
  | none, (a, v) :: t => decide (v ≠ d a) && twfFrom d (some a) t
  | some lo, (a, v) :: t => decide (lo < a) && decide (v ≠ d a) && twfFrom d (some a) t

/-- The canonical form of a table. -/
def twf [DecidableEq α] (d : Nat → α) (t : Tab α) : Bool := twfFrom d none t

/-- Memory: bytes by address; every memory of the device reads zero after a reset (R491). -/
abbrev Mem := Tab Byte

/-- What an unlisted address reads as (R491). -/
def memDefault : Nat → Byte := fun _ => 0

/-- One byte of memory. -/
def mget (m : Mem) (a : Nat) : Byte := tget memDefault m a

/-- Writes one byte. -/
def mput (m : Mem) (a : Nat) (v : Byte) : Mem := tput memDefault m a v

/-- `n` bytes from address `a` on. -/
def mbytes (m : Mem) (a n : Nat) : List Byte := (List.range n).map fun i => mget m (a + i)

/-- Writes bytes from address `a` on. -/
def mwrite (m : Mem) (a : Nat) : List Byte → Mem
  | [] => m
  | b :: bs => mwrite (mput m a b) (a + 1) bs

/-- The canonical form of memory. -/
abbrev Memory.wf (m : Mem) : Bool := twf memDefault m

/-- Little-endian bytes as a number (R6). -/
def leNat : List Byte → Nat
  | [] => 0
  | b :: bs => b.toNat + 256 * leNat bs

/-- The `n` little-endian bytes of a number (R6). -/
def leBytes : Nat → Nat → List Byte
  | 0, _ => []
  | n + 1, v => BitVec.ofNat 8 v :: leBytes n (v / 256)

/-- Bits [hi:lo] of a number. -/
def bits (v hi lo : Nat) : Nat := (v / 2 ^ lo) % 2 ^ (hi + 1 - lo)

/-- Bit `i` of a number. -/
def bitOf (v i : Nat) : Bool := (v / 2 ^ i) % 2 == 1

/-- A field of a record: bytes `o` to `o + n - 1` of `bs`, little-endian; missing bytes read as zero. -/
def field (bs : List Byte) (o n : Nat) : Nat := leNat ((bs.drop o).take n)

/-- A list in the order of `le`; equal elements keep theirs. -/
def sortBy {α : Type} (le : α → α → Bool) (l : List α) : List α := l.insertionSort fun a b => le a b = true

/-- The two's complement value of the low `w` bits of `v`. -/
def toSigned (w v : Nat) : Int :=
  let u := v % 2 ^ w
  if u < 2 ^ (w - 1) then (u : Int) else (u : Int) - (2 ^ w : Nat)

/-- The low `w` bits of a signed number. -/
def ofSigned (w : Nat) (v : Int) : Nat := (v % ((2 ^ w : Nat) : Int)).toNat

/-- `[lo, hi]` saturation of a signed number, with whether it saturated. -/
def clampInt (lo hi v : Int) : Int × Bool :=
  if v < lo then (lo, true) else if hi < v then (hi, true) else (v, false)

/-- A W1C bit after a write of `v`, where the hardware sets the bits `hw` in the same cycle (R10, R11). -/
def w1c (b : Bool) (v hw i : Nat) : Bool := bitOf hw i || (b && !bitOf v i)

/-- A Boolean as a number. -/
def b2n (b : Bool) : Nat := if b then 1 else 0

end Sys2Proof.Machine
end

