-- ==== Sys2Proof/Machine/Codes.lean ====
section
/-! DEFINITION. Cyclic redundancy checks over byte strings, and the byte encodings that several chapters share. -/

namespace Sys2Proof.Machine

/-- One bit of a reflected CRC of width at most 64 with the reflected polynomial `poly`. -/
def crcBit (poly c : Nat) : Nat := if c % 2 = 1 then Nat.xor (c / 2) poly else c / 2

/-- One byte of a reflected CRC. -/
def crcByte (poly c b : Nat) : Nat :=
  crcBit poly (crcBit poly (crcBit poly (crcBit poly (crcBit poly (crcBit poly (crcBit poly (crcBit poly
    (Nat.xor c b))))))))

/-- CRC-32C: the Castagnoli polynomial, reflected, initial value and final inversion all ones. -/
def crc32c (bs : List Byte) : Nat :=
  Nat.xor (bs.foldl (fun c b => crcByte 0x82F63B78 c b.toNat) 0xFFFFFFFF) 0xFFFFFFFF

/-- Bytes followed by their CRC-32C, little-endian. -/
def withCrc (bs : List Byte) : List Byte := bs ++ leBytes 4 (crc32c bs)

/-- Whether the last four of `n + 4` bytes are the CRC-32C of the first `n`. -/
def crcOk (n : Nat) (bs : List Byte) : Bool := field bs n 4 == crc32c (bs.take n)

/-- One bit of CRC-64/ECMA-182, most significant bit first. -/
def crc64Bit (c : Nat) : Nat := if 2 ^ 63 ≤ c then Nat.xor (2 * c % 2 ^ 64) 0x42F0E1EBA9EA3693 else 2 * c

/-- CRC-64 with the ECMA-182 polynomial, from 0 (R243). -/
def crc64 (bs : List Byte) : Nat :=
  bs.foldl (fun c b => (List.range 8).foldl (fun c _ => crc64Bit c) (Nat.xor c (b.toNat * 2 ^ 56))) 0

/-- `n` zero bytes. -/
def zeros (n : Nat) : List Byte := List.replicate n 0

/-- A dictionary write that has staged parts (R353). -/
structure StagedParts where
  index : Nat
  sub : Nat
  data : List (BitVec 8)
  deriving DecidableEq, Repr

end Sys2Proof.Machine
end

