-- ==== Sys2Proof/Machine/Noc.lean ====
section
/-! DEFINITION. The networks on chip (chapter 08) as data: bus requests, master ports, split-read tags, live
counters, error logs and die-to-die links, with the arithmetic on them alone. -/

namespace Sys2Proof.Machine

/-- The dies. -/
inductive Die where
  | cd0 | cd1 | hub
  deriving DecidableEq, Repr

def Die.key : Die → Nat
  | .cd0 => 0 | .cd1 => 1 | .hub => 2

/-- A master: a port of a die (chapter 08, "Master ports"). -/
structure Port where
  die : Die
  port : Nat
  deriving DecidableEq, Repr

/-- The key of a port in the table of ports. -/
def Port.key (p : Port) : Nat := 32 * p.die.key + p.port

def Port.engine (e : Nat) : Port := if e < 16 then ⟨.cd0, e⟩ else ⟨.cd1, e - 16⟩
def Port.debug : Port := ⟨.hub, 14⟩
def Port.sec : Port := ⟨.hub, 6⟩
def Port.fwc : Port := ⟨.hub, 5⟩
def Port.mce : Port := ⟨.hub, 9⟩
def Port.gpx : Port := ⟨.hub, 7⟩
def Port.dcu : Port := ⟨.hub, 8⟩
def Port.fgw : Port := ⟨.hub, 10⟩
def Port.pcie : Port := ⟨.hub, 11⟩
def Port.toterlink : Port := ⟨.hub, 12⟩

/-- The engine behind a port of a compute die. -/
def Port.engineOf (p : Port) : Option Nat :=
  match p.die with
  | .cd0 => if p.port < 16 then some p.port else none
  | .cd1 => if p.port < 16 then some (16 + p.port) else none
  | .hub => none

/-- What an injected or detected memory condition does to a read (R176, R177, R186). -/
inductive EccOutcome where
  | clean | corrected | uncorrectable | tagMismatch
  deriving DecidableEq, Repr

/-- A bus request as its master issues it (R20): `len` bytes from `addr`, of world `secure`, for instance `inst`. `ctx` is
the IOMMU context of a master that is not a processor (R338). `data` holds the bytes of a write, or what the host beyond the PCIe
window answers to a read; `ecc` what the memory meets (log entry 3). `global`: the address, after any translation, is a 45-bit
fabric-global one (R26, R27); else it is a 40-bit package-local one (R16; log entry 151). -/
structure BusReq where
  master : Port
  secure : Bool
  addr : Nat
  len : Nat
  write : Bool
  data : List (BitVec 8)
  inst : Nat
  ctx : Option Nat
  ecc : EccOutcome
  global : Bool
  deriving DecidableEq, Repr

/-- The response of an access. -/
inductive BusResp where
  | data (bs : List (BitVec 8))
  | ok
  | error
  /-- No response comes: a part of the request waits at a die-to-die link that is down (R219; log entry 152). -/
  | lost
  deriving DecidableEq, Repr

/-- A data request that has been issued and not yet completed (R223). -/
structure Inflight where
  id : Nat
  secure : Bool
  level : Nat
  bytes : Nat
  write : Bool
  /-- The split-read tag it holds (R230). -/
  tag : Option Nat
  /-- Fenced: its reply is discarded (R232). -/
  orphan : Bool
  inst : Nat
  gen : Nat
  /-- The stack whose controller serves it (R235). -/
  stack : Option Nat
  /-- The address of the first byte, as the master gave it. -/
  base : Nat
  resp : BusResp
  deriving DecidableEq, Repr

/-- One master port. -/
structure PortState where
  inflight : List Inflight
  /-- Requests held because OUT is not below HARD, oldest first (R224). -/
  held : List BusReq
  /-- Reads stalled for a tag, oldest first (R230, R231). -/
  stalled : List BusReq
  /-- 64 times the average latency (R228). -/
  acc : Nat
  /-- Escalation step (R229). -/
  esc : Nat
  nextId : Nat
  deriving DecidableEq, Repr

def PortState.init : PortState := ⟨[], [], [], 0, 0, 0⟩

def portDef : Nat → PortState := fun _ => PortState.init

/-- OUT (R223). -/
def PortState.outCount (p : PortState) : Nat := p.inflight.length

/-- The average of R228. -/
def PortState.avg (p : PortState) : Nat := p.acc / 64

/-- One completion's latency sample (R228). -/
def PortState.sample (p : PortState) (ns : Nat) : PortState := { p with acc := p.acc - p.acc / 64 + ns }

/-- The escalation step of R229. -/
def escalation (avg target : Nat) : Nat :=
  if target = 0 then 0
  else b2n (decide (target < 2 * avg)) + b2n (decide (3 * target < 4 * avg)) + b2n (decide (9 * target < 10 * avg))

/-- Classes of R220: 0 RT, 1 LT, 2 BK, 3 MG. -/
def classRT : Nat := 0
def classLT : Nat := 1
def classBK : Nat := 2
def classMG : Nat := 3

/-- The level a request takes (R221, R225). -/
def requestLevel (cls esc : Nat) (lowered : Bool) : Nat :=
  match cls, lowered with
  | 0, false => 5
  | 0, true => 1
  | 1, false => 1 + esc
  | _, _ => 0

/-- The class a level is counted as (R221). -/
def levelClass (level : Nat) : Nat := if level = 5 then classRT else if level = 0 then classBK else classLT

/-- The tag pool of a die (R230). -/
structure TagPool where
  /-- Tags in use by data reads, orphans among them. -/
  used : List Nat
  /-- The port after which the next grant looks (R231). -/
  lastPort : Nat
  deriving DecidableEq, Repr

def TagPool.init : TagPool := ⟨[], 31⟩

/-- Tags that data reads may use (R230). -/
def tagLimit (d : Die) : Nat :=
  match d with
  | .hub => 4096 - 64
  | _ => 16384 - 256

/-- The lowest free tag of a pool. -/
def TagPool.freeTag (p : TagPool) (limit : Nat) : Option Nat :=
  if p.used.length < limit then (List.range (p.used.length + 1)).find? fun t => !p.used.contains t else none

/-- A live 64-bit counter with its snapshot (R235 to R239). -/
structure Counter where
  val : Nat
  staged : Option Word
  snap : Nat
  ovf : Bool
  lost : Bool
  deriving DecidableEq, Repr

def Counter.init : Counter := ⟨0, none, 0, false, false⟩
def counterDef : Nat → Counter := fun _ => Counter.init

/-- An increment; a counter that passes 2^64 − 1 wraps and sets OVF (R238). -/
def Counter.add (c : Counter) (n : Nat) : Counter :=
  { c with val := (c.val + n) % 2 ^ 64, ovf := c.ovf || decide (2 ^ 64 ≤ c.val + n) }

/-- A write of the low word is staged (R239). -/
def Counter.writeLow (c : Counter) (v : Word) : Counter := { c with staged := some v }

/-- A write of the high word sets all 64 bits; an increment in the same cycle is dropped and LOST set (R239). -/
def Counter.writeHigh (c : Counter) (v : Word) (inc : Bool) : Counter :=
  { c with val := v.toNat * 2 ^ 32 + (match c.staged with | some l => l.toNat | none => c.val % 2 ^ 32),
           staged := none, lost := c.lost || inc }

/-- The error log of a die's network (R240). -/
structure ErrLog where
  addr : Nat
  port : Nat
  write : Bool
  world : Bool
  count : Nat
  valid : Bool
  deriving DecidableEq, Repr

def ErrLog.init : ErrLog := ⟨0, 0, false, false, 0, false⟩

/-- A refused access is logged: the first error is kept, every error is counted (R240). -/
def ErrLog.note (l : ErrLog) (addr port : Nat) (write world : Bool) : ErrLog :=
  if l.valid then { l with count := min 255 (l.count + 1) }
  else ⟨addr % 2 ^ 45, port, write, world, min 255 (l.count + 1), true⟩

/-- NOC.ERR_INFO. -/
def ErrLog.info (l : ErrLog) : Nat :=
  l.port % 32 + 32 * b2n l.write + 64 * b2n l.world + 256 * l.count + 65536 * b2n l.valid

/-- One end of a die-to-die link (R217, R219): 0 centre, 1 hub link 0, 2 hub link 1. -/
structure DieLink where
  replays : Nat
  /-- Failed replays of one flit in a row. -/
  row : Nat
  down : Bool
  deriving DecidableEq, Repr

def DieLink.init : DieLink := ⟨0, 0, false⟩
def dieLinkDef : Nat → DieLink := fun _ => DieLink.init

/-- The link between two dies (R14, R17): 0 centre, 1 hub link 0, 2 hub link 1. Hub-die traffic never takes the centre link. -/
def linkBetween : Die → Die → Option Nat
  | .cd0, .cd1 | .cd1, .cd0 => some 0
  | .hub, .cd0 | .cd0, .hub => some 1
  | .hub, .cd1 | .cd1, .hub => some 2
  | _, _ => none

/-- The networks and their regulation. -/
structure Noc where
  ports : Tab PortState
  /-- Tag pools of CD0, CD1 and the hub. -/
  pool0 : TagPool
  pool1 : TagPool
  poolH : TagPool
  /-- Counters of ports and stack controllers by register address. -/
  counters : Tab Counter
  err0 : ErrLog
  err1 : ErrLog
  errH : ErrLog
  links : Tab DieLink
  hold : Bool
  /-- NOC.SNAP_TN: TN, with bit 63 set for LATCH. -/
  snapTn : Nat
  deriving DecidableEq, Repr

def Noc.init : Noc :=
  { ports := [], pool0 := .init, pool1 := .init, poolH := .init, counters := [], err0 := .init, err1 := .init,
    errH := .init, links := [], hold := false, snapTn := 0 }

def Noc.port (n : Noc) (p : Port) : PortState := tget portDef n.ports p.key
def Noc.setPort (n : Noc) (p : Port) (v : PortState) : Noc := { n with ports := tput portDef n.ports p.key v }

def Noc.pool (n : Noc) : Die → TagPool
  | .cd0 => n.pool0 | .cd1 => n.pool1 | .hub => n.poolH
def Noc.setPool (n : Noc) (d : Die) (v : TagPool) : Noc :=
  match d with
  | .cd0 => { n with pool0 := v } | .cd1 => { n with pool1 := v } | .hub => { n with poolH := v }

def Noc.err (n : Noc) : Die → ErrLog
  | .cd0 => n.err0 | .cd1 => n.err1 | .hub => n.errH
def Noc.setErr (n : Noc) (d : Die) (v : ErrLog) : Noc :=
  match d with
  | .cd0 => { n with err0 := v } | .cd1 => { n with err1 := v } | .hub => { n with errH := v }

def Noc.counter (n : Noc) (a : Nat) : Counter := tget counterDef n.counters a
def Noc.setCounter (n : Noc) (a : Nat) (c : Counter) : Noc := { n with counters := tput counterDef n.counters a c }

/-- Adds to the counter at an address. -/
def Noc.count (n : Noc) (a k : Nat) : Noc := n.setCounter a ((n.counter a).add k)

/-- Base of the regulation block of a die (chapter 08). -/
def nocBase : Die → Nat
  | .cd0 => 0xF1_0130_0000 | .cd1 => 0xF2_0130_0000 | .hub => 0xF0_0400_0000

/-- Base of a port's registers. -/
def portBase (p : Port) : Nat := nocBase p.die + 0x1000 + p.port * 0x100

/-- The copy of every counter into its snapshot register (R236). -/
def Noc.snapshot (n : Noc) (tn : Nat) (latch : Bool) : Noc :=
  { n.counters.foldl (fun m p => m.setCounter p.1 { n.counter p.1 with snap := (n.counter p.1).val }) n with
    snapTn := tn % 2 ^ 63 + 2 ^ 63 * b2n latch }

end Sys2Proof.Machine
end

