-- ==== Sys2Proof/Machine/DebugPort.lean ====
section
/-! DEFINITION. The serial debug port and the TAP (chapter 18) as data. -/

namespace Sys2Proof.Machine

/-! ### Frames (R469, R470) -/

/-- The header of a frame (R469). -/
structure DbgHeader where
  start : Bool
  op : Nat
  world : Bool
  space : Nat
  addr : Nat
  /-- 32-bit words, 1 to 1,024. -/
  count : Nat
  /-- The reserved bits are zero. -/
  reservedOk : Bool
  crcOk : Bool
  deriving DecidableEq, Repr

/-- One step of a CRC whose register holds `w` bits, over one bit. -/
def crcStep (w poly : Nat) (c : Nat) (b : Bool) : Nat :=
  let s := c * 2 % 2 ^ w
  if bitOf c (w - 1) != b then Nat.xor s poly else s

/-- CRC-8 of R469 over bits [63:0] in the order they are sent. -/
def dbgCrc8 (w : Nat) : Nat := ((List.range 64).map (bitOf w)).foldl (crcStep 8 0x07) 0

/-- CRC-16 of R469 over the bits of the data words in the order they are sent. -/
def dbgCrc16 (bs : List (BitVec 8)) : Nat :=
  (bs.flatMap fun b => (List.range 8).map (bitOf b.toNat)).foldl (crcStep 16 0x1021) 0xFFFF

/-- The header that 72 bits spell (R469). -/
def DbgHeader.ofBits (w : Nat) : DbgHeader :=
  { start := bitOf w 0, op := bits w 3 1, world := bitOf w 4, space := bits w 6 5, addr := bits w 47 8,
    count := bits w 57 48 + 1, reservedOk := !bitOf w 7 && bits w 63 58 == 0, crcOk := bits w 71 64 == dbgCrc8 (w % 2 ^ 64) }

/-- A write frame after its header (R469): the data words as bytes and the CRC-16 sent with them, with the
bits that the hardware sets in the cycle in which a word is written (R11). -/
structure DbgData where
  bytes : List (BitVec 8)
  crc : BitVec 16
  hwSet : Nat
  deriving DecidableEq, Repr

/-- The ACK codes of R470. -/
inductive DbgAck where
  | ok | wait | denied | fault | crc
  deriving DecidableEq, Repr

/-- The ACK code as its three bits, first sent lowest. -/
def DbgAck.code : DbgAck → Nat
  | .ok => 4 | .wait => 2 | .denied => 6 | .fault => 1 | .crc => 3

/-- An access that is pending (R471). -/
structure DbgPending where
  header : DbgHeader
  /-- What has arrived for each word, by address. -/
  got : List (Nat × BusResp)
  /-- The session was closed while the access was pending (R473). -/
  closed : Bool
  deriving DecidableEq, Repr

/-- The addresses of the words of an access. -/
def DbgHeader.words (h : DbgHeader) : List Nat := (List.range h.count).map fun k => h.addr + 4 * k

/-- What has arrived for a word. -/
def DbgPending.word (p : DbgPending) (a : Nat) : Option BusResp := (p.got.find? fun x => x.1 == a).map fun x => x.2

/-- Every word has arrived. -/
def DbgPending.complete (p : DbgPending) : Bool := p.header.words.all fun a => (p.word a).isSome

/-- The words joined; a word that the target refused makes the whole an error. -/
def DbgPending.reply (p : DbgPending) : BusResp :=
  p.header.words.foldl (fun r a => match r, p.word a with
    | .data x, some (.data y) => .data (x ++ y)
    | _, _ => .error) (.data [])

/-- TAP instructions (R479). -/
inductive TapInstr where
  | bypass | idcode | samplePreload | extest | extestPulse | extestTrain | clamp | highz
  deriving DecidableEq, Repr

/-! ### Debug modules (R474 to R476) -/

/-- A hart, or one copy of a hart of a redundant pair, as its debug module sees it. -/
structure DmHart where
  halted : Bool
  /-- A halt request that waits for an instruction boundary at which the hart may halt (R475). -/
  haltReq : Bool
  /-- A single step runs. -/
  stepping : Bool
  resumeAck : Bool
  /-- Registers that the debugger has written since the hart halted, by regno. -/
  regs : Tab Nat
  deriving DecidableEq, Repr

def DmHart.init : DmHart := ⟨false, false, false, false, []⟩
def dmHartDef : Nat → DmHart := fun _ => DmHart.init
def regDef : Nat → Nat := fun _ => 0

/-- dcsr, whose bit 2 asks for a single step. -/
def regDcsr : Nat := 0x7B0

/-- What the debugger knows of the registers once the hart has run: dcsr, which only the debugger writes. -/
def DmHart.ran (h : DmHart) : DmHart := { h with regs := h.regs.filter fun p => p.1 == regDcsr }

/-- A halt request or a single step ends at an instruction boundary at which the hart may halt (R475). -/
def DmHart.boundary (h : DmHart) : DmHart :=
  if (h.haltReq || h.stepping) && !h.halted then { h with halted := true, stepping := false } else h

/-- A halted hart resumes: for one instruction where dcsr.step is set. -/
def DmHart.resume (h : DmHart) : DmHart :=
  if h.halted then { h.ran with halted := false, resumeAck := true, stepping := bitOf (tget regDef h.regs regDcsr) 2 }
  else { h with resumeAck := false }

/-- The debug module of a complex: what RISC-V External Debug Support 1.0 holds for one selected hart (log entry 162). -/
structure DebugModule where
  active : Bool
  hartsel : Nat
  /-- Data words and the 16 words of the program buffer, by DMI address. -/
  words : Tab Nat
  cmderr : Nat
  harts : Tab DmHart
  /-- The second copies of the harts of redundant pairs (R476). -/
  seconds : Tab DmHart
  deriving DecidableEq, Repr

def DebugModule.init : DebugModule := ⟨false, 0, [], 0, [], []⟩
def dmDef : Nat → DebugModule := fun _ => DebugModule.init

def DebugModule.hart (m : DebugModule) (h : Nat) : DmHart := tget dmHartDef m.harts h
def DebugModule.second (m : DebugModule) (h : Nat) : DmHart := tget dmHartDef m.seconds h

/-- Harts of a complex: APC, SPC, FWC, SEC (chapter 12). -/
def dmHarts (m : Nat) : Nat := match m with | 0 => 16 | 1 => 4 | 2 => 4 | _ => 1

/-- The harts of the SPC and of the SEC are redundant pairs (R476). -/
def dmPaired (m : Nat) : Bool := m == 1 || m == 3

/-- What is done to a hart is done to both copies of a pair at the same instruction boundary (R476). -/
def DebugModule.onHart (m : DebugModule) (k h : Nat) (f : DmHart → DmHart) : DebugModule :=
  let m := { m with harts := tput dmHartDef m.harts h (f (m.hart h)) }
  if dmPaired k then { m with seconds := tput dmHartDef m.seconds h (f (m.second h)) } else m

/-- The harts that are visible reach an instruction boundary. -/
def DebugModule.settle (m : DebugModule) (k : Nat) (visible : Nat → Bool) : DebugModule :=
  (List.range (dmHarts k)).foldl (fun m h => if visible h then m.onHart k h DmHart.boundary else m) m

/-- dmstatus: version 1.0, authenticated, and the state of the selected hart. -/
def DebugModule.status (m : DebugModule) (k : Nat) (visible : Nat → Bool) : Nat :=
  let h := m.hart m.hartsel
  let is (b : Bool) (i : Nat) : Nat := if b then 3 * 2 ^ i else 0
  let there := decide (m.hartsel < dmHarts k)
  3 + 2 ^ 7 + is (there && visible m.hartsel && h.halted) 8 + is (there && visible m.hartsel && !h.halted) 10
    + is (there && !visible m.hartsel) 12 + is (!there) 14 + is (there && h.resumeAck) 16

/-- A write of dmcontrol. -/
def DebugModule.control (m : DebugModule) (k v : Nat) (visible : Nat → Bool) : DebugModule :=
  if !bitOf v 0 then DebugModule.init
  else
    let h := bits v 25 16 + 2 ^ 10 * bits v 15 6
    let m := { m with active := true, hartsel := h }
    if dmHarts k ≤ h then m
    else
      let m := m.onHart k h fun x => { x with haltReq := bitOf v 31 }
      let m := if bitOf v 30 && !bitOf v 31 && visible h then m.onHart k h DmHart.resume else m
      m.settle k visible

/-- An abstract command: an access of a register of the halted hart that is selected, `free` where the debugger has not written it;
the program buffer may leave any register changed. -/
def DebugModule.command (m : DebugModule) (k v free : Nat) (visible : Nat → Bool) : DebugModule :=
  let h := m.hartsel
  let err (e : Nat) : DebugModule := { m with cmderr := e }
  if m.cmderr ≠ 0 then m
  else if bits v 31 24 ≠ 0 then err 2
  else if dmHarts k ≤ h ∨ visible h = false ∨ (m.hart h).halted = false then err 4
  else
    let reg := v % 2 ^ 16
    let m :=
      if !bitOf v 17 then m
      else if bitOf v 16 then
        m.onHart k h fun x => { x with regs := tput regDef x.regs reg (tget regDef m.words 4 + 2 ^ 32 * tget regDef m.words 5) }
      else
        let r := match (m.hart h).regs.find? fun p => p.1 == reg with | some p => p.2 | none => free
        { m with words := tput regDef (tput regDef m.words 4 (r % 2 ^ 32)) 5 (r / 2 ^ 32 % 2 ^ 32) }
    if bitOf v 18 then m.onHart k h DmHart.ran else m

/-- A DMI write (R474). -/
def DebugModule.write (m : DebugModule) (k a v free : Nat) (visible : Nat → Bool) : DebugModule :=
  let m := m.settle k visible
  if a = 0x10 then m.control k v visible
  else if !m.active then m
  else if a = 0x17 then m.command k v free visible
  else if a = 0x16 then { m with cmderr := Nat.land m.cmderr (7 - bits v 10 8) }
  else if (4 ≤ a ∧ a < 0x10) ∨ (0x20 ≤ a ∧ a < 0x30) then { m with words := tput regDef m.words a v }
  else m

/-- A DMI read: what no rule fixes is `free`; sbasize in sbcs reads zero (R474). -/
def DebugModule.read (m : DebugModule) (k a free : Nat) (visible : Nat → Bool) : Nat :=
  let m := m.settle k visible
  if a = 0x10 then b2n m.active + 2 ^ 16 * (m.hartsel % 2 ^ 10) + 2 ^ 6 * (m.hartsel / 2 ^ 10 % 2 ^ 10)
  else if a = 0x11 then m.status k visible
  else if a = 0x16 then 2 + 2 ^ 8 * m.cmderr + 2 ^ 24 * 16
  else if (4 ≤ a ∧ a < 0x10) ∨ (0x20 ≤ a ∧ a < 0x30) then tget regDef m.words a
  else if a = 0x38 then free - 2 ^ 5 * bits free 11 5
  else free

/-! ### The port -/

/-- The debug port. -/
structure Dbg where
  level : Nat
  werr : Bool
  pending : Option DbgPending
  /-- The next frame is answered FAULT after a time-out (R471). -/
  faultNext : Bool
  unlockBusy : Bool
  unlockFail : Bool
  /-- The challenge drawn last, 32 bytes, while it is good for one response (R446). -/
  challenge : List (BitVec 8)
  challengeLive : Bool
  /-- The challenge was good, and had not expired, when the response under verification was submitted (R446). -/
  respFresh : Bool
  /-- DT at which the challenge was drawn. -/
  challengeAt : Nat
  resp : Mem
  recovery : Mem
  /-- EDBG.BP. -/
  bp : Tab Nat
  hit : Nat
  /-- The TAP instruction; one that drives pins drives them only while SYS_RST_n is held low (R479). -/
  tap : TapInstr
  /-- Test-Logic-Reset. -/
  tapReset : Bool
  /-- The boundary register, as SAMPLE/PRELOAD captured it last. -/
  boundary : Nat
  /-- The debug modules of the APC, SPC, FWC and SEC (R474). -/
  modules : Tab DebugModule
  deriving DecidableEq, Repr

def Dbg.init : Dbg :=
  { level := 0, werr := false, pending := none, faultNext := false, unlockBusy := false, unlockFail := false,
    challenge := zeros 32, challengeLive := false, respFresh := false, challengeAt := 0, resp := [], recovery := [], bp := [], hit := 0,
    tap := .idcode, tapReset := false, boundary := 0, modules := [] }

def Dbg.module (d : Dbg) (k : Nat) : DebugModule := tget dmDef d.modules k
def Dbg.setModule (d : Dbg) (k : Nat) (v : DebugModule) : Dbg := { d with modules := tput dmDef d.modules k v }

def bpDef : Nat → Nat := fun _ => 0
def Dbg.bpWord (d : Dbg) (b : Nat) : Nat := tget bpDef d.bp b

/-- DBGP.STATUS. -/
def Dbg.status (d : Dbg) : Nat :=
  d.level + 4 * b2n d.werr + 8 * b2n d.pending.isSome + 16 * b2n d.unlockBusy + 32 * b2n d.unlockFail

/-- Breakpoint b matches (R477). -/
def bpMatches (w job logical seq : Nat) : Bool :=
  bitOf w 13 && w % 64 == job && (bitOf w 11 || bits w 10 6 == logical) && w / 2 ^ 32 == seq

/-- The lowest breakpoint that matches. -/
def Dbg.hits (d : Dbg) (job logical seq : Nat) : Option Nat :=
  (List.range 8).find? fun b => bpMatches (d.bpWord b) job logical seq

/-- An instruction that takes effect only while SYS_RST_n is low (R479). -/
def TapInstr.drives : TapInstr → Bool
  | .extest | .extestPulse | .extestTrain | .clamp | .highz => true
  | _ => false

/-- IDCODE (R479). -/
def idcode (manufacturer : BitVec 11) : Nat := 1 + 2 * manufacturer.toNat + 2 ^ 12 * 0x0960 + 2 ^ 28 * 1

end Sys2Proof.Machine
end

