-- ==== Sys2Proof/Config.lean ====
section
/-! DEFINITION. What the specification leaves open, as opaque constants: nothing in Lean can evaluate
them, so a theorem about the model holds for every choice of them. The counter they are applied to is
`Device.fresh` (log entry 5). -/

namespace Sys2Proof.Config

/-- A free byte: what a location holds whose bytes the specification calls undefined (R120, R439). -/
opaque freeByte : Nat → Byte

/-- A free word: an unstated 32-bit result (log entry 5). -/
opaque freeWord : Nat → Word

/-- The nanosecond within the current tempo at which an event falls (log entry 7). -/
opaque freeNs : Nat → Fin 1000

/-- Random data of the entropy source and of the DRBG (R437). -/
opaque random : Nat → Nat

/-- The fixed device functions of R105 for a function code and an input: which of the results within 2 units in the last place
of the exact value the device gives; the word itself where the function has neither a value nor a limit (log entry 29). -/
opaque devFn : Nat → Word → Word

/-- Results that R110 and R111 do not state for a vector instruction (an INT32 sum outside INT32, a shift by 32 or
more, the exponential of an INT32 lane): a function of the opcode and the operands (log entry 23). -/
opaque vuUnstated : Nat → Word → Word → Word → Word

/-- The value word of a slot that is empty in a hash table built without an initial table (R148, R149; log entry 25). -/
opaque emptySlotValue : Word

/-- Busy engine cycles counted in one tempo; at most 1,500 at 1.5 GHz (log entry 24). -/
opaque freeCycles : Nat → Fin 1501

/-- Where a ring of another device begins (R270): RING_STATE does not carry it (log entry 73). -/
opaque remoteRingBase : Nat → Nat → BitVec 40

/-- The fused voltage table of the unit (R450): the voltage in mV that the rail of a compute die needs for a frequency step of a
quad on it (log entry 164). -/
opaque railMv : Nat → Nat → Nat

/-- The row of its pseudo-channel that holds a 256-byte block of a stack: stack and block. The controller's bank mapping is
internal to it (R171; log entry 56). -/
opaque stackRow : Nat → Nat → Nat

/-- The contents of the boot ROM (R24), which the specification does not state. -/
opaque romByte : Nat → Byte

/-- The serial of the unit, from OTP (0x1018:04). -/
opaque serial : DWord

/-- The grade of the unit: false GLB-96A, true GLB-96I (0x1018:06). -/
opaque grade : Bool

/-- Zilvo's manufacturer identity in IDCODE (R479). -/
opaque manufacturer : BitVec 11

/-- AES-256-CMAC under the key of a node's key slot, first four bytes (R376). -/
opaque cmac : Nat → List Byte → Word

/-- The SHA-384 digest of a byte string, as 48 bytes (R396, R443). -/
opaque sha384 : List Byte → List Byte

/-- A signature over a byte string by ECDSA P-384 and ML-DSA-65 under a private key (R395, R432, R443). -/
opaque sign : List Byte → List Byte → List Byte

/-- The device-unique key that the boot ROM reconstructs from the PUF and the helper data in OTP (R432). -/
opaque duk : List Byte

/-- The SHA-384 hash of Zilvo's root public keys, and that of the first owner's key, as OTP holds them (R431). -/
opaque rootHash : List Byte
opaque firstOwner : List Byte

/-- HKDF-SHA-384 (RFC 5869): secret, info and length (R432, R440). -/
opaque hkdf : List Byte → List Byte → Nat → List Byte

/-- The ECDH P-384 secret of a private key and a public key (R440). -/
opaque ecdhSecret : List Byte → List Byte → List Byte

/-- The ML-KEM-768 secret of a private key and a ciphertext (R440). -/
opaque mlkemSecret : List Byte → List Byte → List Byte

/-- AES-256-GCM decryption: key, nonce, additional data, ciphertext and tag; none where the tag does not verify (R248, R440,
R441). -/
opaque gcmOpen : List Byte → List Byte → List Byte → List Byte → List Byte → Option (List Byte)

/-- AES-256-GCM encryption: key, nonce, additional data and plaintext; the ciphertext with its 16-byte tag (R248). -/
opaque gcmSeal : List Byte → List Byte → List Byte → List Byte → List Byte × List Byte

/-- The ECDH P-384 share and the ML-KEM-768 encapsulation, signed, that this device contributes to a link's handshake, from random
data (R249). -/
opaque linkShare : Nat → List Byte

/-- The ECDH secret and the ML-KEM secret of a handshake: the random data of this device's contribution and the partner's
contribution (R249). -/
opaque linkSecrets : Nat → List Byte → List Byte × List Byte

/-- AES-256-XTS encryption of a pair of bursts: key, package-local address and plaintext (R440). -/
opaque aesXts : List Byte → Nat → List Byte → List Byte

/-- AES-256-CMAC: key and bytes (R440). -/
opaque aesCmac : List Byte → List Byte → List Byte

/-- Whether both signatures of a profile image verify under the owner key that its header names (R395, R397; log entry
51). -/
opaque profileSigned : List Byte → Bool

/-- Sine, cosine and square root of an exact number, as the kinematics lanes form them (R294, R300; log entry 40). -/
opaque sine : Rat → Rat
opaque cosine : Rat → Rat
opaque root : Rat → Rat

/-- The configurations that other members of a part hold at its decision, each as its members and its king (R276; log entry 169). -/
opaque partHolds : Nat → List (List Nat × Nat)

/-- The integrals of the cosine and of the sine of a heading ψ + κ s + σ s²/2 over the arc from 0 to s: ψ, κ, σ, s (R299; log entry
40). -/
opaque clothoid : Rat → Rat → Rat → Rat → Rat
opaque clothoidY : Rat → Rat → Rat → Rat → Rat

/-- The binary32 word that the lanes form of a coordinate which binary32 does not hold (R292, R294; log entry 40). -/
opaque coordRound : Rat → Word

/-- The base pose and the base twist at the start of a plan segment, twelve numbers: plan buffer, segment, number. R306 gives the
plan a start state and no base (log entry 166). -/
opaque planBase : List Byte → Nat → Nat → Rat

/-- The braking phases of a joint whose stop jerk or stop acceleration is no finite number above 0, durations and jerks: model, batch
and joint (R300; log entry 41). -/
opaque stopPhases : List Byte → List Byte → Nat → List (Rat × Rat)

/-- What the command list of a render pass, its shader programs and the geometry give, which the specification leaves to the
graphics driver (chapter 11; log entry 163). The first argument names the pass. Primitives of the pass; whether a primitive covers a
sample (x, y, sample); whether its shader writes depth or discards fragments (R322). -/
opaque primCount : Nat → Nat
opaque primCovers : Nat → Nat → Nat × Nat × Nat → Bool
opaque primLate : Nat → Nat → Bool

/-- The depth and stencil test of a fragment: pass, primitive, sample, the depth that the shader wrote, and the stored depth and
stencil; whether it passes, and what is stored then (R322; log entry 163). -/
opaque fragTest : Nat → Nat → Nat × Nat × Nat → Option Nat → Nat × Nat → Bool × Nat × Nat

/-- The shader of a fragment with its ordered section, on the colour that tile memory holds of the sample: none where it discards
the fragment, else the new colour and a depth it writes (R321, R322; log entry 163). -/
opaque fragShade : Nat → Nat → Nat × Nat × Nat → List Byte → Option (List Byte × Option Nat)

/-- Whether a ray query of the RTU meets no triangle closer than its threshold (R325), for the query and the link transforms of its
pose slot: the layout of a built mesh is internal to the RTU. -/
opaque rtuPass : List Byte → List Rat → Bool

/-- The distance a failing ray query reports (R325). -/
opaque rtuDist : List Byte → List Rat → Word

/-- The voxel that a place of a replica of the motion-field window holds, of the fine or the coarse grid (R21), which the
specification does not state. -/
opaque fieldPlace : Bool → Nat → Nat

/-- Network cycles of 2.0 GHz in which a port has held a request, within one tempo (R224). -/
opaque heldCycles : Nat → Fin 2001

/-- Bytes that the requests of a command carry, and the latency that a port then shows, which no rule fixes (log entry 153). -/
opaque freeTraffic : Nat → Nat

/-- What the debug module of a processor complex returns for a DMI read (R474). -/
opaque dmiRead : Nat → Word

end Sys2Proof.Config
end

