-- ==== Sys2Proof/Machine/Rings.lean ====
section
/-! DEFINITION. Rings (R165 to R170, R496): ring pointers, fill and free space, and the moves of both pointers. -/

namespace Sys2Proof.Machine

/-- A ring pointer (R166): index, wrap bit and the total of entries moved since ENABLE modulo 2^32. -/
structure RPtr where
  index : Nat
  wrap : Bool
  total : Nat
  deriving DecidableEq, Repr

def RPtr.zero : RPtr := ⟨0, false, 0⟩

/-- The 64-bit word of a pointer. -/
def RPtr.word (p : RPtr) : Nat := p.index % 2 ^ 24 + 2 ^ 24 * b2n p.wrap + 2 ^ 32 * (p.total % 2 ^ 32)

/-- The pointer a 64-bit word spells. -/
def RPtr.ofWord (w : Nat) : RPtr := ⟨w % 2 ^ 24, bitOf w 24, w / 2 ^ 32 % 2 ^ 32⟩

/-- Moves a pointer by `n` entries, at most one turn of a ring of `count` entries (R166). -/
def RPtr.move (p : RPtr) (count n : Nat) : RPtr :=
  if p.index + n < count then ⟨p.index + n, p.wrap, (p.total + n) % 2 ^ 32⟩
  else ⟨p.index + n - count, !p.wrap, (p.total + n) % 2 ^ 32⟩

/-- One ring of a ring table. -/
structure Ring where
  base : Nat
  /-- ESIZE field: entry size in 16-byte units, minus 1. -/
  esize : Nat
  place : Nat
  world : Bool
  enable : Bool
  job : Nat
  jobOwn : Bool
  inst : Nat
  count : Nat
  head : RPtr
  tail : RPtr
  err : Bool
  setHead : Nat
  setTail : Nat
  deriving DecidableEq, Repr

def Ring.init : Ring :=
  { base := 0, esize := 0, place := 0, world := false, enable := false, job := 0, jobOwn := false, inst := 0,
    count := 0, head := .zero, tail := .zero, err := false, setHead := 0, setTail := 0 }

def ringDef : Nat → Ring := fun _ => Ring.init

/-- Bytes of one entry (R165). -/
def Ring.entrySize (r : Ring) : Nat := (r.esize + 1) * 16

/-- Published entries (R166). -/
def Ring.fill (r : Ring) : Nat :=
  if r.head.wrap = r.tail.wrap then r.tail.index - r.head.index else r.count - r.head.index + r.tail.index

/-- Free space (R166). -/
def Ring.free (r : Ring) : Nat := r.count - r.fill

/-- Address of the entry `k` places after the pointer `p` (R165, R166). -/
def Ring.entryAddr (r : Ring) (p : RPtr) (k : Nat) : Nat :=
  r.base + (if p.index + k < r.count then p.index + k else (p.index + k) % (max 1 r.count)) * r.entrySize

/-- The producer's tail move, refused whole when larger than the free space or when the ring is disabled
(R167, R168). -/
def Ring.publish (r : Ring) (n : Nat) : Option Ring :=
  if r.enable && decide (n ≤ r.free) then some { r with tail := r.tail.move r.count n } else none

/-- The consumer's head move, refused whole when larger than the fill or when the ring is disabled (R167, R168). -/
def Ring.advance (r : Ring) (n : Nat) : Option Ring :=
  if r.enable && decide (n ≤ r.fill) then some { r with head := r.head.move r.count n } else none

/-- RING.CTRL.RESET: the head takes the tail's value (R170; log entry 20 on TOTAL). -/
def Ring.reset (r : Ring) : Ring := { r with head := r.tail }

/-- RING.CTRL.SET: both pointers from SET_HEAD and SET_TAIL; refused when an INDEX is at or above COUNT (R170). -/
def Ring.set (r : Ring) : Option Ring :=
  let h := RPtr.ofWord r.setHead
  let t := RPtr.ofWord r.setTail
  if r.enable && decide (h.index < r.count) && decide (t.index < r.count) then some { r with head := h, tail := t }
  else none

/-- RING.CFG as it reads. -/
def Ring.cfgWord (r : Ring) : Nat :=
  r.esize + 2 ^ 12 * r.place + 2 ^ 14 * b2n r.world + 2 ^ 15 * b2n r.enable + 2 ^ 16 * r.job + 2 ^ 22 * b2n r.jobOwn
    + 2 ^ 23 * r.inst

/-- The fields of CFG that a word carries. -/
def Ring.withCfg (r : Ring) (w : Nat) : Ring :=
  { r with esize := bits w 11 0, place := bits w 13 12, world := bitOf w 14, enable := bitOf w 15, job := bits w 21 16,
           jobOwn := bitOf w 22, inst := bits w 27 23 }

/-- RING.STATUS. -/
def Ring.statusWord (r : Ring) : Nat :=
  b2n (r.fill == 0) + 2 * b2n (decide (0 < r.count) && r.fill == r.count) + 4 * b2n r.err + 16 * (r.fill % 2 ^ 25)

/-- The memory window a ring of table `die` must lie in, as base and size; PLACE 3 is reserved (R165). -/
def ringWindow (die place : Nat) : Option (Nat × Nat) :=
  match place with
  | 0 => some (if die = 0 then 0xC0_0000_0000 else 0xC1_0000_0000, 0x0600_0000)
  | 1 => some (0, 0xC_0000_0000)
  | 2 => some (0xC_0000_0000, 0xC_0000_0000)
  | _ => none

/-- The geometry rules of R165 for a ring of table `die`. -/
def Ring.geometryOk (r : Ring) (die : Nat) : Bool :=
  match ringWindow die r.place with
  | none => false
  | some (w, n) =>
    decide (1 ≤ r.count) && decide (r.count ≤ 16777215) && r.base % 64 == 0 && decide (w ≤ r.base)
      && decide (r.base + r.count * r.entrySize ≤ w + n)

/-- A ring created empty (R496). -/
def Ring.create (r : Ring) : Ring := { r with enable := true, head := .zero, tail := .zero }

end Sys2Proof.Machine
end

