-- ==== Sys2Proof/Machine/Fabric.lean ====
section
/-! DEFINITION. The Toterlink fabric (chapter 09) as data: messages, flits, links, membership, routing, remote-read
tags, puts and ring proxies, with the operations on them alone. -/

namespace Sys2Proof.Machine

/-- The message types of R252. -/
inductive MType where
  | rdReq | rdData | rdErr | wr | wrNack | putAck | tailAdv | signal | ringQuery | ringState | headUpd
  | mgmt | time | heartbeat | hello | elect | config | configAck | linkState | handshake | commit
  deriving DecidableEq, Repr

/-- The type codes of the message type table. -/
def MType.code : MType → Nat
  | .rdReq => 0x01 | .rdData => 0x02 | .rdErr => 0x03 | .wr => 0x04 | .wrNack => 0x05 | .putAck => 0x06
  | .tailAdv => 0x07 | .signal => 0x08 | .ringQuery => 0x09 | .ringState => 0x0A | .headUpd => 0x0B
  | .mgmt => 0x10 | .time => 0x11 | .heartbeat => 0x12 | .hello => 0x13 | .elect => 0x14 | .config => 0x15
  | .configAck => 0x16 | .linkState => 0x17 | .handshake => 0x18 | .commit => 0x19

/-- The type of a code; none for the codes outside the table. -/
def MType.ofCode (c : Nat) : Option MType :=
  [.rdReq, .rdData, .rdErr, .wr, .wrNack, .putAck, .tailAdv, .signal, .ringQuery, .ringState, .headUpd, .mgmt, .time, .heartbeat,
   .hello, .elect, .config, .configAck, .linkState, .handshake, .commit].find? fun t => t.code == c

/-- The virtual channel of a type: 0 MG, 1 REQ, 2 RSP, 3 BULK. -/
def MType.vc : MType → Nat
  | .rdReq | .ringQuery => 1
  | .rdData | .rdErr | .wrNack | .putAck | .ringState | .headUpd => 2
  | .wr | .tailAdv | .signal => 3
  | _ => 0

/-- A message (R252). -/
structure FMsg where
  type : MType
  src : Nat
  dst : Nat
  down : Bool
  level : Nat
  tag : Nat
  gen : Nat
  world : Bool
  addr : Nat
  arg : Nat
  len : Nat
  data : List Byte
  deriving DecidableEq, Repr

/-- A message with nothing but its type and ends. -/
def FMsg.plain (t : MType) (src dst : Nat) : FMsg :=
  ⟨t, src, dst, false, 0, 0, 0, false, 0, 0, 0, []⟩

/-- The 16-byte header of a message (R252). -/
def FMsg.header (m : FMsg) : List Byte :=
  leBytes 1 m.type.code ++ leBytes 1 (m.src % 32 + 32 * b2n m.down) ++ leBytes 1 (m.dst % 32 + 32 * (m.level % 8)) ++ leBytes 1 m.len
    ++ leBytes 2 (m.tag % 2 ^ 15) ++ leBytes 1 m.gen ++ leBytes 1 (b2n m.world) ++ leBytes 6 (m.addr % 2 ^ 45) ++ leBytes 2 m.arg

/-- The bytes of a message: its header and LEN units of 16 bytes of data (R252). -/
def FMsg.bytes (m : FMsg) : List Byte := m.header ++ (m.data ++ zeros (16 * m.len)).take (16 * m.len)

/-- The message that 16 header bytes and its data spell; none for a type outside the table (R252). -/
def FMsg.ofBytes (b : List Byte) : Option FMsg :=
  (MType.ofCode (field b 0 1)).map fun t =>
    { type := t, src := field b 1 1 % 32, dst := field b 2 1 % 32, down := bitOf (field b 1 1) 5, level := bits (field b 2 1) 7 5,
      len := field b 3 1, tag := field b 4 2 % 2 ^ 15, gen := field b 6 1, world := bitOf (field b 7 1) 0, addr := field b 8 6 % 2 ^ 45,
      arg := field b 14 2, data := (b.drop 16).take (16 * field b 3 1) }

/-- The messages that stand whole at the front of a virtual channel's bytes, oldest first, none for one of an unknown type, and the
bytes that are left. Units of zeros between messages fill a flit (log entry 30). -/
def takeMessages : Nat → List Byte → List (Option FMsg) × List Byte
  | 0, b => ([], b)
  | n + 1, b =>
    if b.length < 16 then ([], b)
    else if (b.take 16).all (· == 0) then takeMessages n (b.drop 16)
    else
      let size := 16 + 16 * field b 3 1
      if b.length < size then ([], b)
      else ((FMsg.ofBytes (b.take size)) :: (takeMessages n (b.drop size)).1, (takeMessages n (b.drop size)).2)

/-! ### Flits (R243) -/

/-- The header of a flit. TYPE is 0 IDLE, 1 DATA, 2 PAD, 3 RETRY_REQ; 4 to 7 are reserved. -/
structure FlitHead where
  type : Nat
  vc : Nat
  seq : Nat
  ack : Nat
  ackv : Bool
  crvc : Nat
  credits : Nat
  keyphase : Bool
  tagPart : Nat
  deriving DecidableEq, Repr

def FlitHead.idle : FlitHead := ⟨0, 0, 0, 0, false, 0, 0, false, 0⟩

/-- The 8 bytes of a header as a number. -/
def FlitHead.word (h : FlitHead) : Nat :=
  h.type % 8 + 2 ^ 3 * (h.vc % 4) + 2 ^ 5 * (h.seq % 4096) + 2 ^ 17 * (h.ack % 4096) + 2 ^ 29 * b2n h.ackv + 2 ^ 30 * (h.crvc % 4)
    + 2 ^ 32 * (h.credits % 256) + 2 ^ 40 * b2n h.keyphase + 2 ^ 48 * (h.tagPart % 65536)

/-- The header that a number spells. -/
def FlitHead.ofWord (w : Nat) : FlitHead :=
  ⟨bits w 2 0, bits w 4 3, bits w 16 5, bits w 28 17, bitOf w 29, bits w 31 30, bits w 39 32, bitOf w 40, bits w 63 48⟩

/-- The header as the authenticated data of its block hold it: TAGPART and the ACK and credit fields count as zero (R248). -/
def FlitHead.authentic (h : FlitHead) : List Byte :=
  leBytes 8 { h with ack := 0, ackv := false, crvc := 0, credits := 0, tagPart := 0 }.word

/-- The 128 bytes of a flit: header, 112 bytes of payload, and the CRC over both (R243). -/
def flitBytes (h : FlitHead) (payload : List Byte) : List Byte :=
  let b := leBytes 8 h.word ++ payload
  b ++ leBytes 8 (crc64 b)

/-- A flit as it arrives: 128 bytes. -/
abbrev Flit := List Byte

def Flit.head (f : Flit) : FlitHead := FlitHead.ofWord (field f 0 8)
def Flit.payload (f : Flit) : List Byte := (f.drop 8).take 112

/-- The CRC of a flit is correct (R243). -/
def Flit.good (f : Flit) : Bool := field f 120 8 == crc64 (f.take 120)

/-- The key and the salt of one direction of a link (R249). -/
structure LinkKey where
  key : List Byte
  salt : List Byte
  deriving DecidableEq, Repr

/-- The nonce of a block: the salt and the count of blocks since the key took effect (R248). -/
def LinkKey.nonce (k : LinkKey) (n : Nat) : List Byte := k.salt ++ leBytes 8 n

/-- A block's payloads in clear text become ciphertext, and each header takes its part of the tag (R248). -/
def sealBlock (k : LinkKey) (n : Nat) (fs : List (FlitHead × List Byte)) : List (FlitHead × List Byte) :=
  let c := Config.gcmSeal k.key (k.nonce n) (fs.flatMap fun f => f.1.authentic) (fs.flatMap fun f => f.2)
  (List.range fs.length).map fun i =>
    ({ (fs.getD i (.idle, [])).1 with tagPart := field c.2 (2 * i) 2 }, (c.1.drop (112 * i)).take 112)

/-- The payloads of a received block in clear text; none where its tag does not verify (R248). -/
def openBlock (k : LinkKey) (n : Nat) (fs : List (FlitHead × List Byte)) : Option (List (FlitHead × List Byte)) :=
  (Config.gcmOpen k.key (k.nonce n) (fs.flatMap fun f => f.1.authentic) (fs.flatMap fun f => f.2) (fs.flatMap fun f => leBytes 2 f.1.tagPart)).map
    fun p => (List.range fs.length).map fun i => ((fs.getD i (.idle, [])).1, (p.drop (112 * i)).take 112)

/-- A HELLO (R256). -/
structure Hello where
  serial : Nat
  vmin : Nat
  vmax : Nat
  proposed : Nat
  king : Bool
  resigned : Bool
  holdsId : Bool
  port : Nat
  curId : Nat
  profileHash : List Byte
  cfgGen : Nat
  kingSerial : Nat
  deriving DecidableEq, Repr

/-- The link states of TL.PORT_STATUS.STATE. -/
inductive LinkSt where
  | off | training | hello | handshake | attesting | active | refused
  deriving DecidableEq, Repr

def LinkSt.code : LinkSt → Nat
  | .off => 0 | .training => 1 | .hello => 2 | .handshake => 3 | .attesting => 4 | .active => 5 | .refused => 6

/-- The outcome of link training (R242): at ×4, whether lanes 4 to 7 run or lanes 0 to 3. -/
inductive TrainOutcome where
  | x8
  | x4 (high : Bool)
  | none
  deriving DecidableEq, Repr

/-- A DATA or PAD flit kept for resending (R245): its 128 bytes as they were sent. -/
structure KeptFlit where
  seq : Nat
  bytes : Flit
  deriving DecidableEq, Repr

/-- One Toterlink port. -/
structure LPort where
  /-- TL.PORT_CTRL.ENABLE. -/
  ctrl : Bool
  st : LinkSt
  x4 : Bool
  /-- At ×4, the lanes 4 to 7 run, not 0 to 3 (R242). -/
  x4High : Bool
  /-- Training has failed since the last round boundary (R242). -/
  tried : Bool
  version : Nat
  hbMiss : Nat
  hbSeen : Bool
  refuse : Nat
  peerSerial : Nat
  peerId : Option Nat
  peerKing : Bool
  peerPort : Nat
  peerResigned : Bool
  peerGen : Nat
  peerMin : Nat
  peerMax : Nat
  replays : Nat
  downs : Nat
  /-- The next SEQ to give, the kept flits oldest first, and messages that wait for credit or room (R244 to R246). -/
  txSeq : Nat
  kept : List KeptFlit
  queue : List FMsg
  /-- For each virtual channel, the bytes of a message whose front has left, with the message's level (R252). -/
  rest : List (Nat × List Byte)
  /-- Flits that have their SEQ and wait for room in the retry buffer, oldest first (R245, R248). -/
  ready : List (FlitHead × List Byte)
  /-- Credits of MG, REQ, RSP, BULK (R246). -/
  credits : List Nat
  rxSeq : Nat
  /-- A flit has been received in order (R243: ACKV). -/
  rxSeen : Bool
  /-- A RETRY_REQ is outstanding (R244). -/
  gap : Bool
  /-- Credits to return, by virtual channel, and an ACK to send (R244 to R246). -/
  due : List Nat
  ackDue : Bool
  /-- The keys in use of the two directions, and new ones that wait for the next block boundary (R248, R249, R251). -/
  txKey : Option LinkKey
  rxKey : Option LinkKey
  txNext : Option LinkKey
  rxNext : Option LinkKey
  txPhase : Bool
  rxPhase : Bool
  rekeyAt : Nat
  /-- Blocks of each direction since its key took effect (R248). -/
  txBlocks : Nat
  rxBlocks : Nat
  /-- The flits so far of the block being received (R248). -/
  rxBlock : List (FlitHead × List Byte)
  /-- For each virtual channel, the bytes received of a message that has not ended (R252). -/
  rxStream : List (List Byte)
  /-- TN at which the last handshake began, and the random data of this device's contribution (R249). -/
  hsAt : Nat
  eph : Nat
  /-- Half the last measured round trip, in ns (R272). -/
  delay : Nat
  deriving DecidableEq, Repr

def LPort.init : LPort :=
  { ctrl := false, st := .off, x4 := false, x4High := false, tried := false, version := 0, hbMiss := 0, hbSeen := false, refuse := 0,
    peerSerial := 0, peerId := none, peerKing := false, peerPort := 0, peerResigned := false, peerGen := 0, peerMin := 0, peerMax := 0,
    replays := 0, downs := 0, txSeq := 0, kept := [], queue := [], rest := [(0, []), (0, []), (0, []), (0, [])], ready := [],
    credits := [64, 256, 512, 1024], rxSeq := 0, rxSeen := false, gap := false, due := [0, 0, 0, 0], ackDue := false, txKey := none,
    rxKey := none, txNext := none, rxNext := none, txPhase := false, rxPhase := false, rekeyAt := 0, txBlocks := 0, rxBlocks := 0,
    rxBlock := [], rxStream := [[], [], [], []], hsAt := 0, eph := 0, delay := 0 }

def lportDef : Nat → LPort := fun _ => LPort.init

/-- A member or an absent holder of an ID (R258, R259). -/
structure Member where
  serial : Nat
  id : Nat
  active : Bool
  deriving DecidableEq, Repr

/-- One routing entry (TL.ROUTE). -/
structure Route where
  prim : Option Nat
  primDown : Bool
  alt : Option Nat
  usingAlt : Bool
  hops : Nat
  deriving DecidableEq, Repr

def Route.none : Route := ⟨Option.none, false, Option.none, false, 0⟩
def routeDef : Nat → Route := fun _ => Route.none

/-- TL.ROUTE[d]. -/
def Route.word (r : Route) : Nat :=
  r.prim.getD 0 + 8 * b2n r.prim.isSome + 16 * b2n r.primDown + 32 * r.alt.getD 0 + 256 * b2n r.alt.isSome
    + 512 * b2n r.usingAlt + 65536 * r.hops

/-- A configuration (R259). -/
structure FabConfig where
  gen : Nat
  members : List Member
  king : Nat
  version : Nat
  applyTn : Nat
  /-- It changes membership or the king, so it applies at a round boundary. -/
  membership : Bool
  /-- The routing table of every active member, by ID. -/
  tables : List (Nat × Tab Route)
  deriving DecidableEq, Repr

/-- The routing table of a device in a configuration. -/
def FabConfig.table (c : FabConfig) (id : Nat) : Tab Route := ((c.tables.find? fun t => t.1 == id).map Prod.snd).getD []

/-- The active members of a configuration, by ID. -/
def FabConfig.activeIds (c : FabConfig) : List Nat := (c.members.filter fun m => m.active).map Member.id

/-- Who waits for a remote read. -/
inductive Origin where
  | engine (e seq : Nat)
  | bus (p : Port) (id : Nat)
  deriving DecidableEq, Repr

/-- A remote-read tag in use (R264, R265). -/
structure RTag where
  origin : Origin
  dst : Nat
  addr : Nat
  len : Nat
  gen : Nat
  orphan : Bool
  sentTn : Nat
  inst : Nat
  instGen : Nat
  deriving DecidableEq, Repr

/-- A put that has been neither acknowledged nor refused (R266). -/
structure Put where
  num : Nat
  addr : Nat
  tail : Bool
  sentTn : Nat
  /-- The command ring whose REMOTE sent it. -/
  ring : Nat
  deriving DecidableEq, Repr

/-- The puts of this device to one destination (R266). -/
structure PutDst where
  next : Nat
  unacked : List Put
  /-- Puts the destination has reported as landed, modulo 2^16. -/
  acked : Nat
  /-- The port by which the open puts left (R254). -/
  via : Option Nat
  deriving DecidableEq, Repr

def PutDst.init : PutDst := ⟨0, [], 0, none⟩
def putDef : Nat → PutDst := fun _ => PutDst.init

/-- A ring proxy (R270). -/
structure Proxy where
  dev : Nat
  ring : Nat
  /-- RING_STATE has arrived. -/
  known : Bool
  head : RPtr
  tail : RPtr
  count : Nat
  /-- Bytes of an entry. -/
  esize : Nat
  /-- Order of last use, larger is later. -/
  used : Nat
  deriving DecidableEq, Repr

/-- Free space shown by a proxy: COUNT minus the distance from head to tail, as entry totals (R270). -/
def Proxy.free (p : Proxy) : Nat := p.count - (p.tail.total + 2 ^ 32 - p.head.total) % 2 ^ 32

/-- The proxy of a remote ring. -/
def findProxy (ps : List Proxy) (dev ring : Nat) : Option Proxy := ps.find? fun p => p.dev == dev && p.ring == ring

/-- An entry of the bridge error log. -/
structure BridgeErr where
  addr : Nat
  kind : Nat
  dev : Nat
  tag : Nat
  reason : Nat
  dt : Nat
  deriving DecidableEq, Repr

def bridgeErrDef : Nat → BridgeErr := fun _ => ⟨0, 0, 0, 0, 0, 0⟩

/-- The 32 bytes of a bridge error log entry. -/
def BridgeErr.bytes (e : BridgeErr) : List Byte :=
  leBytes 8 e.addr ++ leBytes 1 e.kind ++ leBytes 1 e.dev ++ leBytes 2 e.tag ++ leBytes 4 e.reason ++ leBytes 8 e.dt ++ zeros 8

/-- The fabric states of TL.STATUS.STATE. -/
inductive FabSt where
  | alone | discovering | member | resigned | refused
  deriving DecidableEq, Repr

def FabSt.code : FabSt → Nat
  | .alone => 0 | .discovering => 1 | .member => 2 | .resigned => 3 | .refused => 4

/-- A link of the fabric: its two devices with their ports. LINK_STATE names devices by serial, routing by fabric ID. -/
structure FLink where
  a : Nat
  ap : Nat
  b : Nat
  bp : Nat
  deriving DecidableEq, Repr

/-- A message that waits, with the command ring of a put and 512 for none; `routed` where no port of its route was ACTIVE, so that it
waits for the next routing configuration (R254, R262, R266). -/
structure Waiting where
  msg : FMsg
  ring : Nat
  routed : Bool
  deriving DecidableEq, Repr

/-- The fabric state of the device. -/
structure Fab where
  ports : Tab LPort
  id : Option Nat
  king : Bool
  st : FabSt
  version : Nat
  cfgGen : Nat
  kingSerial : Nat
  /-- The configuration that applies, the last one committed, one acknowledged and not seen committed, and those committed that
  wait for their boundary, oldest first (R259, R276). -/
  config : Option FabConfig
  stableConfig : Option FabConfig
  pending : Option FabConfig
  dueConfigs : List FabConfig
  routes : Tab Route
  /-- Ports whose link is up (R260). -/
  upPorts : List Nat
  /-- The king owes a routing configuration, or one that changes membership (R263, R277, R279). -/
  wantRoutes : Bool
  wantMembers : Bool
  /-- Election (R257). -/
  candidate : Nat
  parent : Option Nat
  stable : Nat
  electing : Bool
  /-- TN at which the election ended (R258). -/
  electedAt : Nat
  /-- Joins that have reached the king, in arrival order (R258). -/
  joins : List Hello
  /-- Devices refused an ID, in order of refusal. -/
  refusedJoins : List (Nat × Nat)
  /-- Serials known with the IDs bound to them (R258). -/
  known : List Member
  /-- IDs whose release waits for the next configuration, in the order of the releases. -/
  releases : List Nat
  acks : List Nat
  links : List FLink
  /-- A decision to resign at the next tempo boundary (R278). -/
  resignDue : Bool
  tags : Tab RTag
  /-- Generation of each tag. -/
  tagGens : Tab Nat
  /-- Remote reads stalled for a tag (R264). -/
  stalled : List RTag
  late : Nat
  errCount : Nat
  errNext : Nat
  errLog : Tab BridgeErr
  puts : Tab PutDst
  /-- Writes and tail advances landed here, by source (R266). -/
  landed : Tab Nat
  proxies : List Proxy
  useClock : Nat
  /-- Messages that wait for a route or for room among the puts, oldest first (R254, R262, R266). -/
  waiting : List Waiting
  /-- The port after which the next grant of a tag looks (R264). -/
  lastPort : Nat
  /-- Command rings with a refused or lost put (R267). -/
  badPutRings : List Nat
  /-- Rings whose head has moved since their producer was told (R270). -/
  headDue : List Nat
  deriving DecidableEq, Repr

def Fab.init : Fab :=
  { ports := [], id := none, king := false, st := .alone, version := 0, cfgGen := 0, kingSerial := 0, config := none,
    stableConfig := none, pending := none, dueConfigs := [], routes := [], upPorts := [], wantRoutes := false, wantMembers := false, candidate := 0, parent := none, stable := 0,
    electing := false, electedAt := 0, joins := [], refusedJoins := [], known := [], releases := [], acks := [],
    links := [], resignDue := false, tags := [], tagGens := [], stalled := [], late := 0, errCount := 0, errNext := 0,
    errLog := [], puts := [], landed := [], proxies := [], useClock := 0, waiting := [], lastPort := 127, badPutRings := [], headDue := [] }

def natDef : Nat → Nat := fun _ => 0

def Fab.port (f : Fab) (p : Nat) : LPort := tget lportDef f.ports p
def Fab.setPort (f : Fab) (p : Nat) (v : LPort) : Fab := { f with ports := tput lportDef f.ports p v }
def Fab.modPort (f : Fab) (p : Nat) (g : LPort → LPort) : Fab := f.setPort p (g (f.port p))
def Fab.route (f : Fab) (d : Nat) : Route := tget routeDef f.routes d
def Fab.putDst (f : Fab) (d : Nat) : PutDst := tget putDef f.puts d
def Fab.setPuts (f : Fab) (d : Nat) (v : PutDst) : Fab := { f with puts := tput putDef f.puts d v }
/-- The remote-read tag record `t`, where the tag is in use. -/
def Fab.tag (f : Fab) (t : Nat) : Option RTag := (f.tags.find? fun p => p.1 == t).map Prod.snd
def Fab.tagGen (f : Fab) (t : Nat) : Nat := tget natDef f.tagGens t

/-- The remote-read tags of the device (R264). -/
def rtagCount : Nat := 8192

/-- The lowest free remote-read tag. -/
def Fab.freeTag (f : Fab) : Option Nat :=
  if f.tags.length < rtagCount then (List.range (f.tags.length + 1)).find? fun t => (f.tag t).isNone else none

/-- TL.STATUS. -/
def Fab.status (f : Fab) : Nat :=
  f.id.getD 0 + 32 * b2n f.id.isSome + 64 * b2n f.king + 256 * f.st.code + 2048 * f.version

/-- TL.TAGS. -/
def Fab.tagsWord (f : Fab) : Nat := f.tags.length + 65536 * (f.tags.filter fun p => p.2.orphan).length

/-- TL.MEMBERS and TL.RESERVED_IDS. -/
def Fab.idMask (f : Fab) (active : Bool) : Nat :=
  match f.config with
  | none => 0
  | some c => (List.range 32).foldl (fun m i =>
      if c.members.any fun x => x.id == i && x.active == active then m + 2 ^ i else m) 0

/-- The bridge error log takes an entry (R27, R264, R266). -/
def Fab.logErr (f : Fab) (e : BridgeErr) : Fab :=
  { f with errLog := tput bridgeErrDef f.errLog f.errNext e, errNext := (f.errNext + 1) % 16,
           errCount := min (2 ^ 32 - 1) (f.errCount + 1) }

/-- TL.PORT_STATUS. -/
def LPort.status (p : LPort) (up : Bool) : Nat :=
  p.st.code + 8 * b2n p.x4 + 16 * p.version + 64 * b2n up + 256 * p.hbMiss + 4096 * p.refuse
    + 65536 * p.peerId.getD 0 + 2 ^ 21 * b2n p.peerId.isSome

/-- The link discards its buffers and retrains (R275). -/
def LPort.reset (p : LPort) (st : LinkSt) : LPort :=
  { LPort.init with ctrl := p.ctrl, st := st, replays := p.replays, downs := p.downs, peerSerial := p.peerSerial,
                    delay := p.delay }

/-- The flits kept after an ACK (R245). -/
def LPort.ackTo (p : LPort) (a : Nat) : LPort :=
  match p.kept.findIdx? fun k => k.seq == a with
  | some i => { p with kept := p.kept.drop (i + 1) }
  | none => p

/-- Takes the credits a flit header returns (R246). -/
def LPort.credit (p : LPort) (vc n : Nat) : LPort := { p with credits := p.credits.set vc (p.credits.getD vc 0 + n) }

/-- Keys are in place for what this port sends (R248). -/
def LPort.keyed (p : LPort) : Bool := p.txKey.isSome || p.txNext.isSome

/-- The level at the head of a channel, where something waits there (R247). -/
def LPort.headLevel (p : LPort) (vc : Nat) : Option Nat :=
  match p.rest.getD vc (0, []) with
  | (_, []) => (p.queue.find? fun m => m.type.vc == vc).map FMsg.level
  | (l, _ :: _) => some l

/-- The channel of the next DATA flit (R246, R247): MG first; else the highest level at the head of a channel with credit, among
equals RSP, then REQ, then BULK. -/
def LPort.nextVc (p : LPort) : Option Nat :=
  let head (vc : Nat) : Option Nat := if p.credits.getD vc 0 = 0 then none else p.headLevel vc
  if (head 0).isSome then some 0
  else ([2, 1, 3].foldl (fun best vc => match head vc, best with
    | none, b => b
    | some l, none => some (vc, l)
    | some l, some b => if b.2 < l then some (vc, l) else some b) none).map Prod.fst

/-- Messages of one channel go behind the bytes `b` until a flit is full; the level of the last one, the bytes and the messages
that are left. A TIME message takes the stamp of the instant at which its flit leaves (R272). -/
def gatherMessages (now : Nat) : List FMsg → Nat → List Byte → Nat × List Byte × List FMsg
  | [], l, b => (l, b, [])
  | m :: ms, l, b =>
    if 112 ≤ b.length then (l, b, m :: ms)
    else gatherMessages now ms m.level (b ++ (if m.type = .time then { m with data := leBytes 8 now ++ zeros 8 } else m).bytes)

/-- The next flit: DATA of the channel whose turn it is, against a credit, or PAD when nothing is ready (R246 to R248, R252). -/
def LPort.nextFlit (p : LPort) (now : Nat) : LPort × (FlitHead × List Byte) :=
  let h : FlitHead := { FlitHead.idle with seq := p.txSeq, keyphase := p.txPhase }
  let p := { p with txSeq := (p.txSeq + 1) % 4096 }
  match p.nextVc with
  | none => (p, { h with type := 2 }, zeros 112)
  | some vc =>
    let mine (m : FMsg) : Bool := m.type.vc == vc
    let old := p.rest.getD vc (0, [])
    let g := gatherMessages now (p.queue.filter mine) old.1 old.2
    ({ p with credits := p.credits.set vc (p.credits.getD vc 0 - 1), rest := p.rest.set vc (g.1, g.2.1.drop 112),
              queue := (p.queue.filter fun m => !mine m) ++ g.2.2 },
     { h with type := 1, vc := vc }, (g.2.1 ++ zeros 112).take 112)

/-- `n` flits in a row. -/
def LPort.nextFlits (now : Nat) : Nat → LPort → List (FlitHead × List Byte) → LPort × List (FlitHead × List Byte)
  | 0, p, fs => (p, fs)
  | n + 1, p, fs => LPort.nextFlits now n (p.nextFlit now).1 (fs ++ [(p.nextFlit now).2])

/-- A new key takes effect at a block boundary, and from the second key on KEYPHASE is inverted (R251). -/
def LPort.switchKey (p : LPort) : LPort :=
  match p.txNext with
  | some k => if p.txSeq % 8 = 0 then { p with txKey := some k, txNext := none, txPhase := p.txPhase != p.txKey.isSome, txBlocks := 0 } else p
  | none => p

/-- Flits made ready: one in clear text; a whole block under the key (R248). -/
def LPort.compose (p : LPort) (now : Nat) : LPort :=
  let p := p.switchKey
  match p.txKey with
  | none => let r := LPort.nextFlits now 1 p []; { r.1 with ready := r.1.ready ++ r.2 }
  | some k =>
    let r := LPort.nextFlits now 8 p []
    { r.1 with ready := r.1.ready ++ sealBlock k p.txBlocks r.2, txBlocks := p.txBlocks + 1 }

/-- The key of a first handshake waits for a block boundary, which PAD flits in clear text reach (R248; log entry 30). -/
def LPort.alignBlocks (p : LPort) : LPort :=
  let pads := (List.range ((8 - p.txSeq % 8) % 8)).map fun i => ({ FlitHead.idle with type := 2, seq := (p.txSeq + i) % 4096 }, zeros 112)
  { p with ready := p.ready ++ pads, txSeq := (p.txSeq + pads.length) % 4096 }

/-- A header takes the ACK and the credits of one channel that are due (R244 to R246). -/
def LPort.returns (p : LPort) (h : FlitHead) : LPort × FlitHead :=
  let vc := ([0, 1, 2, 3].find? fun v => decide (0 < p.due.getD v 0)).getD 0
  let n := min 255 (p.due.getD vc 0)
  ({ p with ackDue := false, due := p.due.set vc (p.due.getD vc 0 - n) },
   { h with ack := (p.rxSeq + 4095) % 4096, ackv := p.rxSeen, crvc := vc, credits := n })

/-- The most unacknowledged flits (R245). -/
def maxKept : Nat := 4095

/-- The oldest ready flit leaves, and its bytes are kept (R244, R245). -/
def LPort.emit (p : LPort) : Option (LPort × Flit) :=
  match p.ready with
  | [] => none
  | (h, b) :: rs =>
    if maxKept ≤ p.kept.length then none
    else
      let r := p.returns h
      let f := flitBytes r.2 b
      some ({ r.1 with ready := rs, kept := p.kept ++ [⟨h.seq, f⟩] }, f)

/-- Sends what credits and the retry buffer allow (R245 to R248); the flits sent, oldest first. `fuel` bounds the steps. -/
def LPort.pump (now : Nat) : Nat → LPort → List Flit → LPort × List Flit
  | 0, p, sent => (p, sent)
  | n + 1, p, sent =>
    match p.emit with
    | some r => LPort.pump now n r.1 (sent ++ [r.2])
    | none => if p.ready.isEmpty && p.nextVc.isSome then LPort.pump now n (p.compose now) sent else (p, sent)

/-- Steps enough to send all that waits. -/
def LPort.fuel (p : LPort) : Nat := 32 * (p.queue.length + 4) + p.ready.length

/-! ### Routing (R260, R261) -/

/-- The neighbours of `x` with the port that leads to them. -/
def neighbours (links : List FLink) (x : Nat) : List (Nat × Nat) :=
  links.filterMap fun l => if l.a == x then some (l.ap, l.b) else if l.b == x then some (l.bp, l.a) else none

/-- Breadth-first levels from the king: `lv` after n rounds. -/
def bfsLevels (links : List FLink) (king : Nat) : Nat → List (Nat × Nat)
  | 0 => [(king, 0)]
  | n + 1 =>
    let prev := bfsLevels links king n
    let new := (List.range 32).filterMap fun x =>
      if prev.any fun p => p.1 == x then none
      else
        let ls := (neighbours links x).filterMap fun nb => (prev.find? fun p => p.1 == nb.2).map Prod.snd
        match ls with
        | [] => none
        | l :: rest => some (x, rest.foldl min l + 1)
    prev ++ new

/-- The level of a device, 32 when it is not reached. -/
def levelOf (lv : List (Nat × Nat)) (x : Nat) : Nat := ((lv.find? fun p => p.1 == x).map Prod.snd).getD 32

/-- The link from x to y is up (R260). -/
def linkUp (lv : List (Nat × Nat)) (x y : Nat) : Bool :=
  decide (levelOf lv y < levelOf lv x) || (levelOf lv y == levelOf lv x && decide (y < x))

/-- Length of the shortest down-only path from x to d, within `n` hops. -/
def downDist (links : List FLink) (lv : List (Nat × Nat)) (d : Nat) : Nat → Nat → Option Nat
  | 0, x => if x = d then some 0 else none
  | n + 1, x =>
    if x = d then some 0
    else ((neighbours links x).filterMap fun nb =>
      if linkUp lv x nb.2 then none else (downDist links lv d n nb.2).map (· + 1)).min?

/-- Length of the shortest path of up links followed by down links, within `n` up hops. -/
def upDist (links : List FLink) (lv : List (Nat × Nat)) (d : Nat) : Nat → Nat → Option Nat
  | 0, x => downDist links lv d 31 x
  | n + 1, x =>
    let here := downDist links lv d 31 x
    let ups := (neighbours links x).filterMap fun nb =>
      if linkUp lv x nb.2 then (upDist links lv d n nb.2).map (· + 1) else none
    (here.toList ++ ups).min?

/-- The routing entry of device x for destination d (R261): ties go to the lower port. -/
def routeFor (links : List FLink) (lv : List (Nat × Nat)) (x d : Nat) : Route :=
  if x = d then Route.none
  else
    let nbs := neighbours links x
    let downs := nbs.filterMap fun nb =>
      if linkUp lv x nb.2 then none else (downDist links lv d 31 nb.2).map fun k => (k + 1, nb.1)
    let ups := nbs.filterMap fun nb =>
      if linkUp lv x nb.2 then (upDist links lv d 31 nb.2).map fun k => (k + 1, nb.1) else none
    let best (l : List (Nat × Nat)) : Option (Nat × Nat) :=
      l.foldl (fun b c => match b with
        | none => some c
        | some a => if c.1 < a.1 ∨ (c.1 = a.1 ∧ c.2 < a.2) then some c else some a) none
    let pick (l : List (Nat × Nat)) (down : Bool) : Route := match best l with
      | none => Route.none
      | some b => ⟨some b.2, down, (best (l.filter fun c => c.2 != b.2)).map Prod.snd, false, b.1⟩
    if downs.isEmpty then pick ups false else pick downs true

/-- Whether serial `a` is better than serial `b` (R257). -/
def better (designated a b : Nat) : Bool :=
  if designated ≠ 0 ∧ a = designated then a != b else if designated ≠ 0 ∧ b = designated then false else decide (a < b)

/-- The part rule of R276 on the members of a configuration and its king. -/
def partRule (members : List Nat) (king : Nat) (part : List Nat) : Bool :=
  let n := members.length
  let k := (members.filter fun i => part.contains i).length
  decide (n < 2 * k) || (2 * k == n && part.contains king)

/-- The part rule of R276 on one configuration. -/
def partPass (c : FabConfig) (part : List Nat) : Bool := partRule c.activeIds c.king part

/-- The devices reachable from `x` over the links, within n hops (R276). -/
def reach (links : List FLink) : Nat → List Nat → List Nat
  | 0, s => s
  | n + 1, s => reach links n (s ++ ((s.flatMap fun x => (neighbours links x).map Prod.snd).filter fun y => !s.contains y).dedup)

end Sys2Proof.Machine
end

