-- ==== Sys2Proof/Machine/Gateway.lean ====
section
/-! DEFINITION. The field gateway (chapter 13) as data: Celet frames, ports, groups, nodes, maps, rules and transfers. -/

namespace Sys2Proof.Machine

/-- The carriage of a Celet frame (R362, R368). -/
inductive Medium where
  | classic | fd | xl | ethernet
  deriving DecidableEq, Repr

/-- The expedited limit of a medium (R368). -/
def Medium.limit : Medium → Nat
  | .classic => 4 | .fd => 60 | .xl => 2044 | .ethernet => 1024

/-- Bytes of payload a frame of the medium carries (log entry 52). -/
def Medium.capacity : Medium → Nat
  | .classic => 8 | .fd => 64 | .xl => 2048 | .ethernet => 1028

/-- A Celet frame as it is received on a port (R362). `authentic`: the CMAC of its trailer is correct under the key of
the node (R376; log entry 53). -/
structure CFrame where
  port : Nat
  medium : Medium
  func : Nat
  dst : Nat
  src : Nat
  payload : List Byte
  authentic : Bool
  /-- Version byte of an Ethernet header, 0 elsewhere. -/
  version : Nat
  deriving DecidableEq, Repr

/-! Function codes (R362). -/
def fnEmcy : Nat := 0x01
def fnGated : Nat := 0x02
def fnSafety : Nat := 0x03
def fnTime : Nat := 0x04
def fnTxmap : Nat := 0x05
def fnRxmap : Nat := 0x06
def fnXferReq : Nat := 0x08
def fnXferRsp : Nat := 0x09
def fnJoinReq : Nat := 0x0C
def fnJoinRsp : Nat := 0x0D
def fnHeartbeat : Nat := 0x0E
def fnProbe : Nat := 0x0F

/-- The Celet identifier (R362). -/
def celetId (func dst src : Nat) : Nat := src % 2 ^ 12 + 2 ^ 12 * (dst % 2 ^ 12) + 2 ^ 24 * (func % 32)

/-- The segment of a port: a CAN or T1S port is one segment, the TSN switch is segment 24 (R362). -/
def segmentOf (port : Nat) : Nat := if port < 24 then port else 24

/-- The medium that a port gives outgoing frames: CAN ports by their configuration (0 classical, 1 FD, 2 XL; log
entry 52), the others Ethernet. -/
def portMedium (port canMode : Nat) : Medium :=
  if 16 ≤ port then .ethernet else match canMode with
    | 0 => .classic
    | 1 => .fd
    | _ => .xl

/-- FPORT.STATUS.STATE. -/
inductive FPortSt where
  | off | active | alone | busOff
  deriving DecidableEq, Repr

def FPortSt.code : FPortSt → Nat
  | .off => 0 | .active => 1 | .alone => 2 | .busOff => 3

/-- How a medium carries a Celet frame (R362): the identifier fields of CAN, or the priority of the tag and the bytes from the
EtherType on. -/
inductive Carriage where
  /-- Classical CAN and CAN FD: the extended identifier. -/
  | extended (id : Nat)
  /-- CAN XL: priority identifier, acceptance field, VCID and SDT. -/
  | xl (priority acceptance vcid sdt : Nat)
  /-- Ethernet: the priority of the 802.1Q tag, the EtherType and the 8-byte Celet header. -/
  | tagged (priority etherType : Nat) (header : List Byte)
  deriving DecidableEq, Repr

/-- The EtherType of Celet frames and their SDT on CAN XL (R362). -/
def celetType : Nat := 0x88B5
def celetSdt : Nat := 0xC5

/-- The carriage of a frame on its medium (R362). -/
def CFrame.carriage (f : CFrame) : Carriage :=
  let id := celetId f.func f.dst f.src
  match f.medium with
  | .classic | .fd => .extended id
  | .xl => .xl (id / 2 ^ 18) (id % 2 ^ 18) 0 celetSdt
  | .ethernet =>
    .tagged (if 1 ≤ f.func ∧ f.func ≤ 3 then 7 else 5) celetType
      (leBytes 1 f.version ++ zeros 1 ++ leBytes 2 f.payload.length ++ leBytes 4 id)

/-- Of two frames that contend for a CAN bus, the first wins: its identifier is lower (R362). -/
def CFrame.beats (a b : CFrame) : Bool := decide (celetId a.func a.dst a.src < celetId b.func b.dst b.src)

/-- A covered gated frame in a port's transmit queue, with its map and the TN of its check (R380). -/
structure QFrame where
  map : Nat
  checkTn : Nat
  frame : CFrame
  deriving DecidableEq, Repr

/-- A gate control list (R360): base and cycle time in device time (ns), and per entry its gates and its interval. -/
structure GateList where
  base : Nat
  cycle : Nat
  entries : List (Nat × Nat)
  deriving DecidableEq, Repr

/-- The bounds of a gate control list: 128 entries, a cycle of 1,000 ns to 1 s (R360). -/
def GateList.ok (l : GateList) : Bool :=
  decide (l.entries.length ≤ 128) && decide (1000 ≤ l.cycle) && decide (l.cycle ≤ 1000000000)

/-- A field port. -/
structure FPort where
  st : FPortSt
  busAlone : Bool
  errPassive : Bool
  plca : Bool
  link : Bool
  group : Nat
  member : Bool
  tec : Nat
  recErr : Nat
  queue : List QFrame
  canMode : Nat
  /-- TN of the last PROBE. -/
  probeTn : Nat
  gates : Option GateList
  gatesPending : Option GateList
  /-- 10BASE-T1S: PLCA ID, 0 of the coordinator and 255 of a follower without one, node count and burst count (R346, R382). -/
  plcaId : Nat
  plcaNodes : Nat
  plcaBurst : Nat
  deriving DecidableEq, Repr

/-- A port after reset: FPORT.STATUS reads 0 (chapter 13). -/
def FPort.init : FPort :=
  { st := .off, busAlone := false, errPassive := false, plca := false, link := false, group := 0, member := false,
    tec := 0, recErr := 0, queue := [], canMode := 1, probeTn := 0, gates := none, gatesPending := none,
    plcaId := 255, plcaNodes := 8, plcaBurst := 0 }

def fportDef : Nat → FPort := fun _ => FPort.init

/-- FPORT.STATUS. -/
def FPort.status (p : FPort) : Nat :=
  p.st.code + 4 * b2n p.busAlone + 8 * b2n p.errPassive + 16 * b2n p.plca + 32 * b2n p.link

/-- A port group (R361). -/
structure FGroup where
  period : Nat
  anchor : Nat
  enable : Bool
  time : Bool
  cycles : Nat
  /-- TN of the latest field-cycle boundary that has been taken. -/
  lastTn : Option Nat
  deriving DecidableEq, Repr

def FGroup.init : FGroup := ⟨0, 0, false, false, 0, none⟩
def fgroupDef : Nat → FGroup := fun _ => FGroup.init

/-- A field-cycle boundary of the group falls on `tn`; a group with a PERIOD outside 50 to 1,000,000 has none (R361; log entry 167). -/
def FGroup.boundaryAt (g : FGroup) (tn : Nat) : Bool :=
  g.enable && decide (50 ≤ g.period) && decide (g.period ≤ 1000000) && decide (g.anchor ≤ tn) && (tn - g.anchor) % g.period == 0

/-- Node states (R367). -/
inductive NodeSt where
  | free | active | lost | removed
  deriving DecidableEq, Repr

def NodeSt.code : NodeSt → Nat
  | .free => 0 | .active => 1 | .lost => 2 | .removed => 3

/-- An entry of the node table. -/
structure Node where
  serial : Nat
  vendor : Nat
  version : Nat
  st : NodeSt
  port : Nat
  number : Nat
  keySlot : Option Nat
  period : Nat
  rate : Nat
  lastHb : Nat
  authFail : Nat
  rateDrops : Nat
  /-- Token bucket (R379). -/
  tokens : Nat
  /-- TN of the last EMCY that was forwarded (R375). -/
  emcyTn : Option Nat
  /-- Freshness of all transfers of the node: accepted and sent (R391). -/
  xferF : Nat
  xferTx : Nat
  deriving DecidableEq, Repr

def Node.init : Node :=
  { serial := 0, vendor := 0, version := 0, st := .free, port := 0, number := 0, keySlot := none, period := 1, rate := 0,
    lastHb := 0, authFail := 0, rateDrops := 0, tokens := 0, emcyTn := none, xferF := 0, xferTx := 0 }

def nodeDef : Nat → Node := fun _ => Node.init

/-- The 32 bytes of a node record (R367). -/
def Node.bytes (n : Node) : List Byte :=
  leBytes 4 n.serial ++ leBytes 2 n.vendor ++ leBytes 1 n.version ++ leBytes 1 n.st.code ++ leBytes 1 n.port ++ zeros 1
    ++ leBytes 2 n.number ++ leBytes 1 (n.keySlot.getD 0xFF) ++ leBytes 1 n.period ++ leBytes 2 n.rate ++ leBytes 8 n.lastHb
    ++ leBytes 4 n.authFail ++ leBytes 4 n.rateDrops

/-- Directions of a map slot; SAFETY maps run from the device or from the node (R371). -/
inductive MapDir where
  | empty | tx | rx | gated | safetyOut | safetyIn
  deriving DecidableEq, Repr

def MapDir.ofCode : Nat → Option MapDir
  | 0 => some .empty | 1 => some .tx | 2 => some .rx | 3 => some .gated | 4 => some .safetyOut | 5 => some .safetyIn
  | _ => none

/-- A transmit direction (R372). -/
def MapDir.transmits : MapDir → Bool
  | .tx | .gated | .safetyOut => true
  | _ => false

/-- A map slot as its 24-byte record sets it (log entry 54). -/
structure MapCfg where
  dir : MapDir
  auth : Bool
  /-- Entry of the node table of the partner. -/
  node : Nat
  len : Nat
  timeout : Nat
  buffer : Nat
  ring : Nat
  deriving DecidableEq, Repr

/-- The map slot that a record spells: DIR in byte 0, AUTH in byte 1 bit 0, node entry in 2 and 3, length in 4 and 5,
time-out in 6 and 7, buffer in 8 to 15, source ring in 16 and 17 (log entry 54). -/
def MapCfg.ofBytes (b : List Byte) : Option MapCfg :=
  match MapDir.ofCode (field b 0 1) with
  | none => none
  | some d => some ⟨d, bitOf (field b 1 1) 0, field b 2 2, field b 4 2, field b 6 2, field b 8 8, field b 16 2⟩

/-- A map at run time. -/
structure MapRun where
  /-- Freshness sent and accepted (R376, R377). -/
  fTx : Nat
  fRx : Nat
  /-- The last data sent (R372). -/
  lastData : List Byte
  /-- BATCH and CAND of the last entry of a GATED map. -/
  lastBatch : Nat
  lastCand : Nat
  skipped : Nat
  /-- The last accepted frame of the running cycle (R373). -/
  got : Option (List Byte)
  overwritten : Nat
  silent : Nat
  stale : Bool
  deriving DecidableEq, Repr

def MapRun.init : MapRun :=
  { fTx := 1, fRx := 0, lastData := [], lastBatch := 0, lastCand := 0, skipped := 0, got := none, overwritten := 0,
    silent := 0, stale := false }

def mapRunDef : Nat → MapRun := fun _ => MapRun.init

/-- Actions of a rule (R378). -/
inductive RuleAct where
  | drop | deliver | forward | ring
  deriving DecidableEq, Repr

/-- A rule (R378). -/
structure Rule where
  handle : Nat
  /-- Ingress port; none for any. -/
  ingress : Option Nat
  func : Nat
  funcMask : Nat
  src : Nat
  srcMask : Nat
  dst : Nat
  dstMask : Nat
  act : RuleAct
  arg : Nat
  prio : Nat
  order : Nat
  deriving DecidableEq, Repr

/-- The rule that a 16-byte record spells (log entry 55): ingress (0xFF any), FUNC, FUNC mask, action, SRC, SRC mask,
DST, DST mask, argument, priority; byte 15 is not used. -/
def Rule.ofBytes (b : List Byte) (handle order : Nat) : Option Rule :=
  let ing := field b 0 1
  let act : Option RuleAct := match field b 3 1 with
    | 0 => some .drop | 1 => some .deliver | 2 => some .forward | 3 => some .ring | _ => none
  match act with
  | none => none
  | some a =>
    let argOk := match a with | .forward => decide (field b 12 2 ≤ 35) | .ring => decide (field b 12 2 < 512) | _ => true
    if (ing = 0xFF ∨ ing ≤ 35) ∧ argOk = true then
      some ⟨handle, if ing = 0xFF then none else some ing, field b 1 1, field b 2 1, field b 4 2, field b 6 2, field b 8 2,
            field b 10 2, a, field b 12 2, field b 14 1, order⟩
    else none

/-- A field agrees with a rule under a mask. -/
def maskEq (mask want got : Nat) : Bool := Nat.land mask want == Nat.land mask got

/-- The rule matches the frame. -/
def Rule.hits (r : Rule) (f : CFrame) : Bool :=
  (match r.ingress with | none => true | some p => p == f.port) && maskEq r.funcMask r.func f.func
    && maskEq r.srcMask r.src f.src && maskEq r.dstMask r.dst f.dst

/-- The first match in the order of priority and then of creation (R378). -/
def firstRule (rs : List Rule) (f : CFrame) : Option Rule :=
  (rs.filter fun r => r.hits f).foldl (fun b r => match b with
    | none => some r
    | some x => if r.prio < x.prio ∨ (r.prio = x.prio ∧ r.order < x.order) then some r else b) none

/-- A transfer that the device serves (R368 to R370). -/
structure Xfer where
  seg : Nat
  client : Nat
  index : Nat
  sub : Nat
  write : Bool
  size : Nat
  /-- Data gathered by a write, or the whole value of a read. -/
  data : List Byte
  /-- Bytes of a read that have been sent. -/
  pos : Nat
  toggle : Bool
  lastTn : Nat
  auth : Bool
  deriving DecidableEq, Repr

/-- A transfer in which the device is client (R368). -/
structure ClientXfer where
  seg : Nat
  server : Nat
  index : Nat
  sub : Nat
  write : Bool
  data : List Byte
  size : Nat
  pos : Nat
  toggle : Bool
  lastTn : Nat
  deriving DecidableEq, Repr

/-- The verdict record in effect at the gateway (R380). -/
structure GateRec where
  tn : Nat
  mode : Nat
  batch : Nat
  feasible : Nat
  degraded : Bool
  deriving DecidableEq, Repr

/-- The field gateway. -/
structure Gateway where
  cfgErr : Bool
  groups : Tab FGroup
  ports : Tab FPort
  nodes : Tab Node
  selected : Nat
  maps : Tab MapRun
  /-- Open rules, the sealed stage and the rules in effect (R378). -/
  rulesOpen : List Rule
  rulesStage : List Rule
  rules : List Rule
  nextHandle : Nat
  nextOrder : Nat
  xfers : List Xfer
  clients : List ClientXfer
  verdict : Option GateRec
  /-- Map time-outs and other emergencies of node 0 sent. -/
  hbCount : Nat
  /-- MAC address table of the switch: address, VLAN and port (R359). -/
  macs : List (Nat × Nat × Nat)
  /-- Key slots on which a sender's freshness has run out (R377). -/
  wornKeys : List Nat
  deriving DecidableEq, Repr

def Gateway.init : Gateway :=
  { cfgErr := false, groups := [], ports := [], nodes := [], selected := 0, maps := [], rulesOpen := [], rulesStage := [],
    rules := [], nextHandle := 0, nextOrder := 0, xfers := [], clients := [], verdict := none, hbCount := 0, macs := [],
    wornKeys := [] }

def Gateway.port (g : Gateway) (p : Nat) : FPort := tget fportDef g.ports p
def Gateway.setPort (g : Gateway) (p : Nat) (v : FPort) : Gateway := { g with ports := tput fportDef g.ports p v }
def Gateway.group (g : Gateway) (n : Nat) : FGroup := tget fgroupDef g.groups n
def Gateway.setGroup (g : Gateway) (n : Nat) (v : FGroup) : Gateway := { g with groups := tput fgroupDef g.groups n v }
def Gateway.node (g : Gateway) (n : Nat) : Node := tget nodeDef g.nodes n
def Gateway.setNode (g : Gateway) (n : Nat) (v : Node) : Gateway := { g with nodes := tput nodeDef g.nodes n v }
def Gateway.map (g : Gateway) (m : Nat) : MapRun := tget mapRunDef g.maps m
def Gateway.setMap (g : Gateway) (m : Nat) (v : MapRun) : Gateway := { g with maps := tput mapRunDef g.maps m v }

/-- Entries of the node table (R367). -/
def nodeCount : Nat := 4096

/-- Entries in use. -/
def Gateway.used (g : Gateway) : Nat := (g.nodes.filter fun p => p.2.st != .free).length

/-- The lowest free entry. -/
def Gateway.freeEntry (g : Gateway) : Option Nat :=
  if g.used < nodeCount then (List.range (g.used + 1)).find? fun k => (g.node k).st == .free else none

/-- The entry that holds a node number on a segment. -/
def Gateway.find (g : Gateway) (seg number : Nat) : Option Nat :=
  (g.nodes.find? fun p => p.2.st != .free && segmentOf p.2.port == seg && p.2.number == number).map Prod.fst

/-- The entry of a serial and vendor code on a segment (R366). -/
def Gateway.findSerial (g : Gateway) (seg serial vendor : Nat) : Option Nat :=
  (g.nodes.find? fun p => p.2.st != .free && segmentOf p.2.port == seg && p.2.serial == serial && p.2.vendor == vendor).map Prod.fst

/-- The lowest free node number of a segment, 1 to 0xFFE. -/
def Gateway.freeNumber (g : Gateway) (seg : Nat) : Option Nat :=
  ((List.range 0xFFE).map (· + 1)).find? fun n => (g.find seg n).isNone

/-- The versions the device supports, best first (chapter 13). -/
def celetVersions : List Nat := [0x21, 0x20, 0x11, 0x10]

/-- The highest supported version within [VMIN, VMAX]; 2.0 or higher on CAN XL and Ethernet (R365). -/
def chooseVersion (vmin vmax : Nat) (m : Medium) : Option Nat :=
  celetVersions.find? fun v => decide (vmin ≤ v) && decide (v ≤ vmax) && (m == .classic || m == .fd || decide (0x20 ≤ v))

/-- A payload length that suits the function code (R363); maps and transfers are bounded by the medium. -/
def lengthOk (f : CFrame) : Bool :=
  let n := f.payload.length
  decide (n ≤ f.medium.capacity) &&
  (match f.func with
   | 0x01 | 0x0C | 0x0D => n == 8
   | 0x0E => n == 5
   | 0x0F => n == 0
   | 0x04 => n == 8 || n == 16
   | 0x02 | 0x03 => decide (8 ≤ n)
   | 0x05 | 0x06 => true
   | 0x08 | 0x09 => decide (4 ≤ n)
   | _ => false)

/-- The trailer of R376 for a frame under a key slot. -/
def trailer (key id : Nat) (payload : List Byte) (f : Nat) : List Byte :=
  let fb := leBytes 4 f
  fb ++ leBytes 4 (Config.cmac key (leBytes 4 id ++ leBytes 2 (payload.length + 8) ++ payload ++ fb)).toNat

/-- The freshness window of R377. -/
def freshOk (f last : Nat) : Bool := decide (last < f) && decide (f ≤ last + 1000)

/-- A GATED map's entry is covered by the verdict record in effect (R380). -/
def covered (gate : Bool) (tn fresh : Nat) (allowDegraded : Bool) (r : Option GateRec) (batch cand : Nat) : Bool :=
  match r with
  | none => false
  | some v =>
    gate && decide (tn - v.tn ≤ fresh) && (v.mode == 1 || v.mode == 2) && v.batch == batch
      && (decide (cand < 64) && bitOf v.feasible cand) && (!v.degraded || allowDegraded)

end Sys2Proof.Machine
end

