-- ==== Sys2Proof/Machine/MoveBlk.lean ====
section
/-! DEFINITION. Sealed moves (R39 to R48): the three copies of a block's settings, its MOVE registers, and what
SEAL, WITHDRAW, REVERT and the end of loading do to them. -/

namespace Sys2Proof.Machine

/-- The blocks with SW registers and sealed moves, each with MOVE registers of its own. -/
inductive BlockId where
  | tb
  | rgnHs0 | rgnHs1 | rgnSlab0 | rgnSlab1
  | nocHub | nocCd0 | nocCd1
  | mceCore | mceModel
  | gpx | pipe0 | pipe1
  | fgw
  | cru
  deriving DecidableEq, Repr

/-- All blocks, in the order in which boundaries serve them. -/
def BlockId.all : List BlockId :=
  [.tb, .rgnHs0, .rgnHs1, .rgnSlab0, .rgnSlab1, .nocHub, .nocCd0, .nocCd1, .mceCore, .mceModel, .gpx, .pipe0,
   .pipe1, .fgw, .cru]

/-- The key of a block in the table of blocks. -/
def BlockId.key : BlockId → Nat
  | .tb => 0 | .rgnHs0 => 1 | .rgnHs1 => 2 | .rgnSlab0 => 3 | .rgnSlab1 => 4 | .nocHub => 5 | .nocCd0 => 6
  | .nocCd1 => 7 | .mceCore => 8 | .mceModel => 9 | .gpx => 10 | .pipe0 => 11 | .pipe1 => 12 | .fgw => 13
  | .cru => 14

/-- A boundary kind with its source (R37): the port group, the pipe or the job. -/
inductive Kind where
  | tempo | round
  | fieldCycle (g : Nat)
  | frame (p : Nat)
  | checkpoint (j : Nat)
  deriving DecidableEq, Repr

/-- The boundary kind code of MOVE_STATUS.KIND (R37). -/
def Kind.code : Kind → Nat
  | .tempo => 0 | .round => 1 | .fieldCycle _ => 2 | .frame _ => 3 | .checkpoint _ => 4

/-- MOVE_STATUS.STATE. -/
inductive MoveState where
  | idle | loading | ready
  deriving DecidableEq, Repr

def MoveState.code : MoveState → Nat
  | .idle => 0 | .loading => 1 | .ready => 2

/-- One block's settings and its moves. The settings are words by register offset. -/
structure MoveBlk where
  /-- Values in effect. -/
  eff : Tab Word
  /-- Open shadow. -/
  opn : Tab Word
  /-- Sealed stage. -/
  stage : Tab Word
  st : MoveState
  applied : Bool
  missed : Bool
  superseded : Bool
  refused : Bool
  discarded : Bool
  missedN : Nat
  /-- MOVE_AT (64 bits). -/
  moveAt : Nat
  /-- The target captured by the seal (R40). -/
  target : Nat
  /-- The group of the pending move, 0 for none (R46). -/
  group : Nat
  /-- MOVE_CTRL.GROUP as last written. -/
  groupField : Nat
  deriving DecidableEq, Repr

/-- A block after reset: the open shadow equals the values in effect, no move is pending. -/
def MoveBlk.init : MoveBlk :=
  { eff := [], opn := [], stage := [], st := .idle, applied := false, missed := false, superseded := false,
    refused := false, discarded := false, missedN := 0, moveAt := 0, target := 0, group := 0, groupField := 0 }

/-- A move is LOADING or READY. -/
def MoveBlk.pending (b : MoveBlk) : Bool := b.st != .idle

/-- The seal (R39, R40, R42): the open shadow and MOVE_AT are captured; a pending move is superseded. -/
def MoveBlk.seal (b : MoveBlk) (group : Nat) : MoveBlk :=
  { b with stage := b.opn, st := .loading, superseded := b.superseded || b.pending, target := b.moveAt,
           group := group, groupField := group }

/-- A seal refused at the seal itself (R46). -/
def MoveBlk.refuseSeal (b : MoveBlk) (group : Nat) : MoveBlk :=
  { b with refused := true, groupField := group }

/-- WITHDRAW (R44). -/
def MoveBlk.withdraw (b : MoveBlk) : MoveBlk := { b with st := .idle, group := 0 }

/-- REVERT (R44). -/
def MoveBlk.revert (b : MoveBlk) : MoveBlk := { b with opn := b.eff, st := .idle, group := 0 }

/-- The end of loading: READY, or refused by the block's validity check (R39). -/
def MoveBlk.loaded (b : MoveBlk) (valid : Bool) : MoveBlk :=
  if b.st = .loading then
    (if valid then { b with st := .ready } else { b with st := .idle, group := 0, refused := true })
  else b

/-- A discarded move (R45). -/
def MoveBlk.discard (b : MoveBlk) : MoveBlk :=
  if b.pending then { b with st := .idle, group := 0, discarded := true } else b

/-- A boundary is due for the move (R40). -/
def MoveBlk.due (b : MoveBlk) (tn : Nat) : Bool := b.target == 0 || decide (b.target ≤ tn)

/-- The move takes effect: the values in effect are replaced whole (R40). -/
def MoveBlk.apply (b : MoveBlk) : MoveBlk :=
  { b with eff := b.stage, st := .idle, group := 0, applied := true }

/-- The move misses the boundary numbered `n` (R41). -/
def MoveBlk.miss (b : MoveBlk) (n : Nat) : MoveBlk := { b with missed := true, missedN := n % 2 ^ 32 }

/-- MOVE_STATUS for a block of kind code `k`. -/
def MoveBlk.status (b : MoveBlk) (k : Nat) : Nat :=
  b.st.code + 4 * b2n b.applied + 8 * b2n b.missed + 16 * b2n b.superseded + 32 * b2n b.refused
    + 64 * b2n b.discarded + 256 * k

/-- A W1C write of MOVE_STATUS (R10, R11). -/
def MoveBlk.clear (b : MoveBlk) (v hw : Nat) : MoveBlk :=
  { b with applied := w1c b.applied v hw 2, missed := w1c b.missed v hw 3, superseded := w1c b.superseded v hw 4,
           refused := w1c b.refused v hw 5, discarded := w1c b.discarded v hw 6 }

end Sys2Proof.Machine
end

