-- ==== Sys2Proof/Machine/Security.lean ====
section
/-! DEFINITION. The root of trust (chapter 16) as data: OTP, key slots, sealed regions, the mailboxes and boot. -/

namespace Sys2Proof.Machine

/-- Lifecycle states (R435) with the codes of SEC.STATUS.LIFECYCLE. -/
inductive Lifecycle where
  | blank | provisioned | owned | fieldReturn | scrapped
  deriving DecidableEq, Repr

def Lifecycle.code : Lifecycle → Nat
  | .blank => 0 | .provisioned => 1 | .owned => 2 | .fieldReturn => 3 | .scrapped => 4

def Lifecycle.ofCode : Nat → Option Lifecycle
  | 0 => some .blank | 1 => some .provisioned | 2 => some .owned | 3 => some .fieldReturn | 4 => some .scrapped
  | _ => none

/-- The transitions of the lifecycle table (R435). -/
def Lifecycle.canGo : Lifecycle → Lifecycle → Bool
  | .provisioned, .owned => true
  | .owned, .fieldReturn => true
  | .scrapped, _ => false
  | _, .scrapped => true
  | _, _ => false

/-- Results of SEC commands. -/
def secDone : Nat := 0x00
def secNotAllowed : Nat := 0x01
def secMalformed : Nat := 0x02
def secSignature : Nat := 0x03
def secRollback : Nat := 0x04
def secDigest : Nat := 0x05
def secSlotInUse : Nat := 0x06
def secTooSmall : Nat := 0x07
def secAborted : Nat := 0x08
def secEntropy : Nat := 0x09
def secOtp : Nat := 0x0A

/-- What the environment shows of the signatures of a request: whether they verify, by which owner slot, and whether
the OTP write completes (R431, R433; log entry 51). -/
structure SigOutcome where
  good : Bool
  owner : Nat
  /-- Signed by Zilvo. -/
  zilvo : Bool
  otpOk : Bool
  deriving DecidableEq, Repr

/-- The phase of a sealed region (R441, R442). -/
inductive SealPhase where
  | none | moving | loading | readying | ready | closing | releasing
  deriving DecidableEq, Repr

/-! ### Keys (R432, R440) -/

/-- The bytes of a label. -/
def ascii (s : String) : List Byte := s.toList.map fun c => BitVec.ofNat 8 c.toNat

/-- A device key of R432: HKDF-SHA-384 of the device-unique key with the label as info. -/
def deviceKey (label : String) : List Byte := Config.hkdf Config.duk (ascii label) 48

/-- The private halves of the identity, transport and profile pairs (R432). -/
def identityKey : List Byte := deviceKey "ZV-ID"
def transportKey : List Byte := deviceKey "ZV-XPORT"
def profileKey : List Byte := deviceKey "ZV-PROF"

/-- The XTS key and the tag key of a region whose model key is `k` (R440). -/
def xtsKey (k : List Byte) : List Byte := Config.hkdf k (ascii "ZV-MXTS") 64
def tagKey (k : List Byte) : List Byte := Config.hkdf k (ascii "ZV-MTAG") 32

/-- The nonce of chunk n (R440). -/
def chunkNonce (n : Nat) : List Byte := zeros 4 ++ leBytes 8 n

/-- The tag of a pair of bursts: its package-local address and its 128 bytes of ciphertext under the tag key (R440; log
entry 159). -/
def pairTag (k : List Byte) (addr : Nat) (plain : List Byte) : List Byte :=
  (Config.aesCmac (tagKey k) (leBytes 8 addr ++ Config.aesXts (xtsKey k) addr plain)).take 4

/-- A sealed region: stack × 64 + checker. -/
structure SealRegion where
  phase : SealPhase
  slot : Nat
  size : Nat
  digest : List Byte
  /-- The model key, of which the keys of the slot are derived (R438, R440); empty once the slot is wiped. -/
  key : List Byte
  /-- Tag of the SEAL_LOAD or RELEASE that runs. -/
  tag : Nat
  /-- Its result when the region's last move applies. -/
  result : Nat
  deriving DecidableEq, Repr

def SealRegion.init : SealRegion := ⟨.none, 0, 0, [], [], 0, 0⟩
def sealDef : Nat → SealRegion := fun _ => SealRegion.init

/-- A mailbox of the SEC. `started`: codes written to SEC.CMD whose request has not been taken up (log entry 78). -/
structure SecBox where
  busy : Bool
  result : Nat
  tag : Nat
  started : List Nat
  deriving DecidableEq, Repr

def SecBox.init : SecBox := ⟨false, 0, 0, []⟩

/-- A model package header (chapter 16): `ecdh` is the ephemeral ECDH key, `mlkem` the ML-KEM ciphertext, `wrapped` and `wrapTag`
the encrypted model key and its tag. -/
structure Package where
  owner : Nat
  step : Nat
  size : Nat
  digest : List Byte
  ecdh : List Byte
  mlkem : List Byte
  wrapped : List Byte
  wrapTag : List Byte
  formOk : Bool
  deriving DecidableEq, Repr

/-- The KEK of a package (R440). -/
def Package.kek (p : Package) : List Byte :=
  Config.hkdf (Config.ecdhSecret transportKey p.ecdh ++ Config.mlkemSecret transportKey p.mlkem) (ascii "ZV-MKEK") 32

/-- The model key, unwrapped with a nonce of zero; none where its tag does not verify (R440). -/
def Package.modelKey (p : Package) : Option (List Byte) := Config.gcmOpen p.kek (zeros 12) [] p.wrapped p.wrapTag

/-- Decryption of chunks in order from number `n` on, each a ciphertext and its tag; every chunk but the last holds 1 MiB (R440,
R441). -/
def openChunks (key : List Byte) : Nat → List (List Byte × List Byte) → Option (List Byte)
  | _, [] => some []
  | n, c :: cs =>
    if c.1.length = 2 ^ 20 ∨ (cs.isEmpty = true ∧ c.1.length < 2 ^ 20) then
      match Config.gcmOpen key (chunkNonce n) [] c.1 c.2, openChunks key (n + 1) cs with
      | some a, some b => some (a ++ b)
      | _, _ => none
    else none

/-- The plaintext of a sealed load whose chunks and digest verify (R441). -/
def SealRegion.plain (r : SealRegion) (chunks : List (List Byte × List Byte)) : Option (List Byte) :=
  match openChunks r.key 0 chunks with
  | some p => if p.length = r.size ∧ Config.sha384 p = r.digest then some p else none
  | none => none

/-- The header that the first 8,192 bytes of a package spell. -/
def Package.ofBytes (b : List Byte) : Package :=
  { owner := field b 6 1, step := field b 8 2, size := field b 16 8, digest := (b.drop 24).take 48,
    ecdh := (b.drop 72).take 97, mlkem := (b.drop 169).take 1088, wrapped := (b.drop 1257).take 32, wrapTag := (b.drop 1289).take 16,
    formOk := field b 0 4 == 0x4C44_4D5A && field b 4 2 == 1 && field b 7 1 == 0 && field b 10 6 == 0
      && decide (field b 6 1 ≤ 3) && leNat ((b.drop 1305).take 7) == 0 && leNat ((b.drop 4717).take 3475) == 0 }

/-- A SEAL_LOAD request (R441): its mailbox, the region (stack × 64 + checker), the package header, and what the surroundings
show of its signature. -/
structure SealLoadReq where
  secure : Bool
  region : Fin 128
  package : Package
  sig : SigOutcome
  deriving DecidableEq, Repr

/-- The enclave. -/
structure Sec where
  lifecycle : Lifecycle
  /-- An accepted transition waits for the next power-on reset (R435). -/
  nextLifecycle : Option Lifecycle
  /-- Owner slots written and revoked, one bit each (R431). -/
  owners : Nat
  revoked : Nat
  /-- The hash of the key in each owner slot (R431). -/
  ownerHash : Tab (List Byte)
  /-- The first owner key of an accepted claim token (R435). -/
  claim : List Byte
  /-- Burned anti-rollback bits (R434). -/
  step : Nat
  /-- SEC.STATUS.BOOT. -/
  boot : Nat
  tampered : Bool
  tamperCount : Nat
  entropyErr : Bool
  entropyFails : Nat
  /-- Requests for random data stall (R437). -/
  entropyStalled : Bool
  /-- Memory key slots 0 to 15 that hold a key (R438). -/
  keys : List Nat
  regions : Tab SealRegion
  secure : SecBox
  nonSecure : SecBox
  nonce : List Byte
  report : List Byte
  /-- SHA-384 of the accepted SEC, FWC, SPC and APC images (R436). -/
  digests : List Byte
  profileDigest : List Byte
  /-- SEAL_LOADs that wait for the one that runs, or for their stack to be trained (R441, R467). -/
  waiting : List SealLoadReq
  /-- KEY_SLOTs that wait for random data (R437). -/
  stalledKeys : List Nat
  deriving DecidableEq, Repr

def Sec.init : Sec :=
  { lifecycle := .owned, nextLifecycle := none, owners := 1, revoked := 0,
    ownerHash := [(0, Config.firstOwner)], claim := [], step := 0, boot := 0, tampered := false,
    tamperCount := 0, entropyErr := false, entropyFails := 0, entropyStalled := false, keys := [0, 1], regions := [],
    secure := .init, nonSecure := .init, nonce := [], report := [], digests := zeros 192, profileDigest := zeros 48,
    waiting := [], stalledKeys := [] }

def Sec.region (s : Sec) (k : Nat) : SealRegion := tget sealDef s.regions k
def Sec.setRegion (s : Sec) (k : Nat) (r : SealRegion) : Sec := { s with regions := tput sealDef s.regions k r }

/-- SEC.STATUS of a mailbox. -/
def Sec.status (s : Sec) (secure : Bool) : Nat :=
  let x := if secure then s.secure else s.nonSecure
  s.boot + 256 * b2n (x.busy || !x.started.isEmpty) + 512 * b2n s.tampered + 1024 * b2n s.entropyErr
    + 2048 * s.lifecycle.code

/-- An owner slot is usable: written and not revoked; in Field-return the owner keys count as revoked (R433, R435). -/
def Sec.ownerOk (s : Sec) (n : Nat) : Bool :=
  decide (n < 4) && bitOf s.owners n && !bitOf s.revoked n && s.lifecycle == .owned

/-- An owner signature verifies (R433). -/
def Sec.signed (s : Sec) (g : SigOutcome) : Bool := g.good && !g.zilvo && s.ownerOk g.owner

/-- The first 384 bytes of an attestation report (R443). -/
def Sec.reportBody (s : Sec) (dt : Nat) (serial : Nat) (nonce : List Byte) (regionDigest : List Byte) : List Byte :=
  leBytes 4 0x5054_415A ++ leBytes 2 1 ++ leBytes 1 s.lifecycle.code ++ leBytes 1 (s.owners % 16 + 16 * (s.revoked % 16))
    ++ leBytes 8 serial ++ leBytes 2 s.step ++ zeros 6 ++ leBytes 8 dt ++ nonce.take 48 ++ s.digests ++ s.profileDigest
    ++ regionDigest ++ leBytes 4 s.tamperCount ++ zeros 12

/-- READY regions as (checker, digest) pairs, in checker order (R443). -/
def Sec.readyPairs (s : Sec) : List Byte :=
  (List.range 128).flatMap fun k => let r := s.region k; if r.phase = .ready then leBytes 1 k ++ r.digest else []

/-- A report with its signatures. -/
def Sec.makeReport (s : Sec) (dt serial : Nat) (nonce : List Byte) : List Byte :=
  let b := s.reportBody dt serial nonce (if s.readyPairs.isEmpty then zeros 48 else Config.sha384 s.readyPairs)
  b ++ (Config.sign identityKey b ++ zeros 3405).take 3405

/-- A command of the secure mailbox runs or waits: a sealed load, a RELEASE, or a KEY_SLOT without random data (log entry 79). -/
def Sec.runs (s : Sec) : Bool :=
  (s.regions.any fun p => p.2.phase != .none && p.2.phase != .ready) || !s.waiting.isEmpty || !s.stalledKeys.isEmpty

/-- The result of a command, with its tag, in its mailbox (chapter 16); BUSY stays while another command runs. -/
def Sec.post (s : Sec) (secure : Bool) (result tag : Nat) : Sec :=
  if secure then { s with secure := { s.secure with busy := s.runs, result := result, tag := tag } }
  else { s with nonSecure := { s.nonSecure with busy := false, result := result, tag := tag } }

/-- The value of an owner slot that holds no key. -/
def hashDef : Nat → List Byte := fun _ => zeros 48

/-- An owner slot is written with the hash of a key (R431, R433). -/
def Sec.setOwner (s : Sec) (n : Nat) (h : List Byte) : Sec :=
  { s with owners := Nat.lor s.owners (2 ^ n), ownerHash := tput hashDef s.ownerHash n h }

/-- The request of a command that SEC.CMD has started is taken up. -/
def Sec.takeUp (s : Sec) (secure : Bool) (code : Nat) : Sec :=
  if secure then { s with secure := { s.secure with started := s.secure.started.erase code } }
  else { s with nonSecure := { s.nonSecure with started := s.nonSecure.started.erase code } }

/-- The zeroising of keys that tamper and the ends of the lifecycle bring (R435, R445). -/
def Sec.zeroise (s : Sec) : Sec := { s with keys := [], regions := [] }

end Sys2Proof.Machine
end

