-- ==== Sys2Proof/Machine/Stack.lean ====
section
/-! DEFINITION. Error protection, repair and row sparing of the memories (chapter 06) as data, and the places of the
stacks and slabs in the address map. -/

namespace Sys2Proof.Machine

/-! ### Places (R20) -/

def stackSize : Nat := 0xC_0000_0000
def slabBase (die : Nat) : Nat := if die = 0 then 0xC0_0000_0000 else 0xC1_0000_0000
def opSlabBase (e : Nat) : Nat := 0xC8_0000_0000 + e * 0x40_0000
/-- The program store of a logical engine's vector unit, outside the package-local address space (R109). -/
def vuBase (j l : Nat) : Nat := 2 ^ 50 + (j * 32 + l) * 0x1_0000
def sramBase : Nat := 0xD0_0000_0000
def sramSize : Nat := 0x0080_0000

/-- What a package-local address names among the memories of R20. -/
inductive Place where
  | stack (h : Nat)
  | slab (die : Nat)
  | opSlab (e : Nat)
  | sram
  | fieldStore
  | pcie
  | rom
  | inst (i : Nat)
  | regs
  | outside
  deriving DecidableEq, Repr

/-- The window of an address (R20). -/
def placeOf (a : Nat) : Place :=
  if a < 0xC_0000_0000 then .stack 0
  else if a < 0x18_0000_0000 then .stack 1
  else if 0xC0_0000_0000 ≤ a ∧ a < 0xC0_0600_0000 then .slab 0
  else if 0xC1_0000_0000 ≤ a ∧ a < 0xC1_0600_0000 then .slab 1
  else if 0xC8_0000_0000 ≤ a ∧ a < 0xC8_0800_0000 then .opSlab ((a - 0xC8_0000_0000) / 0x40_0000)
  else if 0xD0_0000_0000 ≤ a ∧ a < 0xD0_0080_0000 then .sram
  else if 0xD0_1000_0000 ≤ a ∧ a < 0xD0_1140_0000 then .fieldStore
  else if 0xE0_0000_0000 ≤ a ∧ a < 0xF0_0000_0000 then .pcie
  else if 0xF0_0000_0000 ≤ a ∧ a < 0xF0_0F00_0000 then .regs
  else if 0xF1_0000_0000 ≤ a ∧ a < 0xF1_0200_0000 then .regs
  else if 0xF2_0000_0000 ≤ a ∧ a < 0xF2_0200_0000 then .regs
  else if 0xF3_0000_0000 ≤ a ∧ a < 0xF3_0200_0000 then .regs
  else if 0xF8_0000_0000 ≤ a ∧ a < 0xF8_0020_0000 then .inst ((a - 0xF8_0000_0000) / 0x1_0000)
  else if 0xFF_F000_0000 ≤ a ∧ a < 0xFF_F004_0000 then .rom
  else .outside

/-- Number of a compute die. -/
def computeDie (n : Nat) : Die := if n = 0 then .cd0 else .cd1

/-- The die that a package-local address leads to: a stack stands behind its compute die (R17), the register windows at their
own dies (R22). -/
def dieOf (a : Nat) : Die :=
  match placeOf a with
  | .stack h => computeDie h
  | .slab d => computeDie d
  | .opSlab e => computeDie (e / 16)
  | .regs => if a < 0xF1_0000_0000 then .hub else if a < 0xF2_0000_0000 then .cd0 else if a < 0xF3_0000_0000 then .cd1
      else computeDie ((a - 0xF3_0000_0000) / 0x0100_0000)
  | _ => .hub

/-- A checker set: stack 0, stack 1, shared slab 0, shared slab 1. -/
def checkerSet (p : Place) : Option Nat :=
  match p with
  | .stack h => some h
  | .slab d => some (2 + d)
  | _ => none

/-- Checkers of a set (chapter 06). -/
def checkerCount (set : Nat) : Nat := if set < 2 then 64 else 16
def granule (set : Nat) : Nat := if set < 2 then 0x20_0000 else 0x1_0000
def lastGranule (set : Nat) : Nat := if set < 2 then 24575 else 1535
def setBase (set : Nat) : Nat :=
  match set with
  | 0 => 0 | 1 => 0xC_0000_0000 | 2 => 0xC0_0000_0000 | _ => 0xC1_0000_0000

/-- What governs a granule: the settings of the lowest-numbered enabled checker, or the default of R184. -/
structure Gov where
  covered : Bool
  world : Bool
  rd : Nat
  wr : Nat
  enc : Bool
  sealed : Bool
  key : Nat
  deriving DecidableEq, Repr

/-- No enabled range: secure world only, neither encrypted nor sealed (R184). -/
def Gov.none : Gov := ⟨false, true, 0, 0, false, false, 0⟩

/-- A region checker's three settings. -/
structure Checker where
  base : Nat
  limit : Nat
  attr : Nat
  deriving DecidableEq, Repr

def Checker.enable (c : Checker) : Bool := bitOf c.attr 0

/-- What the checker gives its range. -/
def Checker.gov (c : Checker) : Gov :=
  ⟨true, bitOf c.attr 1, bits c.attr 7 2, bits c.attr 13 8, bitOf c.attr 14 || bitOf c.attr 15, bitOf c.attr 15,
   bits c.attr 19 16⟩

/-- What governs granule `n` under a list of checkers, lowest number first (R184). -/
def govern : List Checker → Nat → Gov
  | [], _ => Gov.none
  | c :: cs, n => if c.enable && decide (c.base ≤ n) && decide (n ≤ c.limit) then c.gov else govern cs n

/-- The validity rules of R184 on a list of checkers. -/
def checkersOk (set : Nat) (cs : List Checker) : Bool :=
  cs.all fun c => !c.enable || (decide (c.base ≤ c.limit) && decide (c.limit ≤ lastGranule set))

/-- Bounds between which a pair of checker lists governs uniformly. -/
def govBounds (set : Nat) (a b : List Checker) : List Nat :=
  (sortBy (fun a b => decide (a ≤ b)) ((0 :: (lastGranule set + 1) :: ((a ++ b).filter Checker.enable).flatMap fun c =>
    [c.base, c.limit + 1]).filter fun n => decide (n ≤ lastGranule set + 1))).dedup

/-- The ranges of granules [lo, hi) on which `p` holds of the old and the new settings. -/
def govDiff (set : Nat) (old new : List Checker) (p : Gov → Gov → Bool) : List (Nat × Nat) :=
  let bs := govBounds set old new
  (bs.zip bs.tail).filter fun r => p (govern old r.1) (govern new r.1)

/-! ### Undefined contents -/

/-- A range of memory whose stored bytes are undefined since some event (R120, R439, R491): a read gives the stored byte
exclusive-or a free byte of this seed. -/
structure Scramble where
  lo : Nat
  hi : Nat
  seed : Nat
  deriving DecidableEq, Repr

/-! ### Repair and sparing (R176 to R183) -/

/-- A row of a slab: of an operand slab, or of a shared-slab bank. -/
inductive RowId where
  | op (e row : Nat)
  | shared (die bank row : Nat)
  deriving DecidableEq, Repr

/-- The bank of a row as a key: operand banks below 512, shared banks from 1,024 on. -/
def RowId.bank : RowId → Nat
  | .op e row => e * 16 + row % 16
  | .shared die bank _ => 1024 + die * 256 + bank

/-- The die of a row. -/
def RowId.die : RowId → Nat
  | .op e _ => e / 16
  | .shared die _ _ => die

/-- Addresses of a row's bytes: one operand row of 512 bytes, or 32 words of 16 bytes of a shared bank (R155, R160). -/
def RowId.addrs : RowId → List Nat
  | .op e row => (List.range 512).map fun i => opSlabBase e + row * 512 + i
  | .shared die bank row => (List.range 32).flatMap fun l => (List.range 16).map fun i =>
      slabBase die + ((row * 32 + l) * 256 + bank) * 16 + i

/-- The row that holds a byte of a slab. -/
def rowOf (a : Nat) : Option RowId :=
  match placeOf a with
  | .opSlab e => some (.op e ((a - opSlabBase e) / 512))
  | .slab d => let w := (a - slabBase d) / 16; some (.shared d (w % 256) (w / 256 / 32))
  | _ => none

/-- A remap that the firmware has scheduled (R180 to R182). -/
structure Remap where
  row : RowId
  /-- The contents cannot be corrected: no copy (R182). -/
  bad : Bool
  /-- The copy into the spare row is complete (R181). -/
  copied : Bool
  /-- TN of the round boundaries it has missed. -/
  missed : List Nat
  deriving DecidableEq, Repr

/-- A soft repair in progress or kept for the next power-on reset (R179). -/
structure Repair where
  stack : Nat
  row : Nat
  deriving DecidableEq, Repr

/-- The pseudo-channel of a local offset of a stack (R171). -/
def pseudoChannel (o : Nat) : Nat := Nat.xor (Nat.xor (bits o 13 8) (bits o 19 14)) (bits o 25 20)

/-- The row of a stack that holds a local offset: its pseudo-channel and its row there (R171; log entry 56). -/
def stackRowOf (h o : Nat) : Nat := pseudoChannel o + 64 * Config.stackRow h (o / 256)

/-- The local offsets at which the 256-byte blocks of a stack row begin. -/
def stackRowBlocks (h row : Nat) : List Nat :=
  ((List.range (stackSize / 256)).map fun b => b * 256).filter fun o => stackRowOf h o == row

/-- The 4 KiB pages, counted from the stack's start, that a stack row touches (R179). -/
def stackRowPages (h row : Nat) : List Nat :=
  (List.range (stackSize / 4096)).filter fun p => (List.range 16).any fun k => stackRowOf h (p * 4096 + k * 256) == row

structure Stk where
  /-- The next burst of the patrol scrub of each stack and the TN of the last reads (R178). -/
  scrubPos0 : Nat
  scrubPos1 : Nat
  scrubTn0 : Nat
  scrubTn1 : Nat
  passes : Nat
  slabCorr : Nat
  slabUncorr : Nat
  corr0 : Nat
  corr1 : Nat
  uncorr0 : Nat
  uncorr1 : Nat
  sealedFail : Nat
  /-- An uncorrectable error has occurred since the last reset (R393). -/
  anyUncorr : Bool
  /-- Corrected errors of a slab row within the round (R180). -/
  rowErrs : List (RowId × Nat)
  remaps : List Remap
  /-- Rows that have been remapped. -/
  remapped : List RowId
  /-- Spare rows in use by bank (R180, R183). -/
  spares : Tab Nat
  /-- Scrub passes that found a correctable error in a stack row (R179). -/
  rowPasses : Tab Nat
  repairs : List Repair
  hardRepairs : List Repair
  /-- Retired 4 KiB stack pages, and retired 128 KiB ranges of the shared slabs. -/
  retiredPages : List Nat
  retiredRanges : List (Nat × Nat)
  deriving DecidableEq, Repr

def Stk.init : Stk :=
  { scrubPos0 := 0, scrubPos1 := 0, scrubTn0 := 0, scrubTn1 := 0, passes := 0, slabCorr := 0, slabUncorr := 0, corr0 := 0,
    corr1 := 0, uncorr0 := 0, uncorr1 := 0, sealedFail := 0, anyUncorr := false, rowErrs := [], remaps := [],
    remapped := [], spares := [], rowPasses := [], repairs := [], hardRepairs := [], retiredPages := [],
    retiredRanges := [] }

def zeroDef : Nat → Nat := fun _ => 0

/-- Bursts of a stack (R178). -/
def burstCount : Nat := 805306368

/-- An address of a retired page or range. -/
def Stk.retired (s : Stk) (a : Nat) : Bool :=
  match placeOf a with
  | .stack _ => s.retiredPages.contains (a / 4096)
  | .slab d => s.retiredRanges.contains (d, (a - slabBase d) / 0x2_0000)
  | _ => false

end Sys2Proof.Machine
end

