-- ==== Sys2Proof/Machine/Events.lean ====
section
/-! DEFINITION. What comes with a command from outside the block: requests of masters, and outcomes that the
specification leaves to the surroundings of the device (sensors, signatures, errors of memories; log entry 3). -/

namespace Sys2Proof.Machine

/-- RD_REQ at its destination: the message, and what the error correction of the memory it reads finds (R176, R177, R264). -/
structure RemoteRead where
  msg : FMsg
  ecc : EccOutcome
  deriving DecidableEq, Repr

/-- What a DMI access meets: its reads come after the time of R471, and the copies of a pair end up different (R471, R476). -/
structure DmiOutcome where
  late : Bool
  differ : Bool
  deriving DecidableEq, Repr

/-- A register access (R7 to R12): the master, its world, the hart behind an APC port, the instance it is bound to
(0 for the host), and bits that the hardware sets in the same cycle as a clearing access (R10). -/
structure RegReq where
  master : Port
  hart : Nat
  secure : Bool
  inst : Nat
  addr : Nat
  /-- A 64-bit access; else 32 bits. -/
  wide : Bool
  value : Nat
  hwSet : Nat
  deriving DecidableEq, Repr

/-- The strap pins at the three instants of R484: PROFILE_SEL in bits [1:0], FABRIC_ID in bits [6:2]. -/
structure StrapSamples where
  first : Nat
  second : Nat
  third : Nat
  deriving DecidableEq, Repr

/-- Each bit takes the value that at least two samples show (R484). -/
def StrapSamples.vote (s : StrapSamples) : Nat :=
  Nat.lor (Nat.lor (Nat.land s.first s.second) (Nat.land s.first s.third)) (Nat.land s.second s.third) % 2 ^ 7

/-- What a power-on reset found lost: nothing of the keep-alive domain, VDD_ARB, or VDD_ARB and VBAT_RTC with it (R495). -/
inductive SupplyLoss where
  | none | arb | battery
  deriving DecidableEq, Repr

/-- What the check of one tempo meets in the field store and in the second copy. -/
structure MceEnv where
  /-- The record of the second copy differed (R312). -/
  mismatch : Bool
  /-- Lookups that met an uncorrectable error: candidate, or 64 + segment; sample; sphere (R291). -/
  bad : List (Nat × Nat × Nat)
  /-- Words that a read found with a single-bit error (R291). -/
  corr : Nat
  /-- Columns in which a read of a running wavefront search met an uncorrectable error, and its corrected words (R291, R308). -/
  waveBad : List (Int × Int)
  waveCorr : Nat
  deriving DecidableEq, Repr

/-- What the surroundings show at a tempo boundary. -/
structure TempoEnv where
  /-- Package power of the tempo, in mW (R456). -/
  powerMw : Nat
  /-- What the check of the MCE meets, unless a round boundary at the same instant comes before it. -/
  mce : MceEnv
  /-- Arbiter cycles since the last boundary. -/
  arbCycles : Nat
  /-- Engines whose load of saved rows meets an uncorrectable error, each with the address that it was read from (R211). -/
  loadBad : List (Nat × Nat)
  /-- Addresses of the correctable errors that reads with no command of their own have met in the tempo: those of engines, of the
  saves and loads of slab rows and of the hub's units (R176, R177). -/
  corrected : List Nat
  deriving DecidableEq, Repr

/-- What the surroundings show at a round boundary. -/
structure RoundEnv where
  /-- Mean package power of the round, in mW (R456, R457). -/
  roundMw : Nat
  /-- Temperatures of the 48 sensors, in 0.1 °C (R458). -/
  temps : List Int
  /-- Half round trips of the Toterlink ports, in ns (R272). -/
  delays : List Nat
  /-- What the check of the MCE meets in the tempo that begins at this boundary. -/
  mce : MceEnv
  deriving DecidableEq, Repr

/-- A fault of a command during execution that no earlier rule of the model raises: its engine and its place among the
engine's issued commands, its code, descriptor slot and address (R93, R124 to R126). `tag`: the uncorrectable error is a mismatch
of the tag of a sealed pair (R186). -/
structure CmdFault where
  engine : Fin 32
  place : Nat
  code : Nat
  slot : Nat
  addr : Nat
  tag : Bool
  deriving DecidableEq, Repr

/-- A write of a context record's address (R188). -/
structure JobReq where
  job : Fin 64
  addr : Nat
  secure : Bool
  deriving DecidableEq, Repr

/-- The partner's contribution to the hybrid handshake (R249). -/
structure HandshakeMsg where
  /-- Its ECDH share and its encapsulation. -/
  share : List Byte
  /-- Both its signatures over the transcript verify. -/
  signed : Bool
  /-- The nonce that this device's report is to hold. -/
  nonce : List Byte
  deriving DecidableEq, Repr

/-- A partner's attestation report (R250). -/
structure PartnerReport where
  /-- The signature chain verifies. -/
  signed : Bool
  /-- The nonce is the device's own. -/
  fresh : Bool
  lifecycle : Nat
  step : Nat
  /-- Its owner slot hashes are those of this device. -/
  ownersSame : Bool
  /-- Its four image digests. -/
  digests : List (List Byte)
  /-- The partner accepts this device's report. -/
  accepts : Bool
  deriving DecidableEq, Repr

/-- A castling request (R345). -/
structure CastleReq where
  unit : Nat
  world : Bool
  kind : Nat
  vmid : Nat
  inst : Nat
  ctx : Nat
  secure : Bool
  deriving DecidableEq, Repr

/-- A dictionary request of a firmware call (R390). -/
structure DictReq where
  write : Bool
  index : Nat
  sub : Nat
  data : List Byte
  deriving DecidableEq, Repr

/-- An Ethernet frame on a port of the switch (R359). -/
structure EtherFrame where
  port : Nat
  dst : Nat
  src : Nat
  vlan : Nat
  prio : Nat
  bytes : List Byte
  deriving DecidableEq, Repr

/-- Who sends on a command link of the Arbiter (R405, R413). -/
inductive ArbSender where
  | pair (p : Fin 4)
  | fwc
  | other
  deriving DecidableEq, Repr

/-- A command to the Arbiter (R413): its sender, its argument, and whether the sender runs the partition of the task
that it names (log entry 63). -/
structure ArbReq where
  sender : ArbSender
  arg : Nat
  runs : Bool
  deriving DecidableEq, Repr

/-- The end of an adjudication (R421). -/
inductive AdjOutcome where
  | replicaA | replicaB | transient | both
  deriving DecidableEq, Repr

/-- A checker of the latent-fault tests (R423). A test of a shared slab's decoder names the 128 KiB range that a failure
retires. -/
inductive CheckerId where
  | engine (e : Fin 32) | slab (die : Fin 2) (range : Fin 768) | stack (h : Fin 2) | mce | spc (p : Fin 4) | arbiter
  | display (p : Fin 2) | monitor (n : Fin 11)
  deriving DecidableEq, Repr

/-- The number of a checker in the log: its group and its place in it (log entry 45). -/
def CheckerId.source : CheckerId → Nat
  | .engine e => e.val
  | .slab die r => 0x1000 + die.val * 768 + r.val
  | .stack h => 0x2000 + h.val
  | .mce => 0x3000
  | .spc p => 0x4000 + p.val
  | .arbiter => 0x5000
  | .display p => 0x6000 + p.val
  | .monitor n => 0x7000 + n.val

/-- A SEC command (chapter 16): its mailbox, its argument as a number and as bytes, and what the surroundings show of its
signature and of the OTP write. The layout of the request buffer is not given (log entry 78). -/
structure SecReq where
  secure : Bool
  arg : Nat
  bytes : List Byte
  sig : SigOutcome
  deriving DecidableEq, Repr

/-- The end of a sealed load (R441): the region, and the chunks that the source has delivered, each a ciphertext and its tag. -/
structure SealDone where
  region : Fin 128
  chunks : List (List Byte × List Byte)
  deriving DecidableEq, Repr

/-- One copy of a boot image: its signature, step and SHA-384 digest (R436). -/
structure BootImage where
  sig : SigOutcome
  step : Nat
  digest : Vector Byte 48
  deriving DecidableEq, Repr

/-- The boot flash and the PUF at a boot: copies A and B of the SEC firmware, the FWC firmware, the SPC images and the APC
boot image (R432, R436). -/
structure BootOutcome where
  puf : Bool
  secFw : BootImage × BootImage
  fwc : BootImage × BootImage
  spc : BootImage × BootImage
  apc : BootImage × BootImage
  deriving DecidableEq, Repr

/-- The verification of an unlock response (R446): the level and the signature that the response carries, and whether it
names the challenge and the serial of this unit. -/
structure UnlockOutcome where
  level : Nat
  named : Bool
  sig : SigOutcome
  deriving DecidableEq, Repr

/-- What reaches the debug port by the ACK slot of a READ (R471): the latencies in nanoseconds of its requests that
complete by then, oldest first; whether data that needs no network is late; what the memory meets at the first word; and
what a host beyond the PCIe window answers. -/
structure DbgArrival where
  ns : List Nat
  late : Bool
  ecc : EccOutcome
  host : List Byte
  deriving DecidableEq, Repr

end Sys2Proof.Machine
end

