-- ==== Sys2Proof/Syntax.lean ====
section
/-! DEFINITION. The commands of the block: one constructor per row of the opcode table, in its order, with what the
command carries. A docstring names the row and the rule that gives its effect. -/

namespace Sys2Proof

open Sys2Proof.Machine

/-- The commands. -/
inductive Instr where
  /-- REGISTER_WRITE (R10). -/
  | registerWrite (r : RegReq)
  /-- RC_READ (R10). -/
  | rcRead (addr : Nat) (debug : Bool) (hwSet : Nat)
  /-- BUS_ACCESS (R20). -/
  | busAccess (r : BusReq)
  /-- WCB_DRAIN (R174). -/
  | wcbDrain (e : Fin 32)
  /-- TIME_START (R36). -/
  | timeStart (stamp : Option Nat)
  /-- TEMPO_BOUNDARY (R35). -/
  | tempoBoundary (env : TempoEnv)
  /-- ROUND_BOUNDARY (R35). -/
  | roundBoundary (env : RoundEnv)
  /-- SEAL (R39). -/
  | seal (b : BlockId) (group : Fin 32)
  /-- WITHDRAW (R44). -/
  | withdraw (b : BlockId)
  /-- REVERT (R44). -/
  | revert (b : BlockId)
  /-- MOVE_LOADED (R39). -/
  | moveLoaded (b : BlockId)
  /-- GPTP_MASTER_LOSS (R55). -/
  | gptpMasterLoss
  /-- CAL_SET (R58). -/
  | calSet
  /-- CALENDAR_TICK (R57). -/
  | calendarTick
  /-- CALENDAR_REWRITE (R59). -/
  | calendarRewrite
  /-- CAL_DATE_READ (R61). -/
  | calDateRead
  /-- FIELD_CYCLE_BOUNDARY (R361). -/
  | fieldCycleBoundary (g : Fin 16)
  /-- FRAME_BOUNDARY (R328). -/
  | frameBoundary (p : Fin 2)
  /-- CHECKPOINT_BOUNDARY (R202). -/
  | checkpointBoundary (j : Fin 64)
  /-- COMMAND_START (R95). -/
  | commandStart (e : Fin 32)
  /-- COMMAND_COMMIT (R119). -/
  | commandCommit (e : Fin 32)
  /-- COMMAND_FAULT (R93). -/
  | commandFault (fault : CmdFault) (also : List CmdFault)
  /-- ATOMIC_OVERRUN (R123). -/
  | atomicOverrun (e : Fin 32)
  /-- WAIT_TIMEOUT (R113). -/
  | waitTimeout (e : Fin 32)
  /-- MMA (R103). -/
  | mma (e : Fin 32)
  /-- ATTN (R108). -/
  | attn (e : Fin 32)
  /-- SPMM (R106). -/
  | spmm (e : Fin 32)
  /-- VPROG (R109). -/
  | vprog (e : Fin 32)
  /-- CVT (R112). -/
  | cvt (e : Fin 32)
  /-- COPY (R112). -/
  | copy (e : Fin 32)
  /-- WAIT (R113). -/
  | wait (e : Fin 32)
  /-- SIGNAL (R114). -/
  | signal (e : Fin 32)
  /-- PUBLISH (R115). -/
  | publish (e : Fin 32)
  /-- FENCE (R116). -/
  | fence (e : Fin 32)
  /-- CHECKPOINT (R117). -/
  | checkpoint (e : Fin 32)
  /-- REMOTE (R118). -/
  | remote (e : Fin 32)
  /-- NOP (R118). -/
  | nop (e : Fin 32)
  /-- GATHER (R135). -/
  | gather (e : Fin 32)
  /-- SCATTER (R137). -/
  | scatter (e : Fin 32)
  /-- SEGRED (R139). -/
  | segred (e : Fin 32)
  /-- SORT (R142). -/
  | sort (e : Fin 32)
  /-- MERGE (R143). -/
  | merge (e : Fin 32)
  /-- TOPK (R144). -/
  | topk (e : Fin 32)
  /-- SETOP (R145). -/
  | setop (e : Fin 32)
  /-- HASHB (R149). -/
  | hashb (e : Fin 32)
  /-- HASHP (R151). -/
  | hashp (e : Fin 32)
  /-- ENGINE_RELEASED (R196). -/
  | engineReleased (e : Fin 32) (saveBad : Option Nat)
  /-- IDLE_RELEASE (R206). -/
  | idleRelease (j : Fin 64)
  /-- CAMERA_FRAME_DONE (R208). -/
  | cameraFrameDone (rx : Fin 4) (vc : Fin 16)
  /-- TRIG_CLR (R210). -/
  | trigClr (j : Fin 64) (mask : Fin 16)
  /-- JOB_CREATE (R188). -/
  | jobCreate (r : JobReq)
  /-- JOB_SUSPEND (R189). -/
  | jobSuspend (j : Fin 64)
  /-- JOB_RESUME (R189). -/
  | jobResume (j : Fin 64)
  /-- JOB_RESTART (R214). -/
  | jobRestart (j : Fin 64)
  /-- JOB_DELETE (R215). -/
  | jobDelete (j : Fin 64)
  /-- TEARDOWN_COMPLETE (R213). -/
  | teardownComplete (j : Fin 64)
  /-- HELD_REQUEST_ISSUE (R224). -/
  | heldRequestIssue (p : Port)
  /-- REQUEST_COMPLETE (R228). -/
  | requestComplete (p : Port) (id : Nat) (ns : Nat)
  /-- TAG_GRANT (R231). -/
  | tagGrant (die : Die)
  /-- LATE_REPLY (R232). -/
  | lateReply (die : Die) (tag : Nat) (ns : Nat)
  /-- LATCH (R236). -/
  | latch
  /-- COUNTER_LOW_READ (R237). -/
  | counterLowRead (addr : Nat)
  /-- COUNTER_LOW_WRITE (R239). -/
  | counterLowWrite (addr : Nat) (v : Word)
  /-- COUNTER_HIGH_WRITE (R239). -/
  | counterHighWrite (addr : Nat) (v : Word) (inc : Bool)
  /-- COUNTER_WRITE_64 (R239). -/
  | counterWrite64 (addr : Nat) (v : DWord) (inc : Bool)
  /-- ERR_LOG_CLEAR (R240). -/
  | errLogClear (die : Die)
  /-- DIE_LINK_REPLAY (R217). -/
  | dieLinkReplay (l : Fin 3) (ok : Bool)
  /-- DIE_LINK_DOWN (R219). -/
  | dieLinkDown (l : Fin 3)
  /-- RING_ADVANCE (R167). -/
  | ringAdvance (ring : Fin 512) (n : BitVec 24)
  /-- RING_PUBLISH (R168). -/
  | ringPublish (ring : Fin 512) (n : BitVec 24)
  /-- RING_RESET (R170). -/
  | ringReset (ring : Fin 512)
  /-- RING_SET (R170). -/
  | ringSet (ring : Fin 512)
  /-- RING_ENABLE (R496). -/
  | ringEnable (ring : Fin 512) (cfg : Word)
  /-- RING_DISABLE (R496). -/
  | ringDisable (ring : Fin 512) (cfg : Word)
  /-- SCRUB_READ (R178). -/
  | scrubRead (h : Fin 2) (outcome : EccOutcome)
  /-- SOFT_REPAIR (R179). -/
  | softRepair (h : Fin 2) (row : Nat) (correctable : Bool) (resource : Bool)
  /-- SPARE_ROW_COPY (R181). -/
  | spareRowCopy (row : RowId)
  /-- LINK_TRAINING (R242). -/
  | linkTraining (port : Fin 8) (outcome : TrainOutcome)
  /-- FLIT_RECEIVE (R244). -/
  | flitReceive (port : Fin 8) (flit : Flit)
  /-- RETRY_REQ (R245). -/
  | retryReq (port : Fin 8) (seq : Nat)
  /-- RETRY_REQ_RESEND (R244). -/
  | retryReqResend (port : Fin 8)
  /-- HELLO (R256). -/
  | hello (port : Fin 8) (h : Hello)
  /-- HANDSHAKE (R249). -/
  | handshake (port : Fin 8) (h : HandshakeMsg)
  /-- HANDSHAKE_TIMEOUT (R249). -/
  | handshakeTimeout (port : Fin 8)
  /-- ATTESTATION_CHECK (R250). -/
  | attestationCheck (port : Fin 8) (rep : PartnerReport)
  /-- REKEY (R251). -/
  | rekey (port : Fin 8)
  /-- ELECT (R257). -/
  | elect (port : Fin 8) (m : FMsg)
  /-- ELECTION_END (R257). -/
  | electionEnd
  /-- JOIN (R257). -/
  | join (port : Fin 8) (m : FMsg)
  /-- ID_ASSIGN (R258). -/
  | idAssign
  /-- CONFIG (R259). -/
  | config (c : FabConfig)
  /-- CONFIG_ACK (R259). -/
  | configAck (m : FMsg)
  /-- COMMIT (R259). -/
  | commit (m : FMsg)
  /-- LINK_STATE (R263). -/
  | linkState (port : Fin 8) (m : FMsg)
  /-- RD_REQ (R264). -/
  | rdReq (r : RemoteRead)
  /-- RD_DATA (R264). -/
  | rdData (m : FMsg)
  /-- RD_ERR (R264). -/
  | rdErr (m : FMsg)
  /-- REMOTE_READ_TIMEOUT (R264). -/
  | remoteReadTimeout (tag : Nat)
  /-- WR (R266). -/
  | wr (m : FMsg)
  /-- WR_NACK (R266). -/
  | wrNack (m : FMsg)
  /-- PUT_ACK (R266). -/
  | putAck (m : FMsg)
  /-- PUT_LOST (R266). -/
  | putLost (dev : Nat) (num : Nat)
  /-- TAIL_ADV (R271). -/
  | tailAdv (m : FMsg)
  /-- FABRIC_SIGNAL (R254). -/
  | fabricSignal (m : FMsg)
  /-- RING_QUERY (R270). -/
  | ringQuery (m : FMsg)
  /-- RING_STATE (R270). -/
  | ringState (m : FMsg)
  /-- HEAD_UPD (R270). -/
  | headUpd (m : FMsg)
  /-- MGMT (R392). -/
  | mgmt (m : FMsg)
  /-- TIME (R272). -/
  | time (port : Fin 8) (stamp : Nat)
  /-- HEARTBEAT (R275). -/
  | heartbeat (port : Fin 8)
  /-- LINK_DOWN (R275). -/
  | linkDown (port : Fin 8)
  /-- PART_DECISION (R276). -/
  | partDecision
  /-- RELEASE_ID (R258). -/
  | releaseId (id : Nat)
  /-- BRICK_FETCH (R286). -/
  | brickFetch
  /-- FIELD_RESET (R290). -/
  | fieldReset
  /-- BATCH_FETCH (R297). -/
  | batchFetch (err : Bool)
  /-- VERDICT_RECORD (R314). -/
  | verdictRecord (crcOk : Bool)
  /-- WAVEFRONT_START (R308). -/
  | wavefrontStart
  /-- WAVEFRONT_DONE (R308). -/
  | wavefrontDone
  /-- WAVE_ABORT (R308). -/
  | waveAbort
  /-- RAY_CYCLE (R310). -/
  | rayCycle
  /-- RTU_QUERY (R324). -/
  | rtuQuery (bytes : List Byte) (fromMce : Bool)
  /-- RTU_ANSWER (R325). -/
  | rtuAnswer (tag : Nat)
  /-- RENDER_PASS (R315). -/
  | renderPass (cuts : List Nat)
  /-- PASS_COMPLETE (R316). -/
  | passComplete
  /-- PIPE_ENABLE (R328). -/
  | pipeEnable (p : Fin 2)
  /-- UNDERFLOW (R331). -/
  | underflow (p : Fin 2) (plane : Fin 4) (line : Nat) (x : Nat)
  /-- REGION_CRC_REPORT (R332). -/
  | regionCrcReport (p : Fin 2) (k : Fin 16)
  /-- MWORLD_WRITE (R334). -/
  | mworldWrite (hart : Fin 16) (w : Bool)
  /-- CASTLE (R345). -/
  | castle (r : CastleReq)
  /-- QUIESCE_DONE (R346). -/
  | quiesceDone (unit : Nat)
  /-- INVAL (R341). -/
  | inval (w : DWord)
  /-- INVAL_DONE (R341). -/
  | invalDone
  /-- INSTANCE_CREATE (R348). -/
  | instanceCreate (i : Fin 32) (w : Word)
  /-- INSTANCE_DELETE (R348). -/
  | instanceDelete (i : Fin 32)
  /-- DOORBELL (R351). -/
  | doorbell (i : Fin 32) (ring : Nat) (count : Nat)
  /-- RING_VIEW_ADVANCE (R351). -/
  | ringViewAdvance (i : Fin 32) (ring : Nat) (count : Nat)
  /-- EMULATED_READ (R352). -/
  | emulatedRead (i : Fin 32) (off : Nat)
  /-- EMULATED_WRITE (R352). -/
  | emulatedWrite (i : Fin 32) (off : Nat) (v : Nat)
  /-- EMU_ANSWER (R352). -/
  | emuAnswer (i : Fin 32) (v : Nat)
  /-- EMU_TIMEOUT (R352). -/
  | emuTimeout (i : Fin 32) (write : Bool)
  /-- MAILBOX_READ (R353). -/
  | mailboxRead (i : Fin 32) (len : Nat)
  /-- MAILBOX_WRITE (R353). -/
  | mailboxWrite (i : Fin 32) (len : Nat)
  /-- MAILBOX_RESPONSE (R353). -/
  | mailboxResponse (i : Fin 32)
  /-- FIRMWARE_CALL (R390). -/
  | firmwareCall (hart : Fin 16) (r : DictReq)
  /-- INSTANCE_RESET (R355). -/
  | instanceReset (i : Fin 32)
  /-- TAG_FORCE_RETIRE (R356). -/
  | tagForceRetire (i : Fin 32)
  /-- FUNCTION_LEVEL_RESET (R349). -/
  | functionLevelReset (fn : Nat)
  /-- DLOG_OVF_CLEAR (R358). -/
  | dlogOvfClear (i : Fin 32)
  /-- JOIN_REQ (R365). -/
  | joinReq (f : CFrame)
  /-- NODE_HEARTBEAT (R374). -/
  | nodeHeartbeat (f : CFrame)
  /-- NODE_LOST (R374). -/
  | nodeLost (n : Nat)
  /-- EMCY (R375). -/
  | emcy (f : CFrame)
  /-- SAFETY (R377). -/
  | safety (f : CFrame)
  /-- RXMAP (R373). -/
  | rxmap (f : CFrame)
  /-- GATED_EXPIRE (R380). -/
  | gatedExpire (port : Nat) (map : Nat)
  /-- MAP_TIMEOUT (R373). -/
  | mapTimeout (map : Nat)
  /-- XFER_READ (R368). -/
  | xferRead (f : CFrame)
  /-- XFER_WRITE (R368). -/
  | xferWrite (f : CFrame)
  /-- XFER_WRITE_INIT (R369). -/
  | xferWriteInit (f : CFrame)
  /-- XFER_SEGMENT (R369). -/
  | xferSegment (f : CFrame)
  /-- XFER_READ_NEXT (R369). -/
  | xferReadNext (f : CFrame)
  /-- XFER_ABORT (R370). -/
  | xferAbort (f : CFrame)
  /-- XFER_RSP (R368). -/
  | xferRsp (f : CFrame)
  /-- XFER_TIMEOUT (R369). -/
  | xferTimeout (seg : Nat) (client : Nat) (server : Bool)
  /-- BUS_ALONE (R381). -/
  | busAlone (port : Nat)
  /-- PROBE (R381). -/
  | probe (port : Nat) (acked : Bool)
  /-- T1S_ALONE (R382). -/
  | t1sAlone (port : Nat)
  /-- PLCA_FALLBACK (R382). -/
  | plcaFallback (port : Nat)
  /-- ETHERNET_FRAME (R359). -/
  | ethernetFrame (f : EtherFrame)
  /-- RULE_CREATE (R378). -/
  | ruleCreate (bytes : List Byte)
  /-- RULE_DELETE (R378). -/
  | ruleDelete (h : Nat)
  /-- NODE_REMOVE (R367). -/
  | nodeRemove
  /-- PROFILE_SWITCH (R400). -/
  | profileSwitch (slot : Nat)
  /-- PROFILE_VERIFIED (R400). -/
  | profileVerified
  /-- PROFILE_SAVE (R398). -/
  | profileSave (slot : Nat)
  /-- PROFILE_IMPORT (R398). -/
  | profileImport (img : List Byte)
  /-- PROFILE_ERASE (R398). -/
  | profileErase (slot : Nat)
  /-- PROFILE_STORE_DONE (R398). -/
  | profileStoreDone
  /-- PROFILE_LOAD (R399). -/
  | profileLoad
  /-- ESTOP (R407). -/
  | estop
  /-- TEMPO_LOSS (R408). -/
  | tempoLoss
  /-- ARBITER_MISMATCH (R409). -/
  | arbiterMismatch
  /-- OSCILLATOR_FAULT (R452). -/
  | oscillatorFault
  /-- SUPPLY_FAULT (R449). -/
  | supplyFault (n : Fin 11) (overMax : Bool)
  /-- TJ_REPORT (R458). -/
  | tjReport (sensor : Fin 48)
  /-- THERMAL_TRIP (R428). -/
  | thermalTrip (sensor : Fin 48)
  /-- ARM (R410). -/
  | arm (r : ArbReq)
  /-- RELEASE (R412). -/
  | release (r : ArbReq)
  /-- DONE (R415). -/
  | done (r : ArbReq)
  /-- ACK (R413). -/
  | ack (r : ArbReq)
  /-- LOG_ACKNOWLEDGE (R430). -/
  | logAcknowledge (e : Nat)
  /-- XCHECK (R426). -/
  | xcheck (r : ArbReq)
  /-- CROSS_CHECK_DONE (R426). -/
  | crossCheckDone (bad : Bool)
  /-- FLAG_FALL (R416). -/
  | flagFall (t : Fin 128)
  /-- TASK_CLOCK_EXHAUSTED (R418). -/
  | taskClockExhausted (t : Fin 128)
  /-- PAIR_MISMATCH (R421). -/
  | pairMismatch (p : Fin 5)
  /-- ADJUDICATION_DONE (R421). -/
  | adjudicationDone (p : Fin 5) (outcome : AdjOutcome)
  /-- DEGRADED_EXPIRY (R421). -/
  | degradedExpiry (p : Fin 5)
  /-- LATENT_FAULT_TEST (R423). -/
  | latentFaultTest (c : CheckerId) (ok : Bool)
  /-- LF_INTERVAL_EXCEEDED (R425). -/
  | lfIntervalExceeded
  /-- ENGINE_SELF_TEST (R419). -/
  | engineSelfTest (e : Fin 32) (ok : Bool)
  /-- UART_LOG_DUMP (R430). -/
  | uartLogDump
  /-- UART_STATUS (R430). -/
  | uartStatus
  /-- SEAL_LOAD (R441). -/
  | sealLoad (r : SealLoadReq)
  /-- SEAL_LOAD_DONE (R441). -/
  | sealLoadDone (r : SealDone)
  /-- REGION_RELEASE (R442). -/
  | regionRelease (r : SecReq)
  /-- ATTEST (R443). -/
  | attest (r : SecReq)
  /-- ATTEST_NONCE (R443). -/
  | attestNonce (nonce : List Byte)
  /-- OWNER_ADD (R433). -/
  | ownerAdd (r : SecReq)
  /-- OWNER_REVOKE (R433). -/
  | ownerRevoke (r : SecReq)
  /-- ROLLBACK_ADVANCE (R434). -/
  | rollbackAdvance (r : SecReq)
  /-- LIFECYCLE (R435). -/
  | lifecycle (r : SecReq)
  /-- KEY_SLOT (R438). -/
  | keySlot (r : SecReq)
  /-- ZEROING_DONE (R439). -/
  | zeroingDone (b : BlockId)
  /-- ENTROPY_HEALTH_FAIL (R437). -/
  | entropyHealthFail
  /-- TAMPER (R445). -/
  | tamper
  /-- SECURE_BOOT (R436). -/
  | secureBoot (r : BootOutcome)
  /-- CHALLENGE_READ (R446). -/
  | challengeRead
  /-- DEBUG_UNLOCK (R446). -/
  | debugUnlock (w : Word)
  /-- UNLOCK_VERIFIED (R446). -/
  | unlockVerified (r : UnlockOutcome)
  /-- DEBUG_CLOSE (R473). -/
  | debugClose
  /-- POWER_ON_RESET (R447). -/
  | powerOnReset (straps : StrapSamples) (lost : SupplyLoss)
  /-- ARBITER_VALID (R408). -/
  | arbiterValid
  /-- SYSTEM_RESET (R463). -/
  | systemReset (straps : StrapSamples)
  /-- SYSTEM_RESET_REQUEST (R463). -/
  | systemResetRequest (straps : StrapSamples)
  /-- WATCHDOG_EXPIRY (R463). -/
  | watchdogExpiry (straps : StrapSamples)
  /-- AVS_FAILURE (R451). -/
  | avsFailure (rail : Fin 3)
  /-- QUAD_POWER_ON (R455). -/
  | quadPowerOn (q : Fin 8)
  /-- STACK_THROTTLE (R459). -/
  | stackThrottle (h : Fin 2) (temp : Int)
  /-- CRYSTAL_STOP (R453). -/
  | crystalStop
  /-- KEEP_ALIVE_REQUEST (R464). -/
  | keepAliveRequest
  /-- WAKE (R465). -/
  | wake
  /-- STACK_TRAINED (R467). -/
  | stackTrained (h : Fin 2) (ok : Bool)
  /-- READY_FOR_JOBS (R466). -/
  | readyForJobs
  /-- DEBUG_READ (R469). -/
  | debugRead (w : BitVec 72) (r : DbgArrival)
  /-- DEBUG_WRITE (R469). -/
  | debugWrite (w : BitVec 72) (data : DbgData)
  /-- FRAMER_RESET (R468). -/
  | framerReset
  /-- DEBUG_ACCESS_TIMEOUT (R471). -/
  | debugAccessTimeout
  /-- DEBUG_WRITE_REFUSED (R471). -/
  | debugWriteRefused
  /-- DMI_ACCESS (R474). -/
  | dmiAccess (w : BitVec 72) (data : DbgData) (outcome : DmiOutcome)
  /-- BREAKPOINT_HIT (R477). -/
  | breakpointHit (e : Fin 32)
  /-- ENGINE_HALT (R477). -/
  | engineHalt (j : Fin 64)
  /-- ENGINE_RESUME (R477). -/
  | engineResume (j : Fin 64)
  /-- ENGINE_STEP (R477). -/
  | engineStep (j : Fin 64) (n : Nat)
  /-- BYPASS (R479). -/
  | bypass
  /-- IDCODE (R479). -/
  | idcode
  /-- SAMPLE_PRELOAD (R479). -/
  | samplePreload (v : Nat)
  /-- EXTEST (R479). -/
  | extest
  /-- EXTEST_PULSE (R479). -/
  | extestPulse
  /-- EXTEST_TRAIN (R479). -/
  | extestTrain
  /-- CLAMP (R479). -/
  | clamp
  /-- HIGHZ (R479). -/
  | highz
  /-- TAP_RESET (R479). -/
  | tapReset
  /-- COMMAND_ISSUE (R93). -/
  | commandIssue (e : Fin 32)
  /-- SAFE_ALIVE_TOGGLE (R406). -/
  | safeAliveToggle
  /-- ESTOP_RELEASE (R407). -/
  | estopRelease
  /-- SUPPLY_BACK_IN_WINDOW (R409). -/
  | supplyBackInWindow (n : Fin 11)
  /-- GPTP_SYNC (R55). -/
  | gptpSync
  /-- GATE_CYCLE_START (R360). -/
  | gateCycleStart (port : Nat) (now : Nat)
  /-- BEACON (R382). -/
  | beacon (port : Nat)
  /-- BUS_OFF (R381). -/
  | busOff (port : Nat)
  /-- BUS_OFF_RECOVERY (R381). -/
  | busOffRecovery (port : Nat)
  /-- PCIE_LINK_DOWN (R24). -/
  | pcieLinkDown
  /-- PCIE_LINK_UP (R24). -/
  | pcieLinkUp
  /-- ENTROPY_SOURCE_RESTARTED (R437). -/
  | entropySourceRestarted
  deriving DecidableEq, Repr

end Sys2Proof
end

