-- ==== Sys2Proof/Decode.lean ====
section
/-! DEFINITION. The commands that words of the opcode table spell: the table gives no row any bits, so no word spells a
command. -/

namespace Sys2Proof

/-- The command that `nbits` bits `w` spell: none, because no row of the table has bits. -/
def decodeTableWord (_nbits _w : Nat) : Option Instr := none

end Sys2Proof
end

