-- ==== Sys2Proof/Machine/Arbiter.lean ====
section
/-! DEFINITION. The Arbiter of chapter 15 as data: its pins, the safe state, the motion gate, the fault log, the
task supervision and the redundant pairs, with the operations that concern the Arbiter alone. -/

namespace Sys2Proof.Machine

/-- The state of a redundant pair (ARB.STATUS.SPC_PAIR, R421). -/
inductive PairState where
  | normal | adjudicating | degraded | removed
  deriving DecidableEq, Repr

def PairState.code : PairState → Nat
  | .normal => 0 | .adjudicating => 1 | .degraded => 2 | .removed => 3

/-- A redundant pair: SPC pair 0 to 3, or the MCE under key 4. -/
structure Pair where
  st : PairState
  /-- Minutes of degraded operation granted by 0x5020:01 (R421). -/
  degradedMin : Nat
  /-- TN at which degraded operation began (R421). -/
  degradedAt : Nat
  /-- TN of the transients since the pair was last removed or reset (R421). -/
  transients : List Nat
  deriving DecidableEq, Repr

def Pair.init : Pair := ⟨.normal, 0, 0, []⟩

/-- The key of the MCE pair. -/
def mcePairKey : Nat := 4

/-- A supervised task at run time (R415 to R418). -/
structure TaskRun where
  armed : Bool
  /-- Complete in the current period. -/
  done : Bool
  clockHold : Bool
  /-- Consecutive flag falls. -/
  falls : Nat
  /-- TN at which the current period started. -/
  start : Option Nat
  /-- The previous period ended incomplete at its deadline and no flag fall has been taken for it (R416). -/
  prevOpen : Bool
  /-- The deadline of the current period has been judged. -/
  judged : Bool
  /-- The latest judged period was complete in time. -/
  lastOk : Bool
  /-- JOB.ETIME when the period started (R418). -/
  etime0 : Nat
  deriving DecidableEq, Repr

def TaskRun.init : TaskRun := ⟨false, false, false, 0, none, false, false, true, 0⟩

/-- ARB.TASK[t]. -/
def TaskRun.word (t : TaskRun) : Nat := b2n t.armed + 2 * b2n t.done + 4 * b2n t.clockHold + 8 * (t.falls % 256)

/-- One entry of the fault log (R430). -/
structure LogEntry where
  dt : Nat
  cycles : Nat
  cause : Nat
  source : Nat
  reaction : Nat
  ack : Bool
  falls : Nat
  arg : Nat
  deriving DecidableEq, Repr

def LogEntry.blank : LogEntry := ⟨0, 0, 0, 0, 0, false, 0, 0⟩

/-- The 32 bytes of a log entry. -/
def LogEntry.bytes (e : LogEntry) : List Byte :=
  withCrc (leBytes 8 e.dt ++ leBytes 8 e.cycles ++ leBytes 2 e.cause ++ leBytes 2 e.source ++ leBytes 1 e.reaction
    ++ leBytes 1 (b2n e.ack) ++ leBytes 2 e.falls ++ leBytes 4 e.arg)

/-- Reactions of the log (R430). -/
def reactReport : Nat := 0
def reactRestart : Nat := 1
def reactGate : Nat := 2
def reactSafe : Nat := 3

/-- A task record of 0x5010 (R414). -/
structure TaskRec where
  kind : Nat
  id : Nat
  action : Nat
  gate : Bool
  limit : Nat
  period : Nat
  phase : Nat
  deadline : Nat
  budget : Nat
  deriving DecidableEq, Repr

/-- The task record that 24 bytes spell (R414). -/
def TaskRec.ofBytes (bs : List Byte) : TaskRec :=
  ⟨field bs 0 1, field bs 1 1, field bs 2 1 % 4, bitOf (field bs 2 1) 2, field bs 3 1, field bs 4 4, field bs 8 4,
   field bs 12 4, field bs 16 4⟩

/-- The rules of R414 on LIMIT and the times of a job or partition task. -/
def TaskRec.timesValid (r : TaskRec) : Bool :=
  r.action != 3 && decide (1 ≤ r.limit) && decide (1 ≤ r.period) && decide (r.period ≤ 1000000)
    && decide (r.phase < r.period) && decide (1 ≤ r.deadline) && decide (r.deadline ≤ r.period)

/-- The rules of R414; a record that breaks them makes the whole profile invalid. -/
def TaskRec.valid (r : TaskRec) : Bool :=
  match r.kind with
  | 0 => true
  | 1 => decide (r.id ≤ 63) && r.timesValid
  | 2 => decide (r.id ≤ 15) && r.timesValid
  | 3 => r.id == 0 && r.action != 1 && r.action != 3 && decide (1 ≤ r.limit) && r.period == 1 && r.phase == 0
      && r.deadline == 1
  | 4 => decide (r.id ≤ 1) && r.action != 1 && r.action != 3 && decide (1 ≤ r.limit)
  | _ => false

/-- A cause that was recorded since the last entry into the safe state, with its source (R412). -/
structure CauseRec where
  cause : Nat
  source : Nat
  deriving DecidableEq, Repr

/-- A verdict record as the Arbiter judges it: it arrived in time with a correct CRC, and its MODE (R410). -/
structure RecSeen where
  good : Bool
  mode : Nat
  deriving DecidableEq, Repr

/-- The Arbiter. -/
structure Arb where
  /-- The Arbiter is running (R408, R447). -/
  valid : Bool
  /-- SAFE_n as driven: true is high (R406). -/
  safeN : Bool
  safe : Bool
  gateOpen : Bool
  estop : Bool
  /-- Cause 0x03 or 0x05 latched: SAFE_ALIVE holds its level (R406). -/
  arbFault : Bool
  trip : Bool
  profileOk : Bool
  /-- Level of SAFE_ALIVE. -/
  alive : Bool
  pairs : Tab Pair
  /-- Tempos left of a running replica cross-check (R426). -/
  xcheck : Option Nat
  cmdRefused : Nat
  /-- First cause of the current safe state. -/
  cause : Nat
  /-- Causes recorded since the last entry into the safe state (R412). -/
  since : List CauseRec
  /-- Tempo loss, and good tempo pulses since (R408, R409). -/
  tempoLoss : Bool
  goodPulses : Nat
  /-- Supply monitors out of their window (R449). -/
  supplyOut : List Nat
  /-- Arbiter cycles since VDD_ARB came up. -/
  cycles : Nat
  /-- The last verdict records, newest first, at most 16 (R410). -/
  recs : List RecSeen
  /-- A record of the present tempo has arrived. -/
  recHere : Bool
  tasks : Tab TaskRun
  log : Tab LogEntry
  logNext : Nat
  logWrapped : Bool
  /-- Entries held by the ring, at most 64. -/
  logCount : Nat
  logLost : Nat
  deriving DecidableEq, Repr

/-- The Arbiter right after power good: safe state, gate closed (R408). -/
def Arb.init : Arb :=
  { valid := false, safeN := false, safe := true, gateOpen := false, estop := false, arbFault := false, trip := false,
    profileOk := false, alive := false, pairs := [], xcheck := none, cmdRefused := 0, cause := 0, since := [],
    tempoLoss := false, goodPulses := 0, supplyOut := [], cycles := 0, recs := [], recHere := false, tasks := [],
    log := [], logNext := 0, logWrapped := false, logCount := 0, logLost := 0 }

def pairDef : Nat → Pair := fun _ => Pair.init
def taskDef : Nat → TaskRun := fun _ => TaskRun.init
def logDef : Nat → LogEntry := fun _ => LogEntry.blank

def Arb.pair (a : Arb) (p : Nat) : Pair := tget pairDef a.pairs p
def Arb.setPair (a : Arb) (p : Nat) (v : Pair) : Arb := { a with pairs := tput pairDef a.pairs p v }
def Arb.task (a : Arb) (t : Nat) : TaskRun := tget taskDef a.tasks t
def Arb.setTask (a : Arb) (t : Nat) (v : TaskRun) : Arb := { a with tasks := tput taskDef a.tasks t v }
def Arb.entry (a : Arb) (e : Nat) : LogEntry := tget logDef a.log e

/-- Appends an entry; when the ring is full it overwrites the oldest and LOST increases (R430). -/
def Arb.append (a : Arb) (e : LogEntry) : Arb :=
  { a with log := tput logDef a.log a.logNext e, logNext := (a.logNext + 1) % 64,
           logWrapped := a.logWrapped || a.logCount + 1 == 64 || a.logCount == 64,
           logCount := min 64 (a.logCount + 1),
           logLost := if a.logCount = 64 then min 65535 (a.logLost + 1) else a.logLost }

/-- A log entry with the reaction taken; a cause is remembered for RELEASE (R409, R412). -/
def Arb.report (a : Arb) (dt cause source reaction falls arg : Nat) : Arb :=
  { (a.append ⟨dt, a.cycles, cause, source, reaction, false, falls, arg⟩) with
    since := ⟨cause, source⟩ :: a.since }

/-- The GATE reaction (R409). -/
def Arb.closeGate (a : Arb) : Arb := { a with gateOpen := false }

/-- The SAFE reaction: safe state, SAFE_n low, gate closed, log entry; CAUSE keeps the first cause of the entry
into the safe state (R409). -/
def Arb.enterSafe (a : Arb) (dt cause source falls arg : Nat) : Arb :=
  let a' := a.report dt cause source reactSafe falls arg
  { a' with safe := true, safeN := false, gateOpen := false, cause := if a.safe then a.cause else cause,
            since := if a.safe then a'.since else [⟨cause, source⟩] }

/-- Entry `e` of the ring counted from the oldest. -/
def Arb.oldest (a : Arb) (i : Nat) : LogEntry := a.entry ((a.logNext + 64 - a.logCount + i) % 64)

/-- Entry at read position p, 0 the newest (0x5100:03). -/
def Arb.newest (a : Arb) (p : Nat) : List Byte :=
  if p < a.logCount then (a.entry ((a.logNext + 63 - p) % 64)).bytes else zeros 32

/-- Whether slot `e` of the ring holds an entry. -/
def Arb.holds (a : Arb) (e : Nat) : Bool := a.logCount == 64 || decide ((a.logNext + 64 - 1 - e) % 64 < a.logCount)

/-- Unacknowledged entries. -/
def Arb.unacked (a : Arb) : Nat :=
  ((List.range 64).filter fun e => a.holds e && !(a.entry e).ack).length

/-- Acknowledges the entry in slot `e` (R413, R430). -/
def Arb.ack (a : Arb) (e : Nat) : Arb :=
  if a.holds e then { a with log := tput logDef a.log e { a.entry e with ack := true } } else a

/-- A command that breaks the rules of R413 is counted. -/
def Arb.refuse (a : Arb) : Arb := { a with cmdRefused := min 255 (a.cmdRefused + 1) }

/-- A verdict record is noted for R410. -/
def Arb.noteRec (a : Arb) (r : RecSeen) : Arb := { a with recs := (r :: a.recs).take 16, recHere := true }

/-- The condition on the last 16 verdict records (R410); MODE codes 1 FIELD, 2 RAY, 3 RAY_PENDING. -/
def Arb.recsAllow (a : Arb) : Bool :=
  a.recs.length == 16 && a.recs.all (fun r => r.good && (r.mode == 1 || r.mode == 2 || r.mode == 3))
    && a.recs.any (fun r => r.mode == 1 || r.mode == 2)

/-- A SAFE cause that is active at present (R412). -/
def Arb.safeActive (a : Arb) : Bool :=
  a.estop || a.tempoLoss || !a.supplyOut.isEmpty || a.arbFault || a.trip
    || (List.range 5).any fun p => (a.pair p).st == .removed

/-- The "Left by" condition of a recorded cause is met (R409, R412; log entries 44 and 45). -/
def Arb.leftBy (a : Arb) (c : CauseRec) : Bool :=
  match c.cause with
  | 0x01 => !a.estop
  | 0x02 => (a.task c.source).lastOk
  | 0x03 => false
  | 0x04 => !a.tempoLoss && decide (1000 ≤ a.goodPulses)
  | 0x05 => false
  | 0x06 => !a.supplyOut.contains c.source
  | 0x08 => false
  | 0x09 => false
  | 0x0D => false
  | 0x0E => decide (c.source < 0x3000)
  | 0x0F => a.profileOk
  | _ => true

/-- ARM opens the gate (R410); the sender's right is checked before. -/
def Arb.armAllowed (a : Arb) : Bool := !a.safe && a.profileOk && a.recsAllow

/-- RELEASE is allowed (R412). -/
def Arb.releaseAllowed (a : Arb) : Bool := a.safe && !a.safeActive && a.since.all a.leftBy

/-- Leaving the safe state raises SAFE_n and leaves the gate closed (R412). -/
def Arb.release (a : Arb) : Arb := { a with safe := false, safeN := true, gateOpen := false, cause := 0, since := [] }

/-- ARB.STATUS, with LF_MODE from 0x5000:01. -/
def Arb.status (a : Arb) (lfMode : Nat) : Nat :=
  b2n a.safe + 2 * b2n a.gateOpen + 4 * b2n a.estop + 8 * b2n a.arbFault + 16 * b2n a.trip + 32 * b2n a.profileOk
    + 2 ^ 6 * (a.pair 0).st.code + 2 ^ 8 * (a.pair 1).st.code + 2 ^ 10 * (a.pair 2).st.code
    + 2 ^ 12 * (a.pair 3).st.code + 2 ^ 14 * (a.pair mcePairKey).st.code + 2 ^ 16 * (lfMode % 2)
    + 2 ^ 17 * b2n a.xcheck.isSome + 2 ^ 18 * a.cmdRefused

/-- ARB.LOG_INFO. -/
def Arb.logInfo (a : Arb) : Nat := a.logNext + 64 * b2n a.logWrapped + 256 * a.unacked + 65536 * a.logLost

/-- A completion of task t (R415, R416). At a boundary instant it closes a period whose deadline is that instant;
otherwise it completes the current period while its deadline has not been judged (log entry 46). -/
def TaskRun.complete (t : TaskRun) (atBoundary : Bool) : TaskRun :=
  if atBoundary && t.prevOpen then { t with prevOpen := false, falls := 0, lastOk := true }
  else if t.judged || t.start.isNone then t
  else { t with done := true, falls := 0, lastOk := true }

/-- The start of a period of an armed task (R415): an incomplete previous period whose deadline is this boundary
stays open for its flag fall. -/
def TaskRun.begin (t : TaskRun) (tn etime : Nat) : TaskRun :=
  { t with prevOpen := t.armed && t.start.isSome && !t.done && !t.judged, armed := true, done := false,
           judged := false, start := some tn, etime0 := etime, clockHold := false }

end Sys2Proof.Machine
end

