-- ==== Sys2Proof/Machine/Dictionary.lean ====
section
/-! DEFINITION. The object dictionary (chapter 14) as data: the entry table with types, rights, defaults and flags, the
abort codes, staged writes, the profile store and the event log. -/

namespace Sys2Proof.Machine

/-! ### Types (R384) -/

/-- Entry types. -/
inductive DType where
  | bool | u8 | u16 | u32 | u64 | i8 | i16 | i32 | i64 | f32 | octets (max : Nat) | string (max : Nat) | time64
  | record (n : Nat)
  deriving DecidableEq, Repr

/-- The type code of R384. -/
def DType.code : DType → Nat
  | .bool => 1 | .u8 => 2 | .u16 => 3 | .u32 => 4 | .u64 => 5 | .i8 => 6 | .i16 => 7 | .i32 => 8 | .i64 => 9
  | .f32 => 10 | .octets _ => 11 | .string _ => 12 | .time64 => 13 | .record _ => 14

/-- The fixed length of a type, where it has one. -/
def DType.len : DType → Option Nat
  | .bool | .u8 | .i8 => some 1
  | .u16 | .i16 => some 2
  | .u32 | .i32 | .f32 => some 4
  | .u64 | .i64 | .time64 => some 8
  | .octets _ | .string _ => none
  | .record n => some n

/-- Well-formed UTF-8 (R384). -/
def utf8Ok : Nat → List Nat → Bool
  | 0, l => l.isEmpty
  | _, [] => true
  | f + 1, b :: l =>
    let cont (lo hi : Nat) (n : Nat) : Bool :=
      match l with
      | c :: r => decide (lo ≤ c) && decide (c ≤ hi) && decide (n ≤ r.length + 1)
          && ((r.take (n - 1)).all fun x => decide (0x80 ≤ x) && decide (x ≤ 0xBF)) && utf8Ok f (r.drop (n - 1))
      | [] => false
    if b < 0x80 then utf8Ok f l
    else if 0xC2 ≤ b ∧ b ≤ 0xDF then cont 0x80 0xBF 1
    else if b = 0xE0 then cont 0xA0 0xBF 2
    else if b = 0xED then cont 0x80 0x9F 2
    else if 0xE1 ≤ b ∧ b ≤ 0xEF then cont 0x80 0xBF 2
    else if b = 0xF0 then cont 0x90 0xBF 3
    else if 0xF1 ≤ b ∧ b ≤ 0xF3 then cont 0x80 0xBF 3
    else if b = 0xF4 then cont 0x80 0x8F 3
    else false

/-- The length of the data suits the type (check TYPE of R387). -/
def DType.lenOk (t : DType) (v : List Byte) : Bool :=
  match t with
  | .octets m | .string m => decide (v.length ≤ m)
  | t => t.len == some v.length

/-- The data is a legal value of the type (R384). -/
def DType.legal (t : DType) (v : List Byte) : Bool :=
  match t with
  | .bool => decide (leNat v ≤ 1)
  | .f32 => !(decide (0x7F800000 < leNat v % 2 ^ 31))
  | .string _ => utf8Ok (v.length + 1) (v.map BitVec.toNat)
  | _ => true

/-! ### Entries (R383) -/

/-- Access codes of R13; `none` gives no right at all. -/
inductive DAcc where
  | const | ro | rw | rwb | wo | noAccess
  deriving DecidableEq, Repr

def DAcc.reads : DAcc → Bool
  | .const | .ro | .rw | .rwb => true
  | _ => false

def DAcc.writes : DAcc → Bool
  | .rw | .rwb | .wo => true
  | _ => false

/-- Boundary kinds of entries (R37). -/
inductive BKind where
  | tempo | round | fieldCycle
  deriving DecidableEq, Repr

/-- A row of the entry tables. -/
structure DRow where
  ixLo : Nat
  ixHi : Nat
  subLo : Nat
  subHi : Nat
  type : DType
  sec : DAcc
  non : DAcc
  dflt : Nat
  p : Bool
  a : Bool
  s : Bool
  kind : Option BKind
  deriving DecidableEq, Repr

/-- Entries of the time tables. -/
def rowsTime : List DRow := [
  ⟨0x2020, 0x2020, 0x01, 0x01, .u64, .ro, .ro, 0, false, false, false, none⟩,
  ⟨0x2020, 0x2020, 0x02, 0x02, .u64, .ro, .ro, 0, false, false, false, none⟩,
  ⟨0x2020, 0x2020, 0x03, 0x03, .u8, .ro, .ro, 0, false, false, false, none⟩,
  ⟨0x2020, 0x2020, 0x04, 0x04, .i64, .ro, .ro, 0, false, false, false, none⟩,
  ⟨0x2020, 0x2020, 0x05, 0x05, .i64, .ro, .ro, 0, false, false, false, none⟩,
  ⟨0x2020, 0x2020, 0x06, 0x06, .u32, .ro, .ro, 0, false, false, false, none⟩,
  ⟨0x2020, 0x2020, 0x07, 0x07, .bool, .ro, .ro, 0, false, false, false, none⟩,
  ⟨0x2020, 0x2020, 0x08, 0x08, .u16, .rwb, .ro, 500, true, false, false, some .tempo⟩]

/-- Entries of the memory tables. -/
def rowsMemory1 : List DRow := [
  ⟨0x4000, 0x4000, 0x01, 0x01, .u32, .ro, .ro, 0, false, false, false, none⟩,
  ⟨0x4000, 0x4000, 0x02, 0x02, .u32, .ro, .ro, 0, false, false, false, none⟩,
  ⟨0x4000, 0x4000, 0x03, 0x03, .u32, .ro, .ro, 0, false, false, false, none⟩,
  ⟨0x4001, 0x4001, 0x01, 0x01, .u64, .ro, .ro, 0, false, false, false, none⟩,
  ⟨0x4001, 0x4001, 0x02, 0x02, .u64, .ro, .ro, 0, false, false, false, none⟩,
  ⟨0x4002, 0x4002, 0x01, 0x01, .u64, .ro, .ro, 0, false, false, false, none⟩,
  ⟨0x4002, 0x4002, 0x02, 0x02, .u64, .ro, .ro, 0, false, false, false, none⟩,
  ⟨0x4002, 0x4002, 0x03, 0x03, .u64, .ro, .ro, 0, false, false, false, none⟩,
  ⟨0x4002, 0x4002, 0x04, 0x04, .u64, .ro, .ro, 0, false, false, false, none⟩,
  ⟨0x4002, 0x4002, 0x05, 0x05, .u32, .ro, .ro, 0, false, false, false, none⟩,
  ⟨0x4003, 0x4003, 0x01, 0x01, .u16, .rwb, .ro, 107, true, false, false, some .round⟩,
  ⟨0x4003, 0x4003, 0x02, 0x02, .u32, .ro, .ro, 0, false, false, false, none⟩]

/-- Entries of the memory tables. -/
def rowsMemory2 : List DRow := [
  ⟨0x4004, 0x4004, 0x01, 0x01, .u32, .ro, .ro, 0, false, false, false, none⟩]

/-- Entries of the jobs tables. -/
def rowsJobs1 : List DRow := [
  ⟨0x3000, 0x3000, 0x01, 0x08, .u64, .rwb, .ro, 0, true, false, false, some .round⟩,
  ⟨0x3000, 0x3000, 0x09, 0x09, .u32, .ro, .ro, 0, false, false, false, none⟩,
  ⟨0x3100, 0x313F, 0x01, 0x01, .u64, .wo, .wo, 0, false, false, false, none⟩,
  ⟨0x3100, 0x313F, 0x02, 0x02, .u8, .wo, .wo, 0, false, false, false, none⟩,
  ⟨0x3100, 0x313F, 0x03, 0x03, .u8, .ro, .ro, 0, false, false, false, none⟩,
  ⟨0x3100, 0x313F, 0x04, 0x04, .u16, .rwb, .rwb, 0, false, false, false, some .tempo⟩,
  ⟨0x3100, 0x313F, 0x05, 0x05, .u8, .rwb, .rwb, 0, false, false, false, some .tempo⟩,
  ⟨0x3100, 0x313F, 0x06, 0x06, .u32, .ro, .ro, 0, false, false, false, none⟩,
  ⟨0x3100, 0x313F, 0x07, 0x07, .u8, .ro, .ro, 0, false, false, false, none⟩,
  ⟨0x3100, 0x313F, 0x08, 0x08, .u64, .ro, .ro, 0, false, false, false, none⟩,
  ⟨0x3100, 0x313F, 0x09, 0x09, .u32, .ro, .ro, 0, false, false, false, none⟩,
  ⟨0x3100, 0x313F, 0x0A, 0x0A, .u32, .ro, .ro, 0, false, false, false, none⟩]

/-- Entries of the jobs tables. -/
def rowsJobs2 : List DRow := [
  ⟨0x3100, 0x313F, 0x0B, 0x0B, .u32, .ro, .ro, 0, false, false, false, none⟩,
  ⟨0x3100, 0x313F, 0x0C, 0x0C, .u32, .ro, .ro, 0, false, false, false, none⟩,
  ⟨0x3100, 0x313F, 0x0D, 0x0D, .i64, .ro, .ro, 0, false, false, false, none⟩,
  ⟨0x3100, 0x313F, 0x0E, 0x0E, .bool, .rwb, .rwb, 0, false, false, false, some .tempo⟩,
  ⟨0x3100, 0x313F, 0x0F, 0x0F, .u8, .ro, .ro, 0, false, false, false, none⟩]

/-- Entries of the fabric tables. -/
def rowsFabric : List DRow := [
  ⟨0x2100, 0x2100, 0x01, 0x01, .u8, .rwb, .ro, 0xFF, true, false, false, some .round⟩,
  ⟨0x2100, 0x2100, 0x02, 0x02, .u64, .rwb, .ro, 0, true, false, false, some .round⟩,
  ⟨0x2100, 0x2100, 0x03, 0x03, .u32, .rwb, .ro, 0, true, false, false, some .round⟩,
  ⟨0x2100, 0x2100, 0x04, 0x04, .u8, .rwb, .ro, 2, true, false, false, some .round⟩,
  ⟨0x2100, 0x2100, 0x05, 0x05, .u8, .wo, .noAccess, 0, false, false, false, none⟩,
  ⟨0x2100, 0x2100, 0x06, 0x06, .u8, .ro, .ro, 0xFF, false, false, false, none⟩,
  ⟨0x2100, 0x2100, 0x07, 0x07, .u8, .ro, .ro, 0, false, false, false, none⟩,
  ⟨0x2100, 0x2100, 0x08, 0x08, .u32, .ro, .ro, 0, false, false, false, none⟩,
  ⟨0x2100, 0x2100, 0x09, 0x09, .u64, .ro, .ro, 0, false, false, false, none⟩]

/-- Entries of the motion tables. -/
def rowsMotion1 : List DRow := [
  ⟨0xA000, 0xA000, 0x01, 0x01, .u64, .rwb, .ro, 0, true, false, false, some .round⟩,
  ⟨0xA000, 0xA000, 0x02, 0x02, .u32, .rwb, .ro, 50000, true, false, false, some .round⟩,
  ⟨0xA000, 0xA000, 0x03, 0x03, .i16, .rwb, .ro, 0, true, false, false, some .tempo⟩,
  ⟨0xA000, 0xA000, 0x04, 0x04, .i16, .rwb, .ro, 0, true, false, false, some .tempo⟩,
  ⟨0xA000, 0xA000, 0x05, 0x05, .f32, .rwb, .ro, 0, true, false, false, some .tempo⟩,
  ⟨0xA000, 0xA000, 0x06, 0x06, .f32, .rwb, .ro, 0x7F800000, true, false, false, some .tempo⟩,
  ⟨0xA000, 0xA000, 0x07, 0x07, .u16, .rwb, .ro, 16, true, false, false, some .tempo⟩,
  ⟨0xA000, 0xA000, 0x08, 0x08, .u16, .rwb, .ro, 0x1F00, true, false, false, some .tempo⟩,
  ⟨0xA000, 0xA000, 0x09, 0x09, .i16, .rwb, .ro, 16, true, false, false, some .tempo⟩,
  ⟨0xA000, 0xA000, 0x0A, 0x0A, .i16, .rwb, .ro, 64, true, false, false, some .tempo⟩,
  ⟨0xA000, 0xA000, 0x0B, 0x0B, .u8, .rwb, .ro, 4, true, false, false, some .tempo⟩,
  ⟨0xA000, 0xA000, 0x0C, 0x0C, .bool, .rwb, .ro, 1, true, false, false, some .tempo⟩]

/-- Entries of the motion tables. -/
def rowsMotion2 : List DRow := [
  ⟨0xA000, 0xA000, 0x0D, 0x0D, .u8, .ro, .ro, 0, false, false, false, none⟩,
  ⟨0xA000, 0xA000, 0x0E, 0x0E, .u64, .ro, .ro, 0, false, false, false, none⟩,
  ⟨0xA000, 0xA000, 0x0F, 0x0F, .u64, .ro, .ro, 0, false, false, false, none⟩,
  ⟨0xA000, 0xA000, 0x10, 0x10, .u32, .ro, .ro, 0, false, false, false, none⟩,
  ⟨0xA000, 0xA000, 0x11, 0x11, .u32, .ro, .ro, 0, false, false, false, none⟩]

/-- Entries of the instances tables. -/
def rowsInstances : List DRow := [
  ⟨0x2201, 0x221F, 0x01, 0x01, .u32, .rw, .ro, 0, false, false, false, none⟩,
  ⟨0x2201, 0x221F, 0x02, 0x02, .u8, .ro, .ro, 0, false, false, false, none⟩,
  ⟨0x2201, 0x221F, 0x03, 0x03, .u16, .rw, .ro, 0, false, false, false, none⟩,
  ⟨0x2201, 0x221F, 0x04, 0x04, .u32, .ro, .ro, 0, false, false, false, none⟩,
  ⟨0x2200, 0x2200, 0x01, 0x01, .u32, .ro, .ro, 0, false, false, false, none⟩]

/-- Entries of the gateway tables. -/
def rowsGateway : List DRow := [
  ⟨0x7000, 0x7000, 0x01, 0x01, .u8, .rwb, .ro, 4, true, false, false, some .tempo⟩,
  ⟨0x7000, 0x7000, 0x02, 0x02, .bool, .rwb, .ro, 0, true, false, false, some .tempo⟩,
  ⟨0x7000, 0x7000, 0x03, 0x03, .bool, .rwb, .ro, 1, true, false, false, some .round⟩,
  ⟨0x7100, 0x7100, 0x01, 0x01, .u16, .ro, .ro, 0, false, false, false, none⟩,
  ⟨0x7100, 0x7100, 0x02, 0x02, .u16, .rw, .rw, 0, false, false, false, none⟩,
  ⟨0x7100, 0x7100, 0x03, 0x03, .record 32, .ro, .ro, 0, false, false, false, none⟩,
  ⟨0x7100, 0x7100, 0x04, 0x04, .bool, .wo, .noAccess, 0, false, false, false, none⟩,
  ⟨0x7200, 0x7200, 0x01, 0x01, .octets 16, .wo, .noAccess, 0, false, false, false, none⟩,
  ⟨0x7200, 0x7200, 0x02, 0x02, .u16, .wo, .noAccess, 0, false, false, false, none⟩,
  ⟨0x7200, 0x7200, 0x03, 0x03, .u16, .ro, .ro, 0, false, false, false, none⟩,
  ⟨0x7400, 0x7BFF, 0x01, 0x01, .record 24, .rwb, .ro, 0, true, false, false, some .fieldCycle⟩]

/-- Entries of the identity tables. -/
def rowsIdentity1 : List DRow := [
  ⟨0x1000, 0x1000, 0x00, 0x00, .u32, .const, .const, 0x00010096, false, false, false, none⟩,
  ⟨0x1001, 0x1001, 0x00, 0x00, .u8, .ro, .ro, 0, false, false, false, none⟩,
  ⟨0x1018, 0x1018, 0x01, 0x01, .u32, .const, .const, 0x5A56, false, false, false, none⟩,
  ⟨0x1018, 0x1018, 0x02, 0x02, .u32, .const, .const, 0x00000960, false, false, false, none⟩,
  ⟨0x1018, 0x1018, 0x03, 0x03, .u32, .const, .const, 0x4101, false, false, false, none⟩,
  ⟨0x1018, 0x1018, 0x04, 0x04, .u64, .const, .const, 0, false, false, false, none⟩,
  ⟨0x1018, 0x1018, 0x05, 0x05, .string 7, .const, .const, 0, false, false, false, none⟩,
  ⟨0x1018, 0x1018, 0x06, 0x06, .u8, .const, .const, 0, false, false, false, none⟩,
  ⟨0x1F00, 0x1F00, 0x01, 0x01, .u8, .const, .const, 0x10, false, false, false, none⟩,
  ⟨0x1F00, 0x1F00, 0x02, 0x02, .u8, .const, .const, 0x21, false, false, false, none⟩,
  ⟨0x1F00, 0x1F00, 0x03, 0x03, .u8, .const, .const, 1, false, false, false, none⟩,
  ⟨0x1F00, 0x1F00, 0x04, 0x04, .u8, .const, .const, 2, false, false, false, none⟩]

/-- Entries of the identity tables. -/
def rowsIdentity2 : List DRow := [
  ⟨0x1F00, 0x1F00, 0x05, 0x05, .u8, .const, .const, 1, false, false, false, none⟩]

/-- Entries of the profiles tables. -/
def rowsProfiles : List DRow := [
  ⟨0x2000, 0x2000, 0x01, 0x01, .u8, .ro, .ro, 0xFF, false, false, false, none⟩,
  ⟨0x2000, 0x2000, 0x02, 0x02, .u8, .wo, .noAccess, 0, false, true, false, none⟩,
  ⟨0x2000, 0x2000, 0x03, 0x03, .u8, .ro, .ro, 0, false, false, false, none⟩,
  ⟨0x2000, 0x2000, 0x04, 0x04, .u8, .ro, .ro, 0, false, false, false, none⟩,
  ⟨0x2000, 0x2000, 0x05, 0x05, .u8, .ro, .ro, 0, false, false, false, none⟩,
  ⟨0x2000, 0x2000, 0x06, 0x06, .u64, .ro, .ro, 0, false, false, false, none⟩,
  ⟨0x2000, 0x2000, 0x07, 0x07, .u8, .wo, .noAccess, 0, false, true, false, none⟩,
  ⟨0x2000, 0x2000, 0x08, 0x08, .octets (2 ^ 20), .wo, .noAccess, 0, false, true, false, none⟩,
  ⟨0x2000, 0x2000, 0x09, 0x09, .u8, .wo, .noAccess, 0, false, true, false, none⟩,
  ⟨0x2001, 0x2001, 0x01, 0x04, .u32, .ro, .ro, 0, false, false, false, none⟩]

/-- Entries of the telemetry tables. -/
def rowsTelemetry : List DRow := [
  ⟨0x9000, 0x9000, 0x01, 0x01, .u64, .ro, .ro, 0, false, false, false, none⟩,
  ⟨0x9000, 0x9000, 0x02, 0x02, .u32, .ro, .ro, 0, false, false, false, none⟩,
  ⟨0x9000, 0x9000, 0x03, 0x03, .u16, .rw, .rw, 0, false, false, false, none⟩,
  ⟨0x9000, 0x9000, 0x04, 0x04, .record 16, .ro, .ro, 0, false, false, false, none⟩]

/-- Entries of the display tables. -/
def rowsDisplay : List DRow := [
  ⟨0xB000, 0xB001, 0x01, 0x01, .u32, .rw, .ro, 16667, true, false, false, none⟩,
  ⟨0xB000, 0xB001, 0x02, 0x02, .u64, .rw, .ro, 0, false, false, false, none⟩,
  ⟨0xB000, 0xB001, 0x03, 0x03, .u64, .ro, .ro, 0, false, false, false, none⟩,
  ⟨0xB000, 0xB001, 0x04, 0x04, .u16, .ro, .ro, 0, false, false, false, none⟩]

/-- Entries of the power tables. -/
def rowsPower1 : List DRow := [
  ⟨0x8000, 0x8000, 0x01, 0x01, .u16, .rwb, .ro, 180, true, false, false, some .round⟩,
  ⟨0x8000, 0x8000, 0x02, 0x02, .u32, .ro, .ro, 0, false, false, false, none⟩,
  ⟨0x8000, 0x8000, 0x03, 0x03, .u8, .ro, .ro, 0, false, false, false, none⟩,
  ⟨0x8000, 0x8000, 0x04, 0x04, .record 20, .ro, .ro, 0, false, false, false, none⟩,
  ⟨0x8000, 0x8000, 0x05, 0x05, .u8, .ro, .ro, 0, false, false, false, none⟩,
  ⟨0x8000, 0x8000, 0x06, 0x06, .u8, .ro, .ro, 0, false, false, false, none⟩,
  ⟨0x8000, 0x8000, 0x07, 0x07, .u8, .ro, .ro, 0, false, false, false, none⟩,
  ⟨0x8000, 0x8000, 0x08, 0x08, .u8, .ro, .ro, 0, false, false, false, none⟩,
  ⟨0x8000, 0x8000, 0x09, 0x09, .i16, .ro, .ro, 0, false, false, false, none⟩,
  ⟨0x8000, 0x8000, 0x0A, 0x0A, .i16, .ro, .ro, 0, false, false, false, none⟩,
  ⟨0x8000, 0x8000, 0x0B, 0x0B, .bool, .ro, .ro, 0, false, false, false, none⟩,
  ⟨0x8000, 0x8000, 0x0C, 0x0C, .bool, .wo, .noAccess, 0, false, false, false, none⟩]

/-- Entries of the power tables. -/
def rowsPower2 : List DRow := [
  ⟨0x8000, 0x8000, 0x0D, 0x0D, .record 8, .rw, .ro, 0, false, false, false, none⟩,
  ⟨0x8000, 0x8000, 0x0E, 0x0E, .bool, .wo, .noAccess, 0, false, false, false, none⟩,
  ⟨0x8000, 0x8000, 0x0F, 0x0F, .u16, .rwb, .ro, 1500, true, false, false, some .tempo⟩]

/-- Entries of the safety tables. -/
def rowsSafety : List DRow := [
  ⟨0x5000, 0x5000, 0x01, 0x01, .u8, .rw, .ro, 0, true, false, true, none⟩,
  ⟨0x5000, 0x5000, 0x02, 0x02, .u8, .rw, .ro, 0x01, true, false, true, none⟩,
  ⟨0x5000, 0x5000, 0x03, 0x03, .u32, .ro, .ro, 0, false, false, false, none⟩,
  ⟨0x5010, 0x5010, 0x01, 0x80, .record 24, .rw, .ro, 0, true, false, true, none⟩,
  ⟨0x5020, 0x5020, 0x01, 0x01, .u8, .rw, .ro, 10, true, false, true, none⟩,
  ⟨0x5100, 0x5100, 0x01, 0x01, .u8, .ro, .ro, 0, false, false, false, none⟩,
  ⟨0x5100, 0x5100, 0x02, 0x02, .u16, .ro, .ro, 0, false, false, false, none⟩,
  ⟨0x5100, 0x5100, 0x03, 0x03, .u8, .rw, .ro, 0, false, false, false, none⟩,
  ⟨0x5100, 0x5100, 0x04, 0x04, .record 32, .ro, .ro, 0, false, false, false, none⟩,
  ⟨0x5101, 0x5101, 0x01, 0x01, .u8, .wo, .noAccess, 0, false, false, false, none⟩]

/-- Entries of the security tables. -/
def rowsSecurity : List DRow := [
  ⟨0x6000, 0x6000, 0x01, 0x01, .u8, .ro, .ro, 0, false, false, false, none⟩,
  ⟨0x6000, 0x6000, 0x02, 0x02, .u8, .ro, .ro, 0, false, false, false, none⟩,
  ⟨0x6000, 0x6000, 0x03, 0x03, .u32, .ro, .ro, 0, false, false, false, none⟩,
  ⟨0x6001, 0x6001, 0x01, 0x04, .u8, .ro, .ro, 0, false, false, false, none⟩,
  ⟨0x6010, 0x6010, 0x01, 0x3B, .bool, .rw, .ro, 0, true, false, true, none⟩,
  ⟨0x6020, 0x6020, 0x01, 0x40, .u8, .ro, .ro, 0, false, false, false, none⟩,
  ⟨0x6021, 0x6021, 0x01, 0x40, .u8, .ro, .ro, 0, false, false, false, none⟩,
  ⟨0x6030, 0x6030, 0x01, 0x08, .record 200, .rw, .ro, 0, true, false, false, none⟩]

/-- Entries of the attest tables. -/
def rowsAttest : List DRow := [
  ⟨0x2300, 0x2300, 0x01, 0x01, .octets 48, .wo, .wo, 0, false, false, false, none⟩,
  ⟨0x2300, 0x2300, 0x02, 0x02, .octets 3789, .ro, .ro, 0, false, false, false, none⟩]

/-- Every entry of the dictionary, subindexes 00 apart (R383; P flags are log entry 50). -/
def dictRows : List DRow :=
  rowsTime ++ rowsMemory1 ++ rowsMemory2 ++ rowsJobs1 ++ rowsJobs2 ++ rowsFabric ++ rowsMotion1 ++ rowsMotion2 ++ rowsInstances ++ rowsGateway ++ rowsIdentity1 ++ rowsIdentity2 ++ rowsProfiles ++ rowsTelemetry ++ rowsDisplay ++ rowsPower1 ++ rowsPower2 ++ rowsSafety ++ rowsSecurity ++ rowsAttest


/-- The row of an entry. -/
def dictRow (ix sub : Nat) : Option DRow :=
  dictRows.find? fun r => decide (r.ixLo ≤ ix) && decide (ix ≤ r.ixHi) && decide (r.subLo ≤ sub) && decide (sub ≤ r.subHi)

/-- An index exists. -/
def indexExists (ix : Nat) : Bool := dictRows.any fun r => decide (r.ixLo ≤ ix) && decide (ix ≤ r.ixHi)

/-- The highest subindex in use, which subindex 00 holds where an index has subindexes above 00 (R385). -/
def highestSub (ix : Nat) : Nat :=
  (dictRows.filter fun r => decide (r.ixLo ≤ ix) && decide (ix ≤ r.ixHi)).foldl (fun m r => max m r.subHi) 0

/-- The key of an entry in the stores of values. -/
def dictKey (ix sub : Nat) : Nat := ix * 256 + sub

/-- The default value of an entry (R383): fixed lengths little-endian, byte strings empty. -/
def DRow.default (r : DRow) : List Byte :=
  match r.type.len with
  | some n => leBytes n r.dflt
  | none => []

/-- The default value at a key. -/
def dictDefault (k : Nat) : List Byte := match dictRow (k / 256) (k % 256) with | some r => r.default | none => []

/-! ### Abort codes (R370, R387) -/

def abNoIndex : Nat := 0x0001_0000
def abNoSub : Nat := 0x0001_0001
def abAccess : Nat := 0x0001_0004
def abReadOnly : Nat := 0x0001_0002
def abSafety : Nat := 0x0001_0009
def abType : Nat := 0x0001_0005
def abRange : Nat := 0x0001_0006
def abState : Nat := 0x0001_0007
def abResource : Nat := 0x0001_0008
def abOffset : Nat := 0x0001_000B
def abInternal : Nat := 0x0001_000C
def abTimeout : Nat := 1
def abToggle : Nat := 2
def abUnknownCmd : Nat := 3
def abBusy : Nat := 4
def abSize : Nat := 5
def abAuth : Nat := 6

/-- The answer of a dictionary access: the value read (empty for a write), or an abort code. -/
abbrev DictRes := Except Nat (List Byte)

/-! ### Event log (R394) -/

/-- Event codes. -/
def evExhaustion : Nat := 1
def evTimeStep : Nat := 2
def evUtcOffset : Nat := 3
def evCalendarEnd : Nat := 4
def evPagesRetired : Nat := 5
def evEngineOut : Nat := 6
def evSlabRetired : Nat := 7
def evEmuTimeout : Nat := 8
def evResigned : Nat := 9
def evProfileApplied : Nat := 0xA
def evProfileRefused : Nat := 0xB
def evProfileNotLoaded : Nat := 0xC

/-- A record of the event log. -/
structure Event where
  dt : Nat
  code : Nat
  source : Nat
  arg : Nat
  deriving DecidableEq, Repr

def Event.bytes (e : Event) : List Byte := leBytes 8 e.dt ++ leBytes 2 e.code ++ leBytes 2 e.source ++ leBytes 4 e.arg

/-! ### Profiles (R395 to R402) -/

/-- 0x2000:03. -/
inductive SwitchState where
  | idle | verifying | ready | applied | refused | superseded
  deriving DecidableEq, Repr

def SwitchState.code : SwitchState → Nat
  | .idle => 0 | .verifying => 1 | .ready => 2 | .applied => 3 | .refused => 4 | .superseded => 5

/-- One body record of a profile image. -/
structure ProfRec where
  ix : Nat
  sub : Nat
  type : Nat
  value : List Byte
  deriving DecidableEq, Repr

/-- The records of an image body, `n` of them from `b`, and the bytes left; none when the body is short or a padding is not zeros. -/
def profRecords : Nat → List Byte → Option (List ProfRec × List Byte)
  | 0, b => some ([], b)
  | n + 1, b =>
    let len := field b 4 4
    let pad := (len + 3) / 4 * 4
    if b.length < 8 + pad ∨ ((b.drop (8 + len)).take (pad - len)).any (· != 0) = true then none
    else match profRecords n (b.drop (8 + pad)) with
      | none => none
      | some (rs, rest) => some (⟨field b 0 2, field b 2 1, field b 3 1, (b.drop 8).take len⟩ :: rs, rest)

/-- One body record as bytes (R395). -/
def ProfRec.bytes (r : ProfRec) : List Byte :=
  leBytes 2 r.ix ++ leBytes 1 r.sub ++ leBytes 1 r.type ++ leBytes 4 r.value.length ++ r.value
    ++ zeros ((4 - r.value.length % 4) % 4)

/-- The records of an image: at most 1 MiB, header of 64 bytes, trailer of 3,405 bytes (R395). -/
def imageRecords (img : List Byte) : Option (List ProfRec) :=
  if img.length < 64 + 3405 ∨ 2 ^ 20 < img.length ∨ field img 0 4 ≠ 0x4652_505A ∨ field img 4 2 ≠ 1 ∨ 3 < field img 6 1 then none
  else match profRecords (field img 8 4) ((img.drop 64).take (img.length - 64 - 3405)) with
    | some (rs, []) => some rs
    | _ => none

/-- The step of an image. -/
def imageStep (img : List Byte) : Nat := field img 12 2

/-- The safety partition of a list of records (R396). -/
def safetyPart (rs : List ProfRec) : List ProfRec :=
  rs.filter fun r => match dictRow r.ix r.sub with | some d => d.s | none => false

/-- The bytes a digest or a comparison covers. -/
def recBytes (rs : List ProfRec) : List Byte := rs.flatMap ProfRec.bytes

/-- A persistent entry of an image, with its default where the body omits it (R397). -/
def profileValue (rs : List ProfRec) (ix sub : Nat) : List Byte :=
  match rs.find? fun r => r.ix == ix && r.sub == sub with
  | some r => r.value
  | none => dictDefault (dictKey ix sub)

/-- The persistent entries, ascending (R383). -/
def persistent : List (Nat × Nat) :=
  sortBy (fun a b => decide (a.1 < b.1) || (a.1 == b.1 && decide (a.2 ≤ b.2))) ((dictRows.filter DRow.p).flatMap fun r =>
    (List.range (r.ixHi + 1 - r.ixLo)).flatMap fun i => (List.range (r.subHi + 1 - r.subLo)).map fun j => (r.ixLo + i, r.subLo + j))

/-- A store operation in progress (R398). -/
structure StoreOp where
  slot : Nat
  /-- The new content; empty for an erase. -/
  image : List Byte
  deriving DecidableEq, Repr

/-! ### The dictionary's state -/

/-- An accepted RWB write that waits for its boundary (R388, R389, R492). -/
structure Staged where
  key : Nat
  value : List Byte
  kind : BKind
  /-- The first TN at which it may take effect. -/
  due : Nat
  /-- Order of acceptance. -/
  seq : Nat
  /-- The key of the block that holds the setting, where one does. -/
  home : Option Nat
  /-- The value stands in the block's open shadow and has been sealed (R492). -/
  sealed : Bool
  deriving DecidableEq, Repr

/-- The dictionary. -/
structure Dict where
  /-- Values in effect of the entries that no other block holds. -/
  vals : Tab (List Byte)
  staged : List Staged
  seq : Nat
  /-- Order of acceptance of the latest write, by entry (R401). -/
  lastWrite : Tab Nat
  active : Option Nat
  switchTo : Option Nat
  switchSt : SwitchState
  switchReason : Nat
  switchTn : Nat
  switchSeq : Nat
  /-- TN at which the pending switch became READY. -/
  readyTn : Nat
  profileSel : Nat
  slots : Tab (List Byte)
  /-- Slots whose content has been verified or found signed by the device. -/
  verified : List Nat
  store : Option StoreOp
  /-- The event log, newest first, at most 1,024 records (R394). -/
  log : List Event
  logged : Nat
  overwritten : Nat
  errSample : Nat
  /-- Writes in parts on the management lane, by source device (R390). -/
  mgmtParts : Tab (Option StagedParts)
  deriving DecidableEq, Repr

def Dict.init : Dict :=
  { vals := [], staged := [], seq := 0, lastWrite := [], active := none, switchTo := none, switchSt := .idle,
    switchReason := 0, switchTn := 0, switchSeq := 0, readyTn := 0, profileSel := 0, slots := [], verified := [],
    store := none, log := [], logged := 0, overwritten := 0, errSample := 0, mgmtParts := [] }

def partsDef : Nat → Option StagedParts := fun _ => none
def slotImgDef : Nat → List Byte := fun _ => []
def Dict.slot (d : Dict) (n : Nat) : List Byte := tget slotImgDef d.slots n
/-- A value in effect that the dictionary itself holds. -/
def Dict.val (d : Dict) (ix sub : Nat) : List Byte := tget dictDefault d.vals (dictKey ix sub)
def Dict.num (d : Dict) (ix sub : Nat) : Nat := leNat (d.val ix sub)
def Dict.setVal (d : Dict) (ix sub : Nat) (v : List Byte) : Dict := { d with vals := tput dictDefault d.vals (dictKey ix sub) v }

/-- Logs an event; when the ring is full the oldest record is overwritten (R394). -/
def Dict.event (d : Dict) (e : Event) : Dict :=
  { d with log := (e :: d.log).take 1024, logged := (d.logged + 1) % 2 ^ 64,
           overwritten := if d.log.length = 1024 then (d.overwritten + 1) % 2 ^ 32 else d.overwritten }

/-- The event at a read position: zeros where no record is (R394). -/
def Dict.eventAt (d : Dict) (p : Nat) : List Byte := match d.log[p]? with | some e => e.bytes | none => zeros 16

/-- The writes that an applied move of block `b` carried are over (R492). -/
def Dict.applied (d : Dict) (b : Nat) : Dict := { d with staged := d.staged.filter fun s => !(s.sealed && s.home == some b) }

/-- The records of a slot: none when the slot is empty or malformed. -/
def Dict.slotRecords (d : Dict) (n : Nat) : Option (List ProfRec) := imageRecords (d.slot n)

end Sys2Proof.Machine
end

