-- ==== Sys2Proof/Machine/Flags.lean ====
section
/-! DEFINITION. The number formats of chapter 03, exact arithmetic on their values, rounding, conversions and
the numeric status byte of R87 that every one of them can set. -/

namespace Sys2Proof.Machine

/-! ### The numeric status byte (R87) -/

/-- The numeric status byte of R87: sticky bits, joined by `|||`. -/
abbrev NumStatus := BitVec 8

/-- Bit 0: an invalid operation. -/
def stInvalid : NumStatus := 0x01
/-- Bit 1: a value exceeds the target's finite range. -/
def stOverflow : NumStatus := 0x02
/-- Bit 2: a 48-bit accumulator node saturates (R75). -/
def stAccSat : NumStatus := 0x04
/-- Bit 3: an integer result of a conversion saturates. -/
def stIntSat : NumStatus := 0x08
/-- Bit 4: a byte from 243 to 255 was decoded as T5 (R66). -/
def stT5Code : NumStatus := 0x10
/-- Bit 5: a nonzero finite value rounds to zero on conversion (R84). -/
def stUnderflow : NumStatus := 0x20
/-- Bit 6: an operand NaN, a NaN block or an MX scale of 0xFF was read (R71). -/
def stNanIn : NumStatus := 0x40

/-- A status bit when a condition holds. -/
def stIf (c : Bool) (s : NumStatus) : NumStatus := if c then s else 0

/-! ### Exact values -/

/-- The exact value of an element: NaN, an infinity, or (−1)^neg × m × 2^e (m = 0 is a signed zero). -/
inductive FVal where
  | nan
  | inf (neg : Bool)
  | fin (neg : Bool) (m : Nat) (e : Int)
  deriving DecidableEq, Repr

def fZero : FVal := .fin false 0 0
def fNegZero : FVal := .fin true 0 0

/-- An integer as an exact value. -/
def fOfInt (i : Int) : FVal := .fin (decide (i < 0)) i.natAbs 0

def FVal.isNan : FVal → Bool
  | .nan => true
  | _ => false

def FVal.isZero : FVal → Bool
  | .fin _ m _ => m == 0
  | _ => false

def FVal.isInf : FVal → Bool
  | .inf _ => true
  | _ => false

def FVal.isNeg : FVal → Bool
  | .nan => false
  | .inf n => n
  | .fin n _ _ => n

def fNeg : FVal → FVal
  | .nan => .nan
  | .inf n => .inf (!n)
  | .fin n m e => .fin (!n) m e

def fAbs : FVal → FVal
  | .nan => .nan
  | .inf _ => .inf false
  | .fin _ m e => .fin false m e

/-- A signed dyadic number i × 2^e. -/
structure Dy where
  i : Int
  e : Int
  deriving DecidableEq, Repr

/-- The magnitude shift 2^k for k at least 0. -/
def shl (i : Int) (k : Int) : Int := i * ((2 ^ k.toNat : Nat) : Int)

/-- Exact sum of two dyadic numbers. -/
def Dy.add (a b : Dy) : Dy :=
  if a.e ≤ b.e then ⟨a.i + shl b.i (b.e - a.e), a.e⟩ else ⟨shl a.i (a.e - b.e) + b.i, b.e⟩

/-- The dyadic value of a finite number (0 for NaN and infinities). -/
def FVal.toDy : FVal → Dy
  | .fin n m e => ⟨if n then -(m : Int) else m, e⟩
  | _ => ⟨0, 0⟩

/-- `a < b` on dyadic numbers. -/
def Dy.lt (a b : Dy) : Bool :=
  let s := a.add ⟨-b.i, b.e⟩
  decide (s.i < 0)

/-- `a ≤ b` on dyadic numbers. -/
def Dy.le (a b : Dy) : Bool := !(b.lt a)

def FVal.ofDy (d : Dy) : FVal := .fin (decide (d.i < 0)) d.i.natAbs d.e

/-- Value order of two numbers neither of which is NaN; −0 equals +0. -/
def fLt : FVal → FVal → Bool
  | .nan, _ => false
  | _, .nan => false
  | .inf a, .inf b => a && !b
  | .inf a, .fin _ _ _ => a
  | .fin _ _ _, .inf b => !b
  | a, b => a.toDy.lt b.toDy

/-- Value equality of two numbers neither of which is NaN; −0 equals +0. -/
def fEq (a b : FVal) : Bool := !a.isNan && !b.isNan && !(fLt a b) && !(fLt b a)

/-! ### Float formats (R70) -/

/-- A floating format: mantissa bits, exponent bits, bias, whether it has infinities, and its largest finite
magnitude maxM × 2^maxQ. -/
structure FloatFmt where
  mb : Nat
  eb : Nat
  bias : Nat
  hasInf : Bool
  hasNan : Bool
  maxM : Nat
  maxQ : Int
  nanBits : Nat
  deriving DecidableEq, Repr

def binary32 : FloatFmt := ⟨23, 8, 127, true, true, 16777215, 104, 0x7FC00000⟩
def binary16 : FloatFmt := ⟨10, 5, 15, true, true, 2047, 5, 0x7E00⟩
def bfloat16 : FloatFmt := ⟨7, 8, 127, true, true, 255, 120, 0x7FC0⟩
def fmtE5M2 : FloatFmt := ⟨2, 5, 15, true, true, 7, 13, 0x7E⟩
def fmtE4M3 : FloatFmt := ⟨3, 4, 7, false, true, 14, 5, 0x7F⟩
def fmtE2M1 : FloatFmt := ⟨1, 2, 1, false, false, 3, 1, 0⟩

/-- Decodes a bit pattern; subnormals are honoured (R70), a NaN of any kind is NaN (R71). -/
def decodeFloat (f : FloatFmt) (w : Nat) : FVal :=
  let mant := w % 2 ^ f.mb
  let ex := (w / 2 ^ f.mb) % 2 ^ f.eb
  let neg := bitOf w (f.mb + f.eb)
  if f.hasInf && ex == 2 ^ f.eb - 1 then (if mant == 0 then .inf neg else .nan)
  else if f.hasNan && !f.hasInf && ex == 2 ^ f.eb - 1 && mant == 2 ^ f.mb - 1 then .nan
  else if ex == 0 then .fin neg mant (1 - (f.bias : Int) - f.mb)
  else .fin neg (2 ^ f.mb + mant) ((ex : Int) - f.bias - f.mb)

/-- The bit pattern of m × 2^q, where m and q come from rounding to the format. -/
def encodeFin (f : FloatFmt) (neg : Bool) (m : Nat) (q : Int) : Nat :=
  let (m, q) := if m == 2 ^ (f.mb + 1) then (2 ^ f.mb, q + 1) else (m, q)
  let sign := b2n neg * 2 ^ (f.mb + f.eb)
  if m < 2 ^ f.mb then sign + m
  else sign + (q + f.mb + f.bias).toNat * 2 ^ f.mb + (m - 2 ^ f.mb)

/-- How a conversion rounds (R81): to nearest even, or stochastically with the seed and index of R82. -/
inductive Rnd where
  | rne
  | sr (seed : Nat)
  deriving DecidableEq, Repr

/-- The draw r of R82 for the element of logical linear index i. -/
def srDraw (seed i : Nat) : Nat :=
  let m := 2 ^ 64
  let x := Nat.xor (seed % m) ((i * 0x9E3779B97F4A7C15) % m)
  let x := Nat.xor x (x / 2 ^ 30)
  let x := (x * 0xBF58476D1CE4E5B9) % m
  let x := Nat.xor x (x / 2 ^ 27)
  let x := (x * 0x94D049BB133111EB) % m
  let x := Nat.xor x (x / 2 ^ 31)
  x / 2 ^ 32

/-- Rounds num / den to an integer under `r` for the element of index i (R81, R83). -/
def roundNat (r : Rnd) (i num den : Nat) : Nat :=
  let fl := num / den
  let rem := num % den
  match r with
  | .rne => if 2 * rem < den then fl else if den < 2 * rem then fl + 1 else fl + fl % 2
  | .sr seed => if rem * 2 ^ 32 / den + srDraw seed i ≥ 2 ^ 32 then fl + 1 else fl

/-- floor(log2 (num / den)) for positive num and den. -/
def ilog2 (num den : Nat) : Int :=
  let k : Int := (Nat.log2 num : Int) - Nat.log2 den
  let ok := if 0 ≤ k then decide (den * 2 ^ k.toNat ≤ num) else decide (den ≤ num * 2 ^ (-k).toNat)
  if ok then k else k - 1

/-- Rounds the magnitude num / den × 2^e to precision mb + 1 with the format's exponent floor: m and q with the
result m × 2^q. -/
def roundMag (f : FloatFmt) (r : Rnd) (i num den : Nat) (e : Int) : Nat × Int :=
  if num == 0 then (0, 1 - (f.bias : Int) - f.mb)
  else
    let k := max (ilog2 num den + e) (1 - (f.bias : Int))
    let q := k - f.mb
    let s := e - q
    let m := if 0 ≤ s then roundNat r i (num * 2 ^ s.toNat) den else roundNat r i num (den * 2 ^ (-s).toNat)
    (m, q)

/-- Whether m × 2^q lies above the format's largest finite value. -/
def tooBig (f : FloatFmt) (m : Nat) (q : Int) : Bool := Dy.lt ⟨f.maxM, f.maxQ⟩ ⟨m, q⟩

/-- Conversion of (−1)^neg × num / den × 2^e to a floating format under R84: the bits and the status. -/
def floatOfRat (f : FloatFmt) (sat : Bool) (r : Rnd) (i : Nat) (neg : Bool) (num den : Nat) (e : Int) :
    Nat × NumStatus :=
  let (m, q) := roundMag f r i num den e
  let sign := b2n neg * 2 ^ (f.mb + f.eb)
  if tooBig f m q then
    (if sat then encodeFin f neg f.maxM f.maxQ
     else if f.hasInf then sign + (2 ^ f.eb - 1) * 2 ^ f.mb
     else if f.hasNan then f.nanBits
     else encodeFin f neg f.maxM f.maxQ, stOverflow)
  else (encodeFin f neg m q, stIf (m == 0 && num != 0) stUnderflow)

/-- Conversion of an exact value to a floating format under R84, with its rule for infinite sources. -/
def floatOf (f : FloatFmt) (sat : Bool) (r : Rnd) (i : Nat) (v : FVal) : Nat × NumStatus :=
  match v with
  | .nan => (f.nanBits, 0)
  | .inf neg =>
    let sign := b2n neg * 2 ^ (f.mb + f.eb)
    let infBits := sign + (2 ^ f.eb - 1) * 2 ^ f.mb
    if f.eb + f.mb > 8 then (infBits, 0)
    else if f.hasInf && !sat then (infBits, 0)
    else (if sat then encodeFin f neg f.maxM f.maxQ else f.nanBits, stOverflow)
  | .fin neg m e => floatOfRat f sat r i neg m 1 e

/-- The status of an arithmetic rounding, which is no conversion and sets no UNDERFLOW (R84, R87). -/
def arithStatus (s : NumStatus) : NumStatus := s &&& 0xDF

/-- Rounds an exact value to binary32, to nearest even. -/
def round32 (v : FVal) : FVal × NumStatus :=
  let (b, s) := floatOf binary32 false .rne 0 v
  (decodeFloat binary32 b, arithStatus s)

/-- Conversion of an exact value to binary32, to nearest even (R84). -/
def conv32 (v : FVal) : FVal × NumStatus :=
  let (b, s) := floatOf binary32 false .rne 0 v
  (decodeFloat binary32 b, s)

/-- The binary32 bits of a value that binary32 holds. -/
def bits32 (v : FVal) : Nat := (floatOf binary32 false .rne 0 v).1

/-- A binary32 word as an exact value. -/
def of32 (w : Nat) : FVal := decodeFloat binary32 w

/-! ### Binary32 arithmetic, rounded to nearest even -/

/-- The exact sum of two finite values with the zero rule of IEEE 754 (−0 only from two −0). -/
def fAddExact (a b : FVal) : FVal :=
  let s := a.toDy.add b.toDy
  if s.i = 0 then (if a.isNeg && b.isNeg && a.isZero && b.isZero then fNegZero else fZero) else FVal.ofDy s

/-- binary32 addition (R77). -/
def add32 (a b : FVal) : FVal × NumStatus :=
  match a, b with
  | .nan, _ => (.nan, 0)
  | _, .nan => (.nan, 0)
  | .inf x, .inf y => if x == y then (.inf x, 0) else (.nan, stInvalid)
  | .inf x, _ => (.inf x, 0)
  | _, .inf y => (.inf y, 0)
  | a, b => round32 (fAddExact a b)

/-- The exact product of two finite values. -/
def fMulExact : FVal → FVal → FVal
  | .fin n m e, .fin n' m' e' => .fin (n != n') (m * m') (e + e')
  | _, _ => .nan

/-- A product before rounding: NaN, an infinity or the exact value, with INVALID for 0 × ∞ (R76). -/
def fProd (a b : FVal) : FVal × NumStatus :=
  match a, b with
  | .nan, _ => (.nan, 0)
  | _, .nan => (.nan, 0)
  | .inf x, b => if b.isZero then (.nan, stInvalid) else (.inf (x != b.isNeg), 0)
  | a, .inf y => if a.isZero then (.nan, stInvalid) else (.inf (a.isNeg != y), 0)
  | a, b => (fMulExact a b, 0)

/-- binary32 multiplication. -/
def mul32 (a b : FVal) : FVal × NumStatus :=
  let (p, s) := fProd a b
  let (r, s') := round32 p
  (r, s ||| s')

/-- binary32 fused multiply-add: one rounding (R110). -/
def fma32 (a b c : FVal) : FVal × NumStatus :=
  let (p, s) := fProd a b
  match p, c with
  | .fin _ _ _, .fin _ _ _ => let (r, s') := round32 (fAddExact p c); (r, s ||| s')
  | _, _ => let (r, s') := add32 p c; (r, s ||| s')

/-- binary32 division, correctly rounded; x / 0 is ±∞ and 0 / 0 is NaN with INVALID (R111). -/
def div32 (a b : FVal) : FVal × NumStatus :=
  match a, b with
  | .nan, _ => (.nan, 0)
  | _, .nan => (.nan, 0)
  | .inf _, .inf _ => (.nan, stInvalid)
  | .inf x, .fin n _ _ => (.inf (x != n), 0)
  | .fin n _ _, .inf y => (.fin (n != y) 0 0, 0)
  | .fin n m e, .fin n' m' e' =>
    if m' == 0 then (if m == 0 then (.nan, stInvalid) else (.inf (n != n'), 0))
    else
      let (w, s) := floatOfRat binary32 false .rne 0 (n != n') m m' (e - e')
      (decodeFloat binary32 w, arithStatus s)

/-- binary32 square root, correctly rounded; the root of a negative number is NaN with INVALID. -/
def sqrt32 (a : FVal) : FVal × NumStatus :=
  match a with
  | .nan => (.nan, 0)
  | .inf n => if n then (.nan, stInvalid) else (.inf false, 0)
  | .fin n m e =>
    if m == 0 then (.fin n 0 0, 0)
    else if n then (.nan, stInvalid)
    else
      -- 2·floor(√(m·2^(2k))) + 1 when inexact: a sticky bit below far more bits than binary32 keeps
      let (m, e) := if e % 2 = 0 then (m, e) else (2 * m, e - 1)
      let x := m * 2 ^ 64
      let s := Nat.sqrt x
      let sticky := if s * s = x then 2 * s else 2 * s + 1
      round32 (.fin false sticky (e / 2 - 32 - 1))

/-- MAX and MIN of R138: NaN gives NaN, +0 counts as larger than −0. -/
def max32 (a b : FVal) : FVal :=
  if a.isNan || b.isNan then .nan
  else if a.isZero && b.isZero then (if a.isNeg then b else a)
  else if fLt a b then b else a

def min32 (a b : FVal) : FVal :=
  if a.isNan || b.isNan then .nan
  else if a.isZero && b.isZero then (if a.isNeg then a else b)
  else if fLt b a then b else a

/-! ### Group partials and the canonical tree (R74 to R77) -/

/-- The canonical tree of R77 over `n` partials from `lo`; the fuel is at least n. -/
def treeFuel {α : Type} (add : α → α → α × NumStatus) (p : Nat → α) : Nat → Nat → Nat → α × NumStatus
  | 0, lo, _ => (p lo, 0)
  | fuel + 1, lo, n =>
    if n ≤ 1 then (p lo, 0)
    else
      let h := 2 ^ Nat.log2 (n - 1)
      let (a, s) := treeFuel add p fuel lo h
      let (b, s') := treeFuel add p fuel (lo + h) (n - h)
      let (r, s'') := add a b
      (r, s ||| s' ||| s'')

/-- tree(0, n) of R77. -/
def canonTree {α : Type} (add : α → α → α × NumStatus) (p : Nat → α) (n : Nat) : α × NumStatus :=
  treeFuel add p n 0 n

/-- The exact sum of a group's products on the block path, rounded once to binary32 (R76). -/
def groupSum (ps : List (FVal × NumStatus)) : FVal × NumStatus :=
  let inv := ps.foldl (fun s p => s ||| p.2) 0
  let pos := ps.any fun p => p.1 == .inf false
  let neg := ps.any fun p => p.1 == .inf true
  let st := inv ||| stIf (pos && neg) stInvalid
  if ps.any (fun p => p.1.isNan) || (pos && neg) then (.nan, st)
  else if pos then (.inf false, st)
  else if neg then (.inf true, st)
  else
    let sum := ps.foldl (fun s p => s.add p.1.toDy) (⟨0, 0⟩ : Dy)
    if sum.i = 0 then
      (if !ps.isEmpty && ps.all (fun p => p.1.isNeg && p.1.isZero) then fNegZero else fZero, st)
    else let (r, s) := round32 (FVal.ofDy sum); (r, st ||| s)

/-- ceil(n / 64) groups of a reduction of length n (R74). -/
def groupsOf (n : Nat) : Nat := (n + 63) / 64

/-- The group partials of a reduction whose k-th product is `prod k` (R74, R76), and their status. -/
def groupPartial (k : Nat) (prod : Nat → FVal × NumStatus) (g : Nat) : FVal × NumStatus :=
  groupSum ((List.range (min 64 (k - 64 * g))).map fun j => prod (64 * g + j))

/-- The block-path reduction: the canonical tree over the group partials (R76, R77), without c. -/
def blockTree (k : Nat) (prod : Nat → FVal × NumStatus) : FVal × NumStatus :=
  let ps := (List.range (groupsOf k)).map (groupPartial k prod)
  let st := ps.foldl (fun s p => s ||| p.2) 0
  let (r, s) := canonTree add32 (fun i => (ps.getD i (fZero, 0)).1) (groupsOf k)
  (r, st ||| s)

/-- result = add32(c, tree(0, G)); with K = 0 the result is c (R77). -/
def blockReduce (c : FVal) (k : Nat) (prod : Nat → FVal × NumStatus) : FVal × NumStatus :=
  if k = 0 then (c, 0)
  else
    let (t, s) := blockTree k prod
    let (r, s') := add32 c t
    (r, s ||| s')

/-- Saturating 48-bit addition (R75). -/
def addAcc (a b : Int) : Int × NumStatus :=
  let (r, sat) := clampInt (-(2 ^ 47)) (2 ^ 47 - 1) (a + b)
  (r, stIf sat stAccSat)

/-- The exact integer sum of group g (R75). -/
def intPartial (k : Nat) (prod : Nat → Int) (g : Nat) : Int :=
  ((List.range (min 64 (k - 64 * g))).map fun j => prod (64 * g + j)).foldl (· + ·) 0

/-- The integer-path tree without c (R75, R77). -/
def intTree (k : Nat) (prod : Nat → Int) : Int × NumStatus :=
  canonTree addAcc (intPartial k prod) (groupsOf k)

/-- The integer-path reduction with the accumulator input (R75, R77). -/
def intReduce (c : Int) (k : Nat) (prod : Nat → Int) : Int × NumStatus :=
  if k = 0 then (c, 0)
  else
    let (t, s) := intTree k prod
    let (r, s') := addAcc c t
    (r, s ||| s')

/-! ### Formats of elements -/

/-- The element formats of the format code table (chapter 04). -/
inductive Fmt where
  | int4 | int8 | int16 | int32 | acc48 | t2 | z4 | z8
  | mxfp4 | mxe4m3 | mxe5m2 | mxint8 | e8m0 | meta24
  | e4m3 | e5m2 | bf16 | f16 | f32 | byte
  deriving DecidableEq, Repr

/-- The format of a code; every other code is not a format (R93 check 6). -/
def Fmt.ofCode : Nat → Option Fmt
  | 0x01 => some .int4 | 0x02 => some .int8 | 0x03 => some .int16 | 0x04 => some .int32 | 0x05 => some .acc48
  | 0x08 => some .t2 | 0x10 => some .z4 | 0x11 => some .z8
  | 0x18 => some .mxfp4 | 0x19 => some .mxe4m3 | 0x1A => some .mxe5m2 | 0x1B => some .mxint8
  | 0x1C => some .e8m0 | 0x1D => some .meta24
  | 0x20 => some .e4m3 | 0x21 => some .e5m2 | 0x28 => some .bf16 | 0x29 => some .f16 | 0x2A => some .f32
  | 0x30 => some .byte
  | _ => none

def Fmt.isInt : Fmt → Bool
  | .int4 | .int8 | .int16 | .int32 | .acc48 => true
  | _ => false

def Fmt.isMx : Fmt → Bool
  | .mxfp4 | .mxe4m3 | .mxe5m2 | .mxint8 => true
  | _ => false

def Fmt.isZ : Fmt → Bool
  | .z4 | .z8 => true
  | _ => false

/-- The width of an integer format. -/
def Fmt.intBits : Fmt → Nat
  | .int4 => 4 | .int8 => 8 | .int16 => 16 | .acc48 => 48 | _ => 32

/-- The float format of a plain float code or of an MX element. -/
def Fmt.float : Fmt → FloatFmt
  | .e4m3 => fmtE4M3 | .mxe4m3 => fmtE4M3 | .e5m2 => fmtE5M2 | .mxe5m2 => fmtE5M2
  | .mxfp4 => fmtE2M1 | .bf16 => bfloat16 | .f16 => binary16 | _ => binary32

/-- Bits of one element as it is packed in a row (R63, R64, R65, R67, R69); 0 for T2, Z4 and Z8. -/
def Fmt.bits : Fmt → Nat
  | .int4 => 4 | .mxfp4 => 4 | .meta24 => 4
  | .int8 => 8 | .mxe4m3 => 8 | .mxe5m2 => 8 | .mxint8 => 8 | .e8m0 => 8 | .e4m3 => 8 | .e5m2 => 8 | .byte => 8
  | .int16 => 16 | .bf16 => 16 | .f16 => 16
  | .int32 => 32 | .f32 => 32
  | .acc48 => 64
  | .t2 => 0 | .z4 => 0 | .z8 => 0

/-- Bytes that `n` elements of dimension 0 occupy (R63, R65, R67, R68). -/
def Fmt.rowBytes (f : Fmt) (n : Nat) : Nat :=
  match f with
  | .t2 => (n + 4) / 5
  | .z4 => (n + 63) / 64 * 34
  | .z8 => (n + 63) / 64 * 66
  | f => (n * f.bits + 7) / 8

/-- Digit i of a T5 byte: −1, 0 or +1 (R65); a byte from 243 to 255 holds five zeros (R66). -/
def t5Digit (b i : Nat) : Int := if b ≥ 243 then 0 else ((b / 3 ^ i % 3 : Nat) : Int) - 1

/-- The value 2^(X − 127) of an E8M0 scale; 0xFF is NaN (R69). -/
def e8m0 (x : Nat) : FVal := if x = 255 then .nan else .fin false 1 ((x : Int) - 127)

/-- Element k of a row whose bytes `rd` reads, with its numeric status; an MX element takes the scale byte
`sc` of its block (R63 to R71). -/
def decodeElem (f : Fmt) (rd : Nat → Nat) (sc : Nat) (k : Nat) : FVal × NumStatus :=
  let nib := if k % 2 = 0 then rd (k / 2) % 16 else rd (k / 2) / 16
  let r : FVal × NumStatus := match f with
    | .int4 => (fOfInt (toSigned 4 nib), 0)
    | .int8 => (fOfInt (toSigned 8 (rd k)), 0)
    | .int16 => (fOfInt (toSigned 16 (rd (2 * k) + 256 * rd (2 * k + 1))), 0)
    | .int32 => (fOfInt (toSigned 32 (rd (4 * k) + 256 * rd (4 * k + 1) + 65536 * rd (4 * k + 2)
        + 16777216 * rd (4 * k + 3))), 0)
    | .acc48 => (fOfInt (toSigned 48 ((List.range 6).foldl (fun s i => s + rd (8 * k + i) * 256 ^ i) 0)), 0)
    | .t2 => (fOfInt (t5Digit (rd (k / 5)) (k % 5)), stIf (rd (k / 5) ≥ 243) stT5Code)
    | .z4 =>
      let o := k / 64 * 34
      let j := k % 64
      let q := toSigned 4 (if j % 2 = 0 then rd (o + j / 2) % 16 else rd (o + j / 2) / 16)
      let ex := rd (o + 32)
      let s := rd (o + 33) / 4 ^ (j / 16) % 4
      if ex = 255 then (.nan, 0) else (FVal.ofDy ⟨q * ((4 + s : Nat) : Int), (ex : Int) - 129⟩, 0)
    | .z8 =>
      let o := k / 64 * 66
      let j := k % 64
      let q := toSigned 8 (rd (o + j))
      let ex := rd (o + 64)
      let s := rd (o + 65) / 4 ^ (j / 16) % 4
      if ex = 255 then (.nan, 0) else (FVal.ofDy ⟨q * ((4 + s : Nat) : Int), (ex : Int) - 129⟩, 0)
    | .mxfp4 => ((fProd (decodeFloat fmtE2M1 nib) (e8m0 sc)).1, 0)
    | .mxe4m3 => (if sc = 255 then .nan else (fProd (decodeFloat fmtE4M3 (rd k)) (e8m0 sc)).1, 0)
    | .mxe5m2 => (if sc = 255 then .nan else (fProd (decodeFloat fmtE5M2 (rd k)) (e8m0 sc)).1, 0)
    | .mxint8 => ((fProd (FVal.ofDy ⟨toSigned 8 (rd k), -6⟩) (e8m0 sc)).1, 0)
    | .e8m0 => (e8m0 (rd k), 0)
    | .meta24 => (fOfInt nib, 0)
    | .e4m3 => (decodeFloat fmtE4M3 (rd k), 0)
    | .e5m2 => (decodeFloat fmtE5M2 (rd k), 0)
    | .bf16 => (decodeFloat bfloat16 (rd (2 * k) + 256 * rd (2 * k + 1)), 0)
    | .f16 => (decodeFloat binary16 (rd (2 * k) + 256 * rd (2 * k + 1)), 0)
    | .f32 => (decodeFloat binary32 (rd (4 * k) + 256 * rd (4 * k + 1) + 65536 * rd (4 * k + 2)
        + 16777216 * rd (4 * k + 3)), 0)
    | .byte => (fOfInt (rd k), 0)
  (r.1, r.2 ||| stIf r.1.isNan stNanIn)

/-! ### Conversions (R84 to R86) -/

/-- Conversion of a value to an integer of `w` bits: rounds, saturates with INT_SAT; NaN gives 0 with INVALID;
an infinity saturates and sets INVALID with INT_SAT (R84, R87). -/
def intOf (w : Nat) (r : Rnd) (i : Nat) (v : FVal) : Int × NumStatus :=
  let lo : Int := -(2 ^ (w - 1) : Nat)
  let hi : Int := (2 ^ (w - 1) : Nat) - 1
  match v with
  | .nan => (0, stInvalid)
  | .inf n => (if n then lo else hi, stIntSat ||| stInvalid)
  | .fin n m e =>
    let a := if 0 ≤ e then m * 2 ^ e.toNat else roundNat r i m (2 ^ (-e).toNat)
    let (c, sat) := clampInt lo hi (if n then -(a : Int) else a)
    (c, stIf sat stIntSat ||| stIf (a == 0 && m != 0) stUnderflow)

/-- Conversion to a plain (unblocked) format: the container's bits and the status (R84). -/
def convElem (f : Fmt) (sat : Bool) (r : Rnd) (i : Nat) (v : FVal) : Nat × NumStatus :=
  if f.isInt then
    let (x, s) := intOf f.intBits r i v
    (ofSigned (if f = .acc48 then 64 else f.intBits) x, s)
  else floatOf f.float sat r i v

/-- The largest magnitude of a list of finite values. -/
def maxMag (vs : List FVal) : Dy :=
  vs.foldl (fun a v => if a.lt (fAbs v).toDy then (fAbs v).toDy else a) ⟨0, 0⟩

/-- The smallest e with a ≤ n / d × 2^e, for a positive dyadic a. -/
def ceilExp (a : Dy) (n d : Nat) : Int :=
  let k := ilog2 (a.i.natAbs * d) n + a.e
  if Dy.le ⟨a.i * d, a.e⟩ ⟨(n : Int), k⟩ then k else k + 1

/-- Conversion of one block of up to 64 values to Z4 or Z8 (R85): the block's bytes and the status; `base` is
the logical linear index of its first element. -/
def convZ (z8 sat : Bool) (r : Rnd) (base : Nat) (vs : List FVal) : List Byte × NumStatus :=
  let _ := sat
  let q : Nat := if z8 then 127 else 7
  let pack (qs : List Int) (e s : Nat) : List Byte :=
    let at' (j : Nat) : Int := qs.getD j 0
    (if z8 then (List.range 64).map fun j => BitVec.ofNat 8 (ofSigned 8 (at' j))
     else (List.range 32).map fun j =>
       BitVec.ofNat 8 (ofSigned 4 (at' (2 * j)) + 16 * ofSigned 4 (at' (2 * j + 1))))
      ++ [BitVec.ofNat 8 e, BitVec.ofNat 8 s]
  if vs.any fun v => v.isNan || v.isInf then (pack [] 255 0, stInvalid)
  else
    let a := maxMag vs
    if a.i = 0 then (pack [] 0 0, 0)
    else
      -- 7/4·Q·2^e
      let e0 := ceilExp a (7 * q) 4 + 127
      let hiClamp := decide (254 < e0)
      let e : Nat := (max 0 (min 254 e0)).toNat
      let grp (g : Nat) : List FVal := (vs.drop (16 * g)).take 16
      let sOf (g : Nat) : Nat :=
        let ag := maxMag (grp g)
        match (List.range 4).find? fun s =>
            Dy.le ⟨ag.i * 4, ag.e⟩ ⟨((q * (4 + s) : Nat) : Int), (e : Int) - 127⟩ with
        | some s => s
        | none => 3
      let elem (j : Nat) : Int × NumStatus :=
        match vs.getD j fZero with
        | .fin n m ex =>
          let s := sOf (j / 16)
          -- x / ((4 + s) · 2^(E − 129))
          let sh : Int := ex - ((e : Int) - 129)
          let a := if 0 ≤ sh then roundNat r (base + j) (m * 2 ^ sh.toNat) (4 + s)
            else roundNat r (base + j) m ((4 + s) * 2 ^ (-sh).toNat)
          let (c, cl) := clampInt (-(q : Int) - 1) q (if n then -(a : Int) else a)
          (c, stIf cl stOverflow ||| stIf (a == 0 && m != 0) stUnderflow)
        | _ => (0, 0)
      let es := (List.range vs.length).map elem
      let st := es.foldl (fun s p => s ||| p.2) (stIf hiClamp stOverflow)
      (pack (es.map Prod.fst) e ((List.range 4).foldl (fun s g => s + sOf g * 4 ^ g) 0), st)

/-- The exponent emax of an MX element format (R86). -/
def mxEmax : Fmt → Int
  | .mxe4m3 => 8
  | .mxe5m2 => 15
  | .mxfp4 => 2
  | _ => 0

/-- Conversion of one block of up to 32 values to an MX format (R86): the element patterns, the scale byte and
the status. -/
def convMx (f : Fmt) (r : Rnd) (base : Nat) (vs : List FVal) : List Nat × Nat × NumStatus :=
  if vs.any fun v => v.isNan || v.isInf then (vs.map fun _ => 0, 255, stInvalid)
  else
    let a := maxMag vs
    if a.i = 0 then (vs.map fun _ => 0, 0, 0)
    else
      let ex := ilog2 a.i.natAbs 1 + a.e - mxEmax f
      let hiClamp := decide (127 < ex)
      let x : Int := max (-127) (min 127 ex)
      let elem (j : Nat) : Nat × NumStatus :=
        match vs.getD j fZero with
        | .fin n m e =>
          if f = .mxint8 then
            let sh := e - x + 6
            let a := if 0 ≤ sh then m * 2 ^ sh.toNat else roundNat r (base + j) m (2 ^ (-sh).toNat)
            let (c, cl) := clampInt (-127) 127 (if n then -(a : Int) else a)
            (ofSigned 8 c, stIf cl stIntSat ||| stIf (a == 0 && m != 0) stUnderflow)
          else floatOf f.float true r (base + j) (.fin n m (e - x))
        | _ => (0, 0)
      let es := (List.range vs.length).map elem
      (es.map Prod.fst, (x + 127).toNat, es.foldl (fun s p => s ||| p.2) (stIf hiClamp stOverflow))

/-! ### Device functions (R105) -/

/-! The exact values are formed as multiples of 2^−512. The error of a value is below 2^−490, far below any unit in the last
place of binary32 (log entry 29). -/

/-- Fractional bits of the exact values. -/
def fxBits : Nat := 512

/-- One, as a multiple of 2^−512. -/
def fxOne : Int := ((2 ^ fxBits : Nat) : Int)

/-- A product of two such values. -/
def fxMul (a b : Int) : Int := a * b / fxOne

/-- A quotient of two such values. -/
def fxDiv (a b : Int) : Int := a * fxOne / b

/-- A finite value; exact for every binary32 number. -/
def FVal.fx (v : FVal) : Int :=
  let d := v.toDy
  if 0 ≤ d.e + fxBits then shl d.i (d.e + fxBits) else d.i / ((2 ^ (-(d.e + fxBits)).toNat : Nat) : Int)

/-- The sum of z^(2k+1) / (2k + 1), k from `k` on, where `p` is z^(2k+1): half of log((1 + z) / (1 − z)). -/
def fxAtanh (z2 : Int) : Nat → Nat → Int → Int
  | 0, _, _ => 0
  | f + 1, k, p => p / ((2 * k + 1 : Nat) : Int) + fxAtanh z2 f (k + 1) (fxMul p z2)

/-- log((1 + z) / (1 − z)) for |z| ≤ 1/3. -/
def fxLogRatio (z : Int) : Int := 2 * fxAtanh (fxMul z z) 170 0 z

/-- log 2. -/
def fxLn2 : Int := fxLogRatio (fxOne / 3)

/-- The sum of r^k / k!, k from `k` on, where `t` is r^k / k!. -/
def fxExpSeries (r : Int) : Nat → Nat → Int → Int
  | 0, _, _ => 0
  | f + 1, k, t => t + fxExpSeries r f (k + 1) (fxMul t r / ((k + 1 : Nat) : Int))

/-- exp(x); beyond ±400 it is taken at the bound, far outside binary32's range. -/
def fxExp (x : Int) : Int :=
  let x := max (-400 * fxOne) (min (400 * fxOne) x)
  let k := x / fxLn2
  let y := fxExpSeries (x - k * fxLn2) 120 0 fxOne
  if 0 ≤ k then shl y k else y / ((2 ^ (-k).toNat : Nat) : Int)

/-- log of m × 2^e. -/
def fxLog (m : Nat) (e : Int) : Int :=
  let k := Nat.log2 m
  let f := fxDiv m ((2 ^ k : Nat) : Int)
  (e + k) * fxLn2 + fxLogRatio (fxDiv (f - fxOne) (f + fxOne))

/-- 1 / (1 + e^(−x)). -/
def fxSigmoid (x : Int) : Int := fxDiv fxOne (fxOne + fxExp (-x))

/-- 0.797_884_6 (v + 0.044_715 v³) of the activation table, for v exact. -/
def fxGeluArg (x : Int) : Int :=
  let y := max (-100 * fxOne) (min (100 * fxOne) x)
  (y + fxMul y (fxMul y y) * 44715 / 1000000) * 7978846 / 10000000

/-- The exact value of a device function at a finite input, none where it has neither a value nor a limit there (R105). Codes 3
to 6 are the activation codes GELU, SiLU, tanh and sigmoid; 7 exp, 8 log, 9 reciprocal square root, 10 reciprocal. -/
def devExact (code : Nat) (v : FVal) : Option Int :=
  let x := v.fx
  match code, v with
  | 3, _ => some (fxMul x (fxSigmoid (2 * fxGeluArg x)))
  | 4, _ => some (fxMul x (fxSigmoid x))
  | 5, _ => some (2 * fxSigmoid (2 * x) - fxOne)
  | 6, _ => some (fxSigmoid x)
  | 7, _ => some (fxExp x)
  | 8, .fin neg m e => if neg || m == 0 then none else some (fxLog m e)
  | 9, .fin neg m e =>
    if neg || m == 0 then none
    else
      -- 1 / √(m · 2^e) = √(2^(1024 − e) / m) · 2^−512; e of a binary32 number is at most 104
      some ((Nat.sqrt (2 ^ (2 * fxBits - e).toNat / m) : Nat) : Int)
  | _, .fin _ m _ => if m == 0 then none else some (fxDiv fxOne x)
  | _, _ => none

/-- The results that R105 allows for an exact value x: the multiples k × u of the unit u in the last place of x that lie within
2u of it, as k and the exponent of u. -/
def ulpChoices (x : Int) : List Int × Int :=
  let e : Int := if x = 0 then -126 else max (ilog2 x.natAbs 1 - fxBits) (-126)
  let q := e - 23
  let u : Int := shl 1 (q + fxBits)
  let k := x / u
  (([-2, -1, 0, 1, 2].map fun d => k + d).filter fun c => decide ((c * u - x).natAbs ≤ (2 * u).natAbs), q)

/-- A device function (R105): NaN gives NaN, an infinite input the limit; a finite input one of the results within 2 units in the
last place of the exact value, the same on every engine. A value beyond binary32's range is an infinity and sets OVERFLOW (R87).
Where the function has neither a value nor a limit (the logarithm or the reciprocal square root of a negative number or of −∞, the
logarithm, reciprocal square root or reciprocal of 0) the result and its INVALID are free (log entry 29). -/
def devFun (code : Nat) (v : FVal) : FVal × NumStatus :=
  let w := (Config.devFn code (BitVec.ofNat 32 (bits32 v))).toNat
  let free : FVal × NumStatus :=
    (of32 w, stIf ((Config.devFn (code + 256) (BitVec.ofNat 32 (bits32 v))).toNat % 2 == 1) stInvalid)
  match v with
  | .nan => (.nan, 0)
  | .inf n =>
    match code with
    | 3 => (if n then fNegZero else .inf false, 0)
    | 4 => (if n then fNegZero else .inf false, 0)
    | 5 => (.fin n 1 0, 0)
    | 6 => (if n then fZero else .fin false 1 0, 0)
    | 7 => (if n then fZero else .inf false, 0)
    | 8 => if n then free else (.inf false, 0)
    | 9 => if n then free else (fZero, 0)
    | _ => (.fin n 0 0, 0)
  | v =>
    match devExact code v with
    | none => free
    | some x =>
      let (cs, q) := ulpChoices x
      let k := cs.getD (w % cs.length) 0
      let neg := if k = 0 then (if x = 0 then bitOf w 31 else decide (x < 0)) else decide (k < 0)
      round32 (.fin neg k.natAbs q)

/-- The activation of the epilogue (R104). -/
def activate (act : Nat) (lo hi : FVal) (v : FVal) : FVal × NumStatus :=
  match act with
  | 0 => (v, 0)
  | 1 => (if v.isNan then .nan else if fLt fZero v then v else fZero, 0)
  | 2 => (if v.isNan then .nan else min32 (max32 v lo) hi, 0)
  | n => devFun n v

end Sys2Proof.Machine
end

