-- ==== Sys2Proof/Machine/TensorDesc.lean ====
section
/-! DEFINITION. Tensor descriptors and command descriptors (R97 to R101) as data, and the checks of R93 that depend
on nothing but the descriptors: opcode and reserved fields, handles, class, formats and shapes. -/

namespace Sys2Proof.Machine

/-! ### Fault codes (R126) -/

def fcDescCrc : Nat := 0x01
def fcOpcode : Nat := 0x02
def fcHandle : Nat := 0x03
def fcFormat : Nat := 0x04
def fcShape : Nat := 0x05
def fcAlias : Nat := 0x06
def fcClass : Nat := 0x07
def fcSeal : Nat := 0x08
def fcWorld : Nat := 0x09
def fcBounds : Nat := 0x0A
def fcEcc : Nat := 0x0B
def fcResidue : Nat := 0x0C
def fcChecksum : Nat := 0x0D
def fcWaitTimeout : Nat := 0x0E
def fcAtomicOverrun : Nat := 0x0F
def fcCkpt : Nat := 0x10
def fcRemoteFail : Nat := 0x11
def fcVprog : Nat := 0x12
def fcSparseMeta : Nat := 0x13
def fcIndex : Nat := 0x14
def fcRing : Nat := 0x15
def fcSeq : Nat := 0x16
def fcTarget : Nat := 0x17

/-- FAULT_INFO.SLOT when no operand is at fault. -/
def slotNone : Nat := 0xF

/-! ### Tensor descriptors (R99) -/

/-- A tensor descriptor. -/
structure TDesc where
  addr : Nat
  space : Nat
  auxh : Nat
  auxv : Bool
  rank : Nat
  fmtCode : Nat
  sat : Bool
  sparse : Bool
  sealed : Bool
  world : Bool
  sizes : List Nat
  /-- STRIDE[1] to STRIDE[4]. -/
  strides : List Nat
  ring : Nat
  isRing : Bool
  reservedOk : Bool
  deriving DecidableEq, Repr

/-- The tensor descriptor that 64 bytes spell (R99). -/
def TDesc.ofBytes (b : List Byte) : TDesc :=
  let w := field b 0 8
  let f := field b 8 4
  let r := field b 52 2
  let rank := bits w 63 61
  { addr := bits w 44 0, space := bits w 46 45, auxh := bits w 59 48, auxv := bitOf w 60, rank := rank,
    fmtCode := f % 256, sat := bitOf f 8, sparse := bitOf f 9, sealed := bitOf f 10, world := bitOf f 11,
    sizes := (List.range 5).map fun i => field b (12 + 4 * i) 4,
    strides := (List.range 4).map fun i => field b (32 + 5 * i) 5,
    ring := r % 512, isRing := bitOf r 15,
    reservedOk := !bitOf w 47 && f / 2 ^ 12 == 0 && bits r 14 9 == 0 && field b 54 10 == 0 }

/-- A descriptor that a command may name (R98, R99). -/
def TDesc.wellFormed (t : TDesc) : Bool := t.rank != 0 && decide (t.rank ≤ 5) && t.reservedOk

/-- SIZE[i] as it is taken: sizes beyond RANK count as 1 (R99). -/
def TDesc.size (t : TDesc) (i : Nat) : Nat := if i < t.rank then t.sizes.getD i 1 else 1

def TDesc.stride (t : TDesc) (i : Nat) : Nat := if i < t.rank then t.strides.getD (i - 1) 0 else 0

def TDesc.fmt (t : TDesc) : Option Fmt := Fmt.ofCode t.fmtCode

/-- The format, where a check has shown that the code is one. -/
def TDesc.format (t : TDesc) : Fmt := t.fmt.getD .byte

/-- The number of rows: the product of the sizes of dimensions 1 to 4. -/
def TDesc.rows (t : TDesc) : Nat := t.size 1 * t.size 2 * t.size 3 * t.size 4

/-- The number of elements. -/
def TDesc.elems (t : TDesc) : Nat := t.size 0 * t.rows

/-- The five sizes as taken. -/
def TDesc.shape (t : TDesc) : List Nat := (List.range 5).map t.size

/-- Stored elements of dimension 0: half of the logical ones in a 2:4 weight (R100). -/
def TDesc.stored0 (t : TDesc) : Nat := if t.sparse then t.size 0 / 2 else t.size 0

/-- Bytes of one row (R100). -/
def TDesc.rowBytes (t : TDesc) : Nat := t.format.rowBytes t.stored0

/-- A tensor descriptor with its companion, as an issued command keeps them (R96). -/
structure Operand where
  slot : Nat
  t : TDesc
  comp : Option TDesc
  deriving DecidableEq, Repr

/-! ### Command descriptors (R97) -/

/-- The opcodes (chapters 04 and 05). -/
inductive Op where
  | mma | attn | spmm | vprog | cvt
  | gather | scatter | segred | sort | merge | topk | setop | hashb | hashp
  | copy | wait | signal | publish | fence | checkpoint | remote | nop
  deriving DecidableEq, Repr

def Op.ofCode : Nat → Option Op
  | 0x01 => some .mma | 0x02 => some .attn | 0x03 => some .spmm | 0x08 => some .vprog | 0x09 => some .cvt
  | 0x10 => some .gather | 0x11 => some .scatter | 0x12 => some .segred | 0x18 => some .sort | 0x19 => some .merge
  | 0x1A => some .topk | 0x1B => some .setop | 0x1C => some .hashb | 0x1D => some .hashp
  | 0x20 => some .copy | 0x28 => some .wait | 0x29 => some .signal | 0x2A => some .publish | 0x2B => some .fence
  | 0x2C => some .checkpoint | 0x30 => some .remote | 0x3F => some .nop
  | _ => none

def Op.isIndex : Op → Bool
  | .gather | .scatter | .segred | .sort | .merge | .topk | .setop | .hashb | .hashp => true
  | _ => false

/-- WAIT, FENCE and CHECKPOINT start only after every earlier command of the ring has committed (R94). -/
def Op.isBarrier : Op → Bool
  | .wait | .fence | .checkpoint => true
  | _ => false

/-- Commands that the front end alone runs. -/
def Op.isFrontEnd : Op → Bool
  | .wait | .signal | .publish | .fence | .checkpoint | .nop => true
  | _ => false

/-- A command descriptor. -/
structure Cmd where
  opcode : Nat
  atomic : Bool
  cr : Bool
  irq : Bool
  sr : Bool
  strict : Bool
  chk : Bool
  chken : Bool
  seq : Nat
  /-- DST, A, B, C, AUX0 to AUX3, as slot words. -/
  slots : List Nat
  seed : Nat
  p1 : Nat
  p2 : Nat
  epi : Nat
  work : Nat
  reservedOk : Bool
  crcGood : Bool
  deriving DecidableEq, Repr

/-- The command descriptor that 64 bytes spell (R97). STRICT is no reserved bit: an opcode outside the index unit takes it with any
value and ignores it (DEDUCED, log entry 158). -/
def Cmd.ofBytes (b : List Byte) : Cmd :=
  let f := field b 1 1
  let slots := (List.range 8).map fun i => field b (8 + 2 * i) 2
  let w := field b 56 2
  { opcode := field b 0 1, atomic := bitOf f 0, cr := bitOf f 1, irq := bitOf f 2, sr := bitOf f 3,
    strict := bitOf f 4, chk := bitOf f 5, chken := bitOf f 6, seq := field b 4 4, slots := slots,
    seed := field b 24 8, p1 := field b 32 8, p2 := field b 40 8, epi := field b 48 8, work := w % 2 ^ 12,
    reservedOk := !bitOf f 7 && field b 2 2 == 0 && w / 2 ^ 12 == 0 && field b 58 2 == 0
      && slots.all fun s => bits s 14 12 == 0,
    crcGood := crcOk 60 b }

def Cmd.op (c : Cmd) : Option Op := Op.ofCode c.opcode

/-- A slot is present (R98). -/
def Cmd.present (c : Cmd) (i : Nat) : Bool := bitOf (c.slots.getD i 0) 15
def Cmd.handle (c : Cmd) (i : Nat) : Nat := c.slots.getD i 0 % 2 ^ 12

/-! The EPI fields (R104). -/
def Cmd.scale (c : Cmd) : Nat := c.epi % 4
def Cmd.bias (c : Cmd) : Bool := bitOf c.epi 2
def Cmd.resid (c : Cmd) : Bool := bitOf c.epi 3
def Cmd.act (c : Cmd) : Nat := bits c.epi 7 4
def Cmd.scaleVal (c : Cmd) : Nat := c.epi / 2 ^ 32

/-- Only the bits [hi:lo] of each pair may be nonzero. -/
def onlyBits (v : Nat) (fields : List (Nat × Nat)) : Bool :=
  (List.range 64).all fun i => !bitOf v i || fields.any fun f => decide (f.2 ≤ i) && decide (i ≤ f.1)

/-- The EPI and PARAM2 fields of MMA and SPMM hold no reserved value (R97, R104). -/
def Cmd.epiOk (c : Cmd) : Bool :=
  onlyBits c.epi [(7, 0), (63, 32)] && c.scale != 3 && decide (c.act ≤ 6)
    && (if c.act = 2 then true else c.p2 == 0)

/-- No reserved field or value of PARAM1, PARAM2 and EPI (R97, with each opcode's own rule). -/
def Cmd.paramsOk (c : Cmd) : Op → Bool
  | .mma => c.p1 == 0 && c.epiOk
  | .spmm => onlyBits c.p1 [(2, 0)] && bits c.p1 2 1 != 3 && c.epiOk
  | .attn => onlyBits c.p1 [(33, 0)] && onlyBits c.p2 [(31, 0)] && onlyBits c.epi [(3, 3)]
  | .vprog => onlyBits c.p1 [(15, 0), (63, 32)] && c.p2 == 0 && c.epi == 0
  | .cvt | .copy | .remote | .nop => c.p1 == 0 && c.p2 == 0 && c.epi == 0
  | .wait =>
    c.epi == 0 && onlyBits c.p2 [(31, 0)] && (match c.p1 % 4 with
      | 0 => onlyBits c.p1 [(3, 0)]
      | 1 => onlyBits c.p1 [(1, 0), (16, 8), (63, 32)]
      | 2 => onlyBits c.p1 [(1, 0), (12, 8), (63, 32)]
      | _ => onlyBits c.p1 [(1, 0), (63, 32)])
  | .signal =>
    c.epi == 0 && c.p2 == 0 && (match c.p1 % 4 with
      | 0 => onlyBits c.p1 [(1, 0), (11, 4)]
      | 1 => onlyBits c.p1 [(1, 0), (8, 4), (23, 16)]
      | 2 => onlyBits c.p1 [(1, 0), (15, 4)]
      | _ => false)
  | .publish => c.epi == 0 && c.p2 == 0 && onlyBits c.p1 [(8, 0), (31, 16)] && bits c.p1 31 16 != 0
  | .fence => c.epi == 0 && c.p2 == 0 && onlyBits c.p1 [(0, 0)]
  | .checkpoint => c.epi == 0 && c.p2 == 0 && onlyBits c.p1 [(31, 0)]
  | .gather => c.epi == 0 && c.p2 == 0 && onlyBits c.p1 [(63, 32)]
  | .scatter => c.epi == 0 && c.p2 == 0 && onlyBits c.p1 [(1, 0), (63, 32)]
  | .segred => c.epi == 0 && onlyBits c.p2 [(31, 0)] && onlyBits c.p1 [(1, 0)] && c.p1 % 4 != 3
  | .sort | .merge => c.epi == 0 && c.p2 == 0 && onlyBits c.p1 [(2, 0)] && c.p1 % 4 != 3
  | .topk => c.epi == 0 && c.p2 == 0 && onlyBits c.p1 [(11, 0)] && bits c.p1 10 9 != 3
  | .setop => c.epi == 0 && c.p2 == 0 && onlyBits c.p1 [(5, 0)] && bits c.p1 4 3 != 3
  | .hashb => c.epi == 0 && c.p2 == 0 && onlyBits c.p1 [(6, 0), (63, 32)]
  | .hashp => c.epi == 0 && onlyBits c.p2 [(31, 0)] && onlyBits c.p1 [(6, 0), (63, 32)]

/-- Whether slot `i` must be present (some true), must be absent (some false), or may be either (none): R98, R103,
R104, R107, R109, R112, R118, R127, R128, R151. -/
def Cmd.slotRule (c : Cmd) (o : Op) (i : Nat) : Option Bool :=
  let p := c.present
  let need (l : List Nat) (opt : List Nat) : Option Bool :=
    if l.contains i then some true else if opt.contains i then none else some false
  let epi : List Nat := (if c.scale = 1 then [4] else []) ++ (if c.bias then [5] else []) ++ (if c.resid then [6] else [])
  match o with
  | .mma => need ([0, 1, 2] ++ epi ++ (if c.chk then [7] else [])) [3]
  | .spmm => need ([0, 1, 2] ++ epi) [3]
  | .attn => need ([0, 1, 2, 4] ++ (if c.resid then [6] else [])) [5, 7]
  | .vprog => need [0] [1, 2, 3, 4, 5, 6, 7]
  | .cvt | .copy | .remote => need [0, 1] []
  | .wait | .signal | .publish | .fence | .checkpoint | .nop => some false
  | .gather => need [0, 1, 2] [7]
  | .scatter => need [0, 1, 2] [3, 7]
  | .segred => need [0, 1, 2] [7]
  | .sort => need ([0, 1] ++ (if p 2 then [4] else [])) [2, 4, 7]
  | .merge => need ([0, 1, 2] ++ (if p 4 then [5, 6] else [])) [4, 7]
  | .topk => need [0, 1] [4, 7]
  | .setop => need ([0, 1] ++ (if p 4 then [6] else []) ++ (if p 4 && p 2 then [5] else [])) [2, 4, 7]
  | .hashb => need [0, 1] [2, 3, 7]
  | .hashp => need [0, 1, 2] (if bits c.p1 6 5 = 3 then [7] else [4, 7])

/-- The first slot that breaks its presence rule. -/
def Cmd.slotFault (c : Cmd) (o : Op) : Option Nat :=
  (List.range 8).find? fun i => match c.slotRule o i with
    | some b => c.present i != b
    | none => false

/-- Slots that the command writes. -/
def Cmd.writes (c : Cmd) (o : Op) : List Nat :=
  (match o with
   | .attn => [0, 7] | .sort => [0, 4, 7] | .merge => [0, 6, 7] | .topk => [0, 4, 7] | .setop => [0, 6, 7]
   | .hashp => [0, 4, 7] | .gather => [0, 7] | .scatter => [0, 7] | .segred => [0, 7] | .hashb => [0, 7]
   | .vprog => [0, 1, 2, 3, 4, 5, 6, 7]
   | _ => [0]).filter c.present

/-- Output slots: the slots whose ISRING counts free space (R99, R100). -/
def Cmd.outSlots (c : Cmd) (o : Op) : List Nat := if o = .vprog then [0] else c.writes o

/-- ATOMIC is allowed for the opcode (chapter 04, R127). -/
def Op.atomicAllowed : Op → Bool
  | .mma | .spmm | .vprog | .cvt | .copy => true
  | o => o.isIndex

/-- Weight slots, the only ones that a SEALED descriptor may stand in (R102). -/
def Cmd.weightSlot (c : Cmd) (o : Op) (i : Nat) : Bool :=
  match o with
  | .mma => i == 1 || (i == 7 && c.chk)
  | .spmm => i == 1
  | .attn => i == 2 || i == 4
  | _ => false

/-! ### Formats (R72, R93 check 6) -/

/-- An operand pair of R72; true for the integer path. -/
def pairPath (w x : Fmt) : Option Bool :=
  match w, x with
  | .t2, .int8 | .t2, .int4 | .int4, .int4 | .int4, .int8 | .int8, .int8 => some true
  | .bf16, .bf16 | .f16, .f16 => some false
  | w, x =>
    let four (f : Fmt) : Bool := f == .z4 || f == .mxfp4
    let eightX (f : Fmt) : Bool :=
      f == .int8 || f == .z8 || f == .e4m3 || f == .e5m2 || f == .mxe4m3 || f == .mxe5m2 || f == .mxint8
    let eightW (f : Fmt) : Bool :=
      f == .z8 || f == .mxe4m3 || f == .mxe5m2 || f == .mxint8 || f == .e4m3 || f == .e5m2
    if (four w && (four x || eightX x)) || (eightW w && eightX x) then some false else none

/-- Formats legal for outputs and conversions, ACC48 apart. -/
def Fmt.output : Fmt → Bool
  | .acc48 | .t2 | .e8m0 | .meta24 | .byte => false
  | _ => true

def Fmt.vu : Fmt → Bool
  | .int8 | .int16 | .int32 | .e4m3 | .e5m2 | .bf16 | .f16 | .f32 => true
  | _ => false

/-- A row operand or a COPY operand that is not BYTE. -/
def Fmt.row : Fmt → Bool
  | .e8m0 | .meta24 | .byte => false
  | _ => true

def Fmt.key : Fmt → Bool
  | .int8 | .int16 | .int32 => true
  | _ => false

/-- A 4-bit or 8-bit weight format of R72 other than T2 (R100). -/
def Fmt.sparseWeight : Fmt → Bool
  | .int4 | .int8 | .z4 | .z8 | .mxfp4 | .mxe4m3 | .mxe5m2 | .mxint8 | .e4m3 | .e5m2 => true
  | _ => false

/-- Value formats of CSR (R152) and of blocked CSR (R153). -/
def Fmt.csr : Fmt → Bool
  | .int4 | .int8 | .t2 | .e4m3 | .e5m2 | .bf16 | .f16 => true
  | _ => false

def Fmt.blockedCsr (f : Fmt) : Bool := f.csr || f == .z4 || f == .z8

/-- The operand in a slot. -/
def opAt (ops : List Operand) (i : Nat) : Option Operand := ops.find? fun o => o.slot == i

/-- The format in a slot satisfies `p`; an absent slot passes. -/
def fmtIs (ops : List Operand) (i : Nat) (p : Fmt → Bool) : Bool :=
  match opAt ops i with
  | none => true
  | some o => match o.t.fmt with
    | some f => p f
    | none => false

/-- The pair of formats in two slots satisfies `p`. -/
def fmt2 (ops : List Operand) (i j : Nat) (p : Fmt → Fmt → Bool) : Bool :=
  fmtIs ops i fun f => fmtIs ops j fun g => p f g

/-- First slot whose check fails. -/
def firstBad (l : List (Nat × Bool)) : Option Nat := (l.find? fun p => !p.2).map Prod.fst

/-- The integer path of an MMA or SPMM (R72). -/
def intPath (ops : List Operand) : Bool := fmt2 ops 1 2 fun w x => pairPath w x == some true

/-- The first operand slot whose format is illegal (R93 check 6). With P in E4M3, V of ATTN may have every weight format that R72
pairs with E4M3 on the block path, plain E4M3 and E5M2 among them (R107; DEDUCED, log entry 158). -/
def Cmd.formatFault (c : Cmd) (o : Op) (ops : List Operand) : Option Nat :=
  let sparseBad := (ops.find? fun x =>
    x.t.sparse && !(o == .mma && x.slot == 1 && fmtIs ops 1 Fmt.sparseWeight)).map Operand.slot
  let f := fmtIs ops
  let accOr (p : Fmt → Bool) : Fmt → Bool := fun f => f == .acc48 || p f
  let integer := intPath ops
  let out : Fmt → Bool := if integer then accOr Fmt.output else Fmt.output
  let acc : Fmt → Bool := fun f => f == (if integer then .acc48 else .f32)
  let i32 : Fmt → Bool := fun f => f == .int32
  let f32 : Fmt → Bool := fun f => f == .f32
  let keyOrd : Nat := match o with
    | .topk => bits c.p1 10 9
    | .setop => bits c.p1 4 3
    | _ => c.p1 % 4
  let key : Fmt → Bool := fun f => f.key && (keyOrd != 2 || f == .int32)
  let r : Option Nat := match o with
    | .mma | .spmm =>
      firstBad [
        (1, if o == .spmm then f 1 (if bitOf c.p1 0 then Fmt.blockedCsr else Fmt.csr) else true),
        (1, fmt2 ops 1 2 fun w x => (pairPath w x).isSome),
        (3, f 3 acc), (0, f 0 out), (4, f 4 f32), (5, f 5 f32), (6, f 6 (accOr Fmt.output)), (7, f 7 i32)]
    | .attn =>
      firstBad [
        (2, fmt2 ops 2 1 fun w x => (pairPath w x).isSome),
        (4, f 4 fun v => if bitOf c.p1 33 then pairPath v .e4m3 == some false else v == .bf16),
        (5, f 5 fun m => m == .int8), (6, f 6 (accOr Fmt.output)), (7, f 7 f32), (0, f 0 Fmt.output)]
    | .vprog => firstBad ((List.range 8).map fun i => (i, f i Fmt.vu))
    | .cvt => firstBad [(1, f 1 (accOr Fmt.output)), (0, f 0 (accOr Fmt.output))]
    | .copy | .remote =>
      firstBad [(1, f 1 fun x => x.row || x == .byte), (0, f 0 fun x => x.row || x == .byte)]
    | .gather =>
      firstBad [(1, f 1 Fmt.row), (2, f 2 fun x => x == .int16 || x == .int32), (0, f 0 Fmt.row),
        (0, fmt2 ops 0 1 fun a b => a == b), (7, f 7 i32)]
    | .scatter =>
      let v : Fmt → Bool := if c.p1 % 4 = 0 then Fmt.row else fun x => x == .int32 || x == .f32
      firstBad [(1, f 1 v), (2, f 2 fun x => x == .int16 || x == .int32), (3, f 3 v), (0, f 0 v),
        (0, fmt2 ops 0 1 fun a b => a == b), (3, fmt2 ops 3 1 fun a b => a == b), (7, f 7 i32)]
    | .segred =>
      let v : Fmt → Bool := fun x => x == .int32 || x == .f32
      firstBad [(1, f 1 v), (2, f 2 i32), (0, f 0 v), (0, fmt2 ops 0 1 fun a b => a == b), (7, f 7 i32)]
    | .sort =>
      firstBad [(1, f 1 key), (0, f 0 key), (0, fmt2 ops 0 1 fun a b => a == b), (2, f 2 i32), (4, f 4 i32),
        (7, f 7 i32)]
    | .merge =>
      firstBad [(1, f 1 key), (2, f 2 key), (0, f 0 key), (2, fmt2 ops 2 1 fun a b => a == b),
        (0, fmt2 ops 0 1 fun a b => a == b), (4, f 4 i32), (5, f 5 i32), (6, f 6 i32), (7, f 7 i32)]
    | .topk =>
      firstBad [(1, f 1 key), (0, f 0 key), (0, fmt2 ops 0 1 fun a b => a == b), (4, f 4 i32), (7, f 7 i32)]
    | .setop =>
      firstBad [(1, f 1 key), (2, f 2 key), (0, f 0 key), (2, fmt2 ops 2 1 fun a b => a == b),
        (0, fmt2 ops 0 1 fun a b => a == b), (4, f 4 i32), (5, f 5 i32), (6, f 6 i32), (7, f 7 i32)]
    | .hashb =>
      firstBad [(1, f 1 Fmt.key), (2, f 2 i32), (3, f 3 i32), (0, f 0 i32), (7, f 7 i32)]
    | .hashp =>
      firstBad [(1, f 1 i32), (2, f 2 Fmt.key), (0, f 0 i32), (4, f 4 i32), (7, f 7 i32)]
    | _ => none
  sparseBad <|> r

/-! ### Shapes (R93 check 7) -/

/-- The rules of R99 and R100 that concern one descriptor; `entry` is the entry size of its ring. With ISRING the whole of ADDR is
ignored in SPACE 0, its bits [44:40] too (DEDUCED, log entry 158). -/
def TDesc.selfShape (t : TDesc) (written : Bool) (entry : Option Nat) : Bool :=
  (List.range 5).all (fun i => decide (i < t.rank) || decide (t.sizes.getD i 0 ≤ 1))
    && (match t.space with
      | 0 => t.addr / 2 ^ 40 == 0 || t.isRing
      | 1 => t.addr % 512 == 0 && (List.range 4).all fun i => t.stride (i + 1) % 512 == 0
      | _ => true)
    && (!t.isRing || ((t.space == 0 || t.space == 2) && decide (2 ≤ t.rank) && (written || t.space == 0)
          && entry == some (t.stride (t.rank - 1))))

/-- The companion rules of R100 for MX and 2:4 tensors. -/
def Operand.compShape (o : Operand) : Bool :=
  let rest (c : TDesc) : Bool := (c.shape.drop 1) == (o.t.shape.drop 1)
  (if o.t.format.isMx then match o.comp with
    | some c => c.fmt == some .e8m0 && c.size 0 == (o.t.stored0 + 31) / 32 && rest c
    | none => false
   else true)
  && (if o.t.sparse then o.t.size 0 % 4 == 0 && (match o.comp with
    | some c => c.fmt == some .meta24 && c.size 0 == o.t.size 0 / 4 && rest c
    | none => false)
   else true)

/-- The shape of the operand in a slot satisfies `p`; an absent slot passes. -/
def shapeIs (ops : List Operand) (i : Nat) (p : List Nat → Bool) : Bool :=
  match opAt ops i with
  | none => true
  | some o => p o.t.shape

/-- Size `k` of the operand in a slot, 1 when absent. -/
def dim (ops : List Operand) (i k : Nat) : Nat :=
  match opAt ops i with
  | none => 1
  | some o => o.t.size k

/-- Rank of the operand in a slot. -/
def rankOf (ops : List Operand) (i : Nat) : Nat :=
  match opAt ops i with
  | none => 0
  | some o => o.t.rank

/-- The first operand slot whose shape breaks its opcode's rule (R93 check 7). -/
def Cmd.opShapeFault (c : Cmd) (o : Op) (ops : List Operand) : Option Nat :=
  let d := dim ops
  let s (i : Nat) (l : List Nat) : Nat × Bool := (i, shapeIs ops i fun x => x == l)
  let has (i : Nat) : Bool := (opAt ops i).isSome
  let spaceOk := (ops.filter fun x => x.t.space == 2 || x.t.space == 3).map fun x => (x.slot, false)
  let rank1 (i : Nat) : Nat × Bool := (i, !has i || rankOf ops i == 1)
  let report : Nat × Bool := (7, !has 7 || (rankOf ops 7 == 1 && d 7 0 == 4))
  let rank2 (i : Nat) : Nat × Bool := (i, !has i || rankOf ops i == 2)
  let dst := (List.range 5).map fun k => d 0 k
  let a := (List.range 5).map fun k => d 1 k
  firstBad (match o with
    | .mma =>
      [(2, d 2 0 == d 1 0), s 2 [d 1 0, d 0 1, d 0 2, d 0 3, d 0 4], (1, d 1 1 == d 0 0),
       (1, (List.range 3).all fun k => d 1 (k + 2) == d 0 (k + 2) || d 1 (k + 2) == 1), s 3 dst,
       s 4 [d 0 0, 1, 1, 1, 1], s 5 [d 0 0, 1, 1, 1, 1], s 6 dst,
       s 7 [d 1 0, (d 1 1 + 63) / 64, d 1 2, d 1 3, d 1 4]]
    | .spmm =>
      let bn := 16 * 2 ^ (bits c.p1 2 1)
      let hasComp := match opAt ops 1 with
        | some x => x.comp.isSome
        | none => false
      [(1, hasComp), (1, if bitOf c.p1 0 then rankOf ops 1 == 2 && d 1 0 == 64 && d 0 0 % bn == 0 else rankOf ops 1 == 1),
       s 2 [d 2 0, d 0 1, d 0 2, d 0 3, d 0 4], s 3 dst, s 4 [d 0 0, 1, 1, 1, 1], s 5 [d 0 0, 1, 1, 1, 1], s 6 dst]
    | .attn =>
      let dd := d 1 0
      let lq := d 1 1
      let h := d 1 2
      let lk := d 2 1
      let hkv := d 2 2
      let dv := d 4 1
      [s 1 [dd, lq, h, 1, 1], s 2 [dd, lk, hkv, 1, 1], s 4 [lk, dv, hkv, 1, 1],
       (5, shapeIs ops 5 fun x => x == [lk, lq, h, 1, 1] || x == [lk, lq, 1, 1, 1]), s 6 dst, s 7 [2, lq, h, 1, 1],
       s 0 [dv, lq, h, 1, 1], (1, decide (dd ≤ 256)), (4, decide (dv ≤ 256)), (2, decide (0 < hkv) && h % hkv == 0)]
    | .cvt => [s 0 a]
    | .copy | .remote =>
      let same := fmt2 ops 0 1 fun x y => x == y
      let blk := fmtIs ops 1 fun x => x.isZ || x.isMx
      let n (i : Nat) : Nat := match opAt ops i with | some x => x.t.elems | none => 0
      [(0, same), (0, n 0 == n 1), (0, !(has 1 && blk) || d 0 0 == d 1 0),
       (1, o != .remote || (match opAt ops 1 with | some x => x.t.space == 0 || x.t.space == 1 | none => true)),
       (0, o != .remote || (match opAt ops 0 with | some x => x.t.space == 2 | none => true))]
    | .gather =>
      spaceOk ++ [rank2 1, rank1 2, s 0 [d 1 0, d 2 0, 1, 1, 1], rank2 0, report]
    | .scatter =>
      spaceOk ++ [rank1 2, s 1 [d 0 0, d 2 0, 1, 1, 1], rank2 0, s 3 dst, report]
    | .segred =>
      spaceOk ++ [rank1 2, (2, decide (1 ≤ d 2 0)), s 0 [d 1 0, d 2 0 - 1, 1, 1, 1],
        (1, (List.range 3).all fun k => d 1 (k + 2) == 1), report]
    | .sort =>
      spaceOk ++ [(1, decide (d 1 0 ≤ 262144)), s 0 a, s 2 a, s 4 a, report]
    | .merge =>
      let out := d 1 0 + d 2 0
      spaceOk ++ [(2, (List.range 4).all fun k => d 1 (k + 1) == d 2 (k + 1)),
        s 0 [out, d 1 1, d 1 2, d 1 3, d 1 4], s 4 a, s 5 [d 2 0, d 1 1, d 1 2, d 1 3, d 1 4], s 6 dst, report]
    | .topk =>
      let k := c.p1 % 512
      spaceOk ++ [(0, decide (1 ≤ k) && decide (k ≤ 256)), (1, decide (d 1 0 ≤ 2 ^ 20)),
        s 0 [k, d 1 1, d 1 2, d 1 3, d 1 4], s 4 dst, report]
    | .setop =>
      spaceOk ++ [s 4 a, s 5 ((List.range 5).map fun k => d 2 k), s 6 dst, report]
    | .hashb =>
      let n := 16 + 2 * 2 ^ (c.p1 % 32)
      spaceOk ++ [s 2 a, rank1 3, s 3 [n, 1, 1, 1, 1], rank1 0, s 0 [n, 1, 1, 1, 1], report]
    | .hashp =>
      let n := 16 + 2 * 2 ^ (c.p1 % 32)
      let b := (List.range 5).map fun k => d 2 k
      spaceOk ++ [rank1 1, s 1 [n, 1, 1, 1, 1],
        (0, if bits c.p1 6 5 = 3 then d 0 0 == 2 && rankOf ops 0 == 2 else shapeIs ops 0 fun x => x == b),
        s 4 b, report]
    | _ => [])

/-- Whether `n` bytes at an address lie in one shared slab. -/
def inSharedSlab (a n : Nat) : Bool :=
  (decide (0xC0_0000_0000 ≤ a) && decide (a + n ≤ 0xC0_0600_0000)) || (decide (0xC1_0000_0000 ≤ a) && decide (a + n ≤ 0xC1_0600_0000))

/-- The place and size rules of hash tables (R147): the table is slot DST of HASHB and slot A of HASHP, and the whole of it lies
in the slab or shared slab. -/
def Cmd.hashFault (c : Cmd) (o : Op) (ops : List Operand) : Option Nat :=
  let place (i : Nat) : Nat × Bool := (i, match opAt ops i with
    | none => true
    | some x =>
      let l := c.p1 % 32
      decide (6 ≤ l) && (if x.t.space = 1 then decide (l ≤ 18) else x.t.space == 0 && inSharedSlab x.t.addr x.t.rowBytes && decide (l ≤ 22)))
  match o with
  | .hashb => firstBad [place 0, place 3]
  | .hashp => firstBad [place 1]
  | _ => none

/-! ### Class rules (R93 check 5) -/

/-- The rules of ATOMIC, WORK and CHK and of remote destinations (R112, R123, R125; log entry 22). -/
def Cmd.classFault (c : Cmd) (o : Op) (ops : List Operand) : Option Nat :=
  let atomicBad := c.atomic && (!o.atomicAllowed || !(decide (1 ≤ c.work) && decide (c.work ≤ 75))
    || (o == .copy && ops.any fun x => x.t.space == 2))
  let chkBad := c.chk && !(o == .mma && intPath ops && decide (dim ops 1 0 ≤ 2 ^ 20))
  let dstBad := o != .remote && !o.isIndex && ops.any fun x => (c.writes o).contains x.slot && x.t.space == 2
    && (o != .vprog || x.slot == 0)
  if atomicBad || chkBad then some slotNone else if dstBad then some 0 else none

end Sys2Proof.Machine
end

