-- ==== Sys2Proof/Machine/Operands.lean ====
section
/-! DEFINITION. Operand forms: how a command reads the elements of a tensor by logical index and how it packs the
rows it writes (R63 to R69, R84 to R86, R100). -/

namespace Sys2Proof.Machine

/-- A tensor as a command meets it: its descriptor, the addresses of its rows and of its companion's rows, and the
bytes that its reads deliver. A row is dimension 0; rows count dimensions 1 to 4 with dimension 1 innermost. -/
structure View where
  t : TDesc
  comp : Option TDesc
  rowAddr : Nat → Nat
  compAddr : Nat → Nat
  rd : Nat → Nat

/-- The row (i1, i2, i3, i4); an index in a dimension of size 1 counts as 0 (broadcast, R103). -/
def View.row (v : View) (i1 i2 i3 i4 : Nat) : Nat :=
  let at' (k i : Nat) : Nat := if v.t.size k = 1 then 0 else i
  at' 1 i1 + v.t.size 1 * (at' 2 i2 + v.t.size 2 * (at' 3 i3 + v.t.size 3 * at' 4 i4))

/-- Dimension `d` of row `r`. -/
def View.rowDim (v : View) (r d : Nat) : Nat :=
  match d with
  | 1 => r % v.t.size 1
  | 2 => r / v.t.size 1 % v.t.size 2
  | 3 => r / (v.t.size 1 * v.t.size 2) % v.t.size 3
  | _ => r / (v.t.size 1 * v.t.size 2 * v.t.size 3)

/-- Element k as it is stored in row r. -/
def View.stored (v : View) (r k : Nat) : FVal × NumStatus :=
  let base := v.rowAddr r
  decodeElem v.t.format (fun o => v.rd (base + o)) (v.rd (v.compAddr r + k / 32)) k

/-- The 2:4 code of group g of row r (R100). -/
def View.code (v : View) (r g : Nat) : Nat :=
  let b := v.rd (v.compAddr r + g / 2)
  if g % 2 = 0 then b % 16 else b / 16 % 16

/-- Logical element k of row r: a pruned element of a 2:4 weight is an exact zero (R73, R100). -/
def View.elem (v : View) (r k : Nat) : FVal × NumStatus :=
  if v.t.sparse then
    let c := v.code r (k / 4)
    if k % 4 = c % 4 then v.stored r (2 * (k / 4))
    else if k % 4 = c / 4 then v.stored r (2 * (k / 4) + 1)
    else (fZero, 0)
  else v.stored r k

/-- Whether some 2:4 code has its first position not below its second (R100). -/
def View.metaBad (v : View) : Bool :=
  v.t.sparse && (List.range v.t.rows).any fun r => (List.range (v.t.size 0 / 4)).any fun g =>
    decide (v.code r g / 4 ≤ v.code r g % 4)

/-- The signed value of an integer element. -/
def FVal.toInt : FVal → Int
  | .fin n m e => (if n then -(m : Int) else (m : Int)) * 2 ^ e.toNat
  | _ => 0

/-- An integer element by row and position. -/
def View.int (v : View) (r k : Nat) : Int := (v.elem r k).1.toInt

/-- Element `i` of a tensor in logical row-major order. -/
def View.lin (v : View) (i : Nat) : FVal × NumStatus := v.elem (i / v.t.size 0) (i % v.t.size 0)

/-- Element `i` in logical row-major order as an integer. -/
def View.linInt (v : View) (i : Nat) : Int := (v.lin i).1.toInt

/-- The container of element i of a tensor that is neither a Z, an MX nor a T2 tensor. -/
def View.rawLin (v : View) (i : Nat) : Nat :=
  let r := i / v.t.size 0
  let k := i % v.t.size 0
  let b := v.t.format.bits
  if b = 4 then (let x := v.rd (v.rowAddr r + k / 2); if k % 2 = 0 then x % 16 else x / 16 % 16)
  else (List.range (b / 8)).foldl (fun s j => s + v.rd (v.rowAddr r + k * (b / 8) + j) * 256 ^ j) 0

/-- The raw bytes of row r. -/
def View.rowBytes (v : View) (r : Nat) : List Byte :=
  (List.range v.t.rowBytes).map fun o => BitVec.ofNat 8 (v.rd (v.rowAddr r + o))

/-- The raw companion bytes of row r of an MX tensor. -/
def View.compBytes (v : View) (r : Nat) : List Byte :=
  (List.range ((v.t.size 0 + 31) / 32)).map fun o => BitVec.ofNat 8 (v.rd (v.compAddr r + o))

/-- Packs containers of 4 or 8·n bits into bytes (R63, R64, R67). -/
def packBits (w : Nat) (xs : List Nat) : List Byte :=
  if w = 4 then
    (List.range ((xs.length + 1) / 2)).map fun i => BitVec.ofNat 8 (xs.getD (2 * i) 0 % 16 + 16 * (xs.getD (2 * i + 1) 0 % 16))
  else xs.flatMap fun x => leBytes (w / 8) x

/-- Blocks of `n` elements of a list. -/
def chunks (n : Nat) (xs : List FVal) : List (List FVal) :=
  (List.range ((xs.length + n - 1) / n)).map fun i => (xs.drop (n * i)).take n

/-- Converts a row of values into a format: row bytes, companion bytes and status (R84 to R86). `base` is the
logical linear index of the row's first element. -/
def packRow (f : Fmt) (sat : Bool) (r : Rnd) (base : Nat) (xs : List FVal) : List Byte × List Byte × NumStatus :=
  if f.isZ then
    let bs := chunks 64 xs
    let rs := (List.range bs.length).map fun i => convZ (f == .z8) sat r (base + 64 * i) (bs.getD i [])
    (rs.flatMap Prod.fst, [], rs.foldl (fun s x => s ||| x.2) 0)
  else if f.isMx then
    let bs := chunks 32 xs
    let rs := (List.range bs.length).map fun i => convMx f r (base + 32 * i) (bs.getD i [])
    (packBits f.bits (rs.flatMap fun x => x.1), rs.map fun x => BitVec.ofNat 8 x.2.1,
     rs.foldl (fun s x => s ||| x.2.2) 0)
  else
    let rs := (List.range xs.length).map fun i => convElem f sat r (base + i) (xs.getD i fZero)
    (packBits f.bits (rs.map Prod.fst), [], rs.foldl (fun s x => s ||| x.2) 0)

/-- The zero row of R135: all bytes 0x00, for T2 every byte 0x79. -/
def zeroRow (f : Fmt) (n : Nat) : List Byte := List.replicate (f.rowBytes n) (if f = .t2 then 0x79 else 0)

/-- Element i in logical row-major order as a moved container: a NaN is written as the canonical NaN of its format (R71), an
ACC48 value sign-extended (R64). -/
def View.moved (v : View) (i : Nat) : Nat :=
  let x := (v.lin i).1
  let f := v.t.format
  if f = .acc48 then ofSigned 64 x.toInt else if x.isNan then f.float.nanBits else v.rawLin i

/-- Trit i of a T2 tensor in logical row-major order, as the digit 0 to 2 of its T5 byte (R65, R66). -/
def View.tritLin (v : View) (i : Nat) : Nat := ((v.lin i).1.toInt + 1).toNat

/-- An element byte of a moved MX row: a NaN code of an E4M3 or E5M2 element becomes the canonical one (R71; log entry 156). -/
def moxByte (f : Fmt) (b : Byte) : Byte :=
  if (f == .mxe4m3 || f == .mxe5m2) && (decodeFloat f.float b.toNat).isNan then BitVec.ofNat 8 f.float.nanBits else b

/-- The row of `n` elements from element `i` on, as the device writes it when it moves them (R63 to R68, R71): Z and MX rows
as their whole blocks. -/
def View.movedRun (v : View) (i n : Nat) : List Byte :=
  let f := v.t.format
  if f.isZ || f.isMx then (v.rowBytes (i / v.t.size 0)).map (moxByte f)
  else if f = .t2 then
    (List.range ((n + 4) / 5)).map fun b =>
      BitVec.ofNat 8 ((List.range 5).foldl (fun s j => s + (if 5 * b + j < n then v.tritLin (i + 5 * b + j) else 1) * 3 ^ j) 0)
  else packBits f.bits ((List.range n).map fun k => v.moved (i + k))

/-- What the reading of elements sets (R66, R71). -/
def View.statusOf (v : View) (is : List Nat) : NumStatus := is.foldl (fun s i => s ||| (v.lin i).2) 0

/-- What the reading of every element sets. -/
def View.readStatus (v : View) : NumStatus := v.statusOf (List.range v.t.elems)

/-- What the reading of row `r` sets. -/
def View.rowStatus (v : View) (r : Nat) : NumStatus := v.statusOf ((List.range (v.t.size 0)).map fun k => r * v.t.size 0 + k)

/-- What the execution of a command produces: writes as (address, bytes), the numeric status, and the elements
written to a variable-length destination (R133). -/
structure ExecOut where
  writes : List (Nat × List Byte)
  st : NumStatus
  produced : Option Nat
  deriving DecidableEq, Repr

/-- The outcome of a data opcode: its result, or the fault code and slot that it ends in. -/
abbrev ExecRes := Except (Nat × Nat) ExecOut

/-- Writes one row of values into a view. -/
def View.putRow (v : View) (rnd : Rnd) (r : Nat) (xs : List FVal) : List (Nat × List Byte) × NumStatus :=
  let (b, c, s) := packRow v.t.format v.t.sat rnd (r * v.t.size 0) xs
  ((v.rowAddr r, b) :: (if c.isEmpty then [] else [(v.compAddr r, c)]), s)

/-- Writes every row of a view from a function of row and position. -/
def View.putAll (v : View) (rnd : Rnd) (val : Nat → Nat → FVal × NumStatus) : List (Nat × List Byte) × NumStatus :=
  let rs := (List.range v.t.rows).map fun r =>
    let xs := (List.range (v.t.size 0)).map (val r)
    let (w, s) := v.putRow rnd r (xs.map Prod.fst)
    (w, xs.foldl (fun a x => a ||| x.2) s)
  (rs.flatMap Prod.fst, rs.foldl (fun a x => a ||| x.2) 0)

/-- Writes raw words of `n` bytes at the linear positions of a plain integer view. -/
def View.putWords (v : View) (xs : List (Nat × Int)) : List (Nat × List Byte) :=
  let w := v.t.format.intBits / 8
  xs.map fun p => (v.rowAddr (p.1 / v.t.size 0) + p.1 % v.t.size 0 * w, leBytes w (ofSigned (8 * w) p.2))

/-- The rounding mode of a command (R81 to R83). -/
def Cmd.rnd (c : Cmd) : Rnd := if c.sr then .sr c.seed else .rne

end Sys2Proof.Machine
end

