-- ==== Sys2Proof/Machine/EngineState.lean ====
section
/-! DEFINITION. The tensor engines (chapter 04) as data: issued commands, the write-combining buffer, and the registers
of an engine. -/

namespace Sys2Proof.Machine

/-- An issued command (R93 to R96). -/
structure Issued where
  cmd : Cmd
  op : Op
  /-- The tensor descriptors read at issue with their slots (R96). -/
  ops : List Operand
  /-- The command ring it came from. -/
  ring : Nat
  /-- At issue one of its extents overlapped a destination of an earlier uncommitted command (R94). -/
  heldBack : Bool
  started : Bool
  startTn : Nat
  startDt : Nat
  /-- Its data operation has been carried out, or its condition has held. -/
  done : Bool
  st : NumStatus
  /-- Output rings with the entries it produces, and input rings with the entries it reads (R95, R100). -/
  outs : List (Nat × Nat)
  ins : List (Nat × Nat)
  /-- Destination ranges that a kill leaves undefined (R120). -/
  plain : List (Nat × Nat)
  /-- Elements written to a variable-length destination (R133). -/
  produced : Option Nat
  /-- Another producer has written the entries of an output ring too (R169). -/
  clash : Bool
  /-- Bytes of SPACE 2 sources that have arrived, by global address (R264). -/
  fetched : Mem
  deriving DecidableEq, Repr

/-- An entry of the write-combining buffer (R174): a 64-byte line, its valid bytes by offset, the commands that wrote it. -/
structure WcbEntry where
  line : Nat
  bytes : Tab Byte
  seqs : List Nat
  deriving DecidableEq, Repr

/-- A store that waits for a free entry (R174). -/
structure StoreReq where
  line : Nat
  bytes : Tab Byte
  seq : Nat
  deriving DecidableEq, Repr

/-- The phase of an engine that leaves its set (R196). -/
inductive EngPhase where
  | run | draining | released
  deriving DecidableEq, Repr

/-- One engine. -/
structure Eng where
  /-- JOB and LOGICAL (TE.BIND). -/
  bound : Option (Nat × Nat)
  /-- Issued commands, oldest first, at most four (R94). -/
  issued : List Issued
  halted : Bool
  /-- A halt waits for the issued commands to commit (R477). -/
  halting : Bool
  /-- Commands that STEP still allows (R477). -/
  step : Option Nat
  suspect : Bool
  killing : Bool
  /-- The engine is being released: drain, save, clear (R196). -/
  leaving : Bool
  /-- Its release saves nothing, whatever becomes of its job: a variant switch has dropped it (R203). -/
  noSave : Bool
  faultInfo : Nat
  faultSeq : Nat
  faultAddr : Nat
  issueSeq : Nat
  kills : Nat
  checkCnt : Nat
  wcb : List WcbEntry
  stq : List StoreReq
  /-- TN of residue and checksum faults, newest first (R419). -/
  checkAt : List Nat
  deriving DecidableEq, Repr

def Eng.init : Eng :=
  { bound := none, issued := [], halted := false, halting := false, step := none, suspect := false, killing := false,
    leaving := false, noSave := false, faultInfo := 0xF00, faultSeq := 0, faultAddr := 0, issueSeq := 0, kills := 0, checkCnt := 0,
    wcb := [], stq := [], checkAt := [] }

def engDef : Nat → Eng := fun _ => Eng.init

/-- Commands an engine holds at most (R94). -/
def maxIssued : Nat := 4

/-- The command that runs: the oldest started one that is not done. -/
def Eng.running (e : Eng) : Option Issued := e.issued.find? fun i => i.started && !i.done

/-- TE.STATUS.STATE: UNBOUND, IDLE, RUNNING, WAITING. -/
def Eng.stateCode (e : Eng) : Nat :=
  if e.bound.isNone then 0
  else match e.running with
    | none => if e.issued.isEmpty then 1 else 2
    | some i => if i.op = .wait then 3 else 2

/-- TE.STATUS. -/
def Eng.status (e : Eng) : Nat :=
  e.stateCode + 4 * b2n ((e.issued.any fun i => i.cmd.atomic && i.started)) + 8 * b2n e.killing + 16 * b2n e.halted
    + 32 * b2n e.suspect + 256 * e.issued.length

/-- TE.BIND. -/
def Eng.bindWord (e : Eng) : Nat :=
  match e.bound with
  | none => 0
  | some (j, l) => j + 64 * l + 2 ^ 31

/-- TE.ID of engine n. -/
def teId (n : Nat) : Nat := n + 32 * (n / 4) + 256 * (n / 16)

/-- A line holds a valid byte of an entry. -/
def WcbEntry.has (w : WcbEntry) (a : Nat) : Bool := a / 64 == w.line && w.bytes.any fun p => p.1 == a % 64

/-- The byte an entry holds at an address. -/
def WcbEntry.byte (w : WcbEntry) (a : Nat) : Option Byte :=
  if a / 64 = w.line then (w.bytes.find? fun p => p.1 == a % 64).map Prod.snd else none

/-- Bytes of a line put over those of an entry (a zero byte is a valid byte). -/
def mergeBytes (old new : Tab Byte) : Tab Byte := new.foldl (fun t p => tins (tdel t p.1) p.1 p.2) old

/-- A store of one line: it merges into the entry of its line, takes a free entry, or waits (R174). -/
def Eng.store (e : Eng) (line : Nat) (bytes : Tab Byte) (seq : Nat) : Eng :=
  if e.stq.isEmpty && e.wcb.any (fun w => w.line == line) then
    { e with wcb := e.wcb.map fun w => if w.line = line then { w with bytes := mergeBytes w.bytes bytes, seqs := seq :: w.seqs } else w }
  else if e.stq.isEmpty && decide (e.wcb.length < 64) then { e with wcb := e.wcb ++ [⟨line, bytes, [seq]⟩] }
  else { e with stq := e.stq ++ [⟨line, bytes, seq⟩] }

/-- The stores of a byte string, one per line. -/
def linesOf (a : Nat) (bs : List Byte) : List (Nat × Tab Byte) :=
  if bs.isEmpty then []
  else
    (List.range ((a + bs.length - 1) / 64 + 1 - a / 64)).map fun k =>
      let line := a / 64 + k
      (line, (List.range 64).filterMap fun o =>
        let x := line * 64 + o
        if a ≤ x then (bs[x - a]?).map fun b => (o, b) else none)

/-- Stores that wait take entries while there is room (R174). -/
def Eng.letIn : Nat → Eng → Eng
  | 0, e => e
  | f + 1, e =>
    match e.stq with
    | [] => e
    | s :: rest =>
      if e.wcb.any fun w => w.line == s.line then Eng.letIn f ({ e with stq := [] }.store s.line s.bytes s.seq |> fun x => { x with stq := rest })
      else if e.wcb.length < 64 then Eng.letIn f { e with wcb := e.wcb ++ [⟨s.line, s.bytes, [s.seq]⟩], stq := rest }
      else e

/-- The engine holds a store of command `seq` that has not reached its ordering point. -/
def Eng.hasStores (e : Eng) (seq : Nat) : Bool :=
  e.wcb.any (fun w => w.seqs.contains seq) || e.stq.any fun s => s.seq == seq

/-- How a load of `n` bytes meets the buffer (R175). -/
inductive LoadMeet where
  | forward (bs : List Byte)
  | memory
  | waits
  deriving DecidableEq, Repr

def Eng.load (e : Eng) (a n : Nat) : LoadMeet :=
  let addrs := (List.range n).map (a + ·)
  let queued := addrs.any fun x => e.stq.any fun s => (WcbEntry.mk s.line s.bytes []).has x
  if queued then .waits
  else if !(addrs.any fun x => e.wcb.any fun w => w.has x) then .memory
  else match e.wcb.find? fun w => addrs.all w.has with
    | some w => .forward (addrs.map fun x => (w.byte x).getD 0)
    | none => .waits

end Sys2Proof.Machine
end

