-- ==== Sys2Proof/Machine/Gfx.lean ====
section
/-! DEFINITION. Graphics and display (chapter 11) as data: passes, the ray traversal unit, display pipes, composition
and safety regions. -/

namespace Sys2Proof.Machine

/-! ### Render passes (R315 to R319) -/

/-- A colour attachment of a pass. -/
structure ColAtt where
  addr : Nat
  pitch : Nat
  format : Nat
  load : Bool
  store : Bool
  reservedOk : Bool
  deriving DecidableEq, Repr

/-- A pass descriptor (R315). -/
structure Pass where
  width : Nat
  height : Nat
  samples : Nat
  depth : Nat
  ncol : Nat
  /-- DEPTH_CLEAR. -/
  clear : Nat
  seq : Nat
  cols : List ColAtt
  cmdlist : Nat
  cmdlen : Nat
  mscol : Nat
  reservedOk : Bool
  deriving DecidableEq, Repr

def ColAtt.ofBytes (b : List Byte) : ColAtt :=
  let fl := field b 13 1
  ⟨field b 0 8 % 2 ^ 40, field b 8 4, field b 12 1, bitOf fl 0, bitOf fl 1,
   field b 0 8 / 2 ^ 40 == 0 && fl / 4 == 0 && field b 14 2 == 0⟩

/-- The pass descriptor that 128 bytes spell. -/
def Pass.ofBytes (b : List Byte) : Pass :=
  let ncol := field b 6 1
  { width := field b 0 2, height := field b 2 2, samples := field b 4 1, depth := field b 5 1, ncol := ncol,
    clear := field b 8 4, seq := field b 12 4, cols := (List.range (min ncol 4)).map fun i => ColAtt.ofBytes ((b.drop (16 + 16 * i)).take 16),
    cmdlist := field b 80 8 % 2 ^ 40, cmdlen := field b 88 4, mscol := field b 96 8 % 2 ^ 40,
    reservedOk := field b 7 1 == 0 && field b 92 4 == 0 && leNat ((b.drop 104).take 24) == 0
      && field b 80 8 / 2 ^ 40 == 0 && field b 96 8 / 2 ^ 40 == 0 }

/-- Bytes per sample of a colour format. -/
def colBytes (f : Nat) : Nat :=
  match f with
  | 1 | 2 | 4 => 4
  | 3 => 8
  | _ => 0

/-- Colour bytes per sample of all attachments. -/
def Pass.colourBytes (p : Pass) : Nat := (p.cols.map fun c => colBytes c.format).foldl (· + ·) 0

/-- Tiles of the pass (R316). -/
def Pass.tiles (p : Pass) : Nat := ((p.width + 31) / 32) * ((p.height + 31) / 32)

/-- The spill need of R318. -/
def Pass.spillNeed (p : Pass) : Nat := if p.depth = 0 then 0 else p.tiles * p.samples * 4096

/-- The refusal code of a pass, 0 when it runs (R315): the first failing check in the order of the table. `okAddr` says
that an address lies in HS0, HS1 or a shared slab and outside every sealed region. -/
def Pass.code (p : Pass) (spillSize : Nat) (okAddr : Nat → Bool) : Nat :=
  if !p.reservedOk || p.cols.any (fun c => !c.reservedOk || colBytes c.format == 0)
      || decide (p.width < 1 ∨ 4096 < p.width ∨ p.height < 1 ∨ 4096 < p.height ∨ 2 < p.depth ∨ 4 < p.ncol)
      || !(p.samples == 1 || p.samples == 4) then 1
  else if 16 < p.colourBytes then 2
  else if spillSize < p.spillNeed then 3
  else if p.samples = 4 ∧ 0 < p.ncol ∧ p.mscol = 0 then 4
  else if !okAddr p.cmdlist || p.cols.any (fun c => !okAddr c.addr)
      || (p.samples == 4 && decide (0 < p.ncol) && !okAddr p.mscol) then 5
  else 0

/-- A pass completion record (chapter 11). -/
def passRecord (seq code partials dt : Nat) : List Byte :=
  leBytes 4 seq ++ leBytes 1 code ++ leBytes 3 partials ++ leBytes 8 dt

/-! ### Tiles and fragments (R316, R317, R319, R321, R322) -/

/-- What tile memory holds of one sample: the bytes of its colours, attachment by attachment, its depth and its stencil. -/
structure Sample where
  colour : List Byte
  depth : Nat
  stencil : Nat
  deriving DecidableEq, Repr

/-- The test of a fragment (R322); without a depth format there is none. -/
def Sample.test (v : Sample) (hasDepth : Bool) (key prim : Nat) (at' : Nat × Nat × Nat) (z : Option Nat) : Bool × Sample :=
  if hasDepth then
    let r := Config.fragTest key prim at' z (v.depth, v.stencil)
    (r.1, { v with depth := r.2.1, stencil := r.2.2 })
  else (true, v)

/-- A fragment of a primitive: the tests come before the shader, or after it where the shader writes depth or discards (R322). -/
def Sample.fragment (v : Sample) (hasDepth : Bool) (key prim : Nat) (at' : Nat × Nat × Nat) : Sample :=
  if Config.primLate key prim then
    match Config.fragShade key prim at' v.colour with
    | none => v
    | some s =>
      let t := v.test hasDepth key prim at' s.2
      if t.1 then { t.2 with colour := s.1 } else t.2
  else
    let t := v.test hasDepth key prim at' none
    if t.1 then
      match Config.fragShade key prim at' t.2.colour with
      | some s => { t.2 with colour := s.1 }
      | none => t.2
    else t.2

/-- The ordered sections of a sample run in the order in which their primitives were submitted, one at a time (R321): the primitives
from `lo` on, below `hi`, that cover it. -/
def Sample.run (v : Sample) (hasDepth : Bool) (key lo hi : Nat) (at' : Nat × Nat × Nat) : Sample :=
  ((List.range (hi - lo)).map (lo + ·)).foldl (fun v k =>
    if Config.primCovers key k at' then v.fragment hasDepth key k at' else v) v

/-- The bytes of attachment `i` in a sample's colours. -/
def Pass.partOf (p : Pass) (i : Nat) (colour : List Byte) : List Byte :=
  let before := ((p.cols.take i).map fun c => colBytes c.format).foldl (· + ·) 0
  let n := ((p.cols[i]?).map fun c => colBytes c.format).getD 0
  ((colour.drop before).take n ++ zeros n).take n

/-- The sum of four numbers over 4, to the nearest integer, ties to even. -/
def average4 (s : Nat) : Nat := s / 4 + (if s % 4 = 3 ∨ (s % 4 = 2 ∧ s / 4 % 2 = 1) then 1 else 0)

/-- A quarter of a value. -/
def FVal.quarter : FVal → FVal
  | .fin n m e => .fin n m (e - 2)
  | v => v

/-- The mean of four floating-point components: the exact sum over 4, rounded to nearest even. -/
def averageFloat (f : FloatFmt) (ws : List Nat) : Nat :=
  (floatOf f false .rne 0 ((ws.map (decodeFloat f)).foldl fAddExact fNegZero).quarter).1

/-- The four samples of a pixel, resolved in each component of a colour format (R316). -/
def resolvePixel (format : Nat) (ss : List (List Byte)) : List Byte :=
  let sum (f : List Byte → Nat) : Nat := (ss.map f).foldl (· + ·) 0
  match format with
  | 1 => (List.range 4).flatMap fun i => leBytes 1 (average4 (sum fun b => field b i 1))
  | 2 =>
    let part (hi lo : Nat) : Nat := average4 (sum fun b => bits (field b 0 4) hi lo) * 2 ^ lo
    leBytes 4 (part 9 0 + part 19 10 + part 29 20 + part 31 30)
  | 3 => (List.range 4).flatMap fun i => leBytes 2 (averageFloat binary16 (ss.map fun b => field b (2 * i) 2))
  | _ => leBytes 4 (averageFloat binary32 (ss.map fun b => field b 0 4))

/-- A sample of the target after the primitives below `hi`: at first the loaded or cleared colour, the clear depth, stencil 0 (R316). -/
def Pass.sample (p : Pass) (key hi : Nat) (load : Nat → Nat → List Byte) (x y s : Nat) : Sample :=
  Sample.run ⟨load x y, p.clear, 0⟩ (p.depth != 0) key 0 hi (x, y, s)

/-- A pixel of attachment `i`, resolved where the pass has four samples. -/
def Pass.pixel (p : Pass) (key hi : Nat) (load : Nat → Nat → List Byte) (i x y : Nat) : List Byte :=
  let one (s : Nat) : List Byte := p.partOf i (p.sample key hi load x y s).colour
  if p.samples = 4 then resolvePixel (((p.cols[i]?).map ColAtt.format).getD 0) ((List.range 4).map one) else one 0

/-- The rows of the attachments that `keep` names, within the target, as address and bytes (R316). -/
def Pass.rows (p : Pass) (key hi : Nat) (load : Nat → Nat → List Byte) (keep : ColAtt → Bool) : List (Nat × List Byte) :=
  (List.range p.cols.length).flatMap fun i => match p.cols[i]? with
    | some c => if keep c then
        (List.range p.height).map fun y => (c.addr + y * c.pitch, (List.range p.width).flatMap fun x => p.pixel key hi load i x y)
      else []
    | none => []

/-! ### The ray traversal unit (R323 to R326) -/

/-- A query record of 64 bytes (R324); the places of its fields are log entry 47. -/
structure RtuQuery where
  bytes : List Byte
  tag : Nat
  fromMce : Bool
  /-- The mesh entry is empty, or an MCE query's mesh lies outside the system SRAM (R325), as the entry stood when the
  query began (R323). -/
  bad : Bool
  /-- The link transforms of its pose slot, twelve numbers a link (R324, R326). -/
  poses : List Rat
  deriving DecidableEq, Repr

/-- The fields of a query in the order R324 names them: c0, c1, r, THRESH, mesh handle, POSE, EXCL, tag. -/
def RtuQuery.ofBytes (b : List Byte) (fromMce bad : Bool) (poses : List Rat) : RtuQuery := ⟨b, field b 48 2, fromMce, bad, poses⟩
/-- The pose slot that a query names, 0 to 15 (R324). -/
def queryPose (b : List Byte) : Nat := field b 36 4 % 16
/-- The mesh handle of a query. -/
def queryMesh (b : List Byte) : Nat := field b 32 4
/-- THRESH of a query. -/
def RtuQuery.thresh (q : RtuQuery) : Nat := field q.bytes 28 4

/-- An answer: the tag and either PASS or FAIL with a distance, a binary32 word. -/
structure RtuReply where
  tag : Nat
  pass : Bool
  dist : Nat
  deriving DecidableEq, Repr

/-- Minus infinity in binary32. -/
def negInf32 : Nat := 0xFF80_0000

/-! ### Display pipes (R327 to R333) -/

/-- One plane of a pipe as its eight words set it (log entry 48): address, pitch, position, size, enable. -/
structure Plane where
  addr : Nat
  pitch : Nat
  x : Nat
  y : Nat
  w : Nat
  h : Nat
  enable : Bool
  deriving DecidableEq, Repr

/-- A line of a plane that arrived late in the present frame: transparent from pixel `x` on (R331). -/
structure LateLine where
  plane : Nat
  line : Nat
  x : Nat
  deriving DecidableEq, Repr

/-- A display pipe. -/
structure Pipe where
  enable : Bool
  out10 : Bool
  timingErr : Bool
  underflow : Bool
  /-- PIPE.STATUS.LINK_DOWN; no row of the table reports the training of a display link (log entry 122). -/
  linkDown : Bool
  mismatch : Nat
  frame : Nat
  /-- TN of the latest frame boundary since the pipe was enabled; the frame it began runs. -/
  frameTn : Option Nat
  late : List LateLine
  /-- Regions that have reported in this frame. -/
  reported : List Nat
  /-- REGION.LAST by region. -/
  last : Tab Nat
  deriving DecidableEq, Repr

def Pipe.init : Pipe :=
  { enable := false, out10 := false, timingErr := false, underflow := false, linkDown := false, mismatch := 0, frame := 0,
    frameTn := none, late := [], reported := [], last := [] }

/-- PIPE.STATUS. -/
def Pipe.status (p : Pipe) : Nat :=
  b2n p.enable + 2 * b2n p.timingErr + 4 * b2n p.underflow + 8 * b2n p.linkDown + 16 * p.mismatch

/-- The timing rules of R327 and R328: active and total pixels, PCLK in kHz and PERIOD in tempos. -/
def timingOk (ha ht va vt pclk period : Nat) : Bool :=
  decide (8333 ≤ period) && decide (period ≤ 100000) && decide (1 ≤ pclk) && decide (pclk ≤ 600000)
    && ((decide (ha ≤ 3840) && decide (va ≤ 2160) && decide (16666 ≤ period)) || (decide (ha ≤ 1920) && decide (va ≤ 1080)))
    && decide (ht * vt * 1000 ≤ period * pclk) && decide (period * pclk ≤ ht * vt * 1000 + ht * 1000)

/-- One 8-bit component of source-over (R330). -/
def over8 (src dst alpha : Nat) : Nat := (src * alpha + dst * (255 - alpha) + 127) / 255

/-- A pixel as R, G, B. -/
abbrev Rgb := Nat × Nat × Nat

/-- An ARGB8888 word over a pixel (R330). -/
def overPixel (argb : Nat) (d : Rgb) : Rgb :=
  let a := bits argb 31 24
  (over8 (bits argb 23 16) d.1 a, over8 (bits argb 15 8) d.2.1 a, over8 (bits argb 7 0) d.2.2 a)

/-- Plane `i` over the pixel (x, y) so far (R330): nothing outside the plane or on a late rest of a line (R331). -/
def composeOver (pl : Plane) (i : Nat) (late : List LateLine) (rd : Nat → Nat) (x y : Nat) (c : Rgb) : Rgb :=
  if pl.enable && decide (pl.x ≤ x) && decide (x < pl.x + pl.w) && decide (pl.y ≤ y) && decide (y < pl.y + pl.h)
      && !late.any fun l => l.plane == i && l.line == y && decide (l.x ≤ x) then
    overPixel (rd (pl.addr + (y - pl.y) * pl.pitch + (x - pl.x) * 4)) c
  else c

/-- The four bytes of a pixel in a region CRC (R332). -/
def crcPixel (p : Rgb) : List Byte := leBytes 4 (p.1 * 4 + 2 ^ 10 * (p.2.1 * 4) + 2 ^ 20 * (p.2.2 * 4))

/-- The CRC of a rectangle, X1 and Y1 exclusive, row by row from the top left (R332; log entry 49). -/
def regionCrc (pix : Nat → Nat → Rgb) (x0 y0 x1 y1 : Nat) : Nat :=
  crc32c ((List.range (y1 - y0)).flatMap fun j => (List.range (x1 - x0)).flatMap fun i => crcPixel (pix (x0 + i) (y0 + j)))

/-- The graphics and display blocks. -/
structure Gfx where
  /-- The pass that runs, with its partial renders so far, and the rows that it writes at its end. -/
  pass : Option (Pass × Nat)
  rows : List (Nat × List Byte)
  partials : Nat
  /-- The 16 pose slots of the RTU: link transforms, twelve numbers a link (R324, R326). -/
  poses : Tab (List Rat)
  /-- Queries the RTU has taken and not answered. -/
  queries : List RtuQuery
  pipes : Tab Pipe
  deriving DecidableEq, Repr

def posesDef : Nat → List Rat := fun _ => []
def Gfx.init : Gfx := ⟨none, [], 0, [], [], []⟩
def pipeDef : Nat → Pipe := fun _ => Pipe.init
def Gfx.pipe (g : Gfx) (p : Nat) : Pipe := tget pipeDef g.pipes p
def Gfx.setPipe (g : Gfx) (p : Nat) (v : Pipe) : Gfx := { g with pipes := tput pipeDef g.pipes p v }

end Sys2Proof.Machine
end

