-- ==== Sys2Proof/Machine/Jobs.lean ====
section
/-! DEFINITION. Jobs (chapter 07) as data: the context record, the state of a job, and the arithmetic of trigger
counters and fault history. -/

namespace Sys2Proof.Machine

/-- The states of R189. -/
inductive JobState where
  | free | ready | running | takingBack | suspended | teardown | failed
  deriving DecidableEq, Repr

/-- The state code of R189. -/
def JobState.code : JobState → Nat
  | .free => 0 | .ready => 1 | .running => 2 | .takingBack => 3 | .suspended => 4 | .teardown => 5 | .failed => 6

/-- One variant of a job (R187). -/
structure Variant where
  lcount : Nat
  cmdRing0 : Nat
  resume : Nat
  ckptMax : Nat
  deriving DecidableEq, Repr

/-- The engines of a variant. -/
def Variant.engines (v : Variant) : Nat := v.lcount + 1

/-- A job context record (R187). -/
structure JobRec where
  rt : Bool
  autoRestart : Bool
  world : Bool
  affinity : Nat
  crossDevice : Bool
  rewind : Bool
  inst : Nat
  nvar : Nat
  quota : Nat
  weight : Nat
  openSeq : Nat
  descTable : Nat
  descCount : Nat
  saveArea : Nat
  saveRows : Nat
  complRing0 : Nat
  trigCfg : List Nat
  variants : List Variant
  /-- Every reserved field is 0 (R187). -/
  reservedOk : Bool
  deriving DecidableEq, Repr

def JobRec.empty : JobRec :=
  { rt := false, autoRestart := false, world := false, affinity := 0, crossDevice := false, rewind := false, inst := 0,
    nvar := 0, quota := 0, weight := 0, openSeq := 0, descTable := 0, descCount := 0, saveArea := 0, saveRows := 0,
    complRing0 := 0, trigCfg := [], variants := [], reservedOk := true }

/-- The 16 bytes of a variant entry. -/
def Variant.ofBytes (b : List Byte) : Variant :=
  let w := field b 8 8
  ⟨field b 0 1 % 32, field b 2 2 % 512, w % 2 ^ 40, w / 2 ^ 40⟩

/-- The reserved fields of a variant entry are 0. -/
def variantReservedOk (b : List Byte) : Bool :=
  field b 0 1 / 32 == 0 && field b 1 1 == 0 && field b 2 2 / 512 == 0 && field b 4 4 == 0

/-- The job context record that 192 bytes spell (R187). -/
def JobRec.ofBytes (b : List Byte) : JobRec :=
  let w0 := field b 0 4
  let dt := field b 16 8
  let sa := field b 24 8
  let nvar := field b 5 1 % 16
  let ent (i : Nat) : List Byte := (b.drop (64 + 16 * i)).take 16
  { rt := bitOf w0 0, autoRestart := bitOf w0 1, world := bitOf w0 2, affinity := bits w0 4 3,
    crossDevice := bitOf w0 5, rewind := bitOf w0 6, inst := field b 4 1 % 32, nvar := nvar,
    quota := field b 6 1 % 64, weight := field b 8 2, openSeq := field b 12 4,
    descTable := dt % 2 ^ 40, descCount := bits dt 51 40, saveArea := sa % 2 ^ 40, saveRows := bits sa 52 40,
    complRing0 := field b 32 2 % 512, trigCfg := (List.range 4).map fun t => field b (48 + 4 * t) 4,
    variants := (List.range (min nvar 8)).map fun i => Variant.ofBytes (ent i),
    reservedOk := w0 / 2 ^ 7 == 0 && field b 4 1 / 32 == 0 && field b 5 1 / 16 == 0 && field b 6 1 / 64 == 0
      && field b 7 1 == 0 && field b 10 2 == 0 && dt / 2 ^ 52 == 0 && sa / 2 ^ 53 == 0
      && field b 32 2 / 512 == 0 && field b 34 14 == 0
      && (List.range 8).all fun i => if i < nvar then variantReservedOk (ent i) else leNat (ent i) == 0 }

/-- One trigger configuration word: SRC and ARG in range, unused bits 0 (R208). -/
def trigCfgOk (w : Nat) : Bool :=
  let arg := w / 256
  bits w 7 3 == 0 && (match w % 8 with
    | 0 => true
    | 1 => decide (1 ≤ arg) && decide (arg ≤ 16777215)
    | 2 => arg / 64 == 0
    | 3 => arg / 16 == 0
    | 4 => arg / 256 == 0
    | 5 => arg / 512 == 0
    | _ => false)

/-- Fields of the record in range (R187, refusal reason 2). -/
def JobRec.rangesOk (r : JobRec) : Bool :=
  r.reservedOk && r.affinity != 3 && decide (1 ≤ r.nvar) && decide (r.nvar ≤ 8) && decide (1 ≤ r.quota)
    && decide (r.quota ≤ 32) && (r.rt || (decide (1 ≤ r.weight) && decide (r.weight ≤ 1000)))
    && r.descTable % 64 == 0 && r.saveArea % 512 == 0 && decide (r.saveRows ≤ 7168)
    && r.trigCfg.all trigCfgOk && r.variants.all fun v => v.resume % 8 == 0

/-- The engine counts of the variants rise strictly and none exceeds QUOTA (refusal reason 4). -/
def JobRec.countsOk (r : JobRec) : Bool :=
  let cs := r.variants.map Variant.engines
  (List.zip cs cs.tail).all (fun p => decide (p.1 < p.2)) && cs.all fun c => decide (c ≤ r.quota)

/-- What a finished release leads to (R196, R202, R204, R206, R212, R215). -/
inductive Release where
  | none | suspend | teardown | delete | toReady
  deriving DecidableEq, Repr

/-- One job. -/
structure Job where
  st : JobState
  /-- A state entered at the next tempo boundary (R189). -/
  nextSt : Option JobState
  recAddr : Nat
  rc : JobRec
  /-- WEIGHT, QUOTA and auto-restart in effect (0x3100 + j:04, 05, 0E). -/
  weight : Nat
  quota : Nat
  autoRestart : Bool
  variant : Nat
  hold : Bool
  clockHold : Bool
  quotaGrace : Bool
  /-- One bit per variant (R202). -/
  stale : Nat
  /-- The engine set in logical order; `held` also keeps engines being released (R190, R196). -/
  held : List Nat
  ckpt : Nat
  /-- A checkpoint boundary is owed for the last committed checkpoint (R117, R202). -/
  ckptOwed : Bool
  /-- TN from which the owed boundary may be taken. -/
  ckptAt : Nat
  restarts : Nat
  etime : Nat
  /-- 2^−16 engine-µs (R205). -/
  deficit : Int
  trig : List Nat
  trigOvf : Nat
  faultCode : Nat
  faultLogical : Nat
  faultReason : Nat
  /-- TN of the faults since creation or the last RESTART, newest first (R214). -/
  faults : List Nat
  /-- Openings of the command rings, by ring (R91). -/
  openings : Tab RPtr
  /-- DONE_SEQ by command ring (R92). -/
  doneSeq : Tab Nat
  /-- Checkpoint positions by ring: head and DONE_SEQ (R202). -/
  ckptPos : Tab (RPtr × Nat)
  boundAt : Nat
  /-- TN since which the job has been idle (R206). -/
  idleSince : Option Nat
  release : Release
  /-- The reason of a refused creation (R188). -/
  createReason : Nat
  /-- TN at which the present take-back began (R200). -/
  tbAt : Nat
  /-- The set resumes from saved rows (R198). -/
  reload : Bool
  /-- Engines of the set at the start of the running tempo (R205, R207). -/
  startHeld : Nat
  /-- Released because it was idle, with nothing published since (R206). -/
  dormant : Bool
  deriving DecidableEq, Repr

def Job.init : Job :=
  { st := .free, nextSt := none, recAddr := 0, rc := .empty, weight := 0, quota := 0, autoRestart := false, variant := 0,
    hold := false, clockHold := false, quotaGrace := false, stale := 0, held := [], ckpt := 0, ckptOwed := false,
    ckptAt := 0, restarts := 0, etime := 0, deficit := 0, trig := [0, 0, 0, 0], trigOvf := 0, faultCode := 0,
    faultLogical := 0, faultReason := 0, faults := [], openings := [], doneSeq := [], ckptPos := [], boundAt := 0,
    idleSince := none, release := .none, createReason := 0, tbAt := 0, reload := false, startHeld := 0, dormant := false }

def jobDef : Nat → Job := fun _ => Job.init

def Job.var (j : Job) (v : Nat) : Variant := j.rc.variants.getD v ⟨0, 0, 0, 0⟩

/-- The active variant. -/
def Job.active (j : Job) : Variant := j.var j.variant

def doneDef : Nat → Nat := fun _ => 0
def rptrDef : Nat → RPtr := fun _ => RPtr.zero
def posDef : Nat → RPtr × Nat := fun _ => (RPtr.zero, 0)

/-- The command ring of logical engine `l` in variant `v`. -/
def Variant.ring (v : Variant) (l : Nat) : Nat := v.cmdRing0 + l

/-- The rings of every variant (R213). -/
def Job.cmdRings (j : Job) : List Nat :=
  (j.rc.variants.flatMap fun v => (List.range v.engines).map v.ring).dedup

/-- Logical engines of the largest variant: the completion rings in use (R187). -/
def Job.maxEngines (j : Job) : Nat := (j.rc.variants.map Variant.engines).foldl max 0

/-- The completion rings of the job. -/
def Job.complRings (j : Job) : List Nat := (List.range j.maxEngines).map fun l => j.rc.complRing0 + l

/-- A variant is stale (R202). -/
def Job.isStale (j : Job) (v : Nat) : Bool := bitOf j.stale v

/-- SEQ `a` is later than `b` (R92). -/
def seqLater (a b : Nat) : Bool :=
  let d := (a + 2 ^ 32 - b % 2 ^ 32) % 2 ^ 32
  decide (1 ≤ d) && decide (d ≤ 2 ^ 31 - 1)

/-- The counter of R209 after `consumed` and `events`, with OVF. -/
def trigStep (old consumed events : Nat) : Nat × Bool :=
  let n := old - consumed + events
  (min 255 n, decide (255 < n))

/-- Events reach trigger input `t` of a job that is not FREE (R209, R210). -/
def Job.trigger (j : Job) (t consumed events : Nat) : Job :=
  if j.st = .free then j
  else
    let (n, o) := trigStep (j.trig.getD t 0) consumed events
    { j with trig := j.trig.set t n, trigOvf := if o && !bitOf j.trigOvf t then j.trigOvf + 2 ^ t else j.trigOvf }

/-- JOB.TRIG. -/
def Job.trigWord (j : Job) : Nat :=
  j.trig.getD 0 0 + 2 ^ 8 * j.trig.getD 1 0 + 2 ^ 16 * j.trig.getD 2 0 + 2 ^ 24 * j.trig.getD 3 0

/-- JOB.HELD: bit n set when TEn is in the set. -/
def maskOf (es : List Nat) : Nat := (List.range 32).foldl (fun m n => if es.contains n then m + 2 ^ n else m) 0

/-- JOB.STATUS. -/
def Job.status (j : Job) : Nat :=
  j.st.code + 2 ^ 3 * j.variant + 2 ^ 6 * j.held.length + 2 ^ 12 * b2n j.rc.rt + 2 ^ 13 * b2n (j.hold || j.clockHold)
    + 2 ^ 14 * b2n j.quotaGrace + 2 ^ 16 * (j.stale % 256)

/-- JOB.FAULT. -/
def Job.faultWord (j : Job) : Nat := j.faultCode + 2 ^ 8 * j.faultLogical + 2 ^ 16 * j.faultReason

/-- The fault is the third within the last 1,000 tempos (R214). -/
def Job.parks (j : Job) (tn : Nat) : Bool :=
  decide (3 ≤ (j.faults.filter fun t => decide (tn < t + 1000)).length)

end Sys2Proof.Machine
end

