-- ==== Sys2Proof/Machine/Kinematics.lean ====
section
/-! DEFINITION. The kinematics and the limits of the motion check engine (R293, R294, R299 to R302) as exact functions of the model
record, the batch and the plan: primitives, the stop primitive, link poses, sphere centres, limit checks and inflation. Sines,
cosines, square roots and the arcs of a clothoid are opaque functions (log entry 40). -/

namespace Sys2Proof.Machine

/-! ### Numbers of records -/

/-- A finite value as an exact rational. -/
def FVal.rat : FVal → Option Rat
  | .fin n m e => some ((if n then -(m : Rat) else (m : Rat)) * (if 0 ≤ e then ((2 ^ e.toNat : Nat) : Rat) else 1 / ((2 ^ (-e).toNat : Nat) : Rat)))
  | _ => none

/-- The binary32 value at byte `o`. -/
def f32At (bs : List Byte) (o : Nat) : FVal := of32 (field bs o 4)
/-- The binary16 value at byte `o`. -/
def f16At (bs : List Byte) (o : Nat) : FVal := decodeFloat binary16 (field bs o 2)
/-- A finite value, 0 where the field is not finite. -/
def FVal.ratD (v : FVal) : Rat := v.rat.getD 0
def rat32 (bs : List Byte) (o : Nat) : Rat := (f32At bs o).ratD
def rat16 (bs : List Byte) (o : Nat) : Rat := (f16At bs o).ratD
def i32At (bs : List Byte) (o : Nat) : Int := toSigned 32 (field bs o 4)

/-- `x ≤ lim` for a limit that may be infinite; a NaN limit allows nothing. -/
def leLim (x : Rat) (lim : FVal) : Bool :=
  match lim with
  | .nan => false
  | .inf neg => !neg
  | .fin .. => decide (x ≤ lim.ratD)

/-- `lim ≤ x` for a limit that may be infinite. -/
def geLim (x : Rat) (lim : FVal) : Bool :=
  match lim with
  | .nan => false
  | .inf neg => neg
  | .fin .. => decide (lim.ratD ≤ x)

/-- The magnitude of a rational. -/
def rabs (x : Rat) : Rat := if x < 0 then -x else x

/-- The least integer at or above `x`. -/
def ratCeil (x : Rat) : Int := -((-x.num) / (x.den : Int))
/-- The greatest integer at or below `x`. -/
def ratFloor (x : Rat) : Int := x.num / (x.den : Int)

/-- A rational at or below the square root of `x`, within 2^−40. -/
def sqrtBelow (x : Rat) : Rat := if x ≤ 0 then 0 else (Nat.sqrt (ratFloor (x * 2 ^ 80)).toNat : Rat) / 2 ^ 40

/-- `a + √b + √c ≤ z` exactly, for b and c not negative. -/
def leSqrts (a b c z : Rat) : Bool :=
  let r := z - a
  let w := r * r - b - c
  decide (0 ≤ r) && decide (0 ≤ w) && decide (4 * b * c ≤ w * w)

/-- The least integer n with `a + √b + √c ≤ n` (R302). -/
def ceilSqrts (a b c : Rat) : Int :=
  let n := ratCeil (a + sqrtBelow b + sqrtBelow c)
  if leSqrts a b c n then n else if leSqrts a b c (n + 1) then n + 1 else n + 2

/-! ### The machine model (R293) -/

def modelKind (m : List Byte) : Nat := field m 0 1
def modelE (m : List Byte) : Nat := field m 1 1
def modelJ (m : List Byte) : Nat := field m 2 1
def modelP (m : List Byte) : Nat := field m 3 2
/-- L = E + 1 links. -/
def modelL (m : List Byte) : Nat := modelE m + 1
/-- Bytes of a model record with the counts of its header. -/
def modelSize (m : List Byte) : Nat := 64 + 96 * modelE m + 16 * modelL m + 20 * modelP m
def jointAt (e : Nat) : Nat := 64 + 96 * e
def sphereAt (m : List Byte) (s : Nat) : Nat := 64 + 96 * modelE m + 16 * modelL m + 20 * s

/-- MOVABLE indices of the movable joint entries, in entry order. -/
def movables (m : List Byte) : List (Nat × Nat) :=
  (List.range (modelE m)).filterMap fun e =>
    if field m (jointAt e) 1 = 0 then none else some (field m (jointAt e + 2) 1, e)

/-- The joint entry of movable joint `j`. -/
def jointOf (m : List Byte) (j : Nat) : Nat := jointAt (((movables m).find? fun p => p.1 == j).map Prod.snd |>.getD 0)

/-- The model is taken (R293). -/
def modelOk (m : List Byte) : Bool :=
  decide (modelKind m ≤ 1) && decide (modelE m ≤ 63) && decide (modelJ m ≤ 48) && decide (1 ≤ modelP m)
    && decide (modelP m ≤ 256)
    && ((List.range (modelE m)).all fun e =>
      decide (field m (jointAt e) 1 ≤ 2) && decide (field m (jointAt e + 1) 1 < e + 1)
        && (field m (jointAt e) 1 != 0 || field m (jointAt e + 2) 1 == 0xFF))
    && (movables m).map Prod.fst == List.range (modelJ m)
    && (modelKind m != 1 || modelE m == 0)
    && (List.range (modelP m)).all fun s => decide (field m (sphereAt m s) 1 < modelL m)

/-- Link entries follow the joint entries. -/
def linkAt (m : List Byte) (l : Nat) : Nat := 64 + 96 * modelE m + 16 * l

/-- The binary32 values at the offsets are finite. -/
def allFinite (b : List Byte) (os : List Nat) : Bool := os.all fun o => (f32At b o).rat.isSome

/-- The largest reach in the model (R302), where every reach is finite. -/
def modelReach (m : List Byte) : Option Rat :=
  if allFinite m ((List.range (modelE m)).map fun e => jointAt e + 76) then
    some (((List.range (modelE m)).map fun e => rat32 m (jointAt e + 76)).foldl max 0)
  else none

/-! ### Elementary functions of the lanes (log entry 40) -/

def sinOf (x : Rat) : Rat := if x = 0 then 0 else Config.sine x
def cosOf (x : Rat) : Rat := if x = 0 then 1 else Config.cosine x

/-- The square root: exact where it is rational. -/
def rootOf (x : Rat) : Rat :=
  if x ≤ 0 then 0
  else
    let n := Nat.sqrt x.num.toNat
    let k := Nat.sqrt x.den
    if n * n = x.num.toNat ∧ k * k = x.den then (n : Rat) / (k : Rat) else Config.root x

/-- The binary32 word of an exact coordinate: itself where binary32 holds it. -/
def coordWord (x : Rat) : Word :=
  let w := (floatOfRat binary32 false .rne 0 (decide (x < 0)) x.num.natAbs x.den 0).1
  if (of32 w).rat = some x then BitVec.ofNat 32 w else Config.coordRound x

/-! ### Vectors, rotations and poses -/

/-- A point or a direction. -/
structure V3 where
  x : Rat
  y : Rat
  z : Rat
  deriving DecidableEq, Repr

def V3.zero : V3 := ⟨0, 0, 0⟩
def V3.add (a b : V3) : V3 := ⟨a.x + b.x, a.y + b.y, a.z + b.z⟩
def V3.sub (a b : V3) : V3 := ⟨a.x - b.x, a.y - b.y, a.z - b.z⟩
def V3.scale (k : Rat) (a : V3) : V3 := ⟨k * a.x, k * a.y, k * a.z⟩
def V3.dot (a b : V3) : Rat := a.x * b.x + a.y * b.y + a.z * b.z
def V3.cross (a b : V3) : V3 := ⟨a.y * b.z - a.z * b.y, a.z * b.x - a.x * b.z, a.x * b.y - a.y * b.x⟩

/-- Three binary32 values. -/
def v3At (b : List Byte) (o : Nat) : V3 := ⟨rat32 b o, rat32 b (o + 4), rat32 b (o + 8)⟩

/-- A rotation, by the images of the three axes. -/
structure Turn where
  ex : V3
  ey : V3
  ez : V3
  deriving DecidableEq, Repr

def Turn.one : Turn := ⟨⟨1, 0, 0⟩, ⟨0, 1, 0⟩, ⟨0, 0, 1⟩⟩
def Turn.act (r : Turn) (v : V3) : V3 := ((V3.scale v.x r.ex).add (V3.scale v.y r.ey)).add (V3.scale v.z r.ez)
def Turn.comp (a b : Turn) : Turn := ⟨a.act b.ex, a.act b.ey, a.act b.ez⟩

/-- The rotation by an angle about an axis of unit length. -/
def Turn.about (k : V3) (angle : Rat) : Turn :=
  let c := cosOf angle
  let s := sinOf angle
  let image (v : V3) : V3 := ((V3.scale c v).add (V3.scale s (k.cross v))).add (V3.scale ((1 - c) * k.dot v) k)
  ⟨image ⟨1, 0, 0⟩, image ⟨0, 1, 0⟩, image ⟨0, 0, 1⟩⟩

/-- The rotation by a rotation vector. -/
def Turn.ofVector (w : V3) : Turn :=
  let n := rootOf (w.dot w)
  if n = 0 then Turn.one else Turn.about (V3.scale (1 / n) w) n

/-- The rotation of a unit quaternion, real part first (log entry 40). -/
def Turn.ofQuat (w x y z : Rat) : Turn :=
  ⟨⟨1 - 2 * (y * y + z * z), 2 * (x * y + w * z), 2 * (x * z - w * y)⟩,
   ⟨2 * (x * y - w * z), 1 - 2 * (x * x + z * z), 2 * (y * z + w * x)⟩,
   ⟨2 * (x * z + w * y), 2 * (y * z - w * x), 1 - 2 * (x * x + y * y)⟩⟩

/-- Yaw about z, then pitch about the new y, then roll about the new x (log entry 40). -/
def Turn.ofAngles (a : V3) : Turn :=
  ((Turn.about ⟨0, 0, 1⟩ a.x).comp (Turn.about ⟨0, 1, 0⟩ a.y)).comp (Turn.about ⟨1, 0, 0⟩ a.z)

/-- A pose. -/
structure Pose where
  p : V3
  r : Turn
  deriving DecidableEq, Repr

def Pose.act (a : Pose) (v : V3) : V3 := a.p.add (a.r.act v)
def Pose.comp (a b : Pose) : Pose := ⟨a.act b.p, a.r.comp b.r⟩
/-- The twelve numbers of a pose. -/
def Pose.nums (a : Pose) : List Rat :=
  [a.p, a.r.ex, a.r.ey, a.r.ez].flatMap fun v => [v.x, v.y, v.z]

/-! ### Link poses and gravity (R294, R301) -/

/-- The frame of joint entry `e` on its parent link, before the joint moves. -/
def jointFrame (m : List Byte) (e : Nat) (parent : Pose) : Pose :=
  let o := jointAt e
  parent.comp ⟨v3At m (o + 4), Turn.ofQuat (rat32 m (o + 16)) (rat32 m (o + 20)) (rat32 m (o + 24)) (rat32 m (o + 28))⟩

/-- The numbers of a joint entry that place its link are finite. -/
def jointFinite (m : List Byte) (e : Nat) : Bool := allFinite m ((List.range 10).map fun i => jointAt e + 4 + 4 * i)

/-- The link of joint entry `e` at joint position `q`: revolute about its axis, prismatic along it. -/
def jointPose (m : List Byte) (e : Nat) (parent : Pose) (q : Rat) : Pose :=
  let f := jointFrame m e parent
  let axis := v3At m (jointAt e + 32)
  match field m (jointAt e) 1 with
  | 1 => f.comp ⟨V3.zero, Turn.about axis q⟩
  | 2 => f.comp ⟨V3.scale q axis, Turn.one⟩
  | _ => f

/-- The poses of the links for the positions `qs` of the movable joints, the base link's first (R293, R294); none where a number is
not finite. -/
def linkPoses (m : List Byte) (base : Option Pose) (qs : List Rat) : List (Option Pose) :=
  (List.range (modelE m)).foldl (fun ps e =>
    ps ++ [(ps.getD (field m (jointAt e + 1) 1) none).bind fun parent =>
      if jointFinite m e then some (jointPose m e parent (qs.getD (field m (jointAt e + 2) 1) 0)) else none]) [base]

/-- The centre of sphere `s` in the field frame (R292, R294). -/
def sphereCentre (m : List Byte) (poses : List (Option Pose)) (s : Nat) : Option V3 :=
  let o := sphereAt m s
  (poses.getD (field m o 1) none).bind fun p =>
    if allFinite m [o + 4, o + 8, o + 12] then some (p.act (v3At m (o + 4))) else none

/-- The links beyond joint entry `e`: the link that it moves and those attached to it. -/
def linksBeyond (m : List Byte) (e : Nat) : List Bool :=
  (List.range (modelE m)).foldl (fun bs i => bs ++ [i == e || bs.getD (field m (jointAt i + 1) 1) false]) [false]

/-- The gravity torque (of a prismatic joint the force) that joint entry `e` holds against (R301): minus the power of the weight of
the links beyond it, at unit speed of the joint. -/
def gravityTorque (m : List Byte) (poses : List (Option Pose)) (e : Nat) : Option Rat :=
  let g := v3At m 8
  (poses.getD (field m (jointAt e + 1) 1) none).bind fun parent =>
    let f := jointFrame m e parent
    let axis := f.r.act (v3At m (jointAt e + 32))
    let beyond := linksBeyond m e
    (List.range (modelL m)).foldl (fun acc l =>
      if beyond.getD l false then
        match acc, poses.getD l none with
        | some t, some p =>
          let o := linkAt m l
          let com := p.act (v3At m (o + 4))
          let rate := if field m (jointAt e) 1 = 1 then axis.cross (com.sub f.p) else axis
          if allFinite m [8, 12, 16, o, o + 4, o + 8, o + 12] then some (t - rat32 m o * g.dot rate) else none
        | _, _ => none
      else acc) (some 0)

/-! ### Motion in one dimension (R299, R300) -/

/-- Position, velocity, acceleration and jerk. -/
structure Motion where
  q : Rat
  v : Rat
  a : Rat
  j : Rat
  deriving DecidableEq, Repr

def Motion.zero : Motion := ⟨0, 0, 0, 0⟩

/-- A phase of constant jerk for a time `t`. -/
def Motion.after (m : Motion) (j t : Rat) : Motion :=
  ⟨m.q + m.v * t + m.a * t * t / 2 + j * t * t * t / 6, m.v + m.a * t + j * t * t / 2, m.a + j * t, j⟩

/-- The quintic from a start to an end state over H, at time t (R299). -/
def quintic (s e : Motion) (h t : Rat) : Motion :=
  let d := e.q - s.q
  let c3 := (20 * d - (8 * e.v + 12 * s.v) * h - (3 * s.a - e.a) * h ^ 2) / (2 * h ^ 3)
  let c4 := (-30 * d + (14 * e.v + 16 * s.v) * h + (3 * s.a - 2 * e.a) * h ^ 2) / (2 * h ^ 4)
  let c5 := (12 * d - (6 * e.v + 6 * s.v) * h - (s.a - e.a) * h ^ 2) / (2 * h ^ 5)
  ⟨s.q + s.v * t + s.a * t ^ 2 / 2 + c3 * t ^ 3 + c4 * t ^ 4 + c5 * t ^ 5,
   s.v + s.a * t + 3 * c3 * t ^ 2 + 4 * c4 * t ^ 3 + 5 * c5 * t ^ 4,
   s.a + 6 * c3 * t + 12 * c4 * t ^ 2 + 20 * c5 * t ^ 3,
   6 * c3 + 24 * c4 * t + 60 * c5 * t ^ 2⟩

/-- Constant jerk in each of the phases; the last phase runs on (R299). -/
def phases (s : Motion) (t : Rat) : List (Rat × Rat) → Motion
  | [] => s
  | [(_, j)] => s.after j t
  | (d, j) :: rest => if t < d then s.after j t else phases (s.after j d) (t - d) rest

/-- The sum of the durations of phases. -/
def phaseTime (ps : List (Rat × Rat)) : Rat := (ps.map Prod.fst).foldl (· + ·) 0

/-- The phases that bring velocity and acceleration from (v, a) to zero in the least time with jerk at most `jm` and acceleration at
most `am` (R300): the acceleration moves to a peak, stays there, and moves to zero. -/
def brakePhases (v a jm am : Rat) : List (Rat × Rat) :=
  -- the velocity that would remain if the acceleration went to zero at once
  let rest := v + a * rabs a / (2 * jm)
  let sg : Rat := if rest < 0 then -1 else 1
  let v := sg * v
  let a := sg * a
  if rest = 0 then (if a = 0 then [] else [(rabs a / jm, if a < 0 then jm * sg else -jm * sg)])
  else
    let peak := min am (rootOf (jm * v + a * a / 2))
    let t1 := rabs (peak + a) / jm
    let j1 := if -peak < a then -jm else jm
    let v1 := v + (a - peak) / 2 * t1
    let coast := if peak = 0 then 0 else max 0 ((v1 - peak * peak / (2 * jm)) / peak)
    [(t1, j1 * sg), (coast, 0), (peak / jm, jm * sg)]

/-- The motion of one joint, or of a vehicle along its path. -/
inductive Path where
  /-- QUINTIC: start, end and horizon. -/
  | quintic (s e : Motion) (h : Rat)
  /-- JERK: start and phases of constant jerk. -/
  | phases (s : Motion) (ps : List (Rat × Rat))
  /-- The stop primitive: the phases, and then it holds. -/
  | stop (s : Motion) (ps : List (Rat × Rat))
  deriving DecidableEq, Repr

/-- A path at a time after T0. -/
def Path.at (p : Path) (t : Rat) : Motion :=
  match p with
  | .quintic s e h => Machine.quintic s e h t
  | .phases s ps => Machine.phases s t ps
  | .stop s ps => if t < phaseTime ps then Machine.phases s t ps else ⟨(Machine.phases s (phaseTime ps) ps).q, 0, 0, 0⟩

/-! ### The base (R299) -/

/-- The base pose (position, and yaw, pitch and roll) and the base twist at T0; `finite` where every number is. -/
structure Base where
  pos : V3
  ang : V3
  vel : V3
  rate : V3
  finite : Bool
  deriving DecidableEq, Repr

/-- The base of a batch. -/
def batchBase (b : List Byte) : Base :=
  ⟨v3At b 16, v3At b 28, v3At b 40, v3At b 52, allFinite b ((List.range 12).map fun i => 16 + 4 * i)⟩

/-- The base of a plan segment, which no rule places (log entry 166). -/
def planBase (p : List Byte) (k : Nat) : Base :=
  let f (i : Nat) : Rat := Config.planBase p k i
  ⟨⟨f 0, f 1, f 2⟩, ⟨f 3, f 4, f 5⟩, ⟨f 6, f 7, f 8⟩, ⟨f 9, f 10, f 11⟩, true⟩

/-- The base of a jointed model moves at its constant twist. -/
def Base.moved (b : Base) (t : Rat) : Pose :=
  ⟨b.pos.add (V3.scale t b.vel), (Turn.ofVector (V3.scale t b.rate)).comp (Turn.ofAngles b.ang)⟩

/-- The displacement along a heading ψ + κ s + σ s²/2 over the arc from 0 to s, in the horizontal plane. -/
def arcOf (psi kap sigma s : Rat) : V3 :=
  if kap = 0 ∧ sigma = 0 then ⟨s * cosOf psi, s * sinOf psi, 0⟩
  else ⟨Config.clothoid psi kap sigma s, Config.clothoidY psi kap sigma s, 0⟩

/-- A vehicle after an arc `s` (R299): heading and position integrated from the base pose. -/
def Base.along (b : Base) (kap sigma s : Rat) : Base :=
  { b with pos := b.pos.add (arcOf b.ang.x kap sigma s),
           ang := ⟨b.ang.x + kap * s + sigma * s * s / 2, b.ang.y, b.ang.z⟩ }

/-! ### Primitives (R299, R300) -/

/-- A candidate or a segment as the lanes run it: horizon, limit instants beside the 64 (R301), one path for each movable joint or one
along the path of a vehicle, and the vehicle's curvature and curvature rate. `finite` where every number is. -/
structure Prim where
  horizon : Rat
  breaks : List Rat
  paths : List Path
  kappa : Rat
  sigma : Rat
  finite : Bool
  deriving DecidableEq, Repr

/-- Start state of joint j in a buffer whose start state is at `o`. -/
def startState (b : List Byte) (o j : Nat) : Motion := ⟨rat32 b (o + 12 * j), rat32 b (o + 12 * j + 4), rat32 b (o + 12 * j + 8), 0⟩

/-- Start-state records (chapter 10). -/
def startRecords (m : List Byte) : Nat := if modelKind m = 1 then 1 else modelJ m

/-- A start state: one motion a joint, or (v, a, κ) of a vehicle in the places of q, v and a; `finite` where every number is. -/
structure Start where
  states : List Motion
  finite : Bool
  deriving DecidableEq, Repr

/-- The start state at byte `o`. -/
def startAt (m b : List Byte) (o : Nat) : Start :=
  ⟨(List.range (startRecords m)).map (startState b o), allFinite b ((List.range (3 * startRecords m)).map fun i => o + 4 * i)⟩

/-- The seven durations of a JERK record. -/
def jerkTimes (r : List Byte) : List Rat := (List.range 7).map fun i => rat32 r (16 + 4 * i)

/-- Joint j of a candidate record from a start (R299). -/
def jointPath (r : List Byte) (s : Motion) (j : Nat) : Path :=
  if field r 0 1 = 1 then
    .quintic s ⟨rat32 r (16 + 8 * j), rat16 r (20 + 8 * j), rat16 r (22 + 8 * j), 0⟩ (rat32 r 4)
  else .phases s ((jerkTimes r).zip ((List.range 7).map fun i => rat16 r (48 + 16 * j + 2 * i)))

/-- The numbers of a candidate record are finite. -/
def recFinite (m r : List Byte) : Bool :=
  let js := List.range (modelJ m)
  let half (o : Nat) : Bool := (f16At r o).rat.isSome
  allFinite r [4] && (match field r 0 1 with
    | 1 => allFinite r (js.map fun j => 16 + 8 * j) && js.all fun j => half (20 + 8 * j) && half (22 + 8 * j)
    | 2 => allFinite r ((List.range 7).map fun i => 16 + 4 * i)
        && js.all fun j => (List.range 7).all fun i => half (48 + 16 * j + 2 * i)
    | _ => allFinite r [16, 20])

/-- The primitive of a candidate record from a start (R299). -/
def primOf (m r : List Byte) (start : Start) : Prim :=
  let h := rat32 r 4
  let fin := start.finite && recFinite m r
  if modelKind m = 1 then
    let s := start.states.getD 0 Motion.zero
    let jk := rat32 r 20
    ⟨h, [], [.phases ⟨0, s.q, s.v, jk⟩ [(h, jk)]], s.a, rat32 r 16, fin⟩
  else
    ⟨h, if field r 0 1 = 2 then (List.range 8).map fun i => ((jerkTimes r).take i).foldl (· + ·) 0 else [],
     (List.range (modelJ m)).map fun j => jointPath r (start.states.getD j Motion.zero) j, 0, 0, fin⟩

/-- The state at the end of a record, the start of the segment that follows (R306). -/
def endState (m r : List Byte) (start : Start) : Start :=
  let p := primOf m r start
  if modelKind m = 1 then
    let x := (p.paths.getD 0 (.phases Motion.zero [])).at p.horizon
    ⟨[⟨x.v, x.a, p.kappa + p.sigma * x.q, 0⟩], p.finite⟩
  else ⟨p.paths.map fun q => q.at p.horizon, p.finite⟩

/-- The braking phases of a joint or of a vehicle from (v, a), with the stop jerk and the stop acceleration at two places of the
model; free where one of them is no finite number above 0 (log entry 41). -/
def stopPhases (m : List Byte) (jerkO accO : Nat) (v a : Rat) (key : List Byte) (j : Nat) : List (Rat × Rat) :=
  match (f32At m jerkO).rat, (f32At m accO).rat with
  | some jm, some am => if 0 < jm ∧ 0 < am then brakePhases v a jm am else Config.stopPhases m key j
  | _, _ => Config.stopPhases m key j

/-- The stop primitive of a batch (R300): each joint brakes to zero velocity in the least time under its stop jerk and stop
acceleration and holds; a vehicle brakes along its path and holds κ. H is the longest braking time. -/
def stopPrim (m b : List Byte) : Prim :=
  let st := startAt m b 64
  let paths : List (Motion × List (Rat × Rat)) :=
    if modelKind m = 1 then
      let s := st.states.getD 0 Motion.zero
      [(⟨0, s.q, s.v, 0⟩, stopPhases m 52 48 s.q s.v b 0)]
    else (List.range (modelJ m)).map fun j =>
      let s := st.states.getD j Motion.zero
      let o := jointOf m j
      (s, stopPhases m (o + 84) (o + 80) s.v s.a b j)
  ⟨(paths.map fun x => phaseTime x.2).foldl max 0, [], paths.map fun x => .stop x.1 x.2,
   if modelKind m = 1 then (st.states.getD 0 Motion.zero).a else 0, 0, st.finite⟩

/-- The positions of the movable joints at a time. -/
def Prim.joints (p : Prim) (t : Rat) : List Rat := p.paths.map fun q => (q.at t).q

/-- The pose of the base link at a time: at its constant twist, or along the path of a vehicle (R299). -/
def Prim.base (p : Prim) (m : List Byte) (b : Base) (t : Rat) : Option Pose :=
  if !p.finite || !b.finite then none
  else if modelKind m = 1 then
    some ((b.along p.kappa p.sigma ((p.paths.getD 0 (.phases Motion.zero [])).at t).q).moved 0)
  else some (b.moved t)

/-- The poses of the links at a time after T0. -/
def Prim.links (p : Prim) (m : List Byte) (b : Base) (t : Rat) : List (Option Pose) :=
  linkPoses m (p.base m b t) (if modelKind m = 1 then [] else p.joints t)

/-- Sample `k` of `s` (R299). -/
def Prim.sampleTime (p : Prim) (s k : Nat) : Rat := if s ≤ 1 then 0 else (k : Rat) * p.horizon / ((s : Rat) - 1)

/-- The limit instants of R301. -/
def Prim.instants (p : Prim) : List Rat := ((List.range 64).map fun k => (k : Rat) * p.horizon / 63) ++ p.breaks

/-! ### Limits (R301) and inflation (R302) -/

/-- What the limit checks and the inflation need at one limit instant: the motions, the curvature and its rate, and the gravity torque
of each joint entry. -/
structure Instant where
  motions : List Motion
  kappa : Rat
  sigma : Rat
  gravity : List (Option Rat)
  deriving DecidableEq, Repr

/-- A primitive at its limit instants. -/
def Prim.track (p : Prim) (m : List Byte) (b : Base) : List Instant :=
  p.instants.map fun t =>
    let ms := p.paths.map fun q => q.at t
    let ps := p.links m b t
    ⟨ms, p.kappa + p.sigma * (ms.getD 0 Motion.zero).q, p.sigma, (List.range (modelE m)).map (gravityTorque m ps)⟩

/-- The approximate torque of movable joint `j` is within its limit (R301); a torque with a number that is not finite is not. -/
def torqueOk (m : List Byte) (x : Instant) (j : Nat) : Bool :=
  let o := jointOf m j
  let others := ((List.range (modelJ m)).filter fun i => i != j).foldl (fun s i => s + rabs (x.motions.getD i Motion.zero).a) 0
  match x.gravity.getD ((o - 64) / 96) none with
  | some g => allFinite m [o + 68, o + 72]
      && leLim (rabs (rat32 m (o + 68) * (x.motions.getD j Motion.zero).a + g) + rat32 m (o + 72) * others) (f32At m (o + 64))
  | none => false

/-- The limit kinds violated by a primitive, as the LIMITS bits (R301, R313). A primitive with a number that is not finite violates
every kind of its model (log entry 40). -/
def limitBits (m : List Byte) (p : Prim) (b : Base) : Nat :=
  let t := p.track m b
  let bit (ok : Bool) (i : Nat) : Nat := if ok && p.finite then 0 else 2 ^ i
  if modelKind m = 1 then
    let all (f : Motion → Rat → Rat → Bool) : Bool := t.all fun x => f (x.motions.getD 0 Motion.zero) x.kappa x.sigma
    bit (all fun _ k _ => leLim (rabs k) (f32At m 20)) 5
      + bit (all fun _ _ s => leLim (rabs s) (f32At m 24)) 6
      + bit (all fun x k _ => leLim (x.v * x.v * rabs k) (f32At m 28)) 7
      + bit (all fun x _ _ => leLim (rabs x.j) (f32At m 32)) 8
      + bit (all fun x _ _ => decide (0 ≤ x.v) && leLim x.v (f32At m 36)) 9
      + bit (all fun x _ _ => geLim x.a (f32At m 44) && leLim x.a (f32At m 40)) 10
  else
    let js := List.range (modelJ m)
    let all (f : Nat → Motion → Bool) : Bool := js.all fun j => t.all fun x => f (jointOf m j) (x.motions.getD j Motion.zero)
    bit (all fun o x => geLim x.q (f32At m (o + 44)) && leLim x.q (f32At m (o + 48))) 0
      + bit (all fun o x => leLim (rabs x.v) (f32At m (o + 52))) 1
      + bit (all fun o x => leLim (rabs x.a) (f32At m (o + 56))) 2
      + bit (all fun o x => leLim (rabs x.j) (f32At m (o + 60))) 3
      + bit (js.all fun j => t.all fun x => torqueOk m x j) 4

/-- r_e of sphere s at a pitch in micrometres (R302), where its radius is finite. -/
def sphereEighths (m : List Byte) (s pitch : Nat) : Option Int :=
  (f32At m (sphereAt m s + 16)).rat.map fun r => ratCeil (8 * r * 1000000 / (pitch : Rat))

/-- u of a primitive sampled S times (R302), in three parts: u = a + √b + √c; none where a number is not finite. -/
def inflationParts (m : List Byte) (p : Prim) (b : Base) (s : Nat) : Option (Rat × Rat × Rat) :=
  if s ≤ 1 then some (0, 0, 0)
  else if !p.finite || !b.finite then none
  else
    let k := p.horizon / ((s : Rat) - 1) / 2
    let at' (j : Nat) : List Motion := p.instants.map ((p.paths.getD j (.phases Motion.zero [])).at)
    let top (f : Motion → Rat) (j : Nat) : Rat := ((at' j).map fun x => rabs (f x)).foldl max 0
    (modelReach m).bind fun reach =>
      if modelKind m = 1 then
        let kap := ((at' 0).map fun x => rabs (p.kappa + p.sigma * x.q)).foldl max 0
        some (k * top Motion.v 0 * (1 + kap * reach), 0, 0)
      else
        let sum := (List.range (modelJ m)).foldl (fun acc j => acc + top Motion.v j * rat32 m (jointOf m j + 76)) 0
        some (k * sum, k * k * b.vel.dot b.vel, k * k * reach ^ 2 * b.rate.dot b.rate)

/-- u_e of R302 at a pitch in micrometres. -/
def inflation (m : List Byte) (p : Prim) (b : Base) (s pitch : Nat) : Option Int :=
  (inflationParts m p b s).map fun u =>
    let k : Rat := 8 * 1000000 / (pitch : Rat)
    ceilSqrts (k * u.1) (k * k * u.2.1) (k * k * u.2.2)

end Sys2Proof.Machine
end

