-- ==== Sys2Proof/Machine/Mce.lean ====
section
/-! DEFINITION. The motion check engine (chapter 10) as data, with its pure parts: the batch records, lookups,
clearances, costs, the reduction, the plan's segments, the wavefront search and the verdict record. -/

namespace Sys2Proof.Machine

/-! ### Batches (R295 to R299) -/

def batchSeq (b : List Byte) : Nat := field b 0 4
def batchC (b : List Byte) : Nat := field b 4 1
def batchS (b : List Byte) : Nat := field b 5 1
def batchLife (b : List Byte) : Nat := field b 6 2
def batchT0 (b : List Byte) : Nat := field b 8 8
/-- Where the offsets begin. -/
def offsetsAt (m : List Byte) : Nat := 64 + 12 * startRecords m
/-- Where the candidates begin: after the offsets, padded to 8 bytes. -/
def candsAt (m b : List Byte) : Nat := (offsetsAt m + 2 * (batchC b - 1) + 7) / 8 * 8
/-- Byte offset of candidate c, 1 to C − 1. -/
def candAt (m b : List Byte) (c : Nat) : Nat := field b (offsetsAt m + 2 * (c - 1)) 2

/-- Bytes of a candidate record of a type (chapter 10). -/
def candSize (m : List Byte) (type : Nat) : Nat :=
  match type with
  | 1 => 16 + 8 * modelJ m
  | 2 => 48 + 16 * modelJ m
  | _ => 32

/-- The type suits the model's KIND (R297). -/
def typeSuits (m : List Byte) (type : Nat) : Bool :=
  if modelKind m = 1 then type == 3 else type == 1 || type == 2

/-- H is finite and above 0. -/
def horizonOk (r : List Byte) : Bool := match (f32At r 4).rat with | some h => decide (0 < h) | none => false

/-- The JERK durations sum to H within one unit in the last place (R297). -/
def durationsOk (r : List Byte) : Bool :=
  let ts := (List.range 7).map fun i => f32At r (16 + 4 * i)
  match f32At r 4 with
  | .fin _ m e =>
    ts.all (fun t => t.rat.isSome)
      && decide (rabs (ts.foldl (fun s t => s + t.ratD) 0 - (FVal.fin false m e).ratD) ≤ (FVal.fin false 1 e).ratD)
  | _ => false

/-- The refusal code of a fetched batch, 0 when it is taken (R297, R298; the order of codes is log entry 42). -/
def batchCode (m b : List Byte) (len tn planA : Nat) : Nat :=
  let c := batchC b
  let s := batchS b
  if decide (65536 < len) || decide (len < 68) then 2
  else if !crcOk (len - 4) b then 1
  else if c < 1 ∨ 64 < c ∨ s < 1 ∨ 16 < s ∨ batchLife b < 1 then 3
  else if len < candsAt m b + 4 ∨ !((List.range (c - 1)).all fun i =>
      let o := candAt m b (i + 1)
      decide (candsAt m b ≤ o) && decide (o + candSize m (field b o 1) ≤ len - 4)) then 2
  else if 16384 - planA < c * s * modelP m then 4
  else if 1024 < (c * s + planA / modelP m) * ((modelL m + 15) / 16) then 5
  else if !((List.range (c - 1)).all fun i =>
      let r := b.drop (candAt m b (i + 1))
      typeSuits m (field r 0 1) && horizonOk r && (field r 0 1 != 2 || durationsOk r)) then 6
  else if batchT0 b + batchLife b ≤ tn then 7
  else 0

/-- The primitive of candidate c of a batch (R299, R300). -/
def candPrim (m b : List Byte) (c : Nat) : Prim :=
  if c = 0 then stopPrim m b else primOf m (b.drop (candAt m b c)) (startAt m b 64)

/-! ### The field (R280 to R292) -/

/-- A world brick index. -/
structure BrickIx where
  x : Int
  y : Int
  z : Int
  deriving DecidableEq, Repr

/-- A fetched brick ring entry that waits for its update window. -/
structure Brick where
  coarse : Bool
  ix : BrickIx
  /-- It passed the checks of R287 that do not depend on the window. -/
  good : Bool
  /-- TN of the tempo in which it was fetched and checked. -/
  fetchedAt : Nat
  /-- The ring and the TOTAL of the entry, which tell whether the ring's head still stands at it. -/
  ring : Nat
  total : Nat
  voxels : List Byte
  deriving DecidableEq, Repr

/-- One grid of the field: codes by (slot, voxel), tags and valid bits by slot. -/
structure Grid where
  codes : Tab Int
  tags : Tab BrickIx
  valid : Tab Bool
  deriving DecidableEq, Repr

def Grid.init : Grid := ⟨[], [], []⟩
def codeDef : Nat → Int := fun _ => 0
def tagDef : Nat → BrickIx := fun _ => ⟨0, 0, 0⟩
def boolDef : Nat → Bool := fun _ => false

/-- The slots of a grid per axis: 16 × 16 × 8 or 8 × 8 × 4 (R282). -/
def slotDim (coarse : Bool) : Nat × Nat × Nat := if coarse then (8, 8, 4) else (16, 16, 8)

/-- The number of slots. -/
def slotCount (coarse : Bool) : Nat := if coarse then 256 else 2048

/-- The slot of a world brick (R282). -/
def slotOf (coarse : Bool) (b : BrickIx) : Nat :=
  let d := slotDim coarse
  (b.x % d.1).toNat + d.1 * ((b.y % d.2.1).toNat + d.2.1 * (b.z % d.2.2).toNat)

/-- The brick lies in the window that starts at the origin (R282). -/
def inWindow (coarse : Bool) (o b : BrickIx) : Bool :=
  let d := slotDim coarse
  decide (o.x ≤ b.x) && decide (b.x < o.x + d.1) && decide (o.y ≤ b.y) && decide (b.y < o.y + d.2.1)
    && decide (o.z ≤ b.z) && decide (b.z < o.z + d.2.2)

/-- The voxel of a slot: x + 8y + 64z within the brick. -/
def voxelKey (slot : Nat) (x y z : Int) : Nat := slot * 512 + (x % 8).toNat + 8 * (y % 8).toNat + 64 * (z % 8).toNat

/-- The codes of a brick's payload: bytes of a fine brick, I16 of a coarse one (R285). -/
def Brick.code (b : Brick) (i : Nat) : Int :=
  if b.coarse then toSigned 16 (field b.voxels (2 * i) 2) else toSigned 8 (field b.voxels i 1)

/-- An applied brick replaces its slot's 512 voxels whole (R287). -/
def Grid.apply (g : Grid) (b : Brick) : Grid :=
  let s := slotOf b.coarse b.ix
  { codes := (List.range 512).foldl (fun t i => tput codeDef t (s * 512 + i) (b.code i)) g.codes,
    tags := tput tagDef g.tags s b.ix, valid := tput boolDef g.valid s true }

/-- A field reset clears every valid bit (R290). -/
def Grid.reset (g : Grid) : Grid := { g with valid := [] }

/-- Every slot has been written since the last field reset (R290). -/
def Grid.full (g : Grid) (coarse : Bool) : Bool := (List.range (slotCount coarse)).all (tget boolDef g.valid)

/-- The code of a world voxel when its slot is usable (R282). -/
def Grid.read (g : Grid) (coarse : Bool) (o : BrickIx) (x y z : Int) : Option Int :=
  let b : BrickIx := ⟨x / 8, y / 8, z / 8⟩
  let s := slotOf coarse b
  let tag := tget tagDef g.tags s
  if tget boolDef g.valid s && tag == b && inWindow coarse o tag then some (tget codeDef g.codes (voxelKey s x y z))
  else none

/-- The least of the eight corners of a cell, when all lie in usable slots (R292). -/
def Grid.corners (g : Grid) (coarse : Bool) (o : BrickIx) (x y z : Int) : Option Int :=
  (List.range 8).foldl (fun acc i =>
    match acc, g.read coarse o (x + (i % 2 : Nat)) (y + (i / 2 % 2 : Nat)) (z + (i / 4 : Nat)) with
    | some a, some v => some (min a v)
    | _, _ => none) (some 32767)

/-- The bound D of R292 in eighths of a fine voxel (none: minus infinity), and whether the lookup sets OUTSIDE; for a
centre given by three binary32 words and a pitch in micrometres. -/
def lookup (fine coarse : Grid) (of oc : BrickIx) (pitch : Nat) (p : Word × Word × Word) : Option Int × Bool :=
  match (of32 p.1.toNat).rat, (of32 p.2.1.toNat).rat, (of32 p.2.2.toNat).rat with
  | some x, some y, some z =>
    let cell (k : Nat) (v : Rat) : Int := ratFloor (v * 1000000 / ((k * pitch : Nat) : Rat))
    let f := fine.corners false of (cell 1 x) (cell 1 y) (cell 1 z)
    let c := coarse.corners true oc (cell 8 x) (cell 8 y) (cell 8 z)
    let dc := c.map fun v => v - 56
    match f with
    | some v => if v < 127 then (some (v - 7), c.isNone)
                else (some (match dc with | some d => max 120 d | none => 120), c.isNone)
    | none => (dc, c.isNone)
  | _, _, _ => (none, true)

/-! ### Checking a candidate (R303, R304) -/

/-- The result of one candidate: its least clearance (none: minus infinity), the limit bits, whether it is feasible,
its effective cost and whether a lookup was outside. -/
structure Check where
  clear : Option Int
  limits : Nat
  feasible : Bool
  cost : FVal
  outside : Bool
  deriving DecidableEq, Repr

/-- The least of clearances; minus infinity absorbs. -/
def minClear : List (Option Int) → Option Int
  | [] => some (2 ^ 31 - 1)
  | c :: cs => match c, minClear cs with
    | some a, some b => some (min a b)
    | _, _ => none

/-- The effective cost of R304, in binary32. -/
def effCost (cost w : FVal) (clearSoft m : Int) : FVal :=
  let d := (round32 (fOfInt (clearSoft - m))).1
  (add32 cost (mul32 w (max32 (fOfInt 0) d)).1).1

/-- The judgement of R303 over the clearances of a candidate. -/
def judge (cl : List (Option Int × Bool)) (limits : Nat) (cost w : FVal) (clearMin clearSoft : Int) : Check :=
  let m := minClear (cl.map Prod.fst)
  let lim := limits + (if cost.isNan then 2 ^ 11 else 0)
  let ok := match m with
    | some v => decide (clearMin ≤ v) && lim == 0
    | none => false
  ⟨m, lim, ok, effCost cost w clearSoft (m.getD 0), cl.any Prod.snd⟩

/-- The reduction of R304: equal costs go to the lower index. -/
def reduction (cs : List Check) : Option Nat :=
  (List.range cs.length).foldl (fun best c =>
    match cs[c]? with
    | none => best
    | some x =>
      if x.feasible then
        match best with
        | none => some c
        | some b => match cs[b]? with
          | some y => if fLt x.cost y.cost then some c else best
          | none => some c
      else best) none

/-! ### The record (R313) -/

/-- Record modes (R313). -/
def modeOff : Nat := 0
def modeField : Nat := 1
def modeRay : Nat := 2
def modeRayPending : Nat := 3
def modeAdjudicating : Nat := 4
def modeNoBatch : Nat := 5

/-- A verdict record. -/
structure Verdict where
  tn : Nat
  epoch : Nat
  mode : Nat
  best : Option Nat
  degraded : Bool
  repair : Bool
  waveRunning : Bool
  waveDone : Bool
  fieldFault : Bool
  outside : Bool
  newBatch : Bool
  rtuLate : Bool
  planActive : Bool
  batch : Nat
  feasible : Nat
  clear : Option Int
  cost : Nat
  limits : Nat
  dirty : Option Nat
  blocked : Option Nat
  nofeas : Nat
  applied : Nat
  dropped : Nat
  deriving DecidableEq, Repr

def Verdict.flags (r : Verdict) : Nat :=
  b2n r.degraded + 2 * b2n r.repair + 4 * b2n r.waveRunning + 8 * b2n r.waveDone + 16 * b2n r.fieldFault
    + 32 * b2n r.outside + 64 * b2n r.newBatch + 128 * b2n r.rtuLate + 256 * b2n r.planActive

/-- The 64 bytes of a verdict record (R313). -/
def Verdict.bytes (r : Verdict) : List Byte :=
  withCrc (leBytes 8 r.tn ++ leBytes 8 r.epoch ++ leBytes 1 r.mode ++ leBytes 1 (r.best.getD 0xFF) ++ leBytes 2 r.flags
    ++ leBytes 4 r.batch ++ leBytes 8 r.feasible ++ leBytes 4 (match r.clear with | some c => ofSigned 32 c | none => 2 ^ 31)
    ++ leBytes 4 r.cost ++ leBytes 4 r.limits ++ leBytes 2 (r.dirty.getD 0xFFFF) ++ leBytes 2 (r.blocked.getD 0xFFFF)
    ++ leBytes 4 r.nofeas ++ leBytes 1 r.applied ++ leBytes 1 (min 255 r.dropped) ++ zeros 6)

/-- +∞ as a record's COST. -/
def costInf : Nat := 0x7F80_0000

/-- A record that allows nothing: mask 0 and BEST 0xFF. -/
def Verdict.blank (tn epoch mode : Nat) : Verdict :=
  { tn := tn, epoch := epoch, mode := mode, best := none, degraded := false, repair := false, waveRunning := false,
    waveDone := false, fieldFault := false, outside := false, newBatch := false, rtuLate := false, planActive := false,
    batch := 0, feasible := 0, clear := none, cost := costInf, limits := 0, dirty := none,
    blocked := none, nofeas := 0, applied := 0, dropped := 0 }

/-- The record with its mode set to ADJUDICATING (R312). -/
def Verdict.adjudicate (r : Verdict) : Verdict := { r with mode := modeAdjudicating, best := none, feasible := 0, cost := costInf }

/-- The results of the candidates as a record carries them (R313). -/
def Verdict.withChecks (r : Verdict) (cs : List Check) : Verdict :=
  let best := reduction cs
  let b := (cs[best.getD 0]?)
  { r with best := best, feasible := (List.range cs.length).foldl (fun m c => match cs[c]? with
             | some x => if x.feasible then m + 2 ^ c else m
             | none => m) 0,
           clear := (b.map Check.clear).getD none,
           cost := match best with | some _ => (b.map fun x => bits32 x.cost).getD costInf | none => costInf,
           limits := (cs.foldl (fun m x => Nat.lor m x.limits) 0) + 2 ^ 16 * ((cs[0]?).map Check.limits).getD 0,
           outside := cs.any Check.outside }

/-! ### The plan (R306, R307) -/

/-- A plan segment at run time: samples passed since it became dirty or failed. -/
structure Seg where
  dirty : Bool
  blocked : Bool
  passed : Nat
  deriving DecidableEq, Repr

def segDef : Nat → Seg := fun _ => ⟨false, false, 0⟩

/-- Byte offsets of the segments of a plan with `n` of them; the segments follow the 576 bytes of the start state. -/
def segOffsets (m p : List Byte) : Nat → List Nat
  | 0 => []
  | n + 1 =>
    let prev := segOffsets m p n
    match prev.getLast? with
    | none => [576]
    | some o => prev ++ [o + 32 + candSize m (field p (o + 32) 1)]

/-- Segment `k` covers a world brick of the fine grid (R306). -/
def segCovers (m p : List Byte) (n k : Nat) (b : BrickIx) : Bool :=
  let o := (segOffsets m p n).getD k 0
  decide (i32At p o ≤ b.x) && decide (b.x ≤ i32At p (o + 12)) && decide (i32At p (o + 4) ≤ b.y)
    && decide (b.y ≤ i32At p (o + 16)) && decide (i32At p (o + 8) ≤ b.z) && decide (b.z ≤ i32At p (o + 20))

/-- The start state of segment k: the end state of the segment before it (R306). -/
def segStart (m p : List Byte) (n : Nat) : Nat → Start
  | 0 => startAt m p 0
  | k + 1 => endState m (p.drop ((segOffsets m p n).getD k 0 + 32)) (segStart m p n k)

/-- The primitive of segment k. -/
def segPrim (m p : List Byte) (n k : Nat) : Prim :=
  primOf m (p.drop ((segOffsets m p n).getD k 0 + 32)) (segStart m p n k)

/-- The base of segment k: a vehicle goes on from the end of the segment before it; else no rule places it (log entry 166). -/
def segBase (m p : List Byte) (n : Nat) : Nat → Base
  | 0 => planBase p 0
  | k + 1 =>
    if modelKind m = 1 then
      let q := segPrim m p n k
      (segBase m p n k).along q.kappa q.sigma ((q.paths.getD 0 (.phases Motion.zero [])).at q.horizon).q
    else planBase p (k + 1)

/-- The next `q` plan samples (R307): those of dirty segments first, then round-robin from `ptr`; and the pointer
after them. -/
def planPick (segs : Tab Seg) (n sPlan q ptr : Nat) : List (Nat × Nat) × Nat :=
  let dirty := (List.range n).flatMap fun k =>
    let g := tget segDef segs k
    if g.dirty then ((List.range sPlan).filter fun i => !bitOf g.passed i).map fun i => (k, i) else []
  let d := dirty.take q
  let total := n * sPlan
  if total = 0 then ([], 0)
  else
    let r := (List.range (min (q - d.length) total)).map fun i => ((ptr + i) % total / sPlan, (ptr + i) % total % sPlan)
    (d ++ r.filter (fun x => !d.contains x), (ptr + min (q - d.length) total) % total)

/-- The outcome of one plan sample (R307). -/
def Seg.sample (g : Seg) (sPlan i : Nat) (pass : Bool) : Seg :=
  if pass then
    let p := if bitOf g.passed i then g.passed else g.passed + 2 ^ i
    if p = 2 ^ sPlan - 1 then ⟨false, false, 0⟩ else { g with passed := p }
  else { g with blocked := true, passed := 0 }

/-! ### The wavefront search (R308) -/

/-- A running search: the coarse column it starts from and the epoch of its first read. -/
structure Wave where
  x : Int
  y : Int
  epoch : Nat
  startTn : Nat
  /-- Columns in which a read met an uncorrectable error: their clearance is minus infinity (R291). -/
  bad : List (Int × Int)
  deriving DecidableEq, Repr

/-- Clearance of a coarse column, none when it is unusable. -/
def columnClear (g : Grid) (o : BrickIx) (zlo zhi : Nat) (x y : Int) : Option Int :=
  ((List.range (zhi + 1 - zlo)).foldl (fun acc i =>
    match acc, g.read true o x y (o.z * 8 + ((zlo + i : Nat) : Int)) with
    | some a, some v => some (min a v)
    | _, _ => none) (some 32767)).map fun v => v - 56

/-- Breadth-first search: the queue holds paths, latest column first; every column enters once. -/
def waveSearch (opn goal : Int × Int → Bool) : Nat → List (List (Int × Int)) → List (Int × Int) → Option (List (Int × Int))
  | 0, _, _ => none
  | _, [], _ => none
  | f + 1, path :: rest, seen =>
    match path with
    | [] => waveSearch opn goal f rest seen
    | c :: _ =>
      if goal c then some path.reverse
      else
        let nb := [(c.1 + 1, c.2), (c.1, c.2 + 1), (c.1 - 1, c.2), (c.1, c.2 - 1)].filter fun n =>
          opn n && !seen.contains n
        waveSearch opn goal f (rest ++ nb.map fun n => n :: path) (seen ++ nb)

/-- MCE.WAVE_RESULT (chapter 10). -/
def waveBytes (tn first last : Nat) (path : Option (List (Int × Int))) : List Byte :=
  let cols := (path.getD []).take 64
  let cb := cols.flatMap fun c => leBytes 2 (ofSigned 16 c.1) ++ leBytes 2 (ofSigned 16 c.2)
  leBytes 8 tn ++ leBytes 8 first ++ leBytes 8 last
    ++ leBytes 1 (b2n path.isSome + 2 * b2n (decide (64 < (path.getD []).length))) ++ leBytes 1 cols.length ++ zeros 6
    ++ cb ++ zeros (256 - cb.length)

/-! ### The state of the engine -/

/-- The batch being fetched (R296). -/
structure BatchSel where
  addr : Nat
  len : Nat
  repair : Bool
  tn : Nat
  deriving DecidableEq, Repr

/-- A batch that was taken in: its fetch ended in tempo `at` (R296). -/
structure BatchIn where
  bytes : List Byte
  repair : Bool
  fetchedAt : Nat
  /-- TN of its first check, when it is in effect. -/
  since : Nat
  deriving DecidableEq, Repr

/-- What a sweep of the present ray cycle has been answered (R310). -/
inductive Sweep where
  | unsent | taken | pass | fail
  deriving DecidableEq, Repr

def sweepDef : Nat → Sweep := fun _ => .unsent

/-- The motion check engine. -/
structure Mce where
  enable : Bool
  rayEnable : Bool
  fine : Grid
  coarse : Grid
  epoch : Nat
  fieldFault : Bool
  /-- MCE.CTRL.FIELD_RESET, or another cause of a field reset, waits for the next tempo boundary. -/
  resetDue : Bool
  bricks : List Brick
  sel : Option BatchSel
  taken : List BatchIn
  eff : Option BatchIn
  batchErr : Nat
  model : Option (List Byte)
  modelStage : List Byte
  plan : List Byte
  planN : Nat
  planStage : List Byte
  segs : Tab Seg
  planNext : List (Nat × Nat)
  planPtr : Nat
  nofeas : Nat
  wave : Option Wave
  waveDone : Bool
  waveResult : List Byte
  /-- Tempo of the ray cycle, 0 to 15, while ray mode runs. -/
  rayPhase : Option Nat
  /-- The ray cycle's decision is owed (R310). -/
  rayDue : Bool
  sweeps : Tab Sweep
  /-- The record of this tempo, not yet delivered (R314). -/
  out : Option Verdict
  /-- MCE.VERDICT: the last main record. -/
  last : List Byte
  deriving DecidableEq, Repr

def Mce.init : Mce :=
  { enable := false, rayEnable := false, fine := .init, coarse := .init, epoch := 0, fieldFault := false,
    resetDue := false, bricks := [], sel := none, taken := [], eff := none, batchErr := 0, model := none,
    modelStage := [], plan := [], planN := 0, planStage := [], segs := [], planNext := [], planPtr := 0, nofeas := 0,
    wave := none, waveDone := false, waveResult := zeros 288, rayPhase := none, rayDue := false, sweeps := [],
    out := none, last := zeros 64 }

/-- The field is valid (R290): every slot written, no fault pending, a model in effect. -/
def Mce.fieldValid (m : Mce) : Bool :=
  m.fine.full false && m.coarse.full true && !m.fieldFault && m.model.isSome

/-- A field reset (R290). -/
def Mce.fieldReset (m : Mce) : Mce := { m with fine := m.fine.reset, coarse := m.coarse.reset, fieldFault := false, resetDue := false }

/-- A brick inside a segment's box, or a scroll, makes the segment dirty (R307). -/
def Mce.dirtySegs (m : Mce) (p : Nat → Bool) : Mce :=
  { m with segs := (List.range m.planN).foldl (fun t k =>
      if p k then tput segDef t k { tget segDef t k with dirty := true, passed := 0 } else t) m.segs }

/-- The lowest segment with a property. -/
def Mce.lowestSeg (m : Mce) (p : Seg → Bool) : Option Nat := (List.range m.planN).find? fun k => p (tget segDef m.segs k)

/-- Q of R298: plan samples per tempo. -/
def Mce.planQ (m : Mce) : Nat :=
  match m.model with
  | some b => if m.planN = 0 then 0 else 2048 / modelP b
  | none => 0

/-- A of R298. -/
def Mce.planA (m : Mce) : Nat := if m.planN = 0 then 0 else 2048

/-- Checks a fine entry's or coarse entry's bytes (R285, R287): CRC over the header and the payload, KIND, reserved
bytes. -/
def Brick.ofEntry (b : List Byte) (readOk : Bool) (tn ring total : Nat) : Brick :=
  let kind := field b 0 1
  let coarse := kind == 1
  let payload := (b.drop 64).take (if coarse then 1024 else 512)
  let good := readOk && decide (kind ≤ 1) && field b 60 4 == crc32c (b.take 60 ++ payload) && field b 1 3 == 0
    && leNat ((b.drop 24).take 36) == 0
  ⟨coarse, ⟨i32At b 4, i32At b 8, i32At b 12⟩, good, tn, ring, total, payload⟩

/-- Window cycles a brick costs (R286). -/
def Brick.cost (b : Brick) : Nat := if b.coarse then 16 else 8

end Sys2Proof.Machine
end

