-- ==== Sys2Proof/Machine/Notes.lean ====
section
/-! DEFINITION. What the device gives to the outside: interrupts, responses and frames, as entries of an output list. -/

namespace Sys2Proof.Machine

/-- Sources of stamped events (R56): a field or Ethernet port, on ingress and on egress, and a virtual channel of a camera receiver. -/
inductive StampSource where
  | ingress (port : Nat)
  | egress (port : Nat)
  | camera (rx vc : Nat)
  deriving DecidableEq, Repr

/-- One output of the device (the newest stands first in `Device.out`). -/
inductive Note where
  /-- A command committed with IRQ set: job and logical engine (R119). -/
  | irqCommit (job logical : Nat)
  /-- The stamp of an event: its source and the device time of its instant (R56). -/
  | stamp (source : StampSource) (dt : Nat)
  /-- An interrupt identity delivered to a file of a hart (R114, R342, R343). -/
  | irqHart (hart file identity : Nat)
  /-- An interrupt of an instance: identity (R343, R350). -/
  | irqInst (inst identity : Nat)
  /-- The error interrupt of a die's network (R240). -/
  | irqNoc (die : Nat)
  /-- The bridge error interrupt (R264, R266). -/
  | irqBridge
  /-- The castling answer: unit, and 0 for completion or the refusal reason (R345, R346). -/
  | castle (unit reason : Nat)
  /-- An integrity event for the enclave at an address (R186, R248). -/
  | integrity (addr : Nat)
  /-- The response to a bus request. -/
  | bus (port : Port) (id : Nat) (r : BusResp)
  /-- The value a register read returned, with its address. -/
  | read (addr value : Nat)
  /-- The answer of a dictionary access: abort code, 0 for success, and data. -/
  | dict (abort : Nat) (data : List Byte)
  /-- A kill or fault notice of the management lane for the firmware: source device and data (chapter 09). -/
  | notice (src : Nat) (data : List Byte)
  /-- A Celet frame sent on a port, carried as `CFrame.carriage` says (R362). -/
  | frame (port : Nat) (f : CFrame)
  /-- A Celet frame delivered to the Celet core or forwarded by rule. -/
  | deliver (f : CFrame)
  /-- An Ethernet frame bridged to the ports of a list. -/
  | ether (ports : List Nat) (bytes : List Byte)
  /-- A fabric message given to a Toterlink port. -/
  | fmsg (port : Nat) (m : FMsg)
  /-- A flit sent on a Toterlink port (R243). -/
  | flit (port : Nat) (f : Flit)
  /-- This device's contribution to the handshake of a link, with the nonce that the partner's report is to hold (R249). -/
  | share (port : Nat) (bytes nonce : List Byte)
  /-- This device's attestation report, sent on a link under its new keys (R250). -/
  | report (port : Nat) (bytes : List Byte)
  /-- A configuration sent on a port (R259). -/
  | config (port : Nat) (c : FabConfig)
  /-- RETRY_REQ sent on a port, naming a SEQ. -/
  | retryReq (port seq : Nat)
  /-- Kept flits of a port sent again, unchanged (R245). -/
  | resend (port : Nat) (flits : List Flit)
  /-- Frame ACK and data of the debug port. -/
  | dbg (ack : DbgAck) (data : List Byte)
  /-- Bytes on ARB_UART. -/
  | uart (bytes : List Byte)
  /-- An answer of the RTU: tag, PASS, distance. -/
  | rtu (tag : Nat) (pass : Bool) (dist : Nat)
  /-- A value shifted out of the TAP. -/
  | tap (value : Nat)
  /-- The value an emulated read or another instance read returned. -/
  | inst (i value : Nat)
  /-- A request was refused with a reason of its chapter. -/
  | refused (reason : Nat)
  /-- An AVSBus Voltage command on AVSBus 0: rail and mV (R450). -/
  | avs (rail mv : Nat)
  /-- SEC.CMD was written in a mailbox: command code and request length. -/
  | secCmd (secure : Bool) (code len : Nat)
  /-- Bytes written through the PCIe outbound window (R20). -/
  | pcie (addr : Nat) (data : List Byte)
  /-- The SEC answered a command: result. -/
  | sec (result : Nat)
  deriving DecidableEq, Repr

end Sys2Proof.Machine
end

