-- ==== Sys2Proof/Machine/Power.lean ====
section
/-! DEFINITION. Supplies, clocks, temperatures, reset causes and bring-up (chapter 17) as data. -/

namespace Sys2Proof.Machine

/-- The training state of a stack (0x8000:05). -/
inductive Trained where
  | untrained | training | trained | failed
  deriving DecidableEq, Repr

def Trained.code : Trained → Nat
  | .untrained => 0 | .training => 1 | .trained => 2 | .failed => 3

/-- One quad: the ceilings that R454 takes the lowest of, and its power state. -/
structure Quad where
  /-- Cap-loop ceiling, a step 0 to 9 (R457). -/
  capCeil : Nat
  /-- Thermal ceiling, a step 0 to 9 (R458). -/
  thermCeil : Nat
  /-- Held at 0.6 GHz until the next system reset (R451). -/
  avsHold : Bool
  /-- The quad's supply is on (R455). -/
  powered : Bool
  /-- Powering on: up to 50 µs and the slab clear remain (R455). -/
  powering : Bool
  deriving DecidableEq, Repr

def Quad.init : Quad := ⟨9, 9, false, true, false⟩

/-- The power, clock and reset state. -/
structure Power where
  quads : Tab Quad
  fastLimit : Bool
  /-- Consecutive rounds above the cap (R457). -/
  excursion : Nat
  gpxHalf : Bool
  avsErr : Bool
  /-- Temperatures of the 48 sensors, in 0.1 °C. -/
  temps : Tab Int
  /-- Limit on LT and BK traffic per stack in quarters taken off: 0 none to 3 (R459). -/
  hsLimit0 : Nat
  hsLimit1 : Nat
  /-- A case that reached 105 °C is held at 25% until 100 °C (R459). -/
  hsHeld0 : Bool
  hsHeld1 : Bool
  tempoMw : Nat
  roundMw : Nat
  /-- CRU.RESET_CAUSE. -/
  resetCause : Nat
  /-- Bring-up state, 0 to 5, and the milestone times in µs after power good (R466). -/
  bringUp : Nat
  milestones : List Nat
  hs0 : Trained
  hs1 : Trained
  hsTries0 : Nat
  hsTries1 : Nat
  /-- Dies held in reset by the thermal trip (R460). -/
  held : Bool
  /-- Power is good (R447). -/
  good : Bool
  /-- SYS_RST_n is low. -/
  sysPinLow : Bool
  /-- A system reset is running: it ends when the SEC starts again (R463). -/
  inSysReset : Bool
  /-- SUPPLY_EN is driven high (R465). -/
  supplyEn : Bool
  /-- A wake kept until the 10 ms point (R465). -/
  wakeKept : Bool
  /-- Keep-alive has been requested and SUPPLY_EN is low (R464). -/
  keepAlive : Bool
  /-- The calendar crystal is stopped (R453). -/
  crystalStopped : Bool
  /-- Straps as sampled at the last reset release (R484). -/
  straps : Nat
  /-- Bring-up runs again after a system reset (R463). -/
  rerun : Bool
  /-- A profile load has been tried since the last reset (R399). -/
  profileTried : Bool
  /-- DT at the last start (0x5000:03). -/
  startDt : Nat
  /-- Cause 0x10 has been logged since the last start (R425). -/
  lfLogged : Bool
  /-- The voltages of the AVS rails in mV (R450): VDD_CD0 and VDD_CD1 on AVSBus 0, VDD_HUB and VDD_SRAM on AVSBus 1. -/
  railCd0 : Nat
  railCd1 : Nat
  railHub : Nat
  railSram : Nat
  deriving DecidableEq, Repr

def Power.init : Power :=
  { quads := [], fastLimit := false, excursion := 0, gpxHalf := false, avsErr := false, temps := [], hsLimit0 := 0,
    hsLimit1 := 0, hsHeld0 := false, hsHeld1 := false, tempoMw := 0, roundMw := 0, resetCause := 0, bringUp := 0,
    milestones := [0, 0, 0, 0, 0], hs0 := .untrained, hs1 := .untrained, hsTries0 := 0, hsTries1 := 0, held := false,
    good := true, sysPinLow := false, inSysReset := false, supplyEn := true, wakeKept := false, keepAlive := false,
    crystalStopped := false, straps := 0, rerun := false, profileTried := false, startDt := 0, lfLogged := false, railCd0 := 800,
    railCd1 := 800, railHub := 750, railSram := 800 }

def quadDef : Nat → Quad := fun _ => Quad.init
def Power.quad (p : Power) (q : Nat) : Quad := tget quadDef p.quads q
def Power.setQuad (p : Power) (q : Nat) (v : Quad) : Power := { p with quads := tput quadDef p.quads q v }

/-- A sensor's temperature in 0.1 °C; no reading yet is 25 °C (log entry 1). -/
def tempDef : Nat → Int := fun _ => 250
def Power.temp (p : Power) (i : Nat) : Int := tget tempDef p.temps i

/-- The voltage of a compute die's rail. -/
def Power.rail (p : Power) (die : Nat) : Nat := if die = 0 then p.railCd0 else p.railCd1

def Power.setRail (p : Power) (die mv : Nat) : Power := if die = 0 then { p with railCd0 := mv } else { p with railCd1 := mv }

/-- The training state of stack `h`. -/
def Power.hs (p : Power) (h : Nat) : Trained := if h = 0 then p.hs0 else p.hs1

/-- A ceiling below 1.5 GHz holds on some quad. -/
def Power.anyQuad (p : Power) (f : Quad → Bool) : Bool := (List.range 8).any fun q => f (p.quad q)

/-- CRU.STATUS. -/
def Power.status (p : Power) : Nat :=
  b2n (p.anyQuad fun q => decide (q.capCeil < 9)) + 2 * b2n (decide (0 < p.excursion)) + 4 * b2n p.fastLimit
    + 8 * b2n (p.anyQuad fun q => decide (q.thermCeil < 9)) + 16 * p.hsLimit0 + 64 * p.hsLimit1 + 256 * b2n p.avsErr

end Sys2Proof.Machine
end

