-- ==== Sys2Proof/Machine/TimeBase.lean ====
section
/-! DEFINITION. Device time, external time and the calendar of chapter 02, as data, with the arithmetic on them
alone. -/

namespace Sys2Proof.Machine

/-- TB.STATUS.SYNC (chapter 02): NONE, SYNCED, HOLDOVER. -/
inductive Sync where
  | none | synced | holdover
  deriving DecidableEq, Repr

/-- The field TB.STATUS.SYNC as a number. -/
def Sync.code : Sync → Nat
  | .none => 0 | .synced => 1 | .holdover => 2

/-- The time base (R34 to R55). -/
structure TimeBase where
  /-- DT has started (R36). -/
  started : Bool
  /-- DT at the latest tempo boundary, or at time start (R34, R35). -/
  dt : Nat
  /-- The counter of free values at that instant: later ones are drawn within the tempo (R34; log entry 7). -/
  mark : Nat
  /-- A round boundary of the present TN has not yet run its per-round actions (R35). -/
  roundDue : Bool
  inStep : Bool
  king : Bool
  sync : Sync
  /-- OFFSET_NOW, in nanoseconds (R51, R52). -/
  offsetNow : Int
  /-- The target of a slew in progress (R52). -/
  slewTo : Option Int
  /-- Fraction of a nanosecond the slew has gathered, in thousandths (log entry 9). -/
  slewAcc : Nat
  stepSize : Int
  stepTn : Nat
  stepCount : Nat
  /-- The rate adjustment toward fabric time in parts per million, at most 200 either way (R34, R49). -/
  fabricPpm : Int
  deriving DecidableEq, Repr

/-- TN: DT divided by 1,000, rounded down (R35). -/
def TimeBase.tn (t : TimeBase) : Nat := t.dt / 1000

/-- DT at the instant of the running tempo at which the counter of free values stands at `fresh`, where `ns` gives free
nanoseconds (R34, R35): never before the tempo's start, never at or past the next boundary, and never before an instant at
which the counter was lower (log entry 7). -/
def TimeBase.instant (t : TimeBase) (ns : Nat → Fin 1000) (fresh : Nat) : Nat :=
  max t.dt (t.tn * 1000 + ((List.range (fresh + 1 - t.mark)).map fun k => (ns (t.mark + k)).val).foldl max 0)

/-- The time base after a power-on reset: DT has not started and reads 0 (R36). -/
def TimeBase.init : TimeBase :=
  { started := false, dt := 0, mark := 0, roundDue := false, inStep := false, king := false, sync := .none, offsetNow := 0,
    slewTo := none, slewAcc := 0, stepSize := 0, stepTn := 0, stepCount := 0, fabricPpm := 0 }

/-- TB.STATUS (chapter 02). -/
def TimeBase.status (t : TimeBase) : Nat :=
  b2n t.started + 2 * b2n t.inStep + 4 * b2n t.king + 8 * t.sync.code + 32 * b2n t.slewTo.isSome

/-- Master time M from DT (R51). -/
def masterTime (dt : Nat) (offsetNow : Int) (anchor rate : Int) : Int :=
  dt + offsetNow + ((dt : Int) - anchor) * rate / 2 ^ 40

/-- One tempo of a slew at `ppm` (R52): at 500 ppm OFFSET_NOW moves 0.5 ns in a tempo. -/
def TimeBase.slew (t : TimeBase) (ppm : Nat) : TimeBase :=
  match t.slewTo with
  | none => t
  | some target =>
    let acc := t.slewAcc + ppm
    let gap := target - t.offsetNow
    if gap.natAbs ≤ acc / 1000 then { t with offsetNow := target, slewTo := none, slewAcc := 0 }
    else { t with offsetNow := t.offsetNow + (if 0 ≤ gap then ((acc / 1000 : Nat) : Int) else -((acc / 1000 : Nat) : Int)),
                  slewAcc := acc % 1000 }

/-- What an applied offset move does to OFFSET_NOW at the boundary numbered `tn`: a slew up to 1 ms, a step
beyond it; and whether it stepped (R52). -/
def TimeBase.offsetMove (t : TimeBase) (target : Int) (tn : Nat) : TimeBase × Bool :=
  let diff := target - t.offsetNow
  if diff.natAbs ≤ 1000000 then
    ({ t with slewTo := if diff = 0 then none else some target, slewAcc := 0 }, false)
  else
    ({ t with offsetNow := target, slewTo := none, slewAcc := 0, stepSize := diff, stepTn := tn,
              stepCount := (t.stepCount + 1) % 2 ^ 32 }, true)

/-! ### The calendar (R57 to R61) -/

/-- A date and time of the calendar. -/
structure DateTime where
  year : Nat
  month : Nat
  day : Nat
  hour : Nat
  minute : Nat
  second : Nat
  deriving DecidableEq, Repr

/-- A leap year of the Gregorian rules (R57). -/
def isLeap (y : Nat) : Bool := (y % 4 == 0 && y % 100 != 0) || y % 400 == 0

/-- The length of a month (R57). -/
def monthLength (y m : Nat) : Nat :=
  match m with
  | 2 => if isLeap y then 29 else 28
  | 4 => 30 | 6 => 30 | 9 => 30 | 11 => 30
  | _ => 31

/-- Whether the date and time exist in the calendar's range (R57, R58). -/
def DateTime.valid (c : DateTime) : Bool :=
  decide (2000 ≤ c.year) && decide (c.year ≤ 2999) && decide (1 ≤ c.month) && decide (c.month ≤ 12)
    && decide (1 ≤ c.day) && decide (c.day ≤ monthLength c.year c.month) && decide (c.hour ≤ 23)
    && decide (c.minute ≤ 59) && decide (c.second ≤ 59)

/-- The last second of the calendar's range (R60). -/
def DateTime.last : DateTime := ⟨2999, 12, 31, 23, 59, 59⟩

/-- The following second (R57). -/
def DateTime.succ (c : DateTime) : DateTime :=
  if c.second < 59 then { c with second := c.second + 1 }
  else if c.minute < 59 then { c with minute := c.minute + 1, second := 0 }
  else if c.hour < 23 then { c with hour := c.hour + 1, minute := 0, second := 0 }
  else if c.day < monthLength c.year c.month then { c with day := c.day + 1, hour := 0, minute := 0, second := 0 }
  else if c.month < 12 then { c with month := c.month + 1, day := 1, hour := 0, minute := 0, second := 0 }
  else ⟨c.year + 1, 1, 1, 0, 0, 0⟩

/-- Days from 1 January 2000 to the first day of year `y`. -/
def daysToYear (y : Nat) : Nat :=
  let n := y - 2000
  365 * n + (n + 3) / 4 - (n + 99) / 100 + (n + 399) / 400

/-- Days from the start of year `y` to the start of month `m`. -/
def daysToMonth (y m : Nat) : Nat := ((List.range (m - 1)).map fun k => monthLength y (k + 1)).foldl (· + ·) 0

/-- Days since 1 January 2000. -/
def DateTime.dayNumber (c : DateTime) : Nat := daysToYear c.year + daysToMonth c.year c.month + (c.day - 1)

/-- WEEKDAY: 0 Monday to 6 Sunday; 1 January 2000 is 5 (chapter 02). -/
def DateTime.weekday (c : DateTime) : Nat := (c.dayNumber + 5) % 7

/-- The date and time `secs` seconds after 1 January 2000 00:00:00. -/
def DateTime.ofSeconds (secs : Nat) : DateTime :=
  let days := secs / 86400
  let s := secs % 86400
  let y0 := 2000 + days * 400 / 146097
  let y := if daysToYear (y0 + 1) ≤ days then y0 + 1 else if days < daysToYear y0 then y0 - 1 else y0
  let rest := days - daysToYear y
  let m := ((List.range 12).filter fun k => decide (daysToMonth y (k + 1) ≤ rest)).length
  ⟨y, m, rest - daysToMonth y m + 1, s / 3600, s / 60 % 60, s % 60⟩

/-- Seconds since 1 January 2000 00:00:00. -/
def DateTime.seconds (c : DateTime) : Nat := c.dayNumber * 86400 + c.hour * 3600 + c.minute * 60 + c.second

/-- Seconds from 1 January 1970, the epoch of gPTP time (IEEE 802.1AS), to 1 January 2000 (log entry 10). -/
def epoch2000 : Nat := 946684800

/-- The calendar of the keep-alive domain (R57 to R61). -/
structure Calendar where
  now : DateTime
  /-- CAL_SUB, in 1/32,768 s. -/
  sub : Nat
  /-- The staged CAL_DATE and CAL_TIME words (R58). -/
  stagedDate : Word
  stagedTime : Word
  /-- A write that the next tick applies (R58). -/
  pending : Option DateTime
  err : Bool
  atEnd : Bool
  sync : Bool
  /-- What a read of CAL_DATE latched for CAL_TIME and CAL_SUB (R61). -/
  latch : Option (Word × Word)
  deriving DecidableEq, Repr

/-- The calendar when its domain is first powered (log entry 1 names the date). -/
def Calendar.init : Calendar :=
  { now := ⟨2000, 1, 1, 0, 0, 0⟩, sub := 0, stagedDate := 0, stagedTime := 0, pending := none, err := false,
    atEnd := false, sync := true, latch := none }

/-- CAL_DATE (chapter 02). -/
def DateTime.dateWord (c : DateTime) : Word :=
  BitVec.ofNat 32 (c.year + c.month * 2 ^ 12 + c.day * 2 ^ 16 + c.weekday * 2 ^ 21)

/-- CAL_TIME (chapter 02). -/
def DateTime.timeWord (c : DateTime) : Word := BitVec.ofNat 32 (c.hour + c.minute * 2 ^ 8 + c.second * 2 ^ 16)

/-- The date and time that two words spell. -/
def DateTime.ofWords (dw tw : Word) : DateTime :=
  ⟨bits dw.toNat 11 0, bits dw.toNat 15 12, bits dw.toNat 20 16, bits tw.toNat 4 0, bits tw.toNat 13 8,
   bits tw.toNat 21 16⟩

/-- CAL_CTRL.SET (R58): a valid staged date waits for the next tick; an invalid one is refused whole. -/
def Calendar.set (c : Calendar) : Calendar :=
  let d := DateTime.ofWords c.stagedDate c.stagedTime
  if d.valid then { c with pending := some d } else { c with err := true }

/-- One tick of the 32.768 kHz clock and whether the calendar has come to its end (R57, R58, R60). -/
def Calendar.tick (c : Calendar) : Calendar × Bool :=
  match c.pending with
  | some d => ({ c with now := d, sub := 0, pending := none, atEnd := false }, false)
  | none =>
    if c.atEnd then (c, false)
    else if c.sub < 32767 then ({ c with sub := c.sub + 1 }, false)
    else if c.now = DateTime.last then ({ c with sub := 0x7FFF, atEnd := true }, true)
    else ({ c with now := c.now.succ, sub := 0 }, false)

/-- The calendar moves by a whole number of seconds at once (R54). A second marked 23:59:60 in the UTC view is shown as
23:59:59 held for two seconds (R57): the offset that grows by one second at its start moves the calendar, which has come to
00:00:00, back to 23:59:59. Beyond its range, and while it holds at its end (R60), the calendar stays (log entry 150). -/
def Calendar.shift (c : Calendar) (by' : Int) : Calendar :=
  let s := (c.now.seconds : Int) + by'
  let n := DateTime.ofSeconds s.toNat
  if c.atEnd || decide (s < 0) || !n.valid then c else { c with now := n }

/-- CAL_CTRL as it reads. -/
def Calendar.ctrl (c : Calendar) : Nat := 2 * b2n c.err + 4 * b2n c.atEnd + 8 * b2n c.sync

end Sys2Proof.Machine
end

