-- ==== Sys2Proof/Machine/Worlds.lean ====
section
/-! DEFINITION. Worlds, the world-assignment table, the IOMMU, interrupts and device instances (chapter 12) as data. -/

namespace Sys2Proof.Machine

/-- An APC hart (R334, R344). -/
structure Hart where
  mworld : Bool
  /-- The untagged predictors hold state since the last clear (R344): the hart has run since. -/
  predictors : Bool
  deriving DecidableEq, Repr

def Hart.init : Hart := ⟨false, false⟩
def hartDef : Nat → Hart := fun _ => Hart.init

/-- A WAT entry (R336). -/
structure WatEntry where
  world : Bool
  kind : Nat
  vmid : Nat
  inst : Nat
  moving : Bool
  deriving DecidableEq, Repr

def WatEntry.init : WatEntry := ⟨true, 0, 0, 0, false⟩
def watDef : Nat → WatEntry := fun _ => WatEntry.init

/-- The word of a WAT entry, with the unit lock of the profile. -/
def WatEntry.word (e : WatEntry) (locked : Bool) : Nat :=
  b2n e.world + 2 * e.kind + 8 * e.vmid + 2 ^ 17 * e.inst + 2 ^ 22 * b2n locked + 2 ^ 23 * b2n e.moving

/-- A castling in progress (R346). -/
structure Castling where
  world : Bool
  kind : Nat
  vmid : Nat
  inst : Nat
  ctx : Nat
  /-- The requester is the secure world. -/
  bySecure : Bool
  /-- Step 2 is done; the attributes change at the next tempo boundary. -/
  resetDone : Bool
  deriving DecidableEq, Repr

/-- One IOMMU fault (R340). -/
structure IommuFault where
  ctx : Nat
  addr : Nat
  cause : Nat
  deriving DecidableEq, Repr

/-- One cached translation of the IOTLB (R339): input page to output page, for one context and level of size. -/
structure TlbEntry where
  ctx : Nat
  /-- Input page number (4 KiB). -/
  page : Nat
  gpage : Nat
  out : Nat
  canRead : Bool
  canWrite : Bool
  asid : Nat
  vmid : Nat
  glob : Bool
  deriving DecidableEq, Repr

/-- A dirty-page log (R357). -/
structure DirtyLog where
  base : Nat
  head : RPtr
  tail : RPtr
  en : Bool
  ovf : Bool
  filter : List Nat
  deriving DecidableEq, Repr

def DirtyLog.init : DirtyLog := ⟨0, .zero, .zero, false, false, []⟩
def dlogDef : Nat → DirtyLog := fun _ => DirtyLog.init

/-- Entries of a dirty-page log (R357). -/
def dlogCount : Nat := 65536

/-- Published entries of a dirty-page log. -/
def DirtyLog.fill (l : DirtyLog) : Nat :=
  if l.head.wrap = l.tail.wrap then l.tail.index - l.head.index else dlogCount - l.head.index + l.tail.index

/-- What binds an instance (R348). -/
inductive Binding where
  | pcie | vm | fabric | none
  deriving DecidableEq, Repr

def Binding.code : Binding → Nat
  | .pcie => 0 | .vm => 1 | .fabric => 2 | .none => 3

def Binding.ofCode : Nat → Binding
  | 0 => .pcie | 1 => .vm | 2 => .fabric | _ => .none

/-- The answer that a mailbox request waits for (R353). -/
structure MboxAnswer where
  tag : List (BitVec 8)
  abort : Nat
  data : List (BitVec 8)
  deriving DecidableEq, Repr

/-- A read of an emulated word that waits for the firmware (R352): its offset, the writes that it came after and that have not been
processed, and the port and number of the bus request that waits with it. -/
structure EmuRead where
  off : Nat
  ahead : Nat
  who : Option (Port × Nat)
  deriving DecidableEq, Repr

/-- One device instance. -/
structure Inst where
  active : Bool
  binding : Binding
  world : Bool
  target : Nat
  /-- The last binding word written. -/
  bindWord : Nat
  gen : Nat
  resetting : Bool
  /-- The instance is deleted when its reset ends (R348). -/
  deleting : Bool
  dbErr : Bool
  emuTimeout : Bool
  irqDrop : Bool
  emuErr : Nat
  late : Nat
  irqDrops : Nat
  mboxBusy : Bool
  mboxDone : Bool
  mboxOverrun : Bool
  mboxLen : Nat
  staged : Option StagedParts
  answer : Option MboxAnswer
  /-- Emulated reads that wait for the firmware, oldest first (R352). -/
  emuReads : List EmuRead
  /-- Emulated writes queued for the firmware: at most 32 (R352). -/
  emuWrites : List (Nat × Nat)
  /-- Emulated writes held at their port because the queue is full (R352). -/
  emuHeld : List (Nat × Nat)
  emuTimeouts : Nat
  intTgt : Nat
  /-- Identities whose MSI-X vector was masked when they were raised: the pending bits of the page (R350). -/
  msixPending : List Nat
  deriving DecidableEq, Repr

def Inst.init : Inst :=
  { active := false, binding := .pcie, world := false, target := 0, bindWord := 0, gen := 0, resetting := false,
    deleting := false, dbErr := false, emuTimeout := false, irqDrop := false, emuErr := 0, late := 0, irqDrops := 0,
    mboxBusy := false, mboxDone := false, mboxOverrun := false, mboxLen := 0, staged := none, answer := none,
    emuReads := [], emuWrites := [], emuHeld := [], emuTimeouts := 0, intTgt := 0,
    msixPending := [] }

/-- Instance 0 always exists (R348). -/
def instDef (i : Nat) : Inst := if i = 0 then { Inst.init with active := true } else Inst.init

/-- INST.ID. -/
def Inst.idWord (n : Inst) (i : Nat) : Nat := i + 32 * n.binding.code + 128 * b2n n.world + 256 * n.gen

/-- INST.STATUS. -/
def Inst.statusWord (n : Inst) : Nat :=
  b2n n.active + 2 * b2n n.resetting + 4 * b2n n.dbErr + 8 * b2n n.emuTimeout + 16 * b2n n.irqDrop

/-- INST.MBOX_STATUS. -/
def Inst.mboxWord (n : Inst) : Nat := b2n n.mboxBusy + 2 * b2n n.mboxDone + 4 * b2n n.mboxOverrun

/-- An invalidation (R341): the scope word and the page number. -/
structure Inval where
  word : Nat
  page : Nat
  deriving DecidableEq, Repr

/-- The processors, worlds and instances of the device. -/
structure Proc where
  harts : Tab Hart
  wat : Tab WatEntry
  castlings : Tab Castling
  /-- The last castling refusal or completion for the requester: unit and reason, 0 for completion. -/
  castleResult : Option (Nat × Nat)
  srcCtx : Tab Nat
  faultLog : List IommuFault
  faultLost : Nat
  tlb : List TlbEntry
  invalBusy : Option Inval
  invalHeld : List Inval
  invalDone : Bool
  invalAddr : Nat
  dlogs : Tab DirtyLog
  insts : Tab Inst
  /-- Pending identities by interrupt file: hart × 7 + file (R342). -/
  imsic : Tab (List Nat)
  /-- Wired interrupts of the APLIC that are pending, by WAT unit (R342). -/
  aplic : List Nat
  /-- PCIe link (R24) and mode: endpoint or root port (R348). -/
  pcieUp : Bool
  endpoint : Bool
  vfEnable : Bool
  deriving DecidableEq, Repr

def Proc.init : Proc :=
  { harts := [], wat := [], castlings := [], castleResult := none, srcCtx := [], faultLog := [], faultLost := 0,
    tlb := [], invalBusy := none, invalHeld := [], invalDone := true, invalAddr := 0, dlogs := [], insts := [],
    imsic := [], aplic := [], pcieUp := false, endpoint := true, vfEnable := false }

def ctxDef : Nat → Nat := fun _ => 0
def fileDef : Nat → List Nat := fun _ => []

def Proc.hart (p : Proc) (h : Nat) : Hart := tget hartDef p.harts h
def Proc.watEntry (p : Proc) (u : Nat) : WatEntry := tget watDef p.wat u
def Proc.inst (p : Proc) (i : Nat) : Inst := tget instDef p.insts i
def Proc.setInst (p : Proc) (i : Nat) (n : Inst) : Proc := { p with insts := tput instDef p.insts i n }
def Proc.dlog (p : Proc) (i : Nat) : DirtyLog := tget dlogDef p.dlogs i
def Proc.setDlog (p : Proc) (i : Nat) (l : DirtyLog) : Proc := { p with dlogs := tput dlogDef p.dlogs i l }

/-- A castling of the unit is in progress. -/
def Proc.castling (p : Proc) (u : Nat) : Option Castling := (p.castlings.find? fun c => c.1 == u).map Prod.snd

/-- Castable units (R336). -/
def castable (u : Nat) : Bool := decide (u ≤ 0x37) || (decide (0x80 ≤ u) && decide (u ≤ 0xFF))

/-- A fault of the IOMMU is logged, or counted as lost when the log is full (R340). -/
def Proc.fault (p : Proc) (f : IommuFault) : Proc :=
  if p.faultLog.length < 64 then { p with faultLog := p.faultLog ++ [f] }
  else { p with faultLost := min (2 ^ 32 - 1) (p.faultLost + 1) }

end Sys2Proof.Machine
end

