-- ==== Sys2Proof/Machine/Device.lean ====
section
/-! DEFINITION. The device: every register, memory, queue and mode that the specification gives the block, the command
queue apart. Each group is the structure of its chapter. -/

namespace Sys2Proof.Machine

/-- The scheduler's own state (R190 to R207). -/
structure Sched where
  /-- Engines out of service, a mask (0x3000:09). -/
  oos : Nat
  /-- Jobs whose binding has begun and waits, in order of need; and the reservation words in effect (0x3000:01 to 08). -/
  reservations : Tab Nat
  deriving DecidableEq, Repr

/-- The device. -/
structure Device where
  /-- Memories by package-local address, operand slabs and SRAM among them; above 2^50 the program stores of the vector
  units, 64 KiB for each logical engine of each job (R109). -/
  mem : Mem
  /-- Ranges whose contents are undefined. -/
  scrambles : List Scramble
  tb : TimeBase
  cal : Calendar
  /-- Blocks with sealed moves, by BlockId.key. -/
  moves : Tab MoveBlk
  /-- TB.GROUP_CTRL[1..16].MEMBERS (R46). -/
  groups : Tab Nat
  rings : Tab Ring
  jobs : Tab Job
  sched : Sched
  eng : Tab Eng
  noc : Noc
  stk : Stk
  proc : Proc
  fab : Fab
  mce : Mce
  gfx : Gfx
  fgw : Gateway
  dict : Dict
  arb : Arb
  sec : Sec
  pwr : Power
  dbg : Dbg
  /-- Plain RW registers by address, where a register has no other home. -/
  regs : Tab Word
  /-- Words of registers with access code RC, by address; no register table names one (log entry 86). -/
  rcs : Tab Word
  /-- Holding registers of 64-bit counters by the address of the low word (R237), and staged halves of other 64-bit
  registers. -/
  holds : Tab Word
  /-- Outputs, newest first. -/
  out : List Note
  /-- The model's own counter of free values (log entry 5). -/
  fresh : Nat
  deriving DecidableEq, Repr

/-! ### Reading and writing memory -/

/-- The free byte that a scrambled range adds at an address. -/
def scrambleAt : List Scramble → Nat → Byte
  | [], _ => 0
  | s :: ss, a => (if s.lo ≤ a ∧ a < s.hi then Config.freeByte (s.seed * 2 ^ 46 + a) else 0) ^^^ scrambleAt ss a

/-- One byte of memory as a reader sees it. -/
def Device.byte (d : Device) (a : Nat) : Byte := mget d.mem a ^^^ scrambleAt d.scrambles a

/-- Writes one byte. -/
def Device.putByte (d : Device) (a : Nat) (v : Byte) : Device := { d with mem := mput d.mem a (v ^^^ scrambleAt d.scrambles a) }

/-- `n` bytes from `a` on. -/
def Device.bytes (d : Device) (a n : Nat) : List Byte := (List.range n).map fun i => d.byte (a + i)

/-- A little-endian number of `n` bytes. -/
def Device.nat (d : Device) (a n : Nat) : Nat := leNat (d.bytes a n)

/-- Writes bytes from `a` on. -/
def Device.put (d : Device) (a : Nat) : List Byte → Device
  | [] => d
  | b :: bs => (d.putByte a b).put (a + 1) bs

/-- Writes a list of byte strings. -/
def Device.putAll (d : Device) (ws : List (Nat × List Byte)) : Device := ws.foldl (fun d w => d.put w.1 w.2) d

/-- The bytes of [lo, hi) become undefined. -/
def Device.scramble (d : Device) (lo hi : Nat) : Device :=
  if lo < hi then { d with scrambles := ⟨lo, hi, d.fresh⟩ :: d.scrambles, fresh := d.fresh + 1 } else d

/-- Zeros over [lo, hi). -/
def Device.zero (d : Device) (lo hi : Nat) : Device :=
  if hi ≤ lo then d
  else
    { d with mem := (d.mem.filter fun p => !(decide (lo ≤ p.1) && decide (p.1 < hi))),
             scrambles := d.scrambles.flatMap fun s =>
               [⟨s.lo, min s.hi lo, s.seed⟩, ⟨max s.lo hi, s.hi, s.seed⟩].filter fun s => decide (s.lo < s.hi) }

/-! ### Names of groups -/

def moveDef : Nat → MoveBlk := fun _ => MoveBlk.init

def Device.blk (d : Device) (b : BlockId) : MoveBlk := tget moveDef d.moves b.key
def Device.setBlk (d : Device) (b : BlockId) (v : MoveBlk) : Device := { d with moves := tput moveDef d.moves b.key v }
def Device.ring (d : Device) (n : Nat) : Ring := tget ringDef d.rings n
def Device.setRing (d : Device) (n : Nat) (r : Ring) : Device := { d with rings := tput ringDef d.rings n r }
def Device.job (d : Device) (j : Nat) : Job := tget jobDef d.jobs j
def Device.setJob (d : Device) (j : Nat) (v : Job) : Device := { d with jobs := tput jobDef d.jobs j v }
def Device.engine (d : Device) (e : Nat) : Eng := tget engDef d.eng e
def Device.setEng (d : Device) (e : Nat) (v : Eng) : Device := { d with eng := tput engDef d.eng e v }

/-- TN. -/
def Device.tn (d : Device) : Nat := d.tb.tn

/-- DT at the present instant of the running tempo (R34, R56, log entry 7), and the device with its counter advanced. DT reads
0 before time start (R36). -/
def Device.stamp (d : Device) : Nat × Device :=
  (if d.tb.started then d.tb.instant Config.freeNs d.fresh else 0, { d with fresh := d.fresh + 1 })

/-- Gives something to the outside. -/
def Device.note (d : Device) (n : Note) : Device := { d with out := n :: d.out }

/-- Stamps an event with the device time of its instant (R56). -/
def Device.stampEvent (d : Device) (s : StampSource) : Device :=
  let (t, d) := d.stamp
  d.note (.stamp s t)

/-- Logs an event of the Telemetry range (R394): an instance as the source, or a block, whose number the specification
does not state (log entry 65). -/
def Device.event (d : Device) (code : Nat) (source : Option Nat) (arg : Nat) : Device :=
  let (t, d) := d.stamp
  { d with dict := d.dict.event ⟨t, code, source.getD ((Config.freeWord d.fresh).toNat % 2 ^ 16), arg % 2 ^ 32⟩,
           fresh := d.fresh + 1 }

/-- An exhaustion event (R31). -/
def Device.exhausted (d : Device) (code : Nat) : Device := d.event evExhaustion none code

/-- A counter of the address `a` takes `n` more. -/
def Device.count (d : Device) (a n : Nat) : Device := { d with noc := d.noc.count a n }

end Sys2Proof.Machine
end

