-- ==== Sys2Proof/Machine/Ops.lean ====
section
/-! DEFINITION. Shared operations of the device: addresses of the register windows, settings and their sealed moves,
boundaries, region checks and memory access. -/

namespace Sys2Proof.Machine

/-! ### Register windows (R20, R22, R24) -/

def cruBase : Nat := 0xF0_0000_0000
def mirrorBase : Nat := 0xF0_0100_0000
def secBase : Nat := 0xF0_0200_0000
def fwcBase : Nat := 0xF0_0300_0000
def mceBase : Nat := 0xF0_0500_0000
def gpxBase : Nat := 0xF0_0600_0000
def dcuBase : Nat := 0xF0_0700_0000
def pipeBase (p : Nat) : Nat := dcuBase + 0x1000 + p * 0x400
def fgwBase : Nat := 0xF0_0800_0000
def fportBase (p : Nat) : Nat := fgwBase + 0x1000 + p * 0x40
def tlBase : Nat := 0xF0_0900_0000
def iommuBase : Nat := 0xF0_0C00_0000
def tbBase : Nat := 0xF0_0D00_0000
def dieBase (die : Nat) : Nat := if die = 0 then 0xF1_0000_0000 else 0xF2_0000_0000
def commonBase (die : Nat) : Nat := dieBase die + 0x0100_0000
def teBase (e : Nat) : Nat := dieBase (e / 16) + e % 16 * 0x10_0000
def stackBase (h : Nat) : Nat := 0xF3_0000_0000 + h * 0x0100_0000
/-- First checker register of a checker set (chapter 06). -/
def rgnBase (set : Nat) : Nat := if set < 2 then stackBase set + 0x1000 else commonBase (set - 2) + 0x20_0000

/-! ### Settings -/

/-- The value in effect of a setting after reset, by the address of its word: the reset value of its field table, the
default of the dictionary entry of the same setting, else 0 (log entry 1). -/
def swReset (a : Nat) : Word :=
  let port (die : Die) : Option Nat :=
    let b := nocBase die + 0x1000
    if b ≤ a ∧ a < b + 0x1100 then some (a - b) else none
  let cls (die : Die) (p : Nat) : Word :=
    match die with
    | .hub => if [4, 8, 9, 10, 13].contains p then 0 else if [0, 1, 2, 3, 5, 6, 14].contains p then 1 else 2
    | _ => 2
  let portReg (die : Die) : Option Word := (port die).map fun o =>
    if o % 0x100 = 0 then cls die (o / 0x100) else if o % 0x100 = 4 then 0x0400_0200 else 0
  let rgn (set : Nat) : Bool :=
    decide (rgnBase set ≤ a) && decide (a < rgnBase set + checkerCount set * 0x20) && (a - rgnBase set) % 0x20 == 0x10
  if a = tbBase + 0x54 then 500
  else if a = mceBase + 0x48 then 50000
  else if a = mceBase + 0x88 then 0x7F80_0000
  else if a = mceBase + 0x8C then 0x1F00_0010
  else if a = mceBase + 0x90 then 0x0040_0010
  else if a = mceBase + 0x94 then 4
  else if a = fgwBase + 4 then 4
  else if cruBase + 0x20 ≤ a ∧ a < cruBase + 0x40 then 2
  else if rgn 0 || rgn 1 || rgn 2 || rgn 3 then 2
  else match portReg .hub, portReg .cd0, portReg .cd1 with
    | some w, _, _ => w
    | _, some w, _ => w
    | _, _, some w => w
    | _, _, _ => 0

/-- A setting in effect. -/
def Device.sw (d : Device) (b : BlockId) (a : Nat) : Nat := (tget swReset (d.blk b).eff a).toNat
/-- A setting of the open shadow. -/
def Device.swOpen (d : Device) (b : BlockId) (a : Nat) : Nat := (tget swReset (d.blk b).opn a).toNat
/-- A setting of the sealed stage. -/
def Device.swStage (d : Device) (b : BlockId) (a : Nat) : Nat := (tget swReset (d.blk b).stage a).toNat
def Device.setOpen (d : Device) (b : BlockId) (a : Nat) (v : Nat) : Device :=
  d.setBlk b { d.blk b with opn := tput swReset (d.blk b).opn a (BitVec.ofNat 32 v) }

/-- A 64-bit setting from its two words. -/
def two (f : Nat → Nat) (a : Nat) : Nat := f a + 2 ^ 32 * f (a + 4)

/-- The boundary kind of a block (chapters 02, 06, 08, 10, 11, 13, 17). -/
def BlockId.kind : BlockId → Kind
  | .mceModel => .round
  | .pipe0 => .frame 0
  | .pipe1 => .frame 1
  | _ => .tempo

/-- The blocks of the four checker sets. -/
def rgnBlock : Nat → BlockId
  | 0 => .rgnHs0 | 1 => .rgnHs1 | 2 => .rgnSlab0 | _ => .rgnSlab1

/-- The set of a checker block. -/
def BlockId.rgnSet : BlockId → Option Nat
  | .rgnHs0 => some 0 | .rgnHs1 => some 1 | .rgnSlab0 => some 2 | .rgnSlab1 => some 3 | _ => none

/-- The die of a regulation block. -/
def BlockId.nocDie : BlockId → Option Die
  | .nocHub => some .hub | .nocCd0 => some .cd0 | .nocCd1 => some .cd1 | _ => none

def nocBlock : Die → BlockId
  | .hub => .nocHub | .cd0 => .nocCd0 | .cd1 => .nocCd1

/-- Ports of a die (chapter 08). -/
def portCount : Die → Nat
  | .hub => 16 | _ => 17

/-- The checkers of a set as a reading of settings gives them. -/
def checkersOf (set : Nat) (f : Nat → Nat) : List Checker :=
  (List.range (checkerCount set)).map fun r =>
    let a := rgnBase set + r * 0x20
    ⟨two f a, two f (a + 8), f (a + 0x10)⟩

def Device.checkers (d : Device) (set : Nat) : List Checker := checkersOf set (d.sw (rgnBlock set))
def Device.stagedCheckers (d : Device) (set : Nat) : List Checker := checkersOf set (d.swStage (rgnBlock set))

/-- Ranges of granules whose world or key slot a pending checker move changes (R439). -/
def Device.zeroRanges (d : Device) (set : Nat) : List (Nat × Nat) :=
  govDiff set (d.checkers set) (d.stagedCheckers set) fun a b => a.world != b.world || a.key != b.key

/-- A checker move that needs no zeroing, because the SEC writes the range itself (R439). -/
def Device.sealMove (d : Device) (set : Nat) : Bool :=
  decide (set < 2) && (List.range 64).any fun r =>
    let p := (d.sec.region (set * 64 + r)).phase
    p == .moving || p == .readying || p == .closing || p == .releasing

/-- A checker move of the set is pending and zeroes granules (R439). -/
def Device.zeroing (d : Device) (set : Nat) : Bool :=
  (d.blk (rgnBlock set)).pending && !d.sealMove set && !(d.zeroRanges set).isEmpty

/-- One key slot serves ranges of one world, over the enabled encrypting checkers of all four sets (R438; log entry 57);
slot 0 is non-secure and slot 1 secure. -/
def Device.keysOk (d : Device) (set : Nat) : Bool :=
  let others := (List.range 4).flatMap fun s =>
    if s = set then d.stagedCheckers s
    else d.checkers s ++ (if (d.blk (rgnBlock s)).pending then d.stagedCheckers s else [])
  let uses := (others.filter Checker.enable).map Checker.gov |>.filter fun g => g.enc
  (List.range 16).all fun k =>
    let ws := (uses.filter fun g => g.key == k).map Gov.world ++ (if k = 0 then [false] else if k = 1 then [true] else [])
    !(ws.contains true && ws.contains false)

/-- An engine of the quad is bound (R455). -/
def Device.quadBound (d : Device) (q : Nat) : Bool := (List.range 4).any fun i => (d.engine (4 * q + i)).bound.isSome

/-- The validity check of a block on its sealed stage (R39, R52, R184, R226, R281, R293, R307, R308, R438, FGW.CFG,
CRU.QUAD_FREQ). -/
def Device.moveValid (d : Device) (b : BlockId) : Bool :=
  let s := d.swStage b
  match b with
  | .tb =>
    decide ((toSigned 32 (s (tbBase + 0x30))).natAbs ≤ 549755814) && decide (50 ≤ s (tbBase + 0x54) % 2 ^ 11)
      && decide (s (tbBase + 0x54) % 2 ^ 11 ≤ 1000)
  | .rgnHs0 => checkersOk 0 (d.stagedCheckers 0) && d.keysOk 0
  | .rgnHs1 => checkersOk 1 (d.stagedCheckers 1) && d.keysOk 1
  | .rgnSlab0 => checkersOk 2 (d.stagedCheckers 2) && d.keysOk 2
  | .rgnSlab1 => checkersOk 3 (d.stagedCheckers 3) && d.keysOk 3
  | .nocHub | .nocCd0 | .nocCd1 =>
    let die := (b.nocDie).getD .hub
    (List.range (portCount die)).all fun p =>
      let a := nocBase die + 0x1000 + p * 0x100
      let hard := s (a + 4) / 2 ^ 16
      let soft := s (a + 4) % 2 ^ 16
      decide (1 ≤ hard) && decide (hard ≤ 4096) && decide (1 ≤ soft) && decide (soft ≤ hard) && s a % 4 != 3
  | .mceCore =>
    let w := s (mceBase + 0x8C)
    let sp := s (mceBase + 0x94) % 32
    decide (1 ≤ w % 2 ^ 10) && decide (w % 2 ^ 10 ≤ 1000) && decide (bits w 20 16 ≤ bits w 28 24) && decide (1 ≤ sp)
      && decide (sp ≤ 16) && decide (s (mceBase + 0xA0) % 512 ≤ 256)
      && (s (mceBase + 0xA0) % 512 == 0 || !d.mce.planStage.isEmpty)
  | .mceModel =>
    decide (5000 ≤ s (mceBase + 0x48)) && decide (s (mceBase + 0x48) ≤ 100000)
      && (two s (mceBase + 0x40) % 2 ^ 40 == 0 || modelOk d.mce.modelStage)
  | .fgw => decide (1 ≤ s (fgwBase + 4) % 32) && decide (s (fgwBase + 4) % 32 ≤ 16)
  | .cru => (List.range 8).all fun q =>
      decide (s (cruBase + 0x20 + 4 * q) % 16 ≤ 9) && !(bitOf (s (cruBase + 0x20 + 4 * q)) 8 && d.quadBound q)
  | .gpx | .pipe0 | .pipe1 => true

/-! ### Region checks (R184 to R186) -/

/-- Master groups of RGN.ATTR: engines, DMA, processors, other hub masters, PCIe, Toterlink. -/
inductive MGroup where
  | engines | dma | processors | hub | pcie | toterlink
  deriving DecidableEq, Repr

def MGroup.bit : MGroup → Nat
  | .engines => 0 | .dma => 1 | .processors => 2 | .hub => 3 | .pcie => 4 | .toterlink => 5

/-- The group of a master port (chapter 08, R184, R472; log entry 58). -/
def Port.group (p : Port) : MGroup :=
  match p.die with
  | .hub => if p.port ≤ 6 then .processors else if p.port = 11 then .pcie else if p.port = 12 then .toterlink else .hub
  | _ => if p.port = 16 then .dma else .engines

/-- What governs a byte of a stack or shared slab. -/
def Device.gov (d : Device) (a : Nat) : Gov :=
  match checkerSet (placeOf a) with
  | some s => govern (d.checkers s) ((a - setBase s) / granule s)
  | none => Gov.none

/-- An affected granule of a move that zeroes is closed to everyone but the SEC (R439). -/
def Device.beingZeroed (d : Device) (a : Nat) : Bool :=
  match checkerSet (placeOf a) with
  | some s =>
    let n := (a - setBase s) / granule s
    d.zeroing s && (d.zeroRanges s).any fun r => decide (r.1 ≤ n) && decide (n < r.2)
  | none => false

/-- A region checker allows the access (R184, R186, R445). -/
def Device.rgnAllows (d : Device) (g : MGroup) (secure write weight : Bool) (a : Nat) : Bool :=
  let v := d.gov a
  !d.beingZeroed a && !d.stk.retired a && !(v.enc && d.sec.tampered)
    && (if v.covered then
          v.world == secure && bitOf (if write then v.wr else v.rd) g.bit && (!v.sealed || (weight && g == .engines && !write))
        else secure)

/-- A range cut at 4 KiB boundaries. -/
def pagesOf (u n : Nat) : List (Nat × Nat) :=
  (List.range (n / 4096 + 2)).filterMap fun k =>
    let lo := max u ((u / 4096 + k) * 4096)
    let hi := min (u + n) ((u / 4096 + k + 1) * 4096)
    if lo < hi then some (lo, hi - lo) else none

/-- The first byte of a range at which the region checkers refuse an access to a stack or a shared slab (R184, R186). -/
def Device.refusedAt (d : Device) (g : MGroup) (secure write : Bool) (a n : Nat) : Option Nat :=
  (pagesOf a n).findSome? fun r => if d.rgnAllows g secure write false r.1 then none else some r.1

/-- The stack of an address answers: it is trained (R467). -/
def Device.answers (d : Device) (a : Nat) : Bool :=
  match placeOf a with
  | .stack h => d.pwr.hs h == .trained
  | _ => true

/-- The world of a system SRAM granule (R337). -/
def Device.sramWorld (d : Device) (a : Nat) : Bool := (d.proc.watEntry (0x80 + (a - sramBase) / 0x1_0000)).world

/-! ### Paths between the dies (R17, R216, R219) -/

/-- A die link. -/
def Device.dieLink (d : Device) (l : Nat) : DieLink := tget dieLinkDef d.noc.links l

/-- A request of a master on a die reaches the window of a package-local address: the link on its one path, if it needs one, is
not down. One that names no window is answered by the die's own network (R216), and no traffic is rerouted (R219). -/
def Device.reaches (d : Device) (die : Die) (a : Nat) : Bool :=
  placeOf a == .outside ||
    match linkBetween die (dieOf a) with
    | some l => !(d.dieLink l).down
    | none => true

/-! ### Error logs (R240) -/

/-- The die's network logs a refused access and raises its interrupt. -/
def Device.logRefusal (d : Device) (p : Port) (a : Nat) (write secure : Bool) : Device :=
  { d with noc := d.noc.setErr p.die ((d.noc.err p.die).note a p.port write secure) }.note (.irqNoc p.die.key)

/-- A hub block of a master group may read or write the bytes [a, a + n): every 4 KiB page of them lies in a stack that
answers, a shared slab or the system SRAM, and its checker or granule allows the access (R184, R336, R337). -/
def Device.hubMay (d : Device) (g : MGroup) (secure write : Bool) (a n : Nat) : Bool :=
  let ok (p : Nat) : Bool :=
    match placeOf p with
    | .stack _ => d.answers p && d.rgnAllows g secure write false p
    | .slab _ => d.rgnAllows g secure write false p
    | .sram => d.sramWorld p == secure
    | _ => false
  (a :: (List.range (n / 4096 + 1)).map fun i => (a / 4096 + i + 1) * 4096).all fun p => decide (a + n ≤ p) || ok p

/-! ### Sealed moves -/

/-- The blocks whose pending move belongs to a group. -/
def Device.groupBlocks (d : Device) (g : Nat) : List BlockId :=
  BlockId.all.filter fun b => (d.blk b).pending && (d.blk b).group == g

/-- TB.GROUP_CTRL[g].MEMBERS. -/
def Device.members (d : Device) (g : Nat) : Nat := tget zeroDef d.groups g

/-- A seal into group `g` keeps the rules of R46; one that supersedes the block's own move in the group adds no move. -/
def Device.sealAllowed (d : Device) (b : BlockId) (g : Nat) : Bool :=
  g == 0 || (decide (g ≤ 16) &&
    (let ms := (d.groupBlocks g).filter fun x => x != b
     let own := (d.blk b).pending && (d.blk b).group == g
     (own || decide (ms.length < d.members g)) && ms.all fun x => x.kind == b.kind))

/-- A record that the MCE loads: its bytes where the path and the region checkers let it read them; a record that it may not read has
none, and the refused access is logged (R184, R240). -/
def Device.mceLoad (d : Device) (a n : Nat) : Device × List Byte :=
  if d.hubMay .hub true false a n && d.reaches .hub a then (d, d.bytes a n) else (d.logRefusal Port.mce a false true, [])

/-- The record of a model at an address: its header, and then the parts that the header counts (R293). -/
def Device.modelLoad (d : Device) (a : Nat) : Device × List Byte :=
  if a = 0 then (d, [])
  else match d.mceLoad a 64 with
    | (d, []) => (d, [])
    | (d, h) => d.mceLoad a (modelSize h)

/-- The plan of `n` segments at an address, with the 576 bytes of its start state and room for the largest segments (R306). -/
def Device.planLoad (d : Device) (a n : Nat) : Device × List Byte := if n = 0 then (d, []) else d.mceLoad a (576 + n * 848)

/-- MOVE_CTRL.SEAL: the open shadow, the target and what the block loads with it are captured (R39, R40, R42, R306), or
the seal is refused (R46). -/
def Device.sealBlk (d : Device) (b : BlockId) (g : Nat) : Device :=
  if d.sealAllowed b g then
    let d := d.setBlk b ((d.blk b).seal g)
    match b with
    | .fgw => { d with fgw := { d.fgw with rulesStage := d.fgw.rulesOpen } }
    | .mceModel =>
      let r := d.modelLoad (two (d.swStage b) (mceBase + 0x40) % 2 ^ 40)
      { r.1 with mce := { r.1.mce with modelStage := r.2 } }
    | .mceCore =>
      let r := d.planLoad (two (d.swStage b) (mceBase + 0x98) % 2 ^ 40) (d.swStage b (mceBase + 0xA0) % 512)
      { r.1 with mce := { r.1.mce with planStage := r.2 } }
    | _ => d
  else d.setBlk b ((d.blk b).refuseSeal g)

/-- MOVE_CTRL.WITHDRAW (R44). -/
def Device.withdrawBlk (d : Device) (b : BlockId) : Device := d.setBlk b (d.blk b).withdraw

/-- MOVE_CTRL.REVERT (R44). -/
def Device.revertBlk (d : Device) (b : BlockId) : Device :=
  let d := d.setBlk b (d.blk b).revert
  match b with
  | .fgw => { d with fgw := { d.fgw with rulesOpen := d.fgw.rules } }
  | _ => d

/-! ### Frequencies and voltages of the quads (R450, R454) -/

/-- The quads of a compute die. -/
def quadsOf (die : Nat) : List Nat := (List.range 4).map fun i => 4 * die + i

/-- The step that a requested one comes to: the lowest of it, the two ceilings, the ceiling of 0x8000:0F and a hold (R451,
R454, R458). -/
def Device.stepOf (d : Device) (q want : Nat) : Nat :=
  let x := d.pwr.quad q
  let cap := (d.dict.num 0x8000 0x0F - 600) / 100
  if x.avsHold then 0 else min (min (want % 16) cap) (min x.capCeil x.thermCeil)

/-- The step of a quad that is in effect (R454). -/
def Device.quadStep (d : Device) (q : Nat) : Nat := d.stepOf q (d.sw .cru (cruBase + 0x20 + 4 * q))

/-- The step of the fastest quad of a die, a requested step being `want q`. -/
def Device.dieStep (d : Device) (die : Nat) (want : Nat → Nat) : Nat :=
  ((quadsOf die).map fun q => d.stepOf q (want q)).foldl max 0

/-- A Voltage command for a compute die's rail (R450): the table's voltage for the step. A die whose AVS transactions failed keeps
its voltage (log entry 164). -/
def Device.setRail (d : Device) (die step : Nat) : Device :=
  let mv := Config.railMv die step
  if (quadsOf die).any (fun q => (d.pwr.quad q).avsHold) || d.pwr.rail die == mv then d
  else { d with pwr := d.pwr.setRail die mv }.note (.avs die mv)

/-- A rail rises before a quad of its die moves to a higher frequency (R450): once the move that asks for it is READY. -/
def Device.raiseRails (d : Device) : Device :=
  (List.range 2).foldl (fun d die =>
    let next := d.dieStep die fun q => d.swStage .cru (cruBase + 0x20 + 4 * q)
    if d.dieStep die (fun q => d.sw .cru (cruBase + 0x20 + 4 * q)) < next then d.setRail die next else d) d

/-- The rails follow the fastest quads after the frequencies of a boundary (R450): what rises at the boundary itself rises with its
quads, and what falls falls after them. -/
def Device.settleRails (d : Device) : Device :=
  (List.range 2).foldl (fun d die =>
    d.setRail die (d.dieStep die fun q => d.sw .cru (cruBase + 0x20 + 4 * q))) d

/-- The end of loading: READY, or refused by the block's validity check (R39). A checker move that zeroes granules stays
LOADING until ZEROING_DONE (R439). -/
def Device.moveLoaded (d : Device) (b : BlockId) : Device :=
  match b.rgnSet with
  | some set => if d.moveValid b && d.zeroing set then d else d.setBlk b ((d.blk b).loaded (d.moveValid b))
  | none =>
    let ready := (d.blk b).st == .loading && d.moveValid b
    let d := d.setBlk b ((d.blk b).loaded (d.moveValid b))
    if ready && b == .cru then d.raiseRails else d

/-- Latency averages of a die restart where CLASS or LAT_TARGET changes (R228), and with them the step (R229, log entry 90). -/
def Device.resetLatency (d : Device) (old : Device) (die : Die) : Device :=
  let b := nocBlock die
  { d with noc := (List.range (portCount die)).foldl (fun n p =>
      let a := nocBase die + 0x1000 + p * 0x100
      if old.sw b a = d.sw b a ∧ old.sw b (a + 8) = d.sw b (a + 8) then n
      else n.setPort ⟨die, p⟩ { n.port ⟨die, p⟩ with acc := 0, esc := 0 }) d.noc }

/-- The effect of a checker move at its boundary: contents of granules that the old or the new settings encrypt are
undefined where the encryption changes (R439, R491). -/
def Device.recrypt (d : Device) (set : Nat) (old new : List Checker) : Device :=
  (govDiff set old new fun a b => (a.enc || b.enc) && (a.enc != b.enc || a.key != b.key || a.world != b.world)).foldl
    (fun d r => d.scramble (setBase set + r.1 * granule set) (setBase set + r.2 * granule set)) d

/-- What the time base does when its move applies (R52, R54): a change of UTC_OFFSET moves the calendar by the whole change at
once. The new device from the old one and the applied move. -/
def Device.timeMove (d : Device) (old : Device) : Device :=
  let target := toSigned 64 (two (d.sw .tb) (tbBase + 0x20))
  let (tb, stepped) := d.tb.offsetMove target d.tn
  let d := { d with tb := tb }
  let d := if stepped then d.event evTimeStep none (ofSigned 32 tb.stepSize) else d
  let utc (x : Device) : Int := toSigned 32 (x.sw .tb (tbBase + 0x58))
  if utc old = utc d then d
  else { d with cal := d.cal.shift (utc old - utc d) }.event evUtcOffset none (d.sw .tb (tbBase + 0x58))

/-- What the MCE core settings bring when they apply: a scroll makes segments dirty and sets the epoch (R288, R289, R307);
a changed plan takes effect (R306). -/
def Device.mceMove (d : Device) (old : Device) : Device :=
  let same (o n : Nat) : Bool := (List.range n).all fun i => old.sw .mceCore (mceBase + o + 4 * i) == d.sw .mceCore (mceBase + o + 4 * i)
  let scroll := !(same 0x50 3 && same 0x60 3)
  let newPlan := !(same 0x98 3) || !(d.mce.planStage == d.mce.plan)
  let m := d.mce
  let m := if newPlan then
      { m with plan := m.planStage, planN := d.sw .mceCore (mceBase + 0xA0) % 512, segs := [], planNext := [], planPtr := 0 } else m
  let m := if scroll then { m.dirtySegs (fun _ => true) with epoch := d.tn } else m
  let m := if !(same 0x60 3) then { m with wave := none } else m
  { d with mce := m }

/-- What the MCE model settings bring: the model in effect, and a field reset at a change of pitch (R290, R293). -/
def Device.modelMove (d : Device) (old : Device) : Device :=
  let m := { d.mce with model := if d.mce.modelStage.isEmpty then none else some d.mce.modelStage }
  { d with mce := if old.sw .mceModel (mceBase + 0x48) = d.sw .mceModel (mceBase + 0x48) then m else m.fieldReset }

/-- What CRU.QUAD_FREQ brings when it applies: quads go off, or begin to power on (R455). -/
def Device.cruMove (d : Device) : Device :=
  { d with pwr := (List.range 8).foldl (fun w q =>
      let x := w.quad q
      let off := bitOf (d.sw .cru (cruBase + 0x20 + 4 * q)) 8
      if off && (x.powered || x.powering) && !d.quadBound q then w.setQuad q { x with powered := false, powering := false }
      else if !off && !x.powered then w.setQuad q { x with powering := true }
      else w) d.pwr }

/-- The range of addresses that checker `r` of a stack names in effect. -/
def Device.regionRange (d : Device) (h r : Nat) : Nat × Nat :=
  let a := rgnBase h + r * 0x20
  let n (o : Nat) : Nat := two (d.sw (rgnBlock h)) (a + o)
  (setBase h + n 0 * granule h, setBase h + (n 8 + 1) * granule h)

/-- The SEC seals a move of a stack's checkers that changes ATTR of checker `r`; it waits for no TN (R441, R442). -/
def Device.secSeal (d : Device) (h r attr : Nat) : Device :=
  let b := rgnBlock h
  let at' := (d.blk b).moveAt
  let d := d.setOpen b (rgnBase h + r * 0x20 + 0x10) attr
  let d := (d.setBlk b { d.blk b with moveAt := 0 }).sealBlk b 0
  d.setBlk b { d.blk b with moveAt := at' }

/-- ATTR of a checker in the open shadow. -/
def Device.attrOpen (d : Device) (h r : Nat) : Nat := d.swOpen (rgnBlock h) (rgnBase h + r * 0x20 + 0x10)

/-- The SEC writes zero pairs over a region and seals the move that disables its checker (R441, R442). -/
def Device.regionWipe (d : Device) (h r : Nat) : Device :=
  let range := d.regionRange h r
  let d := if bitOf (d.sw (rgnBlock h) (rgnBase h + r * 0x20 + 0x10)) 0 then d.zero range.1 range.2 else d
  let k := h * 64 + r
  let d := { d with sec := d.sec.setRegion k { d.sec.region k with phase := .releasing } }
  d.secSeal h r (d.attrOpen h r / 2 * 2)

/-- The sealed regions of a stack go on when its checkers' move applies (R441, R442). -/
def Device.regionsMoved (d : Device) (h : Nat) : Device :=
  (List.range 64).foldl (fun d r =>
    let k := h * 64 + r
    let x := d.sec.region k
    match x.phase with
    | .moving => { d with sec := d.sec.setRegion k { x with phase := .loading } }
    | .readying => { d with sec := (d.sec.setRegion k { x with phase := .ready }).post true secDone x.tag }
    | .closing => d.regionWipe h r
    | .releasing =>
      { d with sec := { ((d.sec.setRegion k SealRegion.init).post true x.result x.tag) with
          keys := d.sec.keys.filter fun s => s != x.slot } }
    | _ => d) d

/-- The move of a block takes effect (R40) with everything its chapter makes depend on it. -/
def Device.applyBlk (d : Device) (b : BlockId) : Device :=
  let old := d
  let d := d.setBlk b (d.blk b).apply
  let d := { d with dict := d.dict.applied b.key }
  match b with
  | .tb => d.timeMove old
  | .rgnHs0 => (d.recrypt 0 (old.checkers 0) (d.checkers 0)).regionsMoved 0
  | .rgnHs1 => (d.recrypt 1 (old.checkers 1) (d.checkers 1)).regionsMoved 1
  | .rgnSlab0 => d.recrypt 2 (old.checkers 2) (d.checkers 2)
  | .rgnSlab1 => d.recrypt 3 (old.checkers 3) (d.checkers 3)
  | .nocHub => d.resetLatency old .hub
  | .nocCd0 => d.resetLatency old .cd0
  | .nocCd1 => d.resetLatency old .cd1
  | .mceCore => d.mceMove old
  | .mceModel => d.modelMove old
  | .fgw => { d with fgw := { d.fgw with rules := d.fgw.rulesStage } }
  | .cru => d.cruMove
  | .gpx | .pipe0 | .pipe1 => d

/-- The group of a move applies at this boundary (R47). -/
def Device.groupApplies (d : Device) (g : Nat) : Bool :=
  let ms := d.groupBlocks g
  ms.length == d.members g && ms.all fun x => (d.blk x).st == .ready && (d.blk x).due d.tn

/-- What a boundary does to one block's move: applies it, records a miss, or nothing (R40, R41, R47). -/
inductive MoveAct where
  | apply | miss | leave
  deriving DecidableEq, Repr

def Device.moveAct (d : Device) (b : BlockId) : MoveAct :=
  let m := d.blk b
  if !m.pending || !m.due d.tn then .leave
  else if m.group = 0 then (if m.st = .ready then .apply else .miss)
  else if d.groupApplies m.group then .apply else .miss

/-- One boundary of kind `k` with its number: every block of the kind is judged on the state at the boundary instant. -/
def Device.serveMoves (d : Device) (k : Kind) (n : Nat) : Device :=
  let acts := (BlockId.all.filter fun b => b.kind == k).map fun b => (b, d.moveAct b)
  acts.foldl (fun x a => match a.2 with
    | .apply => x.applyBlk a.1
    | .miss => x.setBlk a.1 ((x.blk a.1).miss n)
    | .leave => x) d

end Sys2Proof.Machine
end

