-- ==== Sys2Proof/Machine/State.lean ====
section
/-! DEFINITION. The state of the block: the device and the queue of waiting commands, the state after reset, and the
reasons a command can stop. -/

namespace Sys2Proof.Machine

/-- The state. -/
structure State where
  /-- Everything the specification gives the device. -/
  dev : Device
  /-- Commands that wait, the front first. -/
  pending : List Instr
  deriving DecidableEq, Repr

/-- Reasons to stop with a fault. -/
inductive Fault where
  /-- Raised by SUPPLY_FAULT when a supply passes its absolute maximum rating (R486): the device may be damaged and the
  specification gives it no behaviour from there on. Safe: the model says nothing about such a device. -/
  | aboveAbsoluteMaximum
  deriving DecidableEq, Repr

/-- Reasons to refuse a command. -/
inductive Refusal where
  /-- Raised by exec's arm of a command that has no meaning yet. Safe: the model makes no claim about it. -/
  | notModelled (mnemonic : String)
  deriving DecidableEq, Repr

/-- What a meaning answers. -/
abbrev Out := Host.Outcome State Fault Refusal

/-- The sparse tables that are not empty after reset are none: each field is its chapter's value after a power-on
reset, and the command queue is empty (R447, R463, R491; log entry 1). -/
def Device.init : Device :=
  { mem := [], scrambles := [], tb := TimeBase.init, cal := Calendar.init, moves := [], groups := [], rings := [],
    jobs := [], sched := { oos := 0, reservations := [] }, eng := [], noc := Noc.init, stk := Stk.init,
    proc := Proc.init, fab := Fab.init, mce := Mce.init, gfx := Gfx.init, fgw := Gateway.init, dict := Dict.init,
    arb := Arb.init, sec := Sec.init, pwr := Power.init, dbg := Dbg.init, regs := [], rcs := [], holds := [],
    out := [], fresh := 0 }

/-- The block right after reset. -/
def State.reset : State := { dev := Device.init, pending := [] }

/-- A meaning of the keep-alive domain: it changes the device and nothing else. -/
def State.onKeep (s : State) (f : Device → Device) : Out := .next { s with dev := f s.dev }

/-- A meaning of the other dies: it changes the device and nothing else, and nothing at all while a thermal trip holds
those dies in reset (R460). -/
def State.on (s : State) (f : Device → Device) : Out := s.onKeep fun d => if d.pwr.held then d else f d

end Sys2Proof.Machine
end

