-- ==== Sys2Proof/Machine/ArbOps.lean ====
section
/-! DEFINITION. Reactions of the Arbiter (R409, R430) as operations of the device. -/

namespace Sys2Proof.Machine

/-- The DT that a fault log entry carries: 0 while DT is not running (R430). -/
def Device.logDt (d : Device) : Nat × Device :=
  if d.tb.started && !d.arb.tempoLoss then d.stamp else (0, d)

/-- Source and argument of a log entry: a source that R430 does not name for a cause, and every argument, are free
(log entry 77). -/
def Device.logRest (d : Device) (source : Option Nat) : Nat × Nat × Device :=
  (source.getD ((Config.freeWord d.fresh).toNat % 2 ^ 16), (Config.freeWord (d.fresh + 1)).toNat, { d with fresh := d.fresh + 2 })

/-- Operating hours since the last start (R425). -/
def Device.operatingHours (d : Device) : Nat := (d.tb.dt - d.pwr.startDt) / 3600000000000

/-- The REPORT reaction, or the entry of another reaction (R409, R430). -/
def Device.arbReport (d : Device) (cause : Nat) (source : Option Nat) (reaction falls : Nat) : Device :=
  let (t, d) := d.logDt
  let (s, a, d) := d.logRest source
  { d with arb := d.arb.report t cause s reaction falls a }

/-- The GATE reaction (R409). -/
def Device.arbGate (d : Device) (cause : Nat) (source : Option Nat) : Device :=
  let d := d.arbReport cause source reactGate 0
  { d with arb := d.arb.closeGate }

/-- The SAFE reaction (R409). -/
def Device.arbSafe (d : Device) (cause : Nat) (source : Option Nat) (falls : Nat) : Device :=
  let (t, d) := d.logDt
  let (s, a, d) := d.logRest source
  { d with arb := d.arb.enterSafe t cause s falls a }

/-- The Arbiter has seen a cause with reaction SAFE while it is running (R408). -/
def Device.safeCause (d : Device) (cause : Nat) (source : Option Nat) : Device :=
  if d.arb.valid then d.arbSafe cause source 0 else d

/-- A cause with reaction REPORT while the Arbiter is running. -/
def Device.reportCause (d : Device) (cause : Nat) (source : Option Nat) : Device :=
  if d.arb.valid then d.arbReport cause source reactReport 0 else d

/-- A mismatch of a redundant pair (R421): a normal pair is stopped and adjudication starts; one reported while
adjudication runs is absorbed, and a degraded or removed pair has none. -/
def Device.pairMismatch (d : Device) (p : Nat) : Device :=
  if (d.arb.pair p).st = .normal then
    { d with arb := d.arb.setPair p { d.arb.pair p with st := .adjudicating } }.reportCause 0x0A (some p)
  else d

end Sys2Proof.Machine
end

