-- ==== Sys2Proof/Machine/NocCmds.lean ====
section
/-! DEFINITION. Counters, error logs, tags and die-to-die links (chapter 08). -/

namespace Sys2Proof.Machine

open Sys2Proof

/-- Changes a port's regulation state. -/
def Device.modPort (d : Device) (p : Port) (f : PortState → PortState) : Device :=
  { d with noc := d.noc.setPort p (f (d.noc.port p)) }

/-- Changes the tag pool of a die. -/
def Device.modPool (d : Device) (die : Die) (f : TagPool → TagPool) : Device :=
  { d with noc := d.noc.setPool die (f (d.noc.pool die)) }

/-- A tag returns to its pool. -/
def TagPool.free (p : TagPool) (t : Nat) : TagPool := { p with used := p.used.filter fun x => x != t }

/-- PORT.CFG.CLASS in effect (R220). -/
def Device.portClass (d : Device) (p : Port) : Nat := d.sw (nocBlock p.die) (portBase p) % 4

/-- PORT.BUDGET.SOFT in effect (R225). -/
def Device.portSoft (d : Device) (p : Port) : Nat := d.sw (nocBlock p.die) (portBase p + 4) % 2 ^ 16

/-- PORT.BUDGET.HARD in effect (R224). -/
def Device.portHard (d : Device) (p : Port) : Nat := d.sw (nocBlock p.die) (portBase p + 4) / 2 ^ 16

/-- PORT.LAT_TARGET in effect (R229). -/
def Device.portTarget (d : Device) (p : Port) : Nat := d.sw (nocBlock p.die) (portBase p + 8) % 2 ^ 16

/-- A read of an engine's command that has left for another device holds a place at its port and a tag of its die's pool until
its data has come, an orphan too (R223, R230, R232, R264). -/
def RTag.heldBy (t : RTag) (p : Port) : Bool :=
  match t.origin with
  | .engine e _ => Port.engine e == p
  | .bus _ _ => false

/-- OUT of a port (R223). -/
def Device.outCount (d : Device) (p : Port) : Nat :=
  (d.noc.port p).outCount + (d.fab.tags.filter fun t => t.2.heldBy p).length

/-- The lowest tag of a die's pool that a data read may take (R230): those of engines' remote reads count as in use. -/
def Device.poolTag (d : Device) (die : Die) : Option Nat :=
  let remote := (d.fab.tags.filter fun t => match t.2.origin with
    | .engine e _ => (Port.engine e).die == die
    | .bus _ _ => false).length
  (d.noc.pool die).freeTag (tagLimit die - remote)

/-- OUT is below HARD (R224). -/
def Device.mayIssue (d : Device) (p : Port) : Bool := decide (d.outCount p < d.portHard p)

/-- The level that the next request of a port carries (R221, R225, R229). -/
def Device.nextLevel (d : Device) (p : Port) : Nat :=
  requestLevel (d.portClass p) (d.noc.port p).esc (decide (d.portSoft p ≤ d.outCount p))

/-- The escalation step after a completion (R229): only an LT port with a target escalates. -/
def Device.newStep (d : Device) (p : Port) (st : PortState) : Nat :=
  if d.portClass p = classLT then escalation st.avg (d.portTarget p) else 0

/-- The address of a port's byte counter of a class (R235). -/
def byteCounter (p : Port) (write : Bool) (cls : Nat) : Nat := portBase p + (if write then 0x60 else 0x40) + 8 * cls

/-- The address of a stack controller's byte counter of a class (R235). -/
def stackCounter (h : Nat) (write : Bool) (cls : Nat) : Nat := stackBase h + 0x2000 + (if write then 0x20 else 0) + 8 * cls

/-- A data request leaves its port `ns` after its acceptance: OUT falls, bytes are counted under the class of its level,
the average and the step follow, and a read returns its tag (R223, R228, R229, R230, R235). -/
def Device.leavePort (d : Device) (p : Port) (i : Inflight) (ns : Nat) : Device :=
  let st := (d.noc.port p).sample ns
  let st := { st with inflight := st.inflight.filter fun x => x.id != i.id }
  let d := d.modPort p fun _ => { st with esc := d.newStep p st }
  let d := d.count (byteCounter p i.write (levelClass i.level)) i.bytes
  let d := match i.stack with
    | some h => d.count (stackCounter h i.write (levelClass i.level)) i.bytes
    | none => d
  match i.tag with
  | some t => d.modPool p.die fun q => q.free t
  | none => d

/-- The latency average of a port after requests of a command have completed (R228): no rule fixes their samples, so it is free,
and the step follows it (R229; log entry 153). -/
def Device.resample (d : Device) (p : Port) : Device :=
  let st := { d.noc.port p with acc := Config.freeTraffic d.fresh }
  { d with fresh := d.fresh + 1 }.modPort p fun _ => { st with esc := d.newStep p st }

/-- Requests that a master makes within one command complete: `n` bytes at a package-local address count under the class of the
level that the port gives now, at the port and, for a stack, at its controller (R221, R235; log entry 153). -/
def Device.served (d : Device) (p : Port) (write : Bool) (a n : Nat) : Device :=
  if n = 0 then d
  else
    let cls := levelClass (d.nextLevel p)
    let d := d.count (byteCounter p write cls) n
    let d := match placeOf a with
      | .stack h => d.count (stackCounter h write cls) n
      | _ => d
    d.resample p

/-- Requests of a number of bytes that no rule fixes (log entry 153). -/
def Device.servedFree (d : Device) (p : Port) (write : Bool) (a : Nat) : Device :=
  { d with fresh := d.fresh + 1 }.served p write a (Config.freeTraffic d.fresh)

/-- A read reply of an earlier generation of its instance is discarded and counted in INST.LATE (R354). -/
def Device.lateInst (d : Device) (i : Nat) : Device :=
  let x := d.proc.inst i
  { d with proc := d.proc.setInst i { x with late := min (2 ^ 32 - 1) (x.late + 1) } }

/-- The reply belongs to an earlier generation (R354). -/
def Device.stale (d : Device) (i : Inflight) : Bool := !i.write && i.gen != (d.proc.inst i.inst).gen

/-- A data request waits for the data of a remote read (R264). -/
def Device.awaitsRemote (d : Device) (p : Port) (id : Nat) : Bool :=
  let mine (t : RTag) : Bool := !t.orphan && t.origin == .bus p id
  d.fab.tags.any (fun t => mine t.2) || d.fab.stalled.any mine

/-- A data request waits for the answer to an emulated word (R352). -/
def Device.awaitsEmu (d : Device) (p : Port) (id : Nat) : Bool :=
  d.proc.insts.any fun x => x.2.emuReads.any fun q => q.who == some (p, id)

/-- A request of the debug port completes (R471): data comes to the pending access, and a refused write sets WERR. -/
def Device.dbgArrive (d : Device) (i : Inflight) : Device :=
  if i.write then { d with dbg := { d.dbg with werr := d.dbg.werr || i.resp == .error } }
  else { d with dbg := { d.dbg with pending := d.dbg.pending.map fun p =>
    if p.header.space = 0 then { p with got := p.got ++ [(i.base, i.resp)] } else p } }

/-- A data request completes and its response goes to the master (R228, R354); a fenced read completes only by its late
reply (R232), a remote read only after its data (R264), a read of an emulated word only after its answer (R352), and one that
waits at a link that is down does not complete (R219). -/
def Device.requestComplete (d : Device) (p : Port) (id ns : Nat) : Device :=
  match (d.noc.port p).inflight.find? fun i => i.id == id && !i.orphan with
  | none => d
  | some i =>
    if d.awaitsRemote p id || d.awaitsEmu p id || i.resp == .lost then d
    else
      let x := d.leavePort p i ns
      if p = Port.debug then x.dbgArrive i
      else if d.stale i then x.lateInst i.inst else x.note (.bus p id i.resp)

/-- REQUEST_COMPLETE (R228). -/
def execRequestComplete (p : Port) (id : Nat) (ns : Nat) (s : State) : Out := s.on fun d => d.requestComplete p id ns

/-- The late reply to a fenced read: it is discarded, and only now does the tag return to the pool (R232). -/
def Device.lateReply (d : Device) (die : Die) (tag ns : Nat) : Device :=
  let orphan (i : Inflight) : Bool := i.orphan && i.tag == some tag
  match (List.range (portCount die)).findSome? fun p => ((d.noc.port ⟨die, p⟩).inflight.find? orphan).map fun i => (p, i) with
  | none => d
  | some (p, i) =>
    let x := d.leavePort ⟨die, p⟩ i ns
    if d.stale i then x.lateInst i.inst else x

/-- LATE_REPLY (R232). -/
def execLateReply (die : Die) (tag : Nat) (ns : Nat) (s : State) : Out := s.on fun d => d.lateReply die tag ns

/-- NOC.CNT_CTRL.LATCH: a device-wide snapshot at once (R236). -/
def Device.latch (d : Device) : Device := { d with noc := d.noc.snapshot d.tn true }

/-- LATCH (R236). -/
def execLatch (s : State) : Out := s.on fun d => d.latch

/-- A 32-bit read of a low word keeps the high word in the holding register (R237). -/
def Device.holdHigh (d : Device) (a v : Nat) : Device :=
  { d with holds := tput (fun _ => (0 : Word)) d.holds a (BitVec.ofNat 32 (v / 2 ^ 32)) }

/-- Changes a live counter. -/
def Device.modCounter (d : Device) (a : Nat) (f : Counter → Counter) : Device :=
  { d with noc := d.noc.setCounter a (f (d.noc.counter a)) }

/-- Clearing NOC.ERR_INFO.VALID empties the log and zeroes COUNT (R240). -/
def Device.errLogClear (d : Device) (die : Die) : Device := { d with noc := d.noc.setErr die ErrLog.init }

/-- ERR_LOG_CLEAR (R240). -/
def execErrLogClear (die : Die) (s : State) : Out := s.on fun d => d.errLogClear die

def Device.setLink (d : Device) (l : Nat) (v : DieLink) : Device :=
  { d with noc := { d.noc with links := tput dieLinkDef d.noc.links l v } }

/-- A link is down: its hub end reports a die-link fault to the Arbiter (R219). -/
def Device.linkFault (d : Device) (l : Nat) : Device :=
  if (d.dieLink l).down then d else (d.setLink l { d.dieLink l with down := true }).safeCause 0x09 none

/-- A replay of a flit that failed its CRC (R217); 16 failed replays in a row take the link down (R219). -/
def Device.dieReplay (d : Device) (l : Nat) (ok : Bool) : Device :=
  let k := d.dieLink l
  if k.down then d
  else
    let k' := { k with replays := (k.replays + 1) % 2 ^ 32, row := if ok then 0 else k.row + 1 }
    let d := d.setLink l k'
    if 16 ≤ k'.row then d.linkFault l else d

/-- DIE_LINK_REPLAY (R217). -/
def execDieLinkReplay (l : Fin 3) (ok : Bool) (s : State) : Out := s.on fun d => d.dieReplay l ok

/-- DIE_LINK_DOWN (R219): a retrain has failed. -/
def execDieLinkDown (l : Fin 3) (s : State) : Out := s.on fun d => d.linkFault l

end Sys2Proof.Machine
end

