-- ==== Sys2Proof/Machine/JobOps.lean ====
section
/-! DEFINITION. Trigger inputs, kills, take-back, release, teardown and the sets of engines (chapter 07), as operations
of the device. -/

namespace Sys2Proof.Machine

open Sys2Proof

/-- Changes a job. -/
def Device.modJob (d : Device) (j : Nat) (f : Job → Job) : Device := d.setJob j (f (d.job j))

/-- Changes an engine. -/
def Device.modEng (d : Device) (e : Nat) (f : Eng → Eng) : Device := d.setEng e (f (d.engine e))

/-- Jobs that have been created, by number. -/
def Device.jobNums (d : Device) : List Nat := ((d.jobs.map Prod.fst).filter fun j => (d.job j).st != .free).dedup

/-! ### Trigger inputs (R208 to R210) -/

/-- One event reaches every input whose configuration word satisfies `p`. -/
def Device.triggerBy (d : Device) (p : Nat → Bool) : Device :=
  d.jobNums.foldl (fun d j =>
    (List.range 4).foldl (fun d t =>
      if p ((d.job j).rc.trigCfg.getD t 0) then d.modJob j fun x => x.trigger t 0 1 else d) d) d

/-- Whether a word selects source `src` with the argument bits [hi:lo] equal to `v`. -/
def trigNames (src hi lo v w : Nat) : Bool := w % 8 == src && bits w hi lo == v

/-- The tempo divider (SRC 1). -/
def Device.triggerTempo (d : Device) : Device :=
  d.triggerBy fun w => w % 8 == 1 && decide (0 < w / 256) && d.tn % (w / 256) == 0

/-- Writes a ring; when its fill goes from 0 to a nonzero value, the inputs that name it take one event (SRC 5), and a job whose
command ring it is is idle no longer (R206). -/
def Device.moveRing (d : Device) (n : Nat) (r : Ring) : Device :=
  let old := (d.ring n).fill
  let moved := (d.ring n).head != r.head
  let d := d.setRing n r
  let d := if moved && !d.fab.headDue.contains n then { d with fab := { d.fab with headDue := n :: d.fab.headDue } } else d
  if old = 0 ∧ r.fill ≠ 0 then
    let v := (d.job r.job).active
    let d := if r.jobOwn && ((List.range v.engines).map v.ring).contains n then
        d.modJob r.job fun x => { x with idleSince := none, dormant := false } else d
    d.triggerBy (trigNames 5 16 8 n)
  else d

/-! ### Kills (R120, R195, R201, R212) -/

/-- Remote-read tags become orphans with a new generation (R201, R265). -/
def Fab.orphan (f : Fab) (p : RTag → Bool) : Fab :=
  let hit (t : Nat × RTag) : Bool := !t.2.orphan && p t.2
  { f with tags := f.tags.map fun t => if hit t then (t.1, { t.2 with orphan := true }) else t,
           tagGens := (f.tags.filter hit).foldl (fun g t => tput natDef g t.1 ((tget natDef g t.1 + 1) % 256)) f.tagGens,
           stalled := f.stalled.filter fun t => !p t }

/-- The tag belongs to a command of the engine whose SEQ is in the list. -/
def RTag.ofEngine (t : RTag) (e : Nat) (seqs : List Nat) : Bool :=
  match t.origin with
  | .engine x s => x == e && seqs.contains s
  | .bus _ _ => false

/-- Messages of killed commands that wait, unsent, leave the queue without being issued (R33): the read requests whose tags are
orphans of the engine, whose tags are free again, and the writes of the command rings `rings`, whose numbers no longer wait. -/
def Fab.dropKilled (f : Fab) (e : Nat) (seqs rings : List Nat) : Fab :=
  let read (m : FMsg) : Bool := m.type == .rdReq && m.src == f.id.getD 0 &&
    ((f.tag m.tag).any fun t => t.orphan && t.ofEngine e seqs)
  let put (m : FMsg) : Bool := m.type == .wr && m.src == f.id.getD 0 &&
    (f.putDst m.dst).unacked.any fun q => q.num == m.tag && !q.tail && rings.contains q.ring
  let queued := f.ports.flatMap fun p => p.2.queue
  let waits (w : Waiting) : Bool := read w.msg || (w.msg.type == .wr && w.msg.src == f.id.getD 0 && rings.contains w.ring)
  let unsent := (queued ++ f.waiting.map Waiting.msg).filter read
  let lives (dst : Nat) (q : Put) : Bool := !(queued.any fun m => put m && m.dst == dst && m.tag == q.num)
  { f with ports := f.ports.map fun p => (p.1, { p.2 with queue := p.2.queue.filter fun m => !read m && !put m }),
           waiting := f.waiting.filter fun w => !waits w,
           tags := f.tags.filter fun t => !(unsent.any fun m => m.tag == t.1),
           puts := f.puts.map fun p => (p.1, { p.2 with unacked := p.2.unacked.filter (lives p.1) }) }

/-- A kill of the uncommitted commands of an engine: a running ATOMIC command survives a take-back but not a fault
(R120, R123, R195, R212). What they had written in plain tensors is undefined; their buffered stores are dropped, and
requests that wait at the port leave it when no command of the engine survives (R33): with the remote reads that the port's own
requests wait for, requests of which nothing has gone out leave with them, and their tags are free. -/
def Device.killEngine (d : Device) (e : Nat) (atomicToo : Bool) : Device :=
  let g := d.engine e
  let keep (i : Issued) : Bool := !atomicToo && i.cmd.atomic && i.started
  let dead := g.issued.filter fun i => !keep i
  let seqs := dead.map fun i => i.cmd.seq
  let d := (dead.flatMap fun i => i.plain).foldl (fun d r => d.scramble r.1 r.2) d
  let p := Port.engine e
  let alone := (g.issued.filter keep).isEmpty
  let rings := if alone then (dead.map Issued.ring).dedup else []
  let d := { d with fab := (d.fab.orphan fun t => t.ofEngine e seqs).dropKilled e seqs rings }
  let d := if alone then
      let others (t : RTag) : Bool := match t.origin with
        | .bus q _ => q != p
        | .engine _ _ => true
      let waits (id : Nat) : Bool := (d.fab.stalled.any fun t => t.origin == .bus p id) && !(d.fab.tags.any fun t => t.2.origin == .bus p id)
      let gone := (d.noc.port p).inflight.filter fun i => waits i.id
      let d := gone.foldl (fun d i => match i.tag with
        | some t => d.modPool p.die fun q => q.free t
        | none => d) d
      { d with noc := d.noc.setPort p { d.noc.port p with
                 held := [], stalled := [], inflight := (d.noc.port p).inflight.filter fun i => !waits i.id },
               fab := { d.fab with stalled := d.fab.stalled.filter others } }
    else d
  d.setEng e { g with issued := g.issued.filter keep, kills := (g.kills + dead.length) % 2 ^ 32, killing := true,
                      halted := false, halting := false, step := none,
                      wcb := g.wcb.filter fun w => !(w.seqs.all fun s => seqs.contains s),
                      stq := g.stq.filter fun q => !seqs.contains q.seq }

/-- The split-read tags of an engine's port are fenced (R212, R232). -/
def Device.fenceEngine (d : Device) (e : Nat) : Device :=
  let p := Port.engine e
  { d with noc := d.noc.setPort p { d.noc.port p with
      inflight := (d.noc.port p).inflight.map fun i => if i.tag.isSome then { i with orphan := true } else i } }

/-- Engines of a job's set begin their release (R196). -/
def Device.leaveAll (d : Device) (es : List Nat) : Device :=
  es.foldl (fun d e => d.modEng e fun g => { g with leaving := true }) d

/-- A take-back of a running job (R195, R196); the engines are then released with a save. -/
def Device.takeBack (d : Device) (j : Nat) : Device :=
  let x := d.job j
  if x.st = .running then
    let d := x.held.foldl (fun d e => d.killEngine e false) d
    let d := d.leaveAll x.held
    d.modJob j fun x => { x with st := .takingBack, release := .suspend, tbAt := d.tn, idleSince := none }
  else d

/-! ### Faults and teardown (R211, R212) -/

/-- Rings that a job owns (R188). -/
def Device.ownedRings (d : Device) (j : Nat) : List Nat :=
  (d.rings.map Prod.fst).filter fun n => (d.ring n).jobOwn && (d.ring n).job == j

/-- A job fault: teardown of that job alone (R211, R212). A job that is being deleted is torn down already (R215). -/
def Device.jobFault (d : Device) (j code logical : Nat) : Device :=
  let x := d.job j
  if x.st = .free ∨ x.st = .teardown ∨ x.st = .failed ∨ x.release = .delete then d
  else
    let d := x.held.foldl (fun d e => (d.killEngine e true).fenceEngine e) d
    let data := (d.ownedRings j).filter fun n => !(x.cmdRings.contains n) && !(x.complRings.contains n)
    let d := data.foldl (fun d n => d.moveRing n (d.ring n).reset) d
    let d := d.leaveAll x.held
    d.modJob j fun x => { x with st := .teardown, nextSt := none, release := .teardown, faultCode := code,
                                 faultLogical := logical, faultReason := 0, dormant := false,
                                 faults := d.tn :: (x.faults.filter fun t => decide (d.tn < t + 1000)), idleSince := none }

/-! ### Release (R196) -/

/-- The save area of logical engine `l`: its first byte and its length (R196). -/
def Job.saveRange (x : Job) (l : Nat) : Nat × Nat := (x.rc.saveArea + l * (x.rc.saveRows * 512), x.rc.saveRows * 512)

/-- A transfer between an engine's slab and the save area that the region checkers refuse: the transfer ends with an error, which
is logged (R184, R186, R240) and faults the job like an uncorrectable one (R211; log entry 154). -/
def Device.saveRefused (d : Device) (j e l : Nat) (write : Bool) : Option Device :=
  let x := d.job j
  (d.refusedAt .engines x.rc.world write (x.saveRange l).1 (x.saveRange l).2).map fun a =>
    (d.logRefusal (Port.engine e) a write x.rc.world).jobFault j 0x82 l

/-- Saves rows 0 to SAVE_ROWS − 1 of logical engine `l` (R196). -/
def Device.saveRows (d : Device) (j e l : Nat) : Device :=
  let r := (d.job j).saveRange l
  (d.saveRefused j e l true).getD (d.put r.1 (d.bytes (opSlabBase e) r.2))

/-- Loads the saved rows of logical engine `l` (R198). -/
def Device.loadRows (d : Device) (j e l : Nat) : Device :=
  let r := (d.job j).saveRange l
  (d.saveRefused j e l false).getD (d.put (opSlabBase e) (d.bytes r.1 r.2))

/-- The slab of an engine is written with zeros (R159). -/
def Device.clearSlab (d : Device) (e : Nat) : Device := d.zero (opSlabBase e) (opSlabBase e + 0x40_0000)

/-! ### Restart, failure and deletion (R213 to R215) -/

/-- Every command ring of the job still holds its opening (R213). -/
def Device.openingsHeld (d : Device) (j : Nat) : Bool :=
  (d.job j).cmdRings.all fun n =>
    let r := d.ring n
    decide ((r.tail.total + 2 ^ 32 - (tget rptrDef (d.job j).openings n).total % 2 ^ 32) % 2 ^ 32 ≤ r.count)

/-- A restart from the opening, READY at the next tempo boundary; refused, the job fails with cause 0x84 (R213). -/
def Device.restart (d : Device) (j : Nat) : Device :=
  if d.openingsHeld j then
    let x := d.job j
    let d := x.cmdRings.foldl (fun d n => d.moveRing n { d.ring n with head := tget rptrDef x.openings n }) d
    let d := { d with fab := { d.fab with badPutRings := d.fab.badPutRings.filter fun n => !x.cmdRings.contains n } }
    d.modJob j fun x => { x with doneSeq := x.cmdRings.foldl (fun t n => tput doneDef t n ((x.rc.openSeq + 2 ^ 32 - 1) % 2 ^ 32)) x.doneSeq,
                                 stale := 0, ckpt := 0, ckptOwed := false, ckptPos := [], reload := false,
                                 restarts := (x.restarts + 1) % 2 ^ 32, nextSt := some .ready, release := .none,
                                 faultReason := 0, dormant := false }
  else d.modJob j fun x => { x with nextSt := some .failed, faultCode := 0x84, faultReason := 3, release := .none }

/-- The end of teardown, once every engine has left the set: restart, or FAILED (R213, R214). -/
def Device.teardownComplete (d : Device) (j : Nat) : Device :=
  let x := d.job j
  if x.st = .teardown ∧ x.release = .teardown ∧ x.held = [] ∧ x.nextSt = none then
    if !x.autoRestart || x.faultCode = 0x83 then d.modJob j fun x => { x with nextSt := some .failed, faultReason := 1, release := .none }
    else if x.parks (x.faults.headD d.tn) then d.modJob j fun x => { x with nextSt := some .failed, faultReason := 2, release := .none }
    else d.restart j
  else d

/-- DELETE: kills and fences as in R212, releases without a save, clears JOBOWN; FREE at the next tempo boundary at which
every engine has left the set (R215). Pending moves with the job as checkpoint owner are discarded (R45). -/
def Device.jobDelete (d : Device) (j : Nat) : Device :=
  let x := d.job j
  if x.st = .free then
    -- created within this tempo: it goes back before it becomes READY
    if x.nextSt.isNone then d
    else ((d.ownedRings j).foldl (fun d n => d.setRing n { d.ring n with jobOwn := false }) d).setJob j
      { Job.init with createReason := x.createReason }
  else
    let d := x.held.foldl (fun d e => (d.killEngine e true).fenceEngine e) d
    let d := d.leaveAll x.held
    let d := (d.ownedRings j).foldl (fun d n => d.setRing n { d.ring n with jobOwn := false }) d
    let d := (BlockId.all.filter fun b => b.kind == .checkpoint j).foldl (fun d b => d.setBlk b (d.blk b).discard) d
    d.modJob j fun x => { x with st := if x.held.isEmpty then x.st else .teardown, release := .delete, nextSt := none,
                                 idleSince := none }

/-! ### Engine sets (R190 to R193) -/

/-- The reservations in effect: job and engines; an empty mask is none (R192). -/
def Device.reservation (d : Device) (i : Nat) : Option (Nat × Nat) :=
  let v := tget zeroDef d.sched.reservations i
  if v % 2 ^ 32 = 0 then none else some (v / 2 ^ 32 % 64, v % 2 ^ 32)

def Device.reservationList (d : Device) : List (Nat × Nat) := (List.range 8).filterMap fun i => d.reservation (i + 1)

/-- Engines reserved for job `j`. -/
def Device.reservedFor (d : Device) (j : Nat) : List Nat :=
  (List.range 32).filter fun e => d.reservationList.any fun r => r.1 == j && bitOf r.2 e

/-- The engine is reserved for some job. -/
def Device.isReserved (d : Device) (e : Nat) : Bool := d.reservationList.any fun r => bitOf r.2 e

/-- The engine is out of service, or its quad is without supply (R183, R455). -/
def Device.outOfService (d : Device) (e : Nat) : Bool :=
  bitOf d.sched.oos e || !(d.pwr.quad (e / 4)).powered || (d.pwr.quad (e / 4)).powering

/-- The engine can be taken into a set (R191). -/
def Device.engineFree (d : Device) (e : Nat) : Bool :=
  (d.engine e).bound.isNone && !d.outOfService e && !(d.engine e).suspect

/-- AFFINITY allows the engine (R187, R190). -/
def JobRec.allows (r : JobRec) (e : Nat) : Bool :=
  match r.affinity with
  | 1 => decide (e < 16)
  | 2 => decide (16 ≤ e)
  | _ => true

/-- Engines that job `j` may take now: its reserved ones for an RT job, else the unreserved ones (R190 to R193). -/
def Device.freeFor (d : Device) (j : Nat) : List Nat :=
  let r := (d.job j).rc
  (List.range 32).filter fun e => d.engineFree e && r.allows e &&
    (if r.rt then (d.reservedFor j).contains e else !d.isReserved e)

/-- Whole quads of `free` while four or more engines are wanted, in the order of `quads`; then the rest of `free` in its
own order (R191, R203). -/
def pickEngines (free : List Nat) (quads : List Nat) (want : Nat) : List Nat :=
  let qs := quads.filter fun q => (List.range 4).all fun i => free.contains (q * 4 + i)
  let taken := (qs.take (want / 4)).flatMap fun q => (List.range 4).map fun i => q * 4 + i
  taken ++ (free.filter fun e => !taken.contains e).take (want - taken.length)

/-- A set of `want` engines out of `free` (R191). -/
def buildSet (free : List Nat) (want : Nat) : List Nat := sortBy (fun a b => decide (a ≤ b)) (pickEngines free (List.range 8) want)

/-- The largest non-stale variant of at most `n` engines. -/
def Job.bestVariant (x : Job) (n : Nat) : Option Nat :=
  (List.range x.rc.variants.length).reverse.find? fun v => !x.isStale v && decide ((x.var v).engines ≤ n)

/-- Binds the engines `es` to job `j` as logical engines in rising order (R190). -/
def Device.bindEngines (d : Device) (j : Nat) (es : List Nat) : Device :=
  (es.zip (List.range es.length)).foldl (fun d p => d.modEng p.1 fun g => { g with bound := some (j, p.2), issued := [] }) d

/-- A rewind: heads and DONE_SEQ of variant `v` as recorded or set at the last committed checkpoint, or its opening
(R199, R202). -/
def Device.rewind (d : Device) (j v : Nat) : Device :=
  let x := d.job j
  let rs := (List.range (x.var v).engines).map fun l => (x.var v).ring l
  let posOf (n : Nat) : RPtr × Nat :=
    if x.ckpt = 0 then (tget rptrDef x.openings n, (x.rc.openSeq + 2 ^ 32 - 1) % 2 ^ 32) else tget posDef x.ckptPos n
  let d := rs.foldl (fun d n => d.moveRing n { d.ring n with head := (posOf n).1 }) d
  d.modJob j fun x => { x with reload := false, doneSeq := rs.foldl (fun t n => tput doneDef t n (posOf n).2) x.doneSeq }

end Sys2Proof.Machine
end

