-- ==== Sys2Proof/Machine/MceCmds.lean ====
section
/-! DEFINITION. The motion check engine in the device (chapter 10): the brick writer, batches, the check of a tempo, the
record and its delivery, ray mode and the wavefront search. -/

namespace Sys2Proof.Machine

open Sys2Proof

def Device.modMce (d : Device) (f : Mce → Mce) : Device := { d with mce := f d.mce }

/-! ### Memory accesses of hub blocks (R184, R336, R337) -/

/-- A write by a hub block: it does not complete while the link to its die is down (R219), it is dropped and logged when it is
refused (R240), and its bytes are counted (R235). -/
def Device.hubPut (d : Device) (p : Port) (secure : Bool) (a : Nat) (bs : List Byte) : Device :=
  if !d.reaches p.die a then d
  else if d.hubMay p.group secure true a bs.length then (d.put a bs).served p true a bs.length else d.logRefusal p a true secure

/-- The ring that a register with a ring number in [8:0] and an enable in [31] names, while it is enabled. -/
def Device.ringReg (d : Device) (w : Nat) : Option Nat :=
  if bitOf w 31 && (d.ring (w % 512)).enable then some (w % 512) else none

/-- A hub block publishes one entry of its own, unless the ring is full: the entry's bytes are the first of `bs`. -/
def Device.hubPublish (d : Device) (p : Port) (secure : Bool) (n : Nat) (bs : List Byte) : Option Device :=
  let r := d.ring n
  match r.publish 1 with
  | none => none
  | some r' => some ((d.hubPut p secure (r.entryAddr r.tail 0) (bs.take r.entrySize)).moveRing n r')

/-! ### Settings -/

def Device.mceSw (d : Device) (o : Nat) : Nat := d.sw .mceCore (mceBase + o)
def Device.mcePitch (d : Device) : Nat := d.sw .mceModel (mceBase + 0x48)
def Device.mceOrigin (d : Device) (coarse : Bool) : BrickIx :=
  let o := if coarse then 0x60 else 0x50
  let c (i : Nat) : Int := toSigned 32 (d.mceSw (o + 4 * i))
  ⟨c 0, c 1, c 2⟩
def Device.clearMin (d : Device) : Int := toSigned 16 (d.mceSw 0x80)
def Device.clearSoft (d : Device) : Int := toSigned 16 (d.mceSw 0x80 / 2 ^ 16)
def Device.sPlan (d : Device) : Nat := d.mceSw 0x94 % 32

/-! ### Bricks (R285 to R291) -/

/-- The fetched entries still stand at the head of the ring in effect. -/
def Device.bricksValid (d : Device) : Bool :=
  match d.mce.bricks, d.ringReg (d.mceSw 0x70) with
  | [], _ => true
  | b :: _, some n => b.ring == n && b.total == (d.ring n).head.total
  | _, none => false

/-- Forgets fetched entries when the ring was changed, reset or moved by others. -/
def Device.syncBricks (d : Device) : Device := if d.bricksValid then d else d.modMce fun m => { m with bricks := [] }

/-- The brick writer fetches and checks the next published entry (R286); an entry that it may not read fails its check. -/
def Device.brickFetch (d : Device) : Device :=
  let d := d.syncBricks
  match d.ringReg (d.mceSw 0x70) with
  | none => d
  | some n =>
    let r := d.ring n
    let k := d.mce.bricks.length
    let a := r.entryAddr r.head k
    if r.entrySize = 1088 ∧ k < r.fill ∧ d.reaches .hub a = true then
      let ok := d.hubMay .hub true false a 1088
      let d := if ok then d.served Port.mce false a 1088 else d.logRefusal Port.mce a false true
      d.modMce fun m => { m with bricks := m.bricks ++ [Brick.ofEntry (if ok then d.bytes a 1088 else zeros 1088) ok d.tn n
        ((r.head.total + k) % 2 ^ 32)] }
    else d

/-- BRICK_FETCH (R286). -/
def execBrickFetch (s : State) : Out := s.on fun d => d.brickFetch

/-- A field reset is due at the next tempo boundary (R290). -/
def Device.fieldReset (d : Device) : Device := d.modMce fun m => { m with resetDue := true }

/-- FIELD_RESET (R290). -/
def execFieldReset (s : State) : Out := s.on fun d => d.fieldReset

/-- Reads of the field store met single-bit errors, and an uncorrectable one (R291). -/
def Device.fieldErrors (d : Device) (corr : Nat) (bad : Bool) : Device :=
  (if bad then d.modMce fun m => { m with fieldFault := true } else d).count (mceBase + 0x178) corr

/-- The update window in progress: cycles left, bricks applied and dropped, and whether an entry did not fit. -/
structure Window where
  left : Nat
  applied : Nat
  dropped : Nat
  stuck : Bool
  deriving DecidableEq, Repr

/-- Writes a brick into its slot; a fine brick makes the segments whose box holds it dirty (R287, R307). -/
def Mce.applyBrick (m : Mce) (b : Brick) : Mce :=
  if b.coarse then { m with coarse := m.coarse.apply b }
  else
    let m := { m with fine := m.fine.apply b }
    match m.model with
    | some md => m.dirtySegs fun k => segCovers md m.plan m.planN k b.ix
    | none => m

/-- The head of the brick ring passes an entry (R286). -/
def Device.brickDone (d : Device) (b : Brick) : Device :=
  let d := d.modMce fun m => { m with bricks := m.bricks.drop 1 }
  match (d.ring b.ring).advance 1 with
  | some r => d.moveRing b.ring r
  | none => d

/-- One fetched entry in ring order (R286, R287); an entry that is dropped takes no cycles. -/
def Device.windowStep (p : Device × Window) (b : Brick) : Device × Window :=
  let d := p.1
  let w := p.2
  if w.stuck || !decide (b.fetchedAt < d.tn) then (d, { w with stuck := true })
  else if !b.good then (d.brickDone b, { w with dropped := w.dropped + 1 })
  else if w.left < b.cost then (d, { w with stuck := true })
  else if inWindow b.coarse (d.mceOrigin b.coarse) b.ix then
    ((d.modMce fun m => m.applyBrick b).brickDone b, { w with left := w.left - b.cost, applied := w.applied + 1 })
  else (d.brickDone b, { w with dropped := w.dropped + 1 })

/-- The update window of the tempo that begins (R284 to R291): a due field reset, then bricks; applied and dropped. -/
def Device.updateWindow (d : Device) : Device × Window :=
  let d := if d.mce.resetDue || d.mce.fieldFault then d.modMce Mce.fieldReset else d
  let d := d.syncBricks
  let p := d.mce.bricks.foldl Device.windowStep (d, ⟨128, 0, 0, false⟩)
  let w := p.2
  let d := (p.1.count (mceBase + 0x150) w.applied).count (mceBase + 0x158) w.dropped
  (if w.applied = 0 then d else d.modMce fun m => { m with epoch := d.tn }, w)

/-! ### Batches (R295 to R298) -/

/-- At cycle 0 the MCE selects the newest entry of the repair ring, else of the candidate ring, and skips older ones
(R296). -/
def Device.batchSelect (d : Device) : Device :=
  if d.mce.sel.isSome then d
  else
    let pick (o : Nat) : Option Nat := (d.ringReg (d.mceSw o)).filter fun n =>
      decide (0 < (d.ring n).fill) && d.reaches .hub ((d.ring n).entryAddr (d.ring n).head ((d.ring n).fill - 1))
    let go (n : Nat) (repair : Bool) : Device :=
      let r := d.ring n
      let a := r.entryAddr r.head (r.fill - 1)
      let e := d.bytes a 16
      let may := d.hubMay .hub true false a 64
      let d := d.count (mceBase + 0x170) (r.fill - 1)
      -- an entry that may not be read is a read error of its batch
      let d := if may then (d.modMce fun m => { m with sel := some ⟨field e 0 8, field e 8 4, repair, d.tn⟩ }).served Port.mce false a 64
        else ((d.modMce fun m => { m with batchErr := 8 }).count (mceBase + 0x168) 1).logRefusal Port.mce a false true
      match r.advance r.fill with
      | some r' => d.moveRing n r'
      | none => d
    match pick 0x78, pick 0x74 with
    | some n, _ => go n true
    | none, some n => go n false
    | none, none => d

/-- The buffer of a batch lies where R295 allows: system SRAM, a shared slab or a stack, and outside sealed regions. -/
def Device.batchMay (d : Device) (a n : Nat) : Bool := d.hubMay .hub true false a n

/-- The selected batch is fetched and checked (R296 to R298): refused with a code, or taken in; a fetch that the region checkers
refuse is logged (R240). -/
def Device.batchFetch (d : Device) (err : Bool) : Device :=
  match d.mce.sel with
  | none => d
  | some s =>
    if !d.reaches .hub s.addr then d
    else
    let d := d.modMce fun m => { m with sel := none }
    let may := d.batchMay s.addr s.len
    let ok := !err && decide (s.len ≤ 65536) && may
    let d := if 65536 < s.len then d else if may then d.served Port.mce false s.addr s.len else d.logRefusal Port.mce s.addr false true
    let b := if ok then d.bytes s.addr s.len else []
    let code := if decide (65536 < s.len) then 2 else if !ok then 8 else match d.mce.model with
      | none => 2
      | some m => batchCode m b s.len d.tn d.mce.planA
    if code = 0 then
      (d.modMce fun m => { m with taken := m.taken ++ [⟨b, s.repair, d.tn, 0⟩] }).count (mceBase + 0x160) 1
    else
      (d.modMce fun m => { m with batchErr := code + 256 * (batchSeq b % 2 ^ 24) }).count (mceBase + 0x168) 1

/-- BATCH_FETCH (R297). -/
def execBatchFetch (err : Bool) (s : State) : Out := s.on fun d => d.batchFetch err

/-- The newest batch whose check tempo has come takes effect: the second tempo after its fetch (R296, R305). Answers to sweeps
of the batch before do not count for it (log entry 114). -/
def Device.batchTakes (d : Device) : Device :=
  let due := d.mce.taken.filter fun b => decide (b.fetchedAt + 2 ≤ d.tn)
  match due.getLast? with
  | none => d
  | some b => d.modMce fun m => { m with
      eff := some { b with since := d.tn }, sweeps := [],
      taken := m.taken.filter fun b => !decide (b.fetchedAt + 2 ≤ d.tn) }

/-- The batch in effect, until its TN reaches T0 + LIFE (R305). -/
def Device.liveBatch (d : Device) : Option BatchIn :=
  d.mce.eff.filter fun b => decide (d.tn < batchT0 b.bytes + batchLife b.bytes)

/-! ### The check of a tempo (R292, R299 to R307) -/

/-- The clearance of a sphere at its centre and whether its lookup sets OUTSIDE (R292, R303); a centre or a radius that is not
finite gives minus infinity. -/
def Device.clearance (d : Device) (md : List Byte) (ue : Option Int) (poses : List (Option Pose)) (sp : Nat) : Option Int × Bool :=
  match sphereCentre md poses sp with
  | none => (none, true)
  | some c =>
    let l := lookup d.mce.fine d.mce.coarse (d.mceOrigin false) (d.mceOrigin true) d.mcePitch (coordWord c.x, coordWord c.y, coordWord c.z)
    (match l.1, sphereEighths md sp d.mcePitch, ue with
     | some v, some r, some u => some (v - r - u)
     | _, _, _ => none, l.2)

/-- Clearances of every sphere at the samples `ks` of a primitive with `s` of them (R303); `bad` says which lookups met an
uncorrectable error (R291). -/
def Device.clearances (d : Device) (md : List Byte) (p : Prim) (b : Base) (s : Nat) (ks : List Nat) (bad : Nat → Nat → Bool) :
    List (Option Int × Bool) :=
  let ue := inflation md p b s d.mcePitch
  ks.flatMap fun k =>
    let poses := p.links md b (p.sampleTime s k)
    (List.range (modelP md)).map fun sp => if bad k sp then (none, false) else d.clearance md ue poses sp

/-- The effective cost input of candidate c: MCE.STOP_COST for candidate 0 (R300), else COST. -/
def Device.candCost (d : Device) (md b : List Byte) (c : Nat) : FVal :=
  if c = 0 then of32 (d.mceSw 0x88) else f32At b (candAt md b c + 8)

/-- The check of candidate c of a batch in field mode (R303). -/
def Device.candCheck (d : Device) (env : MceEnv) (md b : List Byte) (c : Nat) : Check :=
  let p := candPrim md b c
  let s := batchS b
  let cl := d.clearances md p (batchBase b) s (List.range s) fun k sp => env.bad.contains (c, k, sp)
  judge cl (limitBits md p (batchBase b)) (d.candCost md b c) (of32 (d.mceSw 0x84)) d.clearMin d.clearSoft

/-- One plan sample: whether it passes (R307), by its clearances and its segment's limits, and whether a lookup sets OUTSIDE. -/
def Device.planSample (d : Device) (env : MceEnv) (md : List Byte) (k i : Nat) : Bool × Bool :=
  let p := segPrim md d.mce.plan d.mce.planN k
  let b := segBase md d.mce.plan d.mce.planN k
  let cl := d.clearances md p b d.sPlan [i] fun q sp => env.bad.contains (64 + k, q, sp)
  (limitBits md p b == 0 && cl.all (fun x => match x.1 with | some v => decide (d.clearMin ≤ v) | none => false), cl.any Prod.snd)

/-- The plan samples of this tempo are checked, and those of the next are chosen (R307); whether a lookup set OUTSIDE (R292). -/
def Device.planCheck (d : Device) (env : MceEnv) : Device × Bool :=
  match d.mce.model with
  | none => (d, false)
  | some md =>
    if d.mce.planN = 0 then (d, false)
    else
      let now := d.mce.planNext.filter fun x => decide (x.1 < d.mce.planN) && decide (x.2 < d.sPlan)
      let res := now.map fun ki => (ki, d.planSample env md ki.1 ki.2)
      let d := res.foldl (fun d r =>
        d.modMce fun m => { m with segs := tput segDef m.segs r.1.1 ((tget segDef m.segs r.1.1).sample d.sPlan r.1.2 r.2.1) }) d
      let nx := planPick d.mce.segs d.mce.planN d.sPlan d.mce.planQ d.mce.planPtr
      (d.modMce fun m => { m with planNext := nx.1, planPtr := nx.2 }, res.any fun r => r.2.2)

/-- The field is in use: valid, and no replica cross-check runs (R290, R309, R426). -/
def Device.fieldInUse (d : Device) : Bool := d.mce.fieldValid && d.arb.xcheck.isNone

/-- NOFEAS after a record whose batch was checked; a feasible candidate other than candidate 0 ends a search (R308). -/
def Mce.countFeas (m : Mce) (mask : Nat) : Mce :=
  if mask / 2 = 0 then { m with nofeas := min (2 ^ 32 - 1) (m.nofeas + 1) } else { m with nofeas := 0, wave := none }

/-- What every record carries beside the result of a check (R313). -/
def Device.recordBase (d : Device) (w : Window) (mode : Nat) : Verdict :=
  let m := d.mce
  { Verdict.blank d.tn (if mode = modeRay ∨ mode = modeRayPending then two (d.sw .mceCore) (mceBase + 0xB0) else m.epoch) mode with
    degraded := (d.arb.pair mcePairKey).st == .degraded,
    repair := (m.eff.map BatchIn.repair).getD false,
    waveRunning := m.wave.isSome,
    waveDone := m.waveDone,
    fieldFault := m.fieldFault,
    newBatch := (m.eff.map fun b => b.since == d.tn).getD false,
    planActive := decide (0 < m.planN),
    batch := (m.eff.map fun b => batchSeq b.bytes).getD 0,
    dirty := m.lowestSeg Seg.dirty,
    blocked := m.lowestSeg Seg.blocked,
    nofeas := m.nofeas,
    applied := w.applied,
    dropped := w.dropped }

/-- Stores the record of the tempo; the second copy's comparison may turn it into ADJUDICATING, whose MIN_CLEAR is that of
candidate 0, `clear0` (R311 to R313). -/
def Device.formRecord (d : Device) (r : Verdict) (clear0 : Option Int) (mismatch : Bool) : Device :=
  let bad := mismatch && (d.arb.pair mcePairKey).st == .normal
  let r := if bad then { r.adjudicate with clear := clear0 } else r
  let d := d.modMce fun m => { m with out := some r, waveDone := false }
  if bad then d.pairMismatch mcePairKey else d

/-- The check in field mode (R292, R299 to R305). -/
def Device.fieldCheck (d : Device) (env : MceEnv) (w : Window) : Device :=
  let (d, outside) := d.planCheck env
  let d := d.fieldErrors env.corr (!env.bad.isEmpty)
  match d.mce.model, d.liveBatch with
  | some md, some b =>
    let cs := (List.range (batchC b.bytes)).map fun c => d.candCheck env md b.bytes c
    let res := (Verdict.blank 0 0 0).withChecks cs
    let d := d.modMce fun m => m.countFeas res.feasible
    let r := (d.recordBase w modeField).withChecks cs
    d.formRecord { r with outside := r.outside || outside } ((cs[0]?).bind Check.clear) env.mismatch
  | _, _ => d.formRecord { (d.recordBase w modeNoBatch) with outside := outside } none env.mismatch

/-- A tempo of ray mode (R309, R310): the first begins a ray cycle, the 16th owes its decision to RAY_CYCLE. -/
def Device.rayTempo (d : Device) (env : MceEnv) (w : Window) : Device :=
  let ph := match d.mce.rayPhase with
    | some p => (p + 1) % 16
    | none => 0
  let d := d.modMce fun m => { m with rayPhase := some ph, sweeps := if ph = 0 then [] else m.sweeps, rayDue := ph == 15 && d.liveBatch.isSome }
  match d.liveBatch with
  | none => d.formRecord (d.recordBase w modeNoBatch) none env.mismatch
  | some _ => d.formRecord (d.recordBase w modeRayPending) none env.mismatch

/-- At a tempo boundary that is a round boundary too, the MCE's tempo begins with the round boundary's settings; the record of the
tempo that ended is past (R284, R314). -/
def Device.mceWaits (d : Device) : Device := d.modMce fun m => { m with out := none, rayDue := false }

/-- The reads of a running search in the tempo that begins met errors (R291). -/
def Device.waveReads (d : Device) (env : MceEnv) : Device :=
  match d.mce.wave with
  | none => d
  | some w => (d.modMce fun m => { m with wave := some { w with bad := w.bad ++ env.waveBad } }).fieldErrors env.waveCorr (!env.waveBad.isEmpty)

/-- Everything the MCE does at a tempo boundary: the window, the selection, the batch that takes effect, and the check
with its record (R284, R314). The moves of the boundary have been applied before. -/
def Device.mceTempo (d : Device) (env : MceEnv) : Device :=
  let (d, w) := d.updateWindow
  let d := d.batchTakes.batchSelect
  let d := d.mceWaits.waveReads env
  let ray := d.mce.enable && !d.fieldInUse && d.mce.rayEnable
  let d := if ray then d else d.modMce fun m => { m with rayPhase := none }
  if !d.mce.enable then d
  else match (d.arb.pair mcePairKey).st with
    | .removed => d
    | .adjudicating => d.formRecord (d.recordBase w modeAdjudicating) none false
    | _ =>
      if d.fieldInUse then d.fieldCheck env w
      else if d.mce.rayEnable then d.rayTempo env w
      else d.formRecord (d.recordBase w modeOff) none env.mismatch

/-! ### Ray mode (R309, R310) -/

/-- The tag of the sweep of candidate c over sample interval i by sphere s (log entry 47). -/
def sweepTag (c i s : Nat) : Nat := (c * 15 + i) * 256 + s

/-- Every sweep of a candidate has the answer. -/
def Device.sweepsAll (d : Device) (md b : List Byte) (c : Nat) (p : Sweep → Bool) : Bool :=
  (List.range (batchS b - 1)).all fun i => (List.range (modelP md)).all fun s => p (tget sweepDef d.mce.sweeps (sweepTag c i s))

/-- The check of candidate c in ray mode (R310); its minimum clearance is not stated beyond CLEAR_MIN and is free. -/
def Device.rayCheck (d : Device) (md b : List Byte) (c : Nat) : Check :=
  let cost := d.candCost md b c
  let lim := limitBits md (candPrim md b c) (batchBase b) + (if cost.isNan then 2 ^ 11 else 0)
  let pass := d.sweepsAll md b c fun s => s == .pass
  let m := d.clearMin + ((Config.freeWord (d.fresh + c)).toNat % 2 ^ 15 : Nat)
  ⟨if pass then some m else none, lim, decide (c < 4) && pass && lim == 0, effCost cost (of32 (d.mceSw 0x84)) d.clearSoft m, false⟩

/-- The 16th tempo of a ray cycle decides feasibility from the sweep answers (R310). -/
def Device.rayCycle (d : Device) : Device :=
  if !d.mce.rayDue then d
  else match d.mce.model, d.liveBatch, d.mce.out with
    | some md, some b, some r =>
      let cs := (List.range (batchC b.bytes)).map fun c => if c < 4 then d.rayCheck md b.bytes c else ⟨none, 0, false, of32 costInf, false⟩
      let late := (List.range (min 4 (batchC b.bytes))).any fun c =>
        !d.sweepsAll md b.bytes c fun s => s == .pass || s == .fail
      let v := { r.withChecks cs with mode := modeRay, rtuLate := late }
      let d := { d with fresh := d.fresh + 4 }
      let d := if r.mode = modeRayPending then d.modMce fun m => { (m.countFeas v.feasible) with
        out := some { v with nofeas := (m.countFeas v.feasible).nofeas }, rayDue := false }
      else d.modMce fun m => { m with rayDue := false }
      d
    | some _, some _, none => d.modMce fun m => { m with rayDue := false }
    | _, _, _ => d.modMce fun m => { m with rayDue := false }

/-- RAY_CYCLE (R310). -/
def execRayCycle (s : State) : Out := s.on fun d => d.rayCycle

/-! ### Delivery (R314) -/

/-- A copy of the record goes into the ring named in MCE.VRING; when it is full the copy is dropped and counted. -/
def Device.verdictRing (d : Device) (bs : List Byte) : Device :=
  match d.ringReg (d.mceSw 0x7C) with
  | none => d
  | some n => (d.hubPublish Port.mce true n bs).getD (d.count (mceBase + 0x188) 1)

/-- The task records of the supervision table with a kind (R414). -/
def Device.taskRec (d : Device) (t : Nat) : TaskRec := TaskRec.ofBytes (d.dict.val 0x5010 (t + 1))

/-- Tasks that satisfy a property of their record complete (R415). -/
def Device.completeTasks (d : Device) (atBoundary : Bool) (p : Nat → TaskRec → Bool) : Device :=
  (List.range 128).foldl (fun d t =>
    if p t (d.taskRec t) then { d with arb := d.arb.setTask t ((d.arb.task t).complete atBoundary) } else d) d

/-- The record arrives at the Arbiter and at the gateway; `crcOk` is false when the link corrupted it (R314, R410,
R415, R380). -/
def Device.verdictRecord (d : Device) (crcOk : Bool) : Device :=
  match d.mce.out with
  | none => d
  | some r =>
    let bs := r.bytes
    let d := d.modMce fun m => { m with out := none, last := bs, rayDue := false }
    let d := d.count (mceBase + 0x180) 1
    let d := { d with arb := d.arb.noteRec ⟨crcOk, r.mode⟩ }
    let d := if crcOk && r.mode != modeOff then d.completeTasks false fun _ t => t.kind == 3 else d
    let d := if crcOk then { d with fgw := { d.fgw with verdict := some ⟨r.tn, r.mode, r.batch, r.feasible, r.degraded⟩ } } else d
    d.verdictRing bs

/-- VERDICT_RECORD (R314). -/
def execVerdictRecord (crcOk : Bool) (s : State) : Out := s.on fun d => d.verdictRecord crcOk

/-! ### The wavefront search (R308) -/

/-- The world coarse column that holds the base position: the base pose of the batch, moved at the base twist for a
jointed model; unstated, and so free, where no batch has taken effect. -/
def Device.baseColumn (d : Device) : Int × Int :=
  match d.mce.eff, d.mce.model with
  | some b, some md =>
    let t : Rat := ((d.tn : Rat) - (batchT0 b.bytes : Rat)) / 1000000
    let p (i : Nat) : Rat := rat32 b.bytes (16 + 4 * i) + (if modelKind md = 1 then 0 else rat32 b.bytes (40 + 4 * i) * t)
    let c (i : Nat) : Int := ratFloor (p i * 1000000 / ((8 * d.mcePitch : Nat) : Rat))
    (c 0, c 1)
  | _, _ => (toSigned 32 (Config.freeWord d.fresh).toNat, toSigned 32 (Config.freeWord (d.fresh + 1)).toNat)

/-- A search starts when NOFEAS has reached AFTER and none runs. -/
def Device.waveStart (d : Device) : Device :=
  if d.mce.enable && d.mce.wave.isNone && decide (d.mceSw 0x8C % 2 ^ 10 ≤ d.mce.nofeas) then
    let c := d.baseColumn
    { d with fresh := d.fresh + 2 }.modMce fun m => { m with wave := some ⟨c.1, c.2, m.epoch, d.tn, []⟩ }
  else d

/-- WAVEFRONT_START (R308). -/
def execWavefrontStart (s : State) : Out := s.on fun d => d.waveStart

/-- The search finishes and publishes its result; WAVE_DONE goes into the record of the tempo. A column in which a read met an
uncorrectable error has the clearance minus infinity (R291). -/
def Device.waveDone (d : Device) : Device :=
  match d.mce.wave with
  | none => d
  | some w =>
    let cfg := d.mceSw 0x8C
    let esc := d.mceSw 0x90
    let clear (x y : Int) : Option Int := columnClear d.mce.coarse (d.mceOrigin true) (bits cfg 20 16) (bits cfg 28 24) x y
    let above (lim : Int) (p : Int × Int) : Bool :=
      !w.bad.contains p && match clear p.1 p.2 with | some v => decide (lim ≤ v) | none => false
    let path := waveSearch (above (toSigned 16 esc)) (above (toSigned 16 (esc / 2 ^ 16))) 8192 [[(w.x, w.y)]] [(w.x, w.y)]
    d.modMce fun m => { m with
      wave := none, waveResult := waveBytes d.tn w.epoch m.epoch path, waveDone := m.out.isNone,
      out := m.out.map fun r => { r with waveDone := true, waveRunning := false } }

/-- WAVEFRONT_DONE (R308). -/
def execWavefrontDone (s : State) : Out := s.on fun d => d.waveDone

/-- MCE.CTRL.WAVE_ABORT. -/
def Device.waveAbort (d : Device) : Device := d.modMce fun m => { m with wave := none }

/-- WAVE_ABORT (R308). -/
def execWaveAbort (s : State) : Out := s.on fun d => d.waveAbort

end Sys2Proof.Machine
end

