-- ==== Sys2Proof/Machine/MemCmds.lean ====
section
/-! DEFINITION. Errors of the memories, the patrol scrubber, repair and row sparing (R176 to R183). -/

namespace Sys2Proof.Machine

open Sys2Proof

/-- Changes the error and repair state of the memories. -/
def Device.modStk (d : Device) (f : Stk → Stk) : Device := { d with stk := f d.stk }

/-! ### Slab rows (R176, R180 to R183) -/

/-- Some byte of the row lies in [a, a + n). -/
def RowId.meets (r : RowId) (a n : Nat) : Bool := r.addrs.any fun x => decide (a ≤ x) && decide (x < a + n)

/-- The job that owns a row: the one bound to the engine, or the one whose context lies in the row of a shared slab
(R182; log entry 68). -/
def Device.rowOwner (d : Device) (r : RowId) : Option Nat :=
  match r with
  | .op e _ => (d.engine e).bound.map Prod.fst
  | .shared .. => d.jobNums.find? fun j =>
      let x := d.job j
      r.meets x.recAddr 192 || r.meets x.rc.descTable ((x.rc.descCount + 1) * 64)
        || r.meets x.rc.saveArea (x.maxEngines * x.rc.saveRows * 512)
        || (x.rc.variants.any fun v => r.meets v.resume (v.ckptMax * v.engines * 8))
        || (d.ownedRings j).any fun n => r.meets (d.ring n).base ((d.ring n).count * (d.ring n).entrySize)

/-- The engine is out of service, and an event names it (R183). -/
def Device.engineOut (d : Device) (e : Nat) : Device :=
  if bitOf d.sched.oos e then d
  else { d with sched := { d.sched with oos := d.sched.oos + 2 ^ e } }.event evEngineOut none e

/-- The 128 KiB range of a shared slab that holds the address is retired, and an event names it (R183). -/
def Device.retireRange (d : Device) (die a : Nat) : Device :=
  let r := (die, (a - slabBase die) / 0x2_0000)
  if d.stk.retiredRanges.contains r then d
  else (d.modStk fun s => { s with retiredRanges := r :: s.retiredRanges }).event evSlabRetired none (die * 768 + r.2)

/-- Spare rows of a bank that are in use or kept for a scheduled remap. -/
def Stk.sparesTaken (s : Stk) (bank : Nat) : Nat :=
  tget zeroDef s.spares bank + (s.remaps.filter fun m => m.row.bank == bank).length

/-- An event whose code no rule states (log entry 65). -/
def Device.eventOpen (d : Device) (arg : Nat) : Device :=
  { d with fresh := d.fresh + 1 }.event ((Config.freeWord d.fresh).toNat % 65535 + 1) none arg

/-- The firmware schedules a remap of a row, unless its bank has no spare row left (R180, R183). -/
def Device.scheduleRow (d : Device) (r : RowId) (bad : Bool) : Device :=
  if d.stk.remaps.any fun m => m.row == r then
    d.modStk fun s => { s with remaps := s.remaps.map fun m => if m.row = r then { m with bad := m.bad || bad } else m }
  else if d.stk.sparesTaken r.bank < 32 then
    d.modStk fun s => { s with remaps := s.remaps ++ [⟨r, bad, false, []⟩] }
  else match r with
    | .op e _ => d.engineOut e
    | .shared die _ _ => d.retireRange die (r.addrs.headD 0)

/-- A read of a slab byte met a correctable or an uncorrectable error (R176, R180, R182). -/
def Device.slabError (d : Device) (a : Nat) (bad : Bool) : Device :=
  match rowOf a with
  | none => d
  | some r =>
    if bad then
      let d := d.modStk fun s => { s with slabUncorr := (s.slabUncorr + 1) % 2 ^ 64, anyUncorr := true }
      let d := d.scheduleRow r true
      match d.rowOwner r with
      | some j => d.jobFault j 0x81 (match r with | .op e _ => ((d.engine e).bound.map Prod.snd).getD 0 | _ => 0)
      | none => d
    else
      let n := (((d.stk.rowErrs.find? fun p => p.1 == r).map Prod.snd).getD 0) + 1
      let d := d.modStk fun s => { s with slabCorr := (s.slabCorr + 1) % 2 ^ 64,
                                          rowErrs := (r, n) :: s.rowErrs.filter fun p => p.1 != r }
      if n = 8 then d.scheduleRow r false else d

/-- The remaps at a round boundary: one whose copy is complete or needs none takes effect; another misses the boundary, which an
event logs (R181, R182; log entry 65). The error counts of the rows are cleared (R180). -/
def Device.remapRows (d : Device) : Device :=
  let due := d.stk.remaps.filter fun m => m.bad || m.copied
  let late := (d.stk.remaps.filter fun m => !(m.bad || m.copied)).map fun m => { m with missed := d.tn :: m.missed }
  let d := due.foldl (fun d m =>
    let d := if m.bad then d.putAll (m.row.addrs.map fun a => (a, [0])) else d
    d.modStk fun s => { s with spares := tmod zeroDef s.spares m.row.bank (· + 1), remapped := m.row :: s.remapped }) d
  late.foldl (fun d _ => d.eventOpen (d.tn % 2 ^ 32)) (d.modStk fun s => { s with remaps := late, rowErrs := [] })

/-- A copy into the spare row is complete (R181); the spare row then follows every write. -/
def Device.rowCopied (d : Device) (r : RowId) : Device :=
  d.modStk fun s => { s with remaps := s.remaps.map fun m => if m.row = r ∧ m.bad = false then { m with copied := true } else m }

/-- SPARE_ROW_COPY (R181). -/
def execSpareRowCopy (row : RowId) (s : State) : Out := s.on fun d => d.rowCopied row

/-! ### Stacks (R177 to R179, R186) -/

/-- The key of a stack row in the table of scrub findings. -/
def rowKey (h row : Nat) : Nat := h * 2 ^ 40 + row

/-- Scrub passes with a correctable error in a row: three or an uncorrectable error call for a repair (R179). A value
keeps the count and, above it, one more than the pass counted last. -/
def Device.needsRepair (d : Device) (h row : Nat) : Bool := decide (3 ≤ tget zeroDef d.stk.rowPasses (rowKey h row) % 16)

/-- Corrected and uncorrectable errors of a stack burst are counted (R177, 0x4002). -/
def Device.stackError (d : Device) (h a : Nat) (o : EccOutcome) : Device :=
  let row := stackRowOf h (a - h * stackSize)
  match o with
  | .clean => d
  | .corrected => d.modStk fun s => if h = 0 then { s with corr0 := (s.corr0 + 1) % 2 ^ 64 } else { s with corr1 := (s.corr1 + 1) % 2 ^ 64 }
  | .uncorrectable | .tagMismatch =>
    let d := d.modStk fun s => if h = 0 then { s with uncorr0 := (s.uncorr0 + 1) % 2 ^ 64 } else { s with uncorr1 := (s.uncorr1 + 1) % 2 ^ 64 }
    let d := d.modStk fun s => { s with anyUncorr := true, rowPasses := tput zeroDef s.rowPasses (rowKey h row) 3 }
    if o = .tagMismatch then
      (d.modStk fun s => { s with sealedFail := (s.sealedFail + 1) % 2 ^ 32 }).note (.integrity a)
    else d

/-- An error of a read at an address, by the memory that holds it. -/
def Device.memError (d : Device) (a : Nat) (o : EccOutcome) : Device :=
  match placeOf a, o with
  | _, .clean => d
  | .stack h, o => d.stackError h a o
  | _, .corrected => d.slabError a false
  | _, _ => d.slabError a true

/-- The patrol scrub's interval in effect (0x4003:01). -/
def Device.scrubInterval (d : Device) : Nat := d.dict.num 0x4003 0x01

/-- A scrub read of the next burst of a stack, one per interval, in ascending order, counted under MG (R235); a correctable error
is written back corrected, an uncorrectable one is logged and raises an event (R178; the code of the event is free, log entry
65). -/
def Device.scrubRead (d : Device) (h : Nat) (o : EccOutcome) : Device :=
  let pos := if h = 0 then d.stk.scrubPos0 else d.stk.scrubPos1
  let last := if h = 0 then d.stk.scrubTn0 else d.stk.scrubTn1
  if d.tb.started = false ∨ d.pwr.hs h ≠ .trained ∨ d.tn < last + d.scrubInterval then d
  else
    let a := h * stackSize + pos * 64
    let row := stackRowOf h (pos * 64)
    let wraps := pos + 1 == burstCount
    let d := d.modStk fun s => if h = 0 then { s with scrubPos0 := if wraps then 0 else pos + 1, scrubTn0 := d.tn }
                               else { s with scrubPos1 := if wraps then 0 else pos + 1, scrubTn1 := d.tn }
    let d := if o = .corrected then
        d.modStk fun s =>
          let v := tget zeroDef s.rowPasses (rowKey h row)
          if v / 16 = s.passes + 1 ∨ v = 3 then s
          else { s with rowPasses := tput zeroDef s.rowPasses (rowKey h row) (min 3 (v % 16 + 1) + 16 * (s.passes + 1)) }
      else d
    let d := d.count (stackBase h + 0x2000 + 8 * classMG) 64
    let d := d.stackError h a o
    let d := if o = .uncorrectable ∨ o = .tagMismatch then d.eventOpen (pos % 2 ^ 32) else d
    if wraps && (h == 1 || d.pwr.hs1 != .trained) then d.modStk fun s => { s with passes := (s.passes + 1) % 2 ^ 32 } else d

/-- SCRUB_READ (R178). -/
def execScrubRead (h : Fin 2) (outcome : EccOutcome) (s : State) : Out := s.on fun d => d.scrubRead h outcome

/-- The firmware's repair of a stack row that needs it (R179): with a repair resource the row is replaced, its contents
copied while they are correctable; with none left, every 4 KiB page that the row touches is retired and an event names
them. -/
def Device.softRepair (d : Device) (h row : Nat) (correctable resource : Bool) : Device :=
  if !d.needsRepair h row || d.pwr.hs h != .trained then d
  else
    let base := h * stackSize
    let d := d.modStk fun s => { s with rowPasses := tput zeroDef s.rowPasses (rowKey h row) 0 }
    if resource then
      let d := d.modStk fun s => { s with repairs := ⟨h, row⟩ :: s.repairs }
      if correctable then d
      else (stackRowBlocks h row).foldl (fun d o => d.scramble (base + o) (base + o + 256)) d
    else
      (stackRowPages h row).foldl (fun d p =>
        let page := base / 4096 + p
        let d := if d.stk.retiredPages.contains page then d else d.modStk fun s => { s with retiredPages := page :: s.retiredPages }
        d.event evPagesRetired none page) d

/-- SOFT_REPAIR (R179). -/
def execSoftRepair (h : Fin 2) (row : Nat) (correctable resource : Bool) (s : State) : Out :=
  s.on fun d => d.softRepair h row correctable resource

end Sys2Proof.Machine
end

