-- ==== Sys2Proof/Machine/Dense.lean ====
section
/-! DEFINITION. What MMA, SPMM, ATTN, CVT, COPY and REMOTE compute (R103 to R108, R112, R118, R125, R152 to R154). -/

namespace Sys2Proof.Machine

/-- The tree result of R77 over k of w(k) × x(k) with accumulator input c, and the status of everything read.
`w k = none` is an unstored element, whose product is +0 whatever the activation holds (R106): the activation then counts as
not read, and a NaN there sets no NAN_IN (DEDUCED, log entry 156). -/
def reduce (integer : Bool) (n : Nat) (w : Nat → Option (FVal × NumStatus)) (x : Nat → FVal × NumStatus)
    (c : FVal × NumStatus) : FVal × NumStatus :=
  let st := (List.range n).foldl (fun s k => match w k with
    | some p => s ||| p.2 ||| (x k).2
    | none => s) c.2
  if integer then
    let (r, s) := intReduce c.1.toInt n fun k => match w k with
      | some p => p.1.toInt * (x k).1.toInt
      | none => 0
    (fOfInt r, st ||| s)
  else
    let (r, s) := blockReduce c.1 n fun k => match w k with
      | some p => fProd p.1 (x k).1
      | none => (fZero, 0)
    (r, st ||| s)

/-- A step of the epilogue is enabled (R104). -/
def Cmd.epiEnabled (c : Cmd) : Bool := c.scale != 0 || c.bias || c.act != 0 || c.resid

/-- The epilogue before its final conversion (R104): column n, row r of DST. SCALE_VAL and the clamp bounds are fields of the
command and no operands: a NaN there sets no NAN_IN (DEDUCED, log entry 156). -/
def Cmd.epilogue (c : Cmd) (v : Nat → Option View) (n r : Nat) (x : FVal) : FVal × NumStatus :=
  if c.epiEnabled then
    let (a, s0) := round32 x
    let (a, s1) := match c.scale, v 4 with
      | 1, some sv => let e := sv.elem 0 n; let (p, s) := mul32 a e.1; (p, s ||| e.2)
      | 2, _ => mul32 a (of32 c.scaleVal)
      | _, _ => (a, 0)
    let (a, s2) := match c.bias, v 5 with
      | true, some bv => let e := bv.elem 0 n; let (p, s) := add32 a e.1; (p, s ||| e.2)
      | _, _ => (a, 0)
    let (a, s3) := activate c.act (of32 (c.p2 % 2 ^ 32)) (of32 (c.p2 / 2 ^ 32)) a
    let (a, s4) := match c.resid, v 6 with
      | true, some rv => let e := rv.elem r n; let (q, s) := conv32 e.1; let (p, s') := add32 a q; (p, s ||| s' ||| e.2)
      | _, _ => (a, 0)
    (a, s0 ||| s1 ||| s2 ||| s3 ||| s4)
  else (x, 0)

/-- The accumulator input of an element of DST: C, or +0 (R77, R103). -/
def accIn (v : Nat → Option View) (r n : Nat) : FVal × NumStatus :=
  match v 3 with
  | some cv => cv.elem r n
  | none => (fZero, 0)

/-- The checksum test of R125 for tile t and the X row of DST row r: both sums are exact. -/
def checksumOk (w x k : View) (d : View) (kk t r : Nat) : Bool :=
  let b2 := d.rowDim r 2
  let b3 := d.rowDim r 3
  let b4 := d.rowDim r 4
  let xr := x.row (d.rowDim r 1) b2 b3 b4
  let lo := 64 * t
  let cols := (List.range (min 64 (d.t.size 0 - lo))).map fun i => lo + i
  let lhs := cols.foldl (fun s n =>
    s + (intTree kk fun j => w.int (w.row n b2 b3 b4) j * x.int xr j).1) (0 : Int)
  let rhs := (List.range kk).foldl (fun s j => s + k.int (k.row t b2 b3 b4) j * x.int xr j) (0 : Int)
  lhs == rhs

/-- MMA (R103, R104, R125). -/
def runMma (c : Cmd) (integer : Bool) (v : Nat → Option View) : ExecRes :=
  match v 1, v 2, v 0 with
  | some w, some x, some d =>
    if w.metaBad then .error (fcSparseMeta, 1)
    else
      let kk := w.t.size 0
      let bad := match c.chk, v 7 with
        | true, some k => (List.range d.t.rows).any fun r => (List.range ((d.t.size 0 + 63) / 64)).any fun t =>
            !checksumOk w x k d kk t r
        | _, _ => false
      if bad then .error (fcChecksum, 7)
      else
        let val (r n : Nat) : FVal × NumStatus :=
          let b2 := d.rowDim r 2
          let b3 := d.rowDim r 3
          let b4 := d.rowDim r 4
          let wr := w.row n b2 b3 b4
          let xr := x.row (d.rowDim r 1) b2 b3 b4
          let (t, s) := reduce integer kk (fun k => some (w.elem wr k)) (fun k => x.elem xr k) (accIn v r n)
          let (e, s') := c.epilogue v n r t
          (e, s ||| s')
        let (ws, st) := d.putAll c.rnd val
        .ok ⟨ws, st, none⟩
  | _, _, _ => .ok ⟨[], 0, none⟩

/-- Word j of an INT32 index companion of rank 1. -/
def View.idx (v : View) (j : Nat) : Int := toSigned 32 ((List.range 4).foldl (fun s i => s + v.rd (v.rowAddr 0 + 4 * j + i) * 256 ^ i) 0)

/-- The companion of a CSR or blocked-CSR weight, as a view of its own. -/
def View.companion (v : View) : View :=
  { v with t := v.comp.getD v.t, comp := none, rowAddr := v.compAddr, compAddr := fun _ => 0 }

/-- CSR (R152): an INT32 companion of rank 1; row pointers start at 0, never decrease and fit both tensors; columns increase strictly within a row
and lie below K. `rows` rows, `lim` columns, `cap` stored values. -/
def csrOk (ix : View) (rows lim cap : Nat) : Bool :=
  ix.t.rank == 1 && ix.t.fmt == some .int32 &&
  let p (n : Nat) : Int := ix.idx n
  let nnz := (p rows).toNat
  let len := ix.t.size 0
  decide (rows + 1 ≤ len) && p 0 == 0 && (List.range rows).all (fun n => decide (p n ≤ p (n + 1)))
    && decide (nnz ≤ cap) && decide (rows + 1 + nnz ≤ len)
    && (List.range rows).all fun n =>
      (List.range ((p (n + 1)).toNat - (p n).toNat)).all fun i =>
        let j := (p n).toNat + i
        let col := ix.idx (rows + 1 + j)
        decide (0 ≤ col) && decide (col < lim)
          && (i == 0 || decide (ix.idx (rows + 1 + j - 1) < col))

/-- The stored element of row `n` and column `col`, as its position in the values (R152, R153). -/
def csrFind (ix : View) (rows n col : Nat) : Option Nat :=
  let lo := (ix.idx n).toNat
  let hi := (ix.idx (n + 1)).toNat
  ((List.range (hi - lo)).map fun i => lo + i).find? fun j => ix.idx (rows + 1 + j) == (col : Int)

/-- SPMM (R106, R152 to R154). -/
def runSpmm (c : Cmd) (integer : Bool) (v : Nat → Option View) : ExecRes :=
  match v 1, v 2, v 0 with
  | some w, some x, some d =>
    let ix := w.companion
    let kk := x.t.size 0
    let n := d.t.size 0
    let blocked := bitOf c.p1 0
    let bn := 16 * 2 ^ bits c.p1 2 1
    let good := if blocked then csrOk ix (n / bn) ((kk + 63) / 64) (w.t.size 1 / bn) else csrOk ix n kk (w.t.size 0)
    if !good then .error (fcSparseMeta, 1)
    else
      let wAt (col k : Nat) : Option (FVal × NumStatus) :=
        if blocked then
          (csrFind ix (n / bn) (col / bn) (k / 64)).map fun b => w.elem (bn * b + col % bn) (k % 64)
        else (csrFind ix n col k).map fun j => w.elem 0 j
      let val (r col : Nat) : FVal × NumStatus :=
        let xr := x.row (d.rowDim r 1) (d.rowDim r 2) (d.rowDim r 3) (d.rowDim r 4)
        let (t, s) := reduce integer kk (wAt col) (fun k => x.elem xr k) (accIn v r col)
        let (e, s') := c.epilogue v col r t
        (e, s ||| s')
      let (ws, st) := d.putAll c.rnd val
      .ok ⟨ws, st, none⟩
  | _, _, _ => .ok ⟨[], 0, none⟩

/-- Values rounded to nearest even into the P format of ATTN (R108). -/
def toP (e4m3 : Bool) (v : FVal) : FVal × NumStatus :=
  let f := if e4m3 then fmtE4M3 else bfloat16
  let (b, s) := floatOf f false .rne 0 v
  (decodeFloat f b, s)

/-- One row of ATTN: the values out[v], the statistics and the status (R108). A masked key and its values count as not read, so
that a NaN there sets no NAN_IN (DEDUCED, log entry 156). The score is R77's result with c = +0; l and o are the tree's value alone,
as R108 words them (DEDUCED, log entry 157). -/
def attnRow (c : Cmd) (integer : Bool) (q k vv : View) (mask : Option View) (h i : Nat) :
    (Nat → FVal × NumStatus) × FVal × FVal × NumStatus :=
  let dd := q.t.size 0
  let lk := k.t.size 1
  let hk := h * k.t.size 2 / q.t.size 2
  let qr := q.row i h 0 0
  let scale := of32 (c.p1 % 2 ^ 32)
  let q0 := c.p2 % 2 ^ 32
  let masked (j : Nat) : Bool :=
    (match mask with | some m => decide (m.int (m.row i h 0 0) j ≠ 0) | none => false)
      || (bitOf c.p1 32 && decide (i + q0 < j))
  let score (j : Nat) : FVal × NumStatus :=
    let (t, s) := reduce integer dd (fun z => some (k.elem (k.row j hk 0 0) z)) (fun z => q.elem qr z) (fZero, 0)
    let (t, s') := round32 t
    let (t, s'') := mul32 t scale
    (t, s ||| s' ||| s'')
  let live := (List.range lk).filter fun j => !masked j
  match live.map score with
  | [] => (fun _ => (fZero, 0), .inf true, fZero, 0)
  | s0 :: rest =>
    let mx := rest.foldl (fun a x => max32 a x.1) s0.1
    let st0 := rest.foldl (fun a x => a ||| x.2) s0.2
    let ex (j : Nat) : FVal × NumStatus :=
      if masked j then (fZero, 0)
      else
        let (t, a) := add32 (score j).1 (fNeg mx)
        let (e, b) := devFun 7 t
        (e, a ||| b)
    let exs := (List.range lk).map ex
    let e (j : Nat) : FVal × NumStatus := exs.getD j (fZero, 0)
    let (l, s1) := blockTree lk fun j => (e j).1 |> fun x => (x, 0)
    let st1 := exs.foldl (fun a x => a ||| x.2) (st0 ||| s1)
    let out (x : Nat) : FVal × NumStatus :=
      let vr := vv.row x hk 0 0
      let ps := (List.range lk).map fun j =>
        if masked j then ((fZero, (0 : NumStatus)), (0 : NumStatus))
        else
          let p := toP (bitOf c.p1 33) (e j).1
          let ve := vv.elem vr j
          let z := fProd p.1 ve.1
          (z, p.2 ||| ve.2)
      let (o, a) := blockTree lk fun j => (ps.getD j ((fZero, 0), 0)).1
      let (r, b) := div32 o l
      (r, ps.foldl (fun s p => s ||| p.2) (a ||| b))
    (out, mx, l, st1)

/-- ATTN (R107, R108). -/
def runAttn (c : Cmd) (integer : Bool) (v : Nat → Option View) : ExecRes :=
  match v 1, v 2, v 4, v 0 with
  | some q, some k, some vv, some d =>
    let rows := (List.range d.t.rows).map fun r =>
      let i := d.rowDim r 1
      let h := d.rowDim r 2
      let (out, mx, l, st) := attnRow c integer q k vv (v 5) h i
      let xs := (List.range (d.t.size 0)).map fun x =>
        let (o, s) := out x
        let (e, s') := if c.resid then c.epilogue v x r o else (o, 0)
        (e, s ||| s')
      let (w, s) := d.putRow c.rnd r (xs.map Prod.fst)
      let sw := match v 7 with
        | some t => (t.putRow .rne (t.row i h 0 0) [mx, l]).1
        | none => []
      (w ++ sw, xs.foldl (fun a x => a ||| x.2) (st ||| s))
    .ok ⟨rows.flatMap Prod.fst, rows.foldl (fun a x => a ||| x.2) 0, none⟩
  | _, _, _, _ => .ok ⟨[], 0, none⟩

/-- CVT (R112): element by element under R84 to R86. -/
def runCvt (c : Cmd) (v : Nat → Option View) : ExecRes :=
  match v 1, v 0 with
  | some a, some d =>
    let (ws, st) := d.putAll c.rnd fun r k => a.elem r k
    .ok ⟨ws, st, none⟩
  | _, _ => .ok ⟨[], 0, none⟩

/-- COPY and REMOTE (R112, R118): elements in logical row-major order; Z and MX rows by whole blocks with their
companion. -/
def runCopy (v : Nat → Option View) : ExecRes :=
  match v 1, v 0 with
  | some a, some d =>
    let f := d.t.format
    let n := d.t.size 0
    .ok ⟨(List.range d.t.rows).flatMap fun r =>
        (d.rowAddr r, a.movedRun (r * n) n) :: (if f.isMx then [(d.compAddr r, a.compBytes r)] else []), a.readStatus, none⟩
  | _, _ => .ok ⟨[], 0, none⟩

end Sys2Proof.Machine
end

