-- ==== Sys2Proof/Machine/IndexUnit.lean ====
section
/-! DEFINITION. What the index unit computes (R127 to R151): gather, scatter, segmented reduction, sort, merge,
top-k, set operations and hash tables, each by its sequential definition (R134). -/

namespace Sys2Proof.Machine

/-- The four words of a report tensor, each saturated at 2^31 − 1 (R132). -/
def reportWrites (v : Nat → Option View) (w : List Nat) : List (Nat × List Byte) :=
  match v 7 with
  | none => []
  | some r => r.putWords ((List.range 4).map fun i => (i, ((min (w.getD i 0) (2 ^ 31 - 1) : Nat) : Int)))

/-- BIAS: PARAM1[63:32], signed (R127). -/
def Cmd.biasVal (c : Cmd) : Int := toSigned 32 (c.p1 / 2 ^ 32)

/-- Row r of a source as writes of row `q` of a destination of the same format. -/
def moveRow (s d : View) (r q : Nat) : List (Nat × List Byte) :=
  (d.rowAddr q, s.movedRun (r * s.t.size 0) (s.t.size 0)) :: (if d.t.format.isMx then [(d.compAddr q, s.compBytes r)] else [])

/-- The zero row of R135 as writes of row `q`. -/
def putZeroRow (d : View) (q : Nat) : List (Nat × List Byte) :=
  (d.rowAddr q, zeroRow d.t.format (d.t.size 0))
    :: (if d.t.format.isMx then [(d.compAddr q, zeros ((d.t.size 0 + 31) / 32))] else [])

/-- GATHER (R131, R135). -/
def runGather (c : Cmd) (v : Nat → Option View) : ExecRes :=
  match v 1, v 2, v 0 with
  | some a, some b, some d =>
    let n := b.t.size 0
    let src (i : Nat) : Option Nat :=
      let x := b.int 0 i + c.biasVal
      if 0 ≤ x ∧ x < (a.t.size 1 : Int) then some x.toNat else none
    let bad := ((List.range n).filter fun i => (src i).isNone).length
    if c.strict && decide (0 < bad) then .error (fcIndex, 2)
    else
      let ws := (List.range n).flatMap fun i => match src i with
        | some r => moveRow a d r i
        | none => putZeroRow d i
      let st := (List.range n).foldl (fun s i => match src i with
        | some r => s ||| a.rowStatus r
        | none => s) 0
      .ok ⟨ws ++ reportWrites v [n, bad, 0, d.t.elems], st, none⟩
  | _, _, _ => .ok ⟨[], 0, none⟩

/-- The combine of R138 on the elements of a list, with an initial value: 1 ADD, 2 MAX, 3 MIN. -/
def combine (op : Nat) (f : Fmt) (init : Option FVal) (xs : List FVal) : FVal × NumStatus :=
  if f = .int32 then
    let is := (init.toList ++ xs).map FVal.toInt
    match op, is with
    | 1, is =>
      let (r, sat) := clampInt (-(2 ^ 31)) (2 ^ 31 - 1) (is.foldl (· + ·) 0)
      (fOfInt r, stIf sat stIntSat)
    | _, [] => (fZero, 0)
    | 2, x :: rest => (fOfInt (rest.foldl max x), 0)
    | _, x :: rest => (fOfInt (rest.foldl min x), 0)
  else
    match op with
    | 1 =>
      let (t, s) := blockTree xs.length fun k => (xs.getD k fZero, 0)
      (match init with
       | some i => let (r, s') := add32 i t; (r, s ||| s')
       | none => (t, s))
    | op =>
      match init.toList ++ xs with
      | [] => (fZero, 0)
      | x :: rest => (rest.foldl (if op = 2 then max32 else min32) x, 0)

/-- NAN_IN of elements that were read as numbers. -/
def readStatus (xs : List (FVal × NumStatus)) : NumStatus := xs.foldl (fun s x => s ||| x.2) 0

/-- SCATTER (R136 to R138). -/
def runScatter (c : Cmd) (v : Nat → Option View) : ExecRes :=
  match v 1, v 2, v 0 with
  | some a, some b, some d =>
    let n := b.t.size 0
    let rows := d.t.size 1
    let dst (j : Nat) : Option Nat :=
      let x := b.int 0 j + c.biasVal
      if 0 ≤ x ∧ x < (rows : Int) then some x.toNat else none
    let bad := ((List.range n).filter fun j => (dst j).isNone).length
    if c.strict && decide (0 < bad) then .error (fcIndex, 2)
    else
      let op := c.p1 % 4
      let row (r : Nat) : List (Nat × List Byte) × NumStatus :=
        let l := (List.range n).filter fun j => dst j == some r
        match l with
        | [] => match v 3 with | some cv => (moveRow cv d r r, cv.rowStatus r) | none => (putZeroRow d r, 0)
        | _ =>
          if op = 0 then (moveRow a d (l.getLastD 0) r, a.rowStatus (l.getLastD 0))
          else
            let xs := (List.range (d.t.size 0)).map fun f =>
              let es := l.map fun j => a.elem j f
              let ci := (v 3).map fun cv => cv.elem r f
              let (x, s) := combine op d.t.format (ci.map Prod.fst) (es.map Prod.fst)
              (x, s ||| readStatus es ||| readStatus ci.toList)
            let (w, s) := d.putRow .rne r (xs.map Prod.fst)
            (w, s ||| readStatus xs)
      let rs := (List.range rows).map row
      .ok ⟨rs.flatMap Prod.fst ++ reportWrites v [n, bad, 0, d.t.elems], rs.foldl (fun s x => s ||| x.2) 0, none⟩
  | _, _, _ => .ok ⟨[], 0, none⟩

/-- The offsets of a SEGRED after R141, with the number adjusted. -/
def adjustOffsets (n : Nat) (raw : List Int) : List Nat × Nat :=
  let r := raw.foldl (fun (acc : List Nat × Nat × Nat) x =>
    let (out, prev, bad) := acc
    let y := max (prev : Int) (min x n)
    (out ++ [y.toNat], y.toNat, if y = x then bad else bad + 1)) (([] : List Nat), 0, 0)
  (r.1, r.2.2)

/-- SEGRED (R139 to R141). -/
def runSegred (c : Cmd) (v : Nat → Option View) : ExecRes :=
  match v 1, v 2, v 0 with
  | some a, some b, some d =>
    let n := a.t.size 1
    let (off, bad) := adjustOffsets n ((List.range (b.t.size 0)).map fun i => b.int 0 i)
    if c.strict && decide (0 < bad) then .error (fcIndex, 2)
    else
      let op := c.p1 % 4 + 1
      let fill : FVal := if d.t.format = .f32 then of32 (c.p2 % 2 ^ 32) else fOfInt (toSigned 32 c.p2)
      let rs := (List.range (d.t.size 1)).map fun s =>
        let lo := off.getD s 0
        let ps := (List.range (off.getD (s + 1) 0 - lo)).map fun i => lo + i
        let xs := (List.range (d.t.size 0)).map fun f =>
          let es := ps.map fun p => a.elem p f
          let (x, st) := if ps.isEmpty && op != 1 then (fill, 0) else combine op d.t.format none (es.map Prod.fst)
          (x, st ||| readStatus es)
        let (w, st) := d.putRow .rne s (xs.map Prod.fst)
        (w, st ||| readStatus xs)
      .ok ⟨rs.flatMap Prod.fst ++ reportWrites v [a.t.elems, bad, 0, d.t.elems], rs.foldl (fun s x => s ||| x.2) 0, none⟩
  | _, _, _ => .ok ⟨[], 0, none⟩

/-! ### Key order (R130) -/

/-- The rank of a key pattern of `w` bits in ascending order. -/
def keyRank (ord w pat : Nat) : Nat :=
  match ord with
  | 0 => (pat + 2 ^ (w - 1)) % 2 ^ w
  | 1 => pat
  | _ => if bitOf pat 31 then 2 ^ 32 - 1 - pat else pat + 2 ^ 31

/-- The rank under DESC. -/
def keyRankD (ord w : Nat) (desc : Bool) (pat : Nat) : Nat :=
  if desc then 2 ^ w - 1 - keyRank ord w pat else keyRank ord w pat

/-- A key with its rank, its source position and its carried value. -/
structure KeyEl where
  rank : Nat
  pat : Nat
  pos : Nat
  val : Int
  deriving DecidableEq, Repr

/-- Inserts after every element of the same rank: a stable insertion. -/
def insKey (x : KeyEl) : List KeyEl → List KeyEl
  | [] => [x]
  | y :: ys => if x.rank < y.rank then x :: y :: ys else y :: insKey x ys

/-- A stable sort by rank (R142). -/
def sortKeys (xs : List KeyEl) : List KeyEl := xs.foldl (fun acc x => insKey x acc) []

/-- The keys of row r of a view, with values from `val`. -/
def View.keys (a : View) (ord : Nat) (desc : Bool) (r : Nat) (val : Nat → Int) : List KeyEl :=
  (List.range (a.t.size 0)).map fun k =>
    let p := a.rawLin (r * a.t.size 0 + k)
    ⟨keyRankD ord a.t.format.intBits desc p, p, k, val k⟩

/-- Raw key patterns as row writes. -/
def View.putPats (d : View) (r : Nat) (ps : List Nat) : Nat × List Byte := (d.rowAddr r, packBits d.t.format.intBits ps)

/-- Signed values as one row of an INT32 view. -/
def View.putInts (d : View) (r : Nat) (xs : List Int) : Nat × List Byte := (d.rowAddr r, xs.flatMap fun x => leBytes 4 (ofSigned 32 x))

/-- SORT (R142). -/
def runSort (c : Cmd) (v : Nat → Option View) : ExecRes :=
  match v 1, v 0 with
  | some a, some d =>
    let rows := (List.range a.t.rows).map fun r =>
      let val (k : Nat) : Int := match v 2 with
        | some b => b.int r k
        | none => k
      let s := sortKeys (a.keys (c.p1 % 4) (bitOf c.p1 2) r val)
      d.putPats r (s.map KeyEl.pat) :: (match v 4 with | some o => [o.putInts r (s.map KeyEl.val)] | none => [])
    .ok ⟨rows.flatten ++ reportWrites v [a.t.elems, 0, 0, d.t.elems], 0, none⟩
  | _, _ => .ok ⟨[], 0, none⟩

/-- The two-pointer merge of R143: A on ties. The fuel is the sum of the lengths. -/
def mergeKeys : Nat → List KeyEl → List KeyEl → List KeyEl
  | 0, _, _ => []
  | _ + 1, [], ys => ys
  | _ + 1, xs, [] => xs
  | f + 1, x :: xs, y :: ys => if y.rank < x.rank then y :: mergeKeys f (x :: xs) ys else x :: mergeKeys f xs (y :: ys)

/-- Positions whose key is later in the order than the key after it (R143, R146). -/
def violations (xs : List KeyEl) : Nat := ((xs.zip xs.tail).filter fun p => decide (p.2.rank < p.1.rank)).length

/-- MERGE (R143). -/
def runMerge (c : Cmd) (v : Nat → Option View) : ExecRes :=
  match v 1, v 2, v 0 with
  | some a, some b, some d =>
    let val (o : Option View) (r k : Nat) : Int := match o with
      | some x => x.int r k
      | none => 0
    let rows := (List.range d.t.rows).map fun r =>
      let xs := a.keys (c.p1 % 4) (bitOf c.p1 2) r (val (v 4) r)
      let ys := b.keys (c.p1 % 4) (bitOf c.p1 2) r (val (v 5) r)
      let m := mergeKeys (xs.length + ys.length + 1) xs ys
      (d.putPats r (m.map KeyEl.pat) :: (match v 6 with | some o => [o.putInts r (m.map KeyEl.val)] | none => []),
       violations xs + violations ys)
    .ok ⟨rows.flatMap Prod.fst
      ++ reportWrites v [a.t.elems + b.t.elems, rows.foldl (fun s x => s + x.2) 0, 0, d.t.elems], 0, none⟩
  | _, _, _ => .ok ⟨[], 0, none⟩

/-- The padding of TOPK (R144). -/
def topkPad (ord w : Nat) (smallest : Bool) : Nat :=
  match ord, smallest with
  | 0, false => 2 ^ (w - 1)
  | 0, true => 2 ^ (w - 1) - 1
  | 1, false => 0
  | 1, true => 2 ^ w - 1
  | _, false => 0xFFFF_FFFF
  | _, true => 0x7FFF_FFFF

/-- TOPK (R144). -/
def runTopk (c : Cmd) (v : Nat → Option View) : ExecRes :=
  match v 1, v 0 with
  | some a, some d =>
    let k := c.p1 % 512
    let ord := bits c.p1 10 9
    let small := bitOf c.p1 11
    let w := a.t.format.intBits
    let rows := (List.range a.t.rows).map fun r =>
      let s := (sortKeys (a.keys ord (!small) r fun i => i)).take k
      let pad := k - s.length
      d.putPats r (s.map KeyEl.pat ++ List.replicate pad (topkPad ord w small))
        :: (match v 4 with | some o => [o.putInts r (s.map KeyEl.val ++ List.replicate pad (-1))] | none => [])
    .ok ⟨rows.flatten ++ reportWrites v [a.t.elems, 0, 0, d.t.elems], 0, none⟩
  | _, _ => .ok ⟨[], 0, none⟩

/-! ### Set operations (R145, R146) -/

/-- The output multiplicity of R145. -/
def setMult (op : Nat) (multiset : Bool) (mA mB : Nat) : Nat :=
  let a := if multiset then mA else min mA 1
  let b := if multiset then mB else min mB 1
  match op with
  | 0 => if multiset then a + b else max a b
  | 1 => min a b
  | 2 => a - b
  | _ => if a ≤ b then b - a else a - b

/-- The copies of one key: the run of A and the run of B (R145, R146). -/
def setEmit (op : Nat) (multiset : Bool) (as bs : List KeyEl) : List KeyEl :=
  let m := setMult op multiset as.length bs.length
  match op with
  | 2 => as.take m
  | 3 => if bs.length < as.length then as.take m else bs.take m
  | _ => (as ++ bs).take m

/-- The two-pointer pass of R146 over lists as given. -/
def setPass (op : Nat) (multiset : Bool) : Nat → List KeyEl → List KeyEl → List KeyEl
  | 0, _, _ => []
  | f + 1, xs, ys =>
    let key := match xs, ys with
      | [], [] => none
      | x :: _, [] => some x.rank
      | [], y :: _ => some y.rank
      | x :: _, y :: _ => some (min x.rank y.rank)
    match key with
    | none => []
    | some k =>
      let ra := xs.takeWhile fun x => x.rank == k
      let rb := ys.takeWhile fun y => y.rank == k
      setEmit op multiset ra rb ++ setPass op multiset f (xs.drop ra.length) (ys.drop rb.length)

/-- All keys of a view in logical row-major order. -/
def View.allKeys (a : View) (ord : Nat) (desc : Bool) (val : Option View) : List KeyEl :=
  (List.range a.t.elems).map fun k =>
    let p := a.rawLin k
    ⟨keyRankD ord a.t.format.intBits desc p, p, k, match val with | some x => x.linInt k | none => 0⟩

/-- SETOP (R133, R145, R146). -/
def runSetop (c : Cmd) (v : Nat → Option View) : ExecRes :=
  match v 1, v 0 with
  | some a, some d =>
    let ord := bits c.p1 4 3
    let desc := bitOf c.p1 5
    let xs := a.allKeys ord desc (v 4)
    let ys := match v 2 with
      | some b => b.allKeys ord desc (v 5)
      | none => []
    let out := setPass (c.p1 % 4) (bitOf c.p1 2) (xs.length + ys.length + 1) xs ys
    let cap := d.t.elems
    let kept := out.take cap
    let at' (i : Nat) : KeyEl := kept.getD i ⟨0, 0, 0, 0⟩
    let keys := d.putWords ((List.range kept.length).map fun i => (i, ((at' i).pat : Int)))
    let vals := match v 6 with
      | some o => o.putWords ((List.range kept.length).map fun i => (i, (at' i).val))
      | none => []
    .ok ⟨keys ++ vals ++ reportWrites v [xs.length + ys.length, violations xs + violations ys, out.length - cap, kept.length],
      0, some kept.length⟩
  | _, _ => .ok ⟨[], 0, none⟩

/-! ### Hash tables (R147 to R151) -/

/-- The empty code (R148). -/
def emptyCode : Nat := 0x8000_0000

/-- The home slot of a key pattern (R148). -/
def homeSlot (salt log2 x : Nat) : Nat := (Nat.xor x salt * 0x9E37_79B1 % 2 ^ 32) / 2 ^ (32 - log2)

/-- The slots of a table: (key, value) patterns by slot. -/
abbrev HashTab := Tab (Nat × Nat)

/-- The slots visited for a key that meets `stop`: the first slot, from `s` on, whose key is empty or `x`. -/
def probe (key : Nat → Nat) (size x : Nat) : Nat → Nat → Option Nat
  | 0, _ => none
  | f + 1, s => if key s = emptyCode ∨ key s = x then some s else probe key size x f ((s + 1) % size)

/-- The first empty slot from `s` on. -/
def probeEmpty (key : Nat → Nat) (size : Nat) : Nat → Nat → Option Nat
  | 0, _ => none
  | f + 1, s => if key s = emptyCode then some s else probeEmpty key size f ((s + 1) % size)

/-- The build's state: table, occupied slots, numeric status, out-of-range keys, and keys left out. -/
structure Build where
  tab : HashTab
  occ : Nat
  st : NumStatus
  bad : Nat
  left : Nat
  deriving DecidableEq, Repr

/-- One insertion of R149 under the load limit of R150; once a key is left out, every later key is. -/
def hashInsert (dflt : Nat → Nat × Nat) (size log2 dup salt : Nat) (b : Build) (x val : Nat) : Build :=
  if 0 < b.left then { b with left := b.left + 1 }
  else if x = emptyCode then { b with bad := b.bad + 1 }
  else
    let key (s : Nat) : Nat := (tget dflt b.tab s).1
    let home := homeSlot salt log2 x
    let spot := if dup = 3 then probeEmpty key size size home else probe key size x size home
    match spot with
    | none => { b with left := b.left + 1 }
    | some s =>
      if key s = emptyCode then
        (if 7 * 2 ^ (log2 - 3) ≤ b.occ then { b with left := b.left + 1 }
         else { b with tab := tput dflt b.tab s (x, val), occ := b.occ + 1 })
      else match dup with
        | 0 => b
        | 1 => { b with tab := tput dflt b.tab s (x, val) }
        | _ =>
          let (r, sat) := clampInt (-(2 ^ 31)) (2 ^ 31 - 1) (toSigned 32 (tget dflt b.tab s).2 + toSigned 32 val)
          { b with tab := tput dflt b.tab s (x, ofSigned 32 r), st := b.st ||| stIf sat stIntSat }

/-- A key as the 32-bit pattern of its signed value: keys narrower than 32 bits are sign-extended (log entry 25). -/
def View.key32 (a : View) (i : Nat) : Nat := ofSigned 32 (a.linInt i)

/-- HASHB (R149, R150). -/
def runHashb (c : Cmd) (v : Nat → Option View) : ExecRes :=
  match v 1, v 0 with
  | some a, some d =>
    let log2 := c.p1 % 32
    let size := 2 ^ log2
    let dup := bits c.p1 6 5
    let salt := c.p1 / 2 ^ 32
    let dflt (s : Nat) : Nat × Nat := match v 3 with
      | some cv => (cv.rawLin (16 + 2 * s), cv.rawLin (17 + 2 * s))
      | none => (emptyCode, Config.emptySlotValue.toNat)
    let occ0 := match v 3 with
      | some _ => ((List.range size).filter fun s => (dflt s).1 != emptyCode).length
      | none => 0
    let n := a.t.elems
    let b := (List.range n).foldl (fun (b : Build) i =>
      hashInsert dflt size log2 dup salt b (a.key32 i) (match v 2 with
        | some x => ofSigned 32 (x.linInt i)
        | none => i)) ⟨[], occ0, 0, 0, 0⟩
    if c.strict && decide (0 < b.bad) then .error (fcIndex, 1)
    else
      let header : List (Nat × Int) :=
        (List.range 16).map fun i => (i, (([log2, b.occ, dup, b.left, salt].getD i 0 : Nat) : Int))
      let slots : List (Nat × Int) := (List.range size).flatMap fun s =>
        let e := tget dflt b.tab s
        [(16 + 2 * s, (e.1 : Int)), (17 + 2 * s, (e.2 : Int))]
      .ok ⟨d.putWords (header ++ slots) ++ reportWrites v [n, b.bad, b.left, b.occ], b.st, none⟩
  | _, _ => .ok ⟨[], 0, none⟩

/-- All matches of a key in probe order up to the first empty slot (R148, R151). -/
def slotMatches (key : Nat → Nat) (size x : Nat) : Nat → Nat → List Nat
  | 0, _ => []
  | f + 1, s =>
    if key s = emptyCode then []
    else if key s = x then s :: slotMatches key size x f ((s + 1) % size)
    else slotMatches key size x f ((s + 1) % size)

/-- HASHP (R133, R151). -/
def runHashp (c : Cmd) (v : Nat → Option View) : ExecRes :=
  match v 1, v 2, v 0 with
  | some a, some b, some d =>
    let log2 := c.p1 % 32
    let size := 2 ^ log2
    let salt := c.p1 / 2 ^ 32
    let key (s : Nat) : Nat := a.rawLin (16 + 2 * s)
    let val (s : Nat) : Int := a.linInt (17 + 2 * s)
    let n := b.t.elems
    let bad := ((List.range n).filter fun i => b.key32 i == emptyCode).length
    if c.strict && decide (0 < bad) then .error (fcIndex, 2)
    else if bits c.p1 6 5 = 3 then
      let out := (List.range n).flatMap fun i =>
        if b.key32 i = emptyCode then []
        else (slotMatches key size (b.key32 i) size (homeSlot salt log2 (b.key32 i))).map fun s => ((i : Int), val s)
      let cap := d.t.size 1
      let kept := out.take cap
      let ws := d.putWords ((List.range kept.length).flatMap fun i =>
        let p := kept.getD i (0, 0)
        [(2 * i, p.1), (2 * i + 1, p.2)])
      .ok ⟨ws ++ reportWrites v [n, bad, out.length - cap, kept.length], 0, some (2 * kept.length)⟩
    else
      let hit (i : Nat) : Option Nat :=
        if b.key32 i = emptyCode then none
        else (slotMatches key size (b.key32 i) size (homeSlot salt log2 (b.key32 i))).head?
      let ws := d.putWords ((List.range n).map fun i => (i, match hit i with
        | some s => val s
        | none => toSigned 32 c.p2))
      let ss := match v 4 with
        | some o => o.putWords ((List.range n).map fun i => (i, match hit i with
          | some s => (s : Int)
          | none => -1))
        | none => []
      .ok ⟨ws ++ ss ++ reportWrites v [n, bad, 0, d.t.elems], 0, none⟩
  | _, _, _ => .ok ⟨[], 0, none⟩

end Sys2Proof.Machine
end

