-- ==== Sys2Proof/Machine/Iommu.lean ====
section
/-! DEFINITION. Address translation (R338 to R341), the dirty-page log (R357, R358) and the delivery of an instance's
interrupts (R342, R343). -/

namespace Sys2Proof.Machine

open Sys2Proof

/-- What an unlisted plain register reads as: PIPE.PERIOD is 16,667 (0xB000 + p:01), the others 0 (log entry 1). -/
def wordDef : Nat → Word := fun a => if a = pipeBase 0 + 8 ∨ a = pipeBase 1 + 8 then 16667 else 0

/-- A plain register. -/
def Device.reg (d : Device) (a : Nat) : Nat := (tget wordDef d.regs a).toNat
def Device.setReg (d : Device) (a v : Nat) : Device := { d with regs := tput wordDef d.regs a (BitVec.ofNat 32 v) }

/-- IOMMU.FSC, IOHGATP and TC of a context. -/
def Device.ctxFsc (d : Device) (c : Nat) : Nat := two d.reg (iommuBase + c * 0x20)
def Device.ctxGatp (d : Device) (c : Nat) : Nat := two d.reg (iommuBase + c * 0x20 + 8)
def Device.ctxTc (d : Device) (c : Nat) : Nat := d.reg (iommuBase + c * 0x20 + 0x10)

/-! ### Page tables (R339) -/

/-- RISC-V exception codes as causes: access faults, page faults and guest-page faults of reads and writes. -/
def causeAccess (w : Bool) : Nat := if w then 7 else 5
def causePage (w : Bool) : Nat := if w then 15 else 13
def causeGuest (w : Bool) : Nat := if w then 23 else 21

/-- A page-table entry that is valid: V, no W without R, no reserved bit. -/
def pteValid (p : Nat) : Bool := bitOf p 0 && !(bitOf p 2 && !bitOf p 1) && p / 2 ^ 54 == 0

/-- A leaf entry. -/
def pteLeaf (p : Nat) : Bool := bitOf p 1 || bitOf p 3

def ptePpn (p : Nat) : Nat := bits p 53 10

/-- A page table may lie in these memories. -/
def tablePlace (a : Nat) : Bool :=
  match placeOf a with
  | .stack _ | .slab _ | .sram => true
  | _ => false

/-- What a walk of one stage finds: the output address, and whether the page is writable with D set, readable, and
global; or the cause of a fault. -/
structure WalkHit where
  out : Nat
  rd : Bool
  wr : Bool
  glob : Bool
  deriving DecidableEq, Repr

abbrev WalkRes := Except Nat (WalkHit × Device)

/-- The use of a leaf at `level` found at `pa`: permissions, alignment of superpages, and the A and D bits, which are set
in hardware (R339). Accesses of devices count as user accesses (log entry 70). -/
def Device.useLeaf (d : Device) (write : Bool) (fault : Nat) (pa p level va : Nat) (glob : Bool) : WalkRes :=
  let span := 2 ^ (9 * level)
  if !bitOf p 4 || !(if write then bitOf p 2 else bitOf p 1) || ptePpn p % span != 0 then .error fault
  else
    let p' := p + (if bitOf p 6 then 0 else 64) + (if write && !bitOf p 7 then 128 else 0)
    let d := if p' = p then d else d.put pa (leBytes 8 p')
    .ok (⟨(ptePpn p + va / 4096 % span) * 4096 + va % 4096, bitOf p 1, bitOf p 2 && bitOf p' 7, glob || bitOf p 5⟩, d)

/-- One entry of a second-stage table: a leaf, a pointer handed to `next`, or a fault. -/
def Device.walkStep (d : Device) (write : Bool) (gpa level pa : Nat) (next : Nat → WalkRes) : WalkRes :=
  if !tablePlace pa then .error (causeAccess write)
  else
    let p := d.nat pa 8
    if !pteValid p then .error (causeGuest write)
    else if pteLeaf p then d.useLeaf write (causeGuest write) pa p level gpa false
    else next p

/-- The second-stage walk from a table at `base`, `idx` being the index at this level (Sv48x4). -/
def Device.walkG (d : Device) (write : Bool) (gpa : Nat) : Nat → Nat → Nat → WalkRes
  | 0, base, idx => d.walkStep write gpa 0 (base + idx * 8) fun _ => .error (causeGuest write)
  | l + 1, base, idx => d.walkStep write gpa (l + 1) (base + idx * 8) fun p =>
      d.walkG write gpa l (ptePpn p * 4096) (gpa / 2 ^ (12 + 9 * l) % 512)

/-- The second stage of a context: Bare passes the address on. -/
def Device.stage2 (d : Device) (c : Nat) (write : Bool) (gpa : Nat) : WalkRes :=
  let g := d.ctxGatp c
  if g / 2 ^ 60 = 0 then .ok (⟨gpa, true, true, false⟩, d)
  else if g / 2 ^ 60 = 9 then
    (if 2 ^ 50 ≤ gpa then .error (causeGuest write)
     else d.walkG write gpa 3 (g % 2 ^ 44 / 4 * 4 * 4096) (gpa / 2 ^ 39))
  else .error (causeGuest write)

/-- The first-stage walk; tables lie at addresses that the second stage translates (Sv48). -/
def Device.walkS (d : Device) (c : Nat) (write : Bool) (va : Nat) : Nat → Nat → Bool → WalkRes
  | n, base, glob =>
    let fault := causePage write
    match d.stage2 c false (base + va / 2 ^ (12 + 9 * n) % 512 * 8) with
    | .error e => .error e
    | .ok (t, d) =>
      if !tablePlace t.out then .error (causeAccess write)
      else
        let p := d.nat t.out 8
        if !pteValid p then .error fault
        else if pteLeaf p then
          (match d.stage2 c (!bitOf p 6 || (write && !bitOf p 7)) (base + va / 2 ^ (12 + 9 * n) % 512 * 8) with
           | .error e => .error e
           | .ok (t, d) => d.useLeaf write fault t.out p n va glob)
        else match n with
          | 0 => .error fault
          | n + 1 => d.walkS c write va n (ptePpn p * 4096) (glob || bitOf p 5)

/-- The first stage of a context. -/
def Device.stage1 (d : Device) (c : Nat) (write : Bool) (va : Nat) : WalkRes :=
  let f := d.ctxFsc c
  if f / 2 ^ 60 = 0 then .ok (⟨va, true, true, false⟩, d)
  else if f / 2 ^ 60 = 9 then
    (if va / 2 ^ 47 = 0 ∨ va / 2 ^ 47 = 2 ^ 17 - 1 then d.walkS c write va 3 (f % 2 ^ 44 * 4096) false else .error (causePage write))
  else .error (causePage write)

/-! ### The dirty-page log (R357, R358) -/

/-- A write through frame `a` of a logging context. -/
def Device.dirty (d : Device) (c : Nat) (world : Bool) (a : Nat) : Device :=
  let l := d.proc.dlog c
  if !l.en || l.ovf || l.filter.contains (a / 4096) then d
  else if dlogCount ≤ l.fill then { d with proc := d.proc.setDlog c { l with ovf := true } }
  else
    let d := d.put (l.base + l.tail.index * 8) (leBytes 8 (a / 4096 * 4096 % 2 ^ 52 + b2n world))
    { d with proc := d.proc.setDlog c { l with tail := l.tail.move dlogCount 1, filter := ((a / 4096) :: l.filter).take 1024 } }

/-! ### Translation (R338, R340) -/

/-- A translation fault is logged (R340). -/
def Device.iommuFault (d : Device) (c a cause : Nat) : Device := { d with proc := d.proc.fault ⟨c, a, cause⟩ }

/-- A cause that the specification gives no code for (an invalid context, a world that the context does not serve). -/
def Device.freeCause (d : Device) (c a : Nat) : Device :=
  { d.iommuFault c a (Config.freeWord d.fresh).toNat with fresh := d.fresh + 1 }

/-- Both stages, with the entry that the IOTLB takes (log entry 70). -/
def Device.walkBoth (d : Device) (c : Nat) (write : Bool) (a : Nat) : Except Nat (Nat × Device) :=
  match d.stage1 c write a with
  | .error e => .error e
  | .ok (h1, d) =>
    match d.stage2 c write h1.out with
    | .error e => .error e
    | .ok (h2, d) =>
      if d.ctxFsc c / 2 ^ 60 = 0 ∧ d.ctxGatp c / 2 ^ 60 = 0 then .ok (h2.out, d)
      else
        let e : TlbEntry := ⟨c, a / 4096, h1.out / 4096, h2.out / 4096, h1.rd && h2.rd, h1.wr && h2.wr,
          bits (d.ctxFsc c) 59 44, bits (d.ctxGatp c) 57 44, h1.glob⟩
        let rest := d.proc.tlb.filter fun x => !(x.ctx == c && x.page == a / 4096)
        .ok (h2.out, { d with proc := { d.proc with tlb := (e :: rest).take 4096 } })

/-- Translation of an access at `a`: the package-local address, or none for a fault, which is logged. -/
def Device.translate (d : Device) (c : Nat) (world write : Bool) (a : Nat) : Option Nat × Device :=
  let tc := d.ctxTc c
  if !bitOf tc 0 || bitOf tc 1 != world then (none, d.freeCause c a)
  else
    let hit := d.proc.tlb.find? fun x => x.ctx == c && x.page == a / 4096 && (if write then x.canWrite else x.canRead)
    let r : Option Nat × Device := match hit with
      | some x => (some (x.out * 4096 + a % 4096), d)
      | none => match d.walkBoth c write a with
        | .ok (o, d) => (some o, d)
        | .error e => (none, d.iommuFault c a e)
    if write && bitOf tc 3 && decide (c < 32) && r.1.isSome then (r.1, r.2.dirty c world a) else r

/-- The entries that an invalidation removes (R341). -/
def Inval.hits (i : Inval) (x : TlbEntry) : Bool :=
  let w := i.word
  match w % 4 with
  | 0 => x.ctx == bits w 7 2
  | 1 => x.vmid == bits w 21 8
  | 2 => x.asid == bits w 37 22 && !x.glob
  | _ => x.ctx == bits w 7 2 && (if bitOf w 38 then x.gpage == i.page else x.page % 2 ^ 38 == i.page)

/-! ### Interrupts of an instance (R343) -/

/-- Changes an instance. -/
def Device.modInst (d : Device) (i : Nat) (f : Inst → Inst) : Device := { d with proc := d.proc.setInst i (f (d.proc.inst i)) }

/-- An identity becomes pending in an interrupt file (R342). -/
def Device.irqFile (d : Device) (hart file id : Nat) : Device :=
  let k := hart * 7 + file
  let l := tget fileDef d.proc.imsic k
  { d with proc := { d.proc with imsic := tput fileDef d.proc.imsic k (if l.contains id then l else l ++ [id]) } }.note (.irqHart hart file id)

/-- The page of instance i (R350). -/
def instPage (i : Nat) : Nat := 0xF8_0000_0000 + i * 0x1_0000

/-- Where the vector control word of an MSI-X vector lies. Bit 0 masks the vector; it is stored inverted, so that a cleared
table is masked (R355). -/
def msixControl (i id : Nat) : Nat := instPage i + 0xE000 + id * 16 + 12

/-- The vector of an identity sends its message: no function exists in root-port mode, and a masked vector waits as a
pending bit (log entry 71). -/
def Device.msixOpen (d : Device) (i id : Nat) : Bool := !d.proc.endpoint || bitOf (d.nat (msixControl i id) 4) 0

/-- An MSI-X vector is unmasked or masked by a write of its control word: a pending one is sent (log entry 71). -/
def Device.msixWrite (d : Device) (i id v : Nat) : Device :=
  let d := d.put (msixControl i id) (leBytes 4 (v ^^^ 1))
  if !bitOf v 0 && (d.proc.inst i).msixPending.contains id then
    (d.modInst i fun x => { x with msixPending := x.msixPending.filter fun k => k != id }).note (.irqInst i id)
  else d

end Sys2Proof.Machine
end

