-- ==== Sys2Proof/Machine/VectorUnit.lean ====
section
/-! DEFINITION. Vector programs (R109 to R111): the registers of the vector unit and one instruction at a time. -/

namespace Sys2Proof.Machine

/-- The vector unit during a run. Lanes hold 32-bit patterns; scalars 64-bit values. -/
structure Vu where
  pc : Nat
  v : Tab (List Nat)
  p : Tab (List Bool)
  s : List Nat
  /-- Partials of RSUM in order: binary32 patterns and exact integers (R111). -/
  parts : List (Nat × Int)
  /-- Bytes stored by this run, by address. -/
  stores : Tab Nat
  st : NumStatus
  deriving DecidableEq, Repr

/-- How a step of a vector program ends. -/
inductive VuStep where
  | go (u : Vu)
  | halt (u : Vu)
  | fault
  deriving DecidableEq, Repr

def vregDef : Nat → List Nat := fun _ => List.replicate 64 0
def pregDef : Nat → List Bool := fun _ => List.replicate 64 false
def storeDef : Nat → Nat := fun _ => 256

def Vu.vreg (u : Vu) (i : Nat) : List Nat := tget vregDef u.v i
/-- p0 is always all lanes (R110). -/
def Vu.preg (u : Vu) (i : Nat) : List Bool := if i = 0 then List.replicate 64 true else tget pregDef u.p i
def Vu.sreg (u : Vu) (i : Nat) : Nat := u.s.getD i 0

/-- The operand lists of a run: operand n is slot n (R109). -/
abbrev VuOps := Nat → Option View

/-- A view whose reads see the bytes stored earlier in the run. -/
def Vu.see (u : Vu) (w : View) : View :=
  { w with rd := fun a => let b := tget storeDef u.stores a; if b = 256 then w.rd a else b }

/-- An element as lane `i`: binary32, or INT32, under the command's rounding mode where the conversion rounds (R84). A lane has no
destination tensor; the index of a stochastic draw is the lane number (log entry 23). -/
def toLane (int : Bool) (r : Rnd) (i : Nat) (x : FVal × NumStatus) : Nat × NumStatus :=
  if int then (let (v, s) := intOf 32 r i x.1; (ofSigned 32 v, s ||| x.2))
  else (let (b, s) := floatOf binary32 false r i x.1; (b, s ||| x.2))

/-- A lane as a value. -/
def ofLane (int : Bool) (w : Nat) : FVal := if int then fOfInt (toSigned 32 w) else of32 w

/-- Writes lanes where the predicate holds. -/
def blend (p : List Bool) (old new : List Nat) : List Nat :=
  (List.range 64).map fun i => if p.getD i false then new.getD i 0 else old.getD i 0

/-- An exact INT32 result, or the unstated value of an INT32 operation that leaves the range (log entry 23). -/
def intLane (op a b c : Nat) (r : Int) : Nat :=
  if -(2 ^ 31 : Int) ≤ r ∧ r < (2 ^ 31 : Int) then ofSigned 32 r
  else (Config.vuUnstated op (BitVec.ofNat 32 a) (BitVec.ofNat 32 b) (BitVec.ofNat 32 c)).toNat

/-- The unstated result of an operation on a lane. -/
def freeLane (op a b c : Nat) : Nat :=
  (Config.vuUnstated op (BitVec.ofNat 32 a) (BitVec.ofNat 32 b) (BitVec.ofNat 32 c)).toNat

/-- Whether an operation without a stated result sets INVALID: free as well (log entry 23). -/
def freeInvalid (op a b c : Nat) : NumStatus := stIf (freeLane (op + 256) a b c % 2 == 1) stInvalid

/-- A quotient rounded to the nearest integer, ties to even (R111). -/
def divRne (a b : Int) : Int :=
  let q := roundNat .rne 0 a.natAbs b.natAbs
  if (decide (a < 0)) != (decide (b < 0)) then -(q : Int) else q

/-- One lane of the arithmetic ranges 0x00 to 0x0B and 0x20 to 0x27 (R110, R111). A NaN in a register that an instruction reads is
an operand NaN, also where the program itself formed it, and sets NAN_IN (DEDUCED, log entry 156). -/
def laneOp (op : Nat) (int : Bool) (imm a b c : Nat) : Nat × NumStatus :=
  let fa := of32 a
  let fb := of32 b
  let fc := of32 c
  let ia := toSigned 32 a
  let ib := toSigned 32 b
  let ic := toSigned 32 c
  let f (x : FVal × NumStatus) : Nat × NumStatus :=
    (bits32 x.1, x.2 ||| stIf (fa.isNan || fb.isNan || fc.isNan) stNanIn)
  let f1 (x : FVal × NumStatus) : Nat × NumStatus := (bits32 x.1, x.2 ||| stIf fa.isNan stNanIn)
  let f2 (x : FVal × NumStatus) : Nat × NumStatus := (bits32 x.1, x.2 ||| stIf (fa.isNan || fb.isNan) stNanIn)
  let i (x : Int) : Nat × NumStatus := (intLane op a b c x, 0)
  match op with
  | 0x00 => if int then i (ia + ib) else f2 (add32 fa fb)
  | 0x01 => if int then i (ia - ib) else f2 (add32 fa (fNeg fb))
  | 0x02 => if int then i (ia * ib) else f2 (mul32 fa fb)
  | 0x03 => if int then i (ia * ib + ic) else f (fma32 fa fb fc)
  | 0x04 => if int then i (min ia ib) else f2 (min32 fa fb, 0)
  | 0x05 => if int then i (max ia ib) else f2 (max32 fa fb, 0)
  | 0x06 => if int then i (ia.natAbs : Int) else f1 (fAbs fa, 0)
  | 0x07 => if int then i (-ia) else f1 (fNeg fa, 0)
  | 0x08 => if int then (if ib = 0 then (freeLane op a b c, 0) else i (divRne ia ib))
    else if fa.isInf && fb.isInf then (freeLane op a b c, freeInvalid op a b c)
    else f2 (div32 fa fb)
  | 0x09 =>
    if int then
      (if ia < 0 then (freeLane op a b c, 0)
       else (let r := Nat.sqrt ia.toNat; i (if r * r + r < ia.toNat then (r : Int) + 1 else r)))
    else if fa.isNeg && !fa.isZero then (freeLane op a b c, freeInvalid op a b c)
    else f1 (sqrt32 fa)
  | 0x0A => (imm, 0)
  | 0x0B => (a, 0)
  | _ =>
    if int then (freeLane op a b c, 0)
    else f1 (match op with
      | 0x20 => devFun 7 fa
      | 0x21 => devFun 8 fa
      | 0x22 => devFun 9 fa
      | 0x23 => devFun 10 fa
      | 0x24 => devFun 5 fa
      | 0x25 => devFun 6 fa
      | 0x26 => devFun 3 fa
      | _ => devFun 4 fa)

/-- One lane of the logic operations 0x34 to 0x39 (R110). -/
def laneLogic (op a b : Nat) : Nat :=
  match op with
  | 0x34 => Nat.land a b
  | 0x35 => Nat.lor a b
  | 0x36 => Nat.xor a b
  | 0x37 => 2 ^ 32 - 1 - a
  | 0x38 => if b < 32 then a * 2 ^ b % 2 ^ 32 else freeLane op a b 0
  | _ => if b < 32 ∧ (a < 2 ^ 31 ∨ b = 0) then a / 2 ^ b else freeLane op a b 0

/-- One lane of the comparisons 0x30 to 0x32; a comparison with NaN does not hold. -/
def laneCmp (op : Nat) (int : Bool) (a b : Nat) : Bool :=
  if int then
    (match op with
     | 0x30 => a == b
     | 0x31 => decide (toSigned 32 a < toSigned 32 b)
     | _ => decide (toSigned 32 a ≤ toSigned 32 b))
  else
    (match op with
     | 0x30 => fEq (of32 a) (of32 b)
     | 0x31 => fLt (of32 a) (of32 b)
     | _ => fLt (of32 a) (of32 b) || fEq (of32 a) (of32 b))

/-- Conversion of lane `i` to a format of the vector unit; the lane then holds the rounded value, and the lane number is the index
of a stochastic draw, which has no destination tensor (R82; log entry 23). -/
def laneCvt (f : Fmt) (sat int : Bool) (r : Rnd) (i w : Nat) : Nat × NumStatus :=
  let x := ofLane int w
  let (b, s) := convElem f sat r i x
  let s := s ||| stIf x.isNan stNanIn
  if f.isInt then (ofSigned 32 (toSigned f.intBits b), s) else (bits32 (decodeFloat f.float b), s)

/-- Jumps: inside the 64 KiB store and at a multiple of 8 (R111). -/
def Vu.jump (u : Vu) (t : Nat) : VuStep := if t < 0x1_0000 ∧ t % 8 = 0 then .go { u with pc := t } else .fault

/-- Maps lanes with a status. -/
def mapLanes (f : Nat → Nat × NumStatus) (p : List Bool) : List Nat × NumStatus :=
  let r := (List.range 64).map fun i => if p.getD i false then f i else (0, 0)
  (r.map Prod.fst, r.foldl (fun s x => s ||| x.2) 0)

/-- One vector instruction `w` (R110, R111). -/
def Vu.exec (ops : VuOps) (rnd : Rnd) (u : Vu) (w : Nat) : VuStep :=
  let op := w % 256
  let d := bits w 12 8
  let ra := bits w 17 13
  let rb := bits w 22 18
  let rc := bits w 27 23
  let p := u.preg (bits w 30 28)
  let int := bitOf w 31
  let imm := w / 2 ^ 32 % 2 ^ 32
  let next : Vu := { u with pc := u.pc + 8 }
  let a := u.vreg ra
  let b := u.vreg rb
  let c := u.vreg rc
  let wr (x : List Nat × NumStatus) : VuStep :=
    .go { next with v := tput vregDef u.v d (blend p (u.vreg d) x.1), st := u.st ||| x.2 }
  let wrS (r : Nat) (x : Nat) (s : NumStatus) : VuStep :=
    if r < 16 then .go { next with s := u.s.set r (x % 2 ^ 64), st := u.st ||| s } else .fault
  let lane (l : List Nat) (i : Nat) : Nat := l.getD i 0
  let active := (List.range 64).filter fun i => p.getD i false
  if op ≤ 0x0B ∨ (0x20 ≤ op ∧ op ≤ 0x27) then
    wr (mapLanes (fun i => laneOp op int imm (lane a i) (lane b i) (lane c i)) p)
  else if 0x30 ≤ op ∧ op ≤ 0x32 then
    (if 8 ≤ d then .fault
     else
       let old := u.preg d
       let r := (List.range 64).map fun i =>
         if p.getD i false then laneCmp op int (lane a i) (lane b i) else old.getD i false
       let nan := !int && active.any fun i => (of32 (lane a i)).isNan || (of32 (lane b i)).isNan
       .go { next with p := if d = 0 then u.p else tput pregDef u.p d r, st := u.st ||| stIf nan stNanIn })
  else if op = 0x33 then
    .go { next with v := tput vregDef u.v d (blend p b a) }
  else if 0x34 ≤ op ∧ op ≤ 0x39 then
    wr (mapLanes (fun i => (laneLogic op (lane a i) (lane b i), 0)) p)
  else if op = 0x40 then
    (match Fmt.ofCode (imm % 256) with
     | some f => if f.vu then wr (mapLanes (fun i => laneCvt f (bitOf imm 8) int rnd i (lane a i)) p) else .fault
     | none => .fault)
  else if op = 0x50 ∨ op = 0x51 then
    (match ops (imm % 8), decide (ra < 16) with
     | some o, true =>
       let o := u.see o
       let e (i : Nat) : Nat := u.sreg ra + (if op = 0x50 then i else 0)
       if active.all fun i => decide (e i < o.t.elems) then wr (mapLanes (fun i => toLane int rnd i (o.lin (e i))) p)
       else .fault
     | _, _ => .fault)
  else if op = 0x52 then
    (match ops (imm % 8), decide (ra < 16) with
     | some o, true =>
       let e (i : Nat) : Nat := u.sreg ra + i
       if active.all fun i => decide (e i < o.t.elems) then
         let wb := o.t.format.bits / 8
         let r := active.map fun i =>
           let (x, s) := convElem o.t.format o.t.sat rnd (e i) (ofLane int (lane (u.vreg d) i))
           ((o.rowAddr (e i / o.t.size 0) + e i % o.t.size 0 * wb, leBytes wb x), s)
         let ss := r.foldl (fun t x => (List.range wb).foldl (fun t k =>
           tput storeDef t (x.1.1 + k) (x.1.2.getD k 0).toNat) t) u.stores
         .go { next with stores := ss, st := r.foldl (fun s x => s ||| x.2) u.st }
       else .fault
     | _, _ => .fault)
  else if op = 0x60 then
    (if 4096 ≤ u.parts.length then .fault
     else if int then
       .go { next with parts := u.parts ++ [(0, active.foldl (fun s i => s + toSigned 32 (lane a i)) 0)] }
     else
       let (x, s) := groupSum (active.map fun i => (of32 (lane a i), stIf (of32 (lane a i)).isNan stNanIn))
       .go { next with parts := u.parts ++ [(bits32 x, 0)], st := u.st ||| s })
  else if op = 0x61 ∨ op = 0x62 then
    (let xs := active.map (lane a)
     match xs with
     | [] => wrS d (freeLane op 0 0 (b2n int)) 0
     | x :: rest =>
       if int then
         let r := rest.foldl (fun m y => if op = 0x61 then max m (toSigned 32 y) else min m (toSigned 32 y)) (toSigned 32 x)
         wrS d (ofSigned 64 r) 0
       else
         let r := rest.foldl (fun m y => if op = 0x61 then max32 m (of32 y) else min32 m (of32 y)) (of32 x)
         wrS d (bits32 r) (stIf r.isNan stNanIn))
  else if op = 0x63 then
    (let n := u.parts.length
     let cleared : Vu := { next with parts := [] }
     if 16 ≤ d then .fault
     else if int then
       let (r, s) := if n = 0 then (0, 0) else canonTree addAcc (fun i => (u.parts.getD i (0, 0)).2) n
       .go { cleared with s := u.s.set d (ofSigned 64 r), st := u.st ||| s }
     else
       let (r, s) := if n = 0 then (fZero, 0) else canonTree add32 (fun i => of32 (u.parts.getD i (0, 0)).1) n
       .go { cleared with s := u.s.set d (bits32 r), st := u.st ||| s })
  else if op = 0x70 then
    (if 16 ≤ d then .fault
     else
       match u.sreg d with
       | 0 => .go next
       | k + 1 => Vu.jump { u with s := u.s.set d k } imm)
  else if op = 0x71 then
    (if 16 ≤ ra then .fault else if u.sreg ra = 0 then .go next else u.jump imm)
  else if op = 0x72 then
    (if 16 ≤ ra then .fault else wrS d (ofSigned 64 (toSigned 64 (u.sreg ra) + toSigned 32 imm)) 0)
  else if op = 0x73 then
    (if 16 ≤ ra then .fault else wrS d (u.sreg ra) 0)
  else if op = 0x74 then .halt u
  else .fault

/-- Runs a program for at most `fuel` instructions; `word` reads the instruction at an offset of the store. -/
def Vu.run (ops : VuOps) (rnd : Rnd) (word : Vu → Nat) : Nat → Vu → VuStep
  | 0, _ => .fault
  | f + 1, u =>
    if 0x1_0000 ≤ u.pc then .fault
    else match u.exec ops rnd (word u) with
      | .go u' => Vu.run ops rnd word f u'
      | r => r

/-- VPROG (R109): `store` reads a byte of the program store at the address `base` plus its offset. -/
def runVprog (c : Cmd) (base : Nat) (rd : Nat → Nat) (v : Nat → Option View) : ExecRes :=
  let limit := if c.p1 / 2 ^ 32 = 0 then 2 ^ 32 else c.p1 / 2 ^ 32
  let n := match v 0 with
    | some d => d.t.elems
    | none => 0
  let u0 : Vu := { pc := c.p1 % 2 ^ 16, v := [], p := [], s := n :: List.replicate 15 0, parts := [], stores := [], st := 0 }
  let byte (u : Vu) (o : Nat) : Nat := let b := tget storeDef u.stores (base + o); if b = 256 then rd (base + o) else b
  let word (u : Vu) : Nat := (List.range 8).foldl (fun s i => s + byte u (u.pc + i) * 256 ^ i) 0
  if u0.pc % 8 ≠ 0 then .error (fcVprog, slotNone)
  else match Vu.run v c.rnd word limit u0 with
    | .halt u => .ok ⟨u.stores.map fun p => (p.1, [BitVec.ofNat 8 p.2]), u.st, none⟩
    | _ => .error (fcVprog, slotNone)

end Sys2Proof.Machine
end

