-- ==== Sys2Proof/Machine/EngOps.lean ====
section
/-! DEFINITION. Operands in their places: how an engine's command reaches the bytes of its tensors, with translation,
region checks and the write-combining buffer, and how a command faults (R99 to R102, R119 to R126, R174, R175). -/

namespace Sys2Proof.Machine

open Sys2Proof

/-! ### Addresses of operands

A command sees its operands through one address: bits [55:0] are an address in the space that the bits above name: 0 an
address of its context, 1 a package-local address (entries of a ring of this device), 2 an offset in the engine's slab,
3 an offset in the program store, 4 a global address of another device. -/

def spaceOf (u : Nat) : Nat := u / 2 ^ 56
def inSpace (s a : Nat) : Nat := s * 2 ^ 56 + a

/-- The ID that the device takes for itself (R27). -/
def Device.ownId (d : Device) : Nat := d.fab.id.getD 0

/-- A DEVICE field that names this device (R27). -/
def Device.isOwn (d : Device) (dev : Nat) : Bool := dev == d.ownId

/-- The tensor lies on another device. -/
def Device.isRemote (d : Device) (t : TDesc) : Bool := t.space == 2 && !d.isOwn (t.addr / 2 ^ 40)

/-- The index in dimension `k` of row `r`. -/
def TDesc.rowIx (t : TDesc) (r k : Nat) : Nat :=
  match k with
  | 1 => r % t.size 1
  | 2 => r / t.size 1 % t.size 2
  | 3 => r / (t.size 1 * t.size 2) % t.size 3
  | _ => r / (t.size 1 * t.size 2 * t.size 3)

/-- The byte offset of row `r` over the dimensions `ks`. -/
def TDesc.rowOff (t : TDesc) (ks : List Nat) (r : Nat) : Nat := ks.foldl (fun s k => s + t.rowIx r k * t.stride k) 0

/-- The address of row `r` of a tensor; `out` where the command writes it (R99, R100). -/
def Device.rowAddr (d : Device) (t : TDesc) (out : Bool) (r : Nat) : Nat :=
  if t.isRing then
    let last := t.rank - 1
    let off := t.rowOff ([1, 2, 3, 4].filter fun k => k != last) r
    let k := t.rowIx r last
    if d.isRemote t then
      let dev := t.addr / 2 ^ 40
      let base := (Config.remoteRingBase dev t.ring).toNat
      let i := match findProxy d.fab.proxies dev t.ring with
        | some p => (p.tail.index + k) % max 1 p.count
        | none => k
      inSpace 4 (dev * 2 ^ 40 + (base + i * t.stride last + off) % 2 ^ 40)
    else
      let g := d.ring t.ring
      inSpace 1 (g.entryAddr (if out then g.tail else g.head) k + off)
  else
    let o := t.rowOff [1, 2, 3, 4] r
    match t.space with
    | 0 => t.addr % 2 ^ 40 + o
    | 1 => inSpace 2 (t.addr + o)
    | 2 => if d.isRemote t then inSpace 4 (t.addr + o) else t.addr % 2 ^ 40 + o
    | _ => inSpace 3 (t.addr + o)

/-- The byte ranges of a tensor's rows. -/
def Device.rowRanges (d : Device) (t : TDesc) (out : Bool) (rows : List Nat) : List (Nat × Nat) :=
  if t.rowBytes = 0 then [] else rows.map fun r => (d.rowAddr t out r, t.rowBytes)

/-- The byte ranges of an operand with its companion. -/
def Device.ranges (d : Device) (o : Operand) (out : Bool) : List (Nat × Nat) :=
  d.rowRanges o.t out (List.range o.t.rows)
    ++ (match o.comp with | some c => d.rowRanges c out (List.range c.rows) | none => [])

/-- An extent (R101): a space (0 global, 1 the engine's slab, 3 its program store) and a byte range in it. -/
abbrev Extent := Nat × Nat × Nat

/-- The extent of one tensor (R101). -/
def Device.extent1 (d : Device) (t : TDesc) (out : Bool) : List Extent :=
  let rs := d.rowRanges t out (List.range t.rows)
  match rs with
  | [] => []
  | r :: _ =>
    let (sp, dev) := match spaceOf r.1 with
      | 0 => (0, d.ownId * 2 ^ 40)
      | 1 => (0, d.ownId * 2 ^ 40)
      | 4 => (0, 0)
      | 2 => (1, 0)
      | _ => (3, 0)
    let as := rs.map fun x => dev + x.1 % 2 ^ 56
    [(sp, as.foldl min (as.headD 0), as.foldl max 0 + t.rowBytes)]

def Device.extent (d : Device) (o : Operand) (out : Bool) : List Extent :=
  d.extent1 o.t out ++ (match o.comp with | some c => d.extent1 c out | none => [])

/-- Two extents share a byte (R101). -/
def overlap (xs ys : List Extent) : Bool :=
  xs.any fun x => ys.any fun y => x.1 == y.1 && decide (x.2.1 < y.2.2) && decide (y.2.1 < x.2.2)

/-! ### Reading -/

/-- The newest byte that the engine's write path holds for an address (R174, R175). -/
def Eng.newest (g : Eng) (a : Nat) : Option Byte :=
  let q (s : StoreReq) : Option Byte := (WcbEntry.mk s.line s.bytes []).byte a
  match (g.stq.reverse).findSome? q with
  | some b => some b
  | none => g.wcb.findSome? fun w => w.byte a

/-- Who runs a command: the engine, its job and logical number, and the job's world and context. -/
structure Runner where
  e : Nat
  j : Nat
  l : Nat
  world : Bool
  ctx : Nat
  deriving DecidableEq, Repr

def Device.runner (d : Device) (e : Nat) : Option Runner :=
  (d.engine e).bound.map fun b => ⟨e, b.1, b.2, (d.job b.1).rc.world, (d.job b.1).rc.inst⟩

/-- A byte as a command of the engine reads it. -/
def Device.read (d : Device) (w : Runner) (fetched : Mem) (u : Nat) : Nat :=
  let a := u % 2 ^ 56
  let seen (p : Nat) : Nat := (((d.engine w.e).newest p).getD (d.byte p)).toNat
  match spaceOf u with
  | 0 => (match (d.translate w.ctx w.world false a).1 with | some p => seen p | none => 0)
  | 1 => seen a
  | 2 => (d.byte (opSlabBase w.e + a)).toNat
  | 3 => (d.byte (vuBase w.j w.l + a)).toNat
  | _ => (mget fetched a).toNat

/-- An operand as a command reads or writes it. -/
def Device.view (d : Device) (w : Runner) (fetched : Mem) (o : Operand) (out : Bool) : View :=
  { t := o.t, comp := o.comp, rowAddr := d.rowAddr o.t out, rd := d.read w fetched,
    compAddr := match o.comp with | some c => d.rowAddr c out | none => fun _ => 0 }

/-! ### Access checks (R102, R126, R184, R336, R340) -/

/-- What an engine's access to a package-local address meets: a fault code, or none. -/
def Device.placeFault (d : Device) (world write sealedT weight : Bool) (p : Nat) : Option Nat :=
  let region : Option Nat :=
    if (d.gov p).sealed != sealedT then some fcSeal
    else if d.rgnAllows .engines world write weight p then none else some fcWorld
  match placeOf p with
  | .stack _ => if d.answers p then region else some fcBounds
  | .slab _ => region
  | .sram => if sealedT then some fcSeal else if d.sramWorld p = world then none else some fcWorld
  | _ => some fcBounds

/-- The refusal of an access is one that R240 logs: one under R20, R23, R24 or R184. -/
def Device.refusalLogged (d : Device) (world write weight : Bool) (p : Nat) : Bool :=
  match placeOf p with
  | .stack _ => d.answers p && !d.rgnAllows .engines world write weight p
  | .slab _ => !d.rgnAllows .engines world write weight p
  | .outside | .opSlab _ | .rom => true
  | .pcie => !d.proc.pcieUp
  | _ => false

/-- One page of an access: the fault code and address, or none. Data of another device never comes from a sealed region, which its
bridge refuses (R28), so a SEALED tensor there meets SEAL (R102). -/
def Device.checkPage (d : Device) (w : Runner) (write sealedT weight : Bool) (u n : Nat) : Device × Option (Nat × Nat) :=
  let a := u % 2 ^ 56
  let at' (d : Device) (p : Nat) : Device × Option (Nat × Nat) :=
    match d.placeFault w.world write sealedT weight p with
    | some c =>
      (if d.refusalLogged w.world write weight p then d.logRefusal (Port.engine w.e) p write w.world else d, some (c, p))
    | none => (d, none)
  match spaceOf u with
  | 0 => (match d.translate w.ctx w.world write a with
    | (some p, d) => at' d p
    | (none, d) => (d, some (fcBounds, a)))
  | 1 => at' d a
  | 2 => (d, if sealedT then some (fcSeal, a) else if a + n ≤ 0x38_0000 then none else some (fcBounds, a))
  | 3 => (d, if sealedT then some (fcSeal, a) else if a + n ≤ 0x1_0000 then none else some (fcBounds, a))
  | _ => (d, if sealedT then some (fcSeal, a) else none)

/-- Ranges of an access, up to the first that fails. -/
def Device.checkRanges (d : Device) (w : Runner) (write sealedT weight : Bool) (rs : List (Nat × Nat)) :
    Device × Option (Nat × Nat) :=
  (rs.flatMap fun r => pagesOf r.1 r.2).foldl (fun p r => match p.2 with
    | some _ => p
    | none => p.1.checkPage w write sealedT weight r.1 r.2) (d, none)

/-! ### Writing (R158, R174) -/

/-- The package-local address of a written address. -/
def Device.place (d : Device) (w : Runner) (u : Nat) : Option Nat :=
  let a := u % 2 ^ 56
  match spaceOf u with
  | 0 => (d.translate w.ctx w.world true a).1
  | 1 => some a
  | 2 => some (opSlabBase w.e + a)
  | 3 => some (vuBase w.j w.l + a)
  | _ => none

/-- Stores bytes of command `seq` within one page: to stacked memory through the write-combining buffer, elsewhere at
once; those of a shared slab or the SRAM leave by the engine's port (R223, R235). -/
def Device.storePage (d : Device) (w : Runner) (seq u : Nat) (bs : List Byte) : Device :=
  match d.place w u with
  | none => d
  | some p => match placeOf p with
    | .stack _ => (linesOf p bs).foldl (fun d x => d.modEng w.e fun g => g.store x.1 x.2 seq) d
    | .slab _ | .sram => (d.put p bs).served (Port.engine w.e) true p bs.length
    | _ => d.put p bs

/-- Stores a byte string of command `seq`. -/
def Device.storeBytes (d : Device) (w : Runner) (seq u : Nat) (bs : List Byte) : Device :=
  (pagesOf u bs.length).foldl (fun d r => d.storePage w seq r.1 ((bs.drop (r.1 - u)).take r.2)) d

/-- The package-local ranges that a command's destinations may touch (R120). -/
def Device.plainRanges (d : Device) (w : Runner) (outs : List Operand) : List (Nat × Nat) :=
  ((outs.flatMap fun o => d.ranges o true).flatMap fun r => pagesOf r.1 r.2).filterMap fun r =>
    (d.place w r.1).map fun p => (p, p + r.2)

/-! ### Completion records and faults (R121, R126, R419) -/

/-- The completion ring of an engine's commands (R121). -/
def Device.complRing (d : Device) (w : Runner) : Nat := (d.job w.j).rc.complRing0 + w.l

/-- The address at which the region checkers refuse the next record of an engine (R184, R186). -/
def Device.recordRefused (d : Device) (w : Runner) : Option Nat :=
  let r := d.ring (d.complRing w)
  d.refusedAt .engines w.world true (r.entryAddr r.tail 0) 16

/-- Appends a record to the completion ring of an engine (R121); one that the region checkers refuse is logged and not written
(R184, R240). -/
def Device.record (d : Device) (w : Runner) (seq status : Nat) (st : NumStatus) : Device :=
  let n := d.complRing w
  let (t, d) := d.stamp
  let r := d.ring n
  let gen := (d.proc.inst (d.job w.j).rc.inst).gen
  match d.recordRefused w, r.publish 1 with
  | some a, _ => d.logRefusal (Port.engine w.e) a true w.world
  | none, some r' =>
    (d.put (r.entryAddr r.tail 0) (leBytes 4 seq ++ leBytes 1 status ++ [st] ++ leBytes 1 gen ++ leBytes 1 w.l ++ leBytes 8 t)).moveRing n r'
  | none, none => d

/-- A residue or checksum fault of an engine: the fourth within 1,000 rounds takes it out of service (R124, R419). -/
def Device.checkFault (d : Device) (e : Nat) : Device :=
  let times := d.tn :: (d.engine e).checkAt.filter fun t => decide (d.tn < t + 1000000)
  let d := d.modEng e fun g => { g with checkCnt := (g.checkCnt + 1) % 2 ^ 32, suspect := true, checkAt := times }
  if 4 ≤ times.length ∧ bitOf d.sched.oos e = false then (d.engineOut e).reportCause 0x11 (some e) else d

/-- A fault of one command. -/
structure FaultOf where
  w : Runner
  seq : Nat
  code : Nat
  slot : Nat
  addr : Nat
  atIssue : Bool
  deriving DecidableEq, Repr

/-- The fault registers of its engine take a fault (R126), and a residue or checksum fault counts against the engine. -/
def Device.faultRegs (d : Device) (f : FaultOf) : Device :=
  let d := d.modEng f.w.e fun g =>
    { g with faultInfo := f.code + 2 ^ 8 * f.slot + 2 ^ 12 * b2n f.atIssue, faultSeq := f.seq, faultAddr := f.addr }
  if f.code = fcResidue ∨ f.code = fcChecksum then d.checkFault f.w.e else d

/-- Commands of one job fault in one cycle, given by rising logical engine and then in ring order (R93, R121, R126, R211, R212):
each appends its record, whose status byte is 0 since its numeric status is discarded (R88); an engine's fault registers keep its
earliest, and the job fault that of the lowest logical engine. -/
def Device.cmdFaults (d : Device) (fs : List FaultOf) : Device :=
  let d := fs.foldl (fun d f => d.record f.w f.seq f.code 0) d
  let d := fs.reverse.foldl Device.faultRegs d
  match fs with
  | [] => d
  | f :: _ => d.jobFault f.w.j f.code f.w.l

/-- A command faults. -/
def Device.cmdFault (d : Device) (w : Runner) (seq code slot addr : Nat) (atIssue : Bool) : Device :=
  d.cmdFaults [⟨w, seq, code, slot, addr, atIssue⟩]

end Sys2Proof.Machine
end

