-- ==== Sys2Proof/Machine/FabOps.lean ====
section
/-! DEFINITION. Sending on the fabric: routes, virtual channels, numbered puts, remote reads and the bridge error log
(R252 to R254, R262, R264 to R267), as operations of the device. -/

namespace Sys2Proof.Machine

open Sys2Proof

/-- Changes the fabric state. -/
def Device.modFab (d : Device) (f : Fab → Fab) : Device := { d with fab := f d.fab }

/-- Changes a Toterlink port. -/
def Device.modLink (d : Device) (p : Nat) (f : LPort → LPort) : Device := d.modFab fun x => x.modPort p f

/-- Sends what a port's credits and retry buffer allow (R245 to R248); the hardware stamps a TIME message as it leaves (R272). -/
def Device.pump (d : Device) (p : Nat) : Device :=
  let x := d.fab.port p
  let (now, d) := if x.queue.any fun m => m.type == .time then d.stamp else (0, d)
  let r := LPort.pump now x.fuel x []
  r.2.foldl (fun d f => d.note (.flit p f)) (d.modLink p fun _ => r.1)

/-- Gives a message to a port. -/
def Device.tx (d : Device) (p : Nat) (m : FMsg) : Device :=
  ((d.modLink p fun x => { x with queue := x.queue ++ [m] }).note (.fmsg p m)).pump p

/-- What is due to the partner and goes with no other flit returns in an IDLE flit (R244, R246). -/
def Device.settle (d : Device) (p : Nat) : Device :=
  let x := d.fab.port p
  if x.st = .off ∨ x.st = .training ∨ x.st = .refused ∨ (x.ackDue = false ∧ x.due.all (· == 0)) then d
  else (d.modLink p fun x => (x.returns .idle).1).note (.flit p (flitBytes (x.returns .idle).2 (zeros 112)))

/-- An attestation report over a nonce, signed now (R443). -/
def Device.attestation (d : Device) (nonce : List Byte) : List Byte × Device :=
  let (t, d) := d.stamp
  (d.sec.makeReport t Config.serial.toNat nonce, d)

/-- The link of a port is ACTIVE. -/
def Device.linkActive (d : Device) (p : Nat) : Bool := (d.fab.port p).st == .active

/-- An entry of the bridge error log, with the bridge error interrupt (R27, R264, R266). -/
def Device.logBridge (d : Device) (addr kind dev tag reason : Nat) : Device :=
  let (t, d) := d.stamp
  (d.modFab fun f => f.logErr ⟨addr, kind, dev, tag, reason, t⟩).note .irqBridge

/-- An active member of the applied configuration. -/
def Fab.isMember (f : Fab) (id : Nat) : Bool :=
  match f.config with
  | some c => c.members.any fun m => m.id == id && m.active
  | none => false

/-- Where a message for a device goes (R254, R262). -/
inductive Way where
  | go (port : Nat) (down alt : Bool)
  | hold
  | unreachable
  deriving DecidableEq, Repr

/-- The way of a message: `bulk` for a bulk message of this device, which does not change routes while puts are open; `down` for
one that has crossed a down link and never crosses an up link (R260). -/
def Fab.way (f : Fab) (dst : Nat) (bulk down : Bool) : Way :=
  let r := f.route dst
  match f.isMember dst, r.prim with
  | true, some p =>
    let up (q : Nat) : Bool := (f.port q).st == .active
    let choice : Option (Nat × Bool) :=
      if up p then some (p, false) else match r.alt with
        | some q => if up q then some (q, true) else none
        | none => none
    match choice with
    | none => .hold
    | some (q, alt) =>
      if down && !r.primDown then .hold
      else if bulk && (f.putDst dst).via != some q && !(f.putDst dst).unacked.isEmpty then .hold else .go q r.primDown alt
  | _, _ => .unreachable

/-- A destination that R267 calls unreachable. -/
def Device.unreachable (d : Device) (dev : Nat) : Bool := d.fab.id.isNone || d.fab.way dev false false == .unreachable

/-- Puts: writes and tail advances (R266). -/
def FMsg.isPut (m : FMsg) : Bool := m.type == .wr || m.type == .tailAdv
def FMsg.isBulk (m : FMsg) : Bool := m.type.vc == 3

/-- No command ring. -/
def noRing : Nat := 512

/-- A message leaves by a port; a put of this device takes its number (R266). -/
def Device.depart (d : Device) (m : FMsg) (ring q : Nat) (down alt own : Bool) : Device :=
  let pd := d.fab.putDst m.dst
  let m := { m with down := m.down || down }
  let d := d.modFab fun f => { f with routes := tput routeDef f.routes m.dst { f.route m.dst with usingAlt := alt } }
  if own && m.isPut then
    let pd' : PutDst := { pd with next := (pd.next + 1) % 2 ^ 15, via := some q,
                                  unacked := pd.unacked ++ [⟨pd.next, m.addr, m.type == .tailAdv, d.tn, ring⟩] }
    (d.modFab fun f => f.setPuts m.dst pd').tx q { m with tag := pd.next }
  else d.tx q m

/-- Frees a remote-read tag. -/
def Fab.freeRTag (f : Fab) (t : Nat) : Fab := { f with tags := tdel f.tags t }

/-- The port that a remote read belongs to, as a key. -/
def RTag.portKey (t : RTag) : Nat :=
  match t.origin with
  | .engine e _ => (Port.engine e).key
  | .bus p _ => p.key

/-- The port that a read waits at. -/
def RTag.port (r : RTag) : Port :=
  match r.origin with
  | .engine e _ => .engine e
  | .bus p _ => p

/-- A read of an engine's command may leave its port: OUT is below HARD and its die's pool has a tag for it; one of a bus request
holds both already (R224, R230). -/
def Device.mayAsk (d : Device) (r : RTag) : Bool :=
  match r.origin with
  | .engine .. => d.mayIssue r.port && (d.poolTag r.port.die).isSome
  | .bus _ _ => true

/-- Of the reads `rs`, the stalled one that the next free tag goes to: ports in turn, oldest first within a port (R231, R264). -/
def Fab.nextStalled (f : Fab) (rs : List RTag) : Option RTag :=
  let dist (t : RTag) : Nat := (t.portKey + 95 - f.lastPort % 96) % 96
  rs.foldl (fun best t => match best with
    | some b => if dist t < dist b then some t else some b
    | none => some t) none

/-- A tag taken by a read. -/
def Fab.takeRTag (f : Fab) (t : Nat) (r : RTag) : Fab :=
  { f with tags := tins f.tags t r, lastPort := r.portKey }

/-- The read request of a tag (R252, R264). -/
def Device.readRequest (d : Device) (t : Nat) (r : RTag) (world : Bool) (level : Nat) : FMsg :=
  { FMsg.plain .rdReq d.ownId r.dst with level := level, tag := t, gen := r.gen, world := world, addr := r.addr, len := r.len }

/-- Marks a command ring whose put can no longer land (R267). -/
def Fab.badRing (f : Fab) (ring : Nat) : Fab :=
  if ring = noRing ∨ f.badPutRings.contains ring then f else { f with badPutRings := ring :: f.badPutRings }

/-- A remote read that ends without data: the engine command faults, any other master gets an error (R264). -/
def Device.readFails (d : Device) (t : Nat) (r : RTag) (kind reason : Nat) : Device :=
  let d := (d.modFab fun f => f.freeRTag t).logBridge r.addr kind r.dst t reason
  match r.origin with
  | .bus p id => d.modPort p fun x => { x with inflight := x.inflight.map fun i => if i.id = id then { i with resp := .error } else i }
  | .engine e s =>
    match d.runner e, (d.engine e).issued.find? fun i => i.cmd.seq == s with
    | some w, some i => d.cmdFault w s fcRemoteFail (((i.ops.find? fun o => d.isRemote o.t).map Operand.slot).getD slotNone) r.addr false
    | _, _ => d

/-- A message that no route carries (R262): a read fails; a put takes its number and is logged (R266). A message of another device
is answered. -/
def Device.noRoute (d : Device) (m : FMsg) (ring : Nat) (own : Bool) : Device :=
  match m.type with
  | .rdReq =>
    if own then (match d.fab.tag m.tag with
      | some r => if r.gen = m.gen ∧ r.orphan = false then d.readFails m.tag r 5 0 else d
      | none => d)
    else d
  | .wr | .tailAdv =>
    if own then
      let pd := d.fab.putDst m.dst
      (d.modFab fun f => (f.setPuts m.dst { pd with next := (pd.next + 1) % 2 ^ 15 }).badRing ring).logBridge m.addr 5 m.dst pd.next 0
    else d.logBridge m.addr 5 m.dst m.tag 0
  | .signal => d.logBridge m.addr 5 m.dst 0 0
  | _ => d

/-- No port of the route of a message is ACTIVE (R262). -/
def Fab.routed (f : Fab) (m : FMsg) : Bool := f.way m.dst false m.down == .hold

/-- Sends a message, or holds it (R254, R262, R266). A held bulk message holds every later one of its source for its destination. -/
def Device.send (d : Device) (m : FMsg) (ring : Nat) : Device :=
  let own := m.src == d.ownId
  let wait (d : Device) : Device := d.modFab fun f => { f with waiting := f.waiting ++ [⟨m, ring, f.routed m⟩] }
  if m.isBulk && d.fab.waiting.any fun w => w.msg.isBulk && w.msg.src == m.src && w.msg.dst == m.dst then wait d
  else match d.fab.way m.dst (own && m.isBulk) m.down with
    | .hold => wait d
    | .unreachable => d.noRoute m ring own
    | .go q down alt =>
      if own && m.isPut && decide (32767 ≤ (d.fab.putDst m.dst).unacked.length) then wait d
      else d.depart m ring q down alt own

/-- An answer to another device's request: RD_ERR with a reason (R262, R268, R269). -/
def Device.sendErr (d : Device) (m : FMsg) (reason : Nat) : Device :=
  d.send { FMsg.plain .rdErr d.ownId m.src with level := m.level, tag := m.tag, gen := m.gen, addr := m.addr, arg := reason } noRing

/-- A value that the specification leaves open in 16 bits. -/
def Device.free16 (d : Device) : Nat × Device := ((Config.freeWord d.fresh).toNat % 2 ^ 16, { d with fresh := d.fresh + 1 })

/-- A message that another device sent and that this device carries on (R262); the reason of a refusal is free. -/
def Device.forward (d : Device) (m : FMsg) : Device :=
  match d.fab.way m.dst false m.down, m.type with
  | .unreachable, .rdReq | .unreachable, .ringQuery => d.free16.2.sendErr m d.free16.1
  | _, _ => d.send m noRing

/-- Messages that wait are tried again, in order: all of them as a routing configuration applies, else those that do not wait for
one (R262). -/
def Device.flush (d : Device) (routes : Bool) : Device :=
  d.fab.waiting.foldl (fun d w =>
    if w.routed && !routes then d.modFab fun f => { f with waiting := f.waiting ++ [w] } else d.send w.msg w.ring)
    (d.modFab fun f => { f with waiting := [] })

/-! ### Remote reads (R264, R265) -/

/-- A remote read takes a tag, or stalls for one (R33, R224, R230, R264). -/
def Device.askRead (d : Device) (r : RTag) (world : Bool) (level : Nat) : Device :=
  match d.fab.stalled, (if d.mayAsk r then d.fab.freeTag else none) with
  | [], some t =>
    let r := { r with gen := d.fab.tagGen t, sentTn := d.tn }
    (d.modFab fun f => f.takeRTag t r).send (d.readRequest t r world level) noRing
  | _, _ => d.modFab fun f => { f with stalled := f.stalled ++ [r] }

/-- The world of the access that a tag stands for. -/
def Device.tagWorld (d : Device) (r : RTag) : Bool :=
  match r.origin with
  | .engine e _ => ((d.runner e).map Runner.world).getD false
  | .bus p id => ((d.noc.port p).inflight.any fun i => i.id == id && i.secure)

/-- A free tag goes to a stalled read, whose request takes the level of its issue now (R221, R231, R264). -/
def Device.grantRTag (d : Device) : Device :=
  match d.fab.nextStalled (d.fab.stalled.filter d.mayAsk), d.fab.freeTag with
  | some r, some t =>
    let r' := { r with gen := d.fab.tagGen t, sentTn := d.tn }
    (d.modFab fun f => { f.takeRTag t r' with stalled := f.stalled.erase r }).send (d.readRequest t r' (d.tagWorld r) (d.nextLevel r.port)) noRing
  | _, _ => d

/-! ### Heads of bound rings (R270) -/

/-- The producer that a ring is bound to. -/
def Device.producerOf (d : Device) (ring : Nat) : Option Nat :=
  ((List.range 64).find? fun i => let w := d.reg (tlBase + 0x2000 + 4 * i); bitOf w 15 && w % 512 == ring).map fun i =>
    bits (d.reg (tlBase + 0x2000 + 4 * i)) 14 10

/-- HEAD_UPD to the bound producers of rings whose head has moved (R270). -/
def Device.sendHeads (d : Device) : Device :=
  d.fab.headDue.foldl (fun d n => match d.producerOf n with
    | some p => if d.isOwn p then d else
        d.send { FMsg.plain .headUpd d.ownId p with addr := p * 2 ^ 40 + n, len := 1, data := leBytes 8 (d.ring n).head.word ++ zeros 8 } noRing
    | none => d) (d.modFab fun f => { f with headDue := [] })

/-! ### Cutting a transfer into messages (R253) -/

/-- The largest message data of a fabric version, in bytes (R253). -/
def Fab.maxData (f : Fab) : Nat := if f.version = 1 then 64 else 256

/-- The size of the next piece of [p, hi): the largest aligned power of two, else up to the next 16-byte boundary. -/
def pieceAt (limit p hi : Nat) : Nat :=
  match [256, 128, 64, 32, 16].find? fun s => decide (s ≤ limit) && p % s == 0 && decide (p + s ≤ hi) with
  | some s => s
  | none => min (hi - p) (16 - p % 16)

/-- [p, hi) in pieces, each one message; `fuel` bounds their number. -/
def pieces (limit hi : Nat) : Nat → Nat → List (Nat × Nat)
  | 0, _ => []
  | f + 1, p => if p < hi then (p, pieceAt limit p hi) :: pieces limit hi f (p + pieceAt limit p hi) else []

/-- Units of 16 bytes that `n` bytes take. -/
def units (n : Nat) : Nat := (n + 15) / 16

/-- The write of a piece [p, p + n) of the bytes `bs` that begin at `a` (R253): a piece below a unit goes in its unit, with a bit of
ARG for each of the unit's bytes that it writes (log entry 160). -/
def Device.writeMsg (d : Device) (level : Nat) (world : Bool) (a : Nat) (bs : List Byte) (p n : Nat) : FMsg :=
  let m := { FMsg.plain .wr d.ownId (p / 2 ^ 40) with level := level, world := world, len := units n }
  let own := (bs.drop (p - a)).take n
  if n % 16 = 0 then { m with addr := p, data := own }
  else { m with addr := p / 16 * 16, data := (zeros (p % 16) ++ own ++ zeros 16).take 16, arg := (2 ^ n - 1) * 2 ^ (p % 16) }

/-- The data that a WR leaves where `old` stood: all of its bytes, or those that ARG names (log entry 160). -/
def FMsg.written (m : FMsg) (old : List Byte) : List Byte :=
  if m.len = 1 ∧ m.arg ≠ 0 then (List.range 16).map fun i => if bitOf m.arg i then m.data.getD i 0 else old.getD i 0
  else (m.data ++ zeros (16 * m.len)).take (16 * m.len)

/-- A data message's LEN and ADDR are as R253 has them. -/
def FMsg.fits (m : FMsg) (limit : Nat) : Bool :=
  decide (0 < m.len) && decide (16 * m.len ≤ limit)
    && ([16, 32, 64, 128, 256].find? fun s => decide (16 * m.len ≤ s)).any fun s => m.addr % s == 0

/-! ### Interrupts of an instance (R343) -/

/-- The management notice that tells a fabric host an interrupt of its instance: instance, generation and identity; its first two bytes
name no dictionary access (R343; log entry 71). -/
def irqNotice (i gen id : Nat) : List Byte := zeros 2 ++ leBytes 1 i ++ leBytes 1 gen ++ leBytes 4 id ++ zeros 8

/-- Delivery of identity `id` to instance `i` by its binding (R343). -/
def Device.instIrq (d : Device) (i id : Nat) : Device :=
  let x := d.proc.inst i
  match x.binding with
  | .vm => if 1 ≤ bits x.intTgt 6 4 ∧ bits x.intTgt 6 4 ≤ 5 then d.irqFile (x.intTgt % 16) (bits x.intTgt 6 4 + 1) id else d
  | .none => d
  | .fabric =>
    if d.fab.id.isNone then d
    else d.send { FMsg.plain .mgmt d.ownId (x.target % 32) with world := x.world, len := 1, data := irqNotice i x.gen id } noRing
  | .pcie =>
    if d.msixOpen i id then d.note (.irqInst i id)
    else d.modInst i fun x => { x with msixPending := if x.msixPending.contains id then x.msixPending else x.msixPending ++ [id] }

/-- A SIGNAL of an identity outside 2 to 63 is dropped and counted (R343). -/
def Device.signalIrq (d : Device) (i id : Nat) : Device :=
  if 2 ≤ id ∧ id ≤ 63 then d.instIrq i id
  else d.modInst i fun x => { x with irqDrop := true, irqDrops := min (2 ^ 32 - 1) (x.irqDrops + 1) }

end Sys2Proof.Machine
end

