-- ==== Sys2Proof/Machine/JobCmds.lean ====
section
/-! DEFINITION. Creation and control of jobs, checkpoints, variants and the scheduler (chapter 07). -/

namespace Sys2Proof.Machine

open Sys2Proof

/-! ### Creation (R188) -/

/-- A range lies wholly in the stacked memory or in one shared slab; an empty range lies anywhere. -/
def inJobMemory (a n : Nat) : Bool :=
  n == 0 || (match placeOf a, placeOf (a + n - 1) with
    | .stack _, .stack _ => true
    | .slab s, .slab s' => s == s'
    | _, _ => false)

/-- The rings of one group serve the job: enabled, of its instance, not owned by another job, of one die's table
(refusal reason 5). -/
def Device.groupOk (d : Device) (j inst : Nat) (ns : List Nat) : Bool :=
  (ns.all fun n =>
    let r := d.ring n
    decide (n < 512) && r.enable && r.inst == inst && !(r.jobOwn && r.job != j))
    && (ns.all fun n => n / 256 == ns.headD 0 / 256)

/-- The number is taken: a job that is not FREE, or one that was created within this tempo. -/
def Job.taken (x : Job) : Bool := x.st != .free || x.nextSt.isSome

/-- The first refusal reason of R188 that applies to a record at an address, 0 for none. -/
def Device.createReason (d : Device) (j a : Nat) (secure : Bool) (r : JobRec) : Nat :=
  let probe : Job := { Job.init with rc := r }
  let inst := d.proc.inst r.inst
  if (d.job j).taken then 1
  else if a % 64 != 0 || !inJobMemory a 192 || !r.rangesOk then 2
  else if (r.world && !secure) || !inst.active || inst.world != r.world then 3
  else if !r.countsOk then 4
  else if !(r.variants.all fun v => d.groupOk j r.inst ((List.range v.engines).map v.ring)) || !d.groupOk j r.inst probe.complRings then 5
  else if !inJobMemory r.descTable ((r.descCount + 1) * 64) || !inJobMemory r.saveArea (probe.maxEngines * r.saveRows * 512)
      || !(r.variants.all fun v => inJobMemory v.resume (v.ckptMax * v.engines * 8)) then 6
  else 0

/-- Job j created: rings owned, openings and DONE_SEQ recorded, counters zero; READY at the next tempo boundary (R188). -/
def Device.jobMake (d : Device) (j a : Nat) (r : JobRec) : Device :=
  let x : Job := { Job.init with
    recAddr := a, rc := r, weight := r.weight, quota := r.quota, autoRestart := r.autoRestart, nextSt := some .ready,
    createReason := (d.job j).createReason }
  let x := { x with openings := x.cmdRings.foldl (fun t n => tput rptrDef t n (d.ring n).head) [],
                    doneSeq := x.cmdRings.foldl (fun t n => tput doneDef t n ((r.openSeq + 2 ^ 32 - 1) % 2 ^ 32)) [] }
  let d := (x.cmdRings ++ x.complRings).foldl (fun d n => d.setRing n { d.ring n with jobOwn := true, job := j }) d
  let d := d.scramble (vuBase j 0) (vuBase j 32)
  { d with fab := { d.fab with badPutRings := d.fab.badPutRings.filter fun n => !x.cmdRings.contains n } }.setJob j x

/-- The write of a context record's address: the job is created, or refused with an abort code (R31, R188); none is
accepted before bring-up state 5 (R466). -/
def Device.jobCreate (d : Device) (j a : Nat) (secure : Bool) : Device × Nat :=
  if d.pwr.bringUp != 5 then (d, abState)
  else if (List.range 64).all fun k => (d.job k).taken then (d.exhausted 0x03, abResource)
  else
    let r := JobRec.ofBytes (d.bytes a 192)
    let why := d.createReason j a secure r
    if why = 0 then (d.jobMake j a r, 0) else (d.modJob j fun x => { x with createReason := why }, abState)

/-- The answer of a dictionary write that a command stands for: 0 for success, else the abort code. -/
def answer (p : Device × Nat) : Device := p.1.note (.dict p.2 [])

/-- JOB_CREATE (R188). -/
def execJobCreate (r : JobReq) (s : State) : Out := s.on fun d => answer (d.jobCreate r.job r.addr r.secure)

/-! ### Release and binding (R190, R196, R198) -/

/-- The end of an engine's release: drain, save where the job is suspended, clear; the engine leaves the set (R196).
An uncorrectable error of the save, at the address `saveBad`, faults the job instead and is logged (R176, R211). An engine that a
variant switch dropped saves nothing (R203). An engine with a running ATOMIC command waits (R123). -/
def Device.engineReleased (d : Device) (e : Nat) (saveBad : Option Nat) : Device :=
  let g := d.engine e
  match g.bound with
  | none => d
  | some (j, l) =>
    if !g.leaving || !g.issued.isEmpty then d
    else
      let saves := (d.job j).release == .suspend && !g.noSave && decide (0 < (d.job j).rc.saveRows)
      let d := if saves then
          match saveBad with
          | some a => ((d.jobFault j 0x82 l).logRefusal (Port.engine e) a false (d.job j).rc.world).memError a .uncorrectable
          | none => d.saveRows j e l
        else d
      let d := d.clearSlab e
      let d := d.modEng e fun g => { g with bound := none, leaving := false, noSave := false, killing := false, wcb := [], stq := [] }
      d.modJob j fun x => { x with held := x.held.filter fun n => n != e }

/-- A job starts on variant `v` with new engines; saved rows are loaded back when it resumes (R190, R198). An engine of
`bad` meets an uncorrectable error while it loads: the job faults (R211). -/
def Device.bindJob (d : Device) (j v : Nat) (bad : List (Nat × Nat)) : Device :=
  let es := buildSet (d.freeFor j) (((d.job j).var v).engines)
  let d := d.bindEngines j es
  let loads := if (d.job j).reload && decide (0 < (d.job j).rc.saveRows) then es.zip (List.range es.length) else []
  let d := d.modJob j fun x =>
    { x with st := .running, nextSt := none, held := es, variant := v, boundAt := d.tn, reload := false,
             release := .none, idleSince := none, dormant := false,
             quotaGrace := !x.rc.rt && decide (x.quota < (x.var v).engines) }
  loads.foldl (fun d p => match bad.find? fun b => b.1 == p.1 with
    | some b => ((d.jobFault j 0x82 p.2).logRefusal (Port.engine p.1) b.2 false (d.job j).rc.world).memError b.2 .uncorrectable
    | none => d.loadRows j p.1 p.2) d

/-! ### Control (R189) -/

/-- SUSPEND: a host hold, and a take-back of a running job; refused for a FAILED job (chapter 07). -/
def Device.jobSuspend (d : Device) (j : Nat) : Device × Nat :=
  if (d.job j).st = .free ∨ (d.job j).st = .failed then (d, abState)
  else ((d.modJob j fun x => { x with hold := true }).takeBack j, 0)

/-- RESUME clears the host hold; refused without one. -/
def Device.jobResume (d : Device) (j : Nat) : Device × Nat :=
  if (d.job j).hold then (d.modJob j fun x => { x with hold := false }, 0) else (d, abState)

/-- RESTART of a FAILED job clears its fault history and acts as R213 (R214). -/
def Device.jobRestart (d : Device) (j : Nat) : Device × Nat :=
  if (d.job j).st = .failed ∧ (d.job j).nextSt = none ∧ (d.job j).release ≠ .delete then ((d.modJob j fun x => { x with faults := [] }).restart j, 0)
  else (d, abState)

/-- DELETE (R215). -/
def Device.jobDrop (d : Device) (j : Nat) : Device × Nat :=
  if (d.job j).taken then (d.jobDelete j, 0) else (d, abState)

/-- A control code of 0x3100 + j:02. -/
def Device.jobControl (d : Device) (j code : Nat) : Device × Nat :=
  match code with
  | 1 => d.jobSuspend j
  | 2 => d.jobResume j
  | 3 => d.jobRestart j
  | 4 => d.jobDrop j
  | _ => (d, abRange)

/-- JOB_SUSPEND (R189). -/
def execJobSuspend (j : Fin 64) (s : State) : Out := s.on fun d => answer (d.jobSuspend j)

/-- JOB_RESUME (R189). -/
def execJobResume (j : Fin 64) (s : State) : Out := s.on fun d => answer (d.jobResume j)

/-- JOB_RESTART (R214). -/
def execJobRestart (j : Fin 64) (s : State) : Out := s.on fun d => answer (d.jobRestart j)

/-- JOB_DELETE (R215). -/
def execJobDelete (j : Fin 64) (s : State) : Out := s.on fun d => answer (d.jobDrop j)

/-- TEARDOWN_COMPLETE (R213, R214). -/
def execTeardownComplete (j : Fin 64) (s : State) : Out := s.on fun d => d.teardownComplete j

/-- ENGINE_RELEASED (R196). -/
def execEngineReleased (e : Fin 32) (saveBad : Option Nat) (s : State) : Out := s.on fun d => d.engineReleased e saveBad

/-- The debugger holds an engine of the job (R477, R478). -/
def Device.jobHalted (d : Device) (j : Nat) : Bool := (d.job j).held.any fun e => (d.engine e).halted || (d.engine e).halting

/-- Every command ring of the active variant is empty (R206). -/
def Device.ringsEmpty (d : Device) (j : Nat) : Bool :=
  (List.range (d.job j).active.engines).all fun l => (d.ring ((d.job j).active.ring l)).fill == 0

/-- A running shared job is idle now (R206). -/
def Device.idleNow (d : Device) (j : Nat) : Bool :=
  let x := d.job j
  x.st == .running && !x.rc.rt && d.ringsEmpty j && x.held.all fun e => (d.engine e).issued.isEmpty

/-- The release of a job that has been idle for 100 tempos and is so still (R206). -/
def Device.idleRelease (d : Device) (j : Nat) : Device :=
  let x := d.job j
  match x.idleSince with
  | some t =>
    if d.idleNow j = true ∧ d.jobHalted j = false ∧ t + 100 ≤ d.tn then (d.takeBack j).modJob j fun x => { x with dormant := true } else d
  | none => d

/-- IDLE_RELEASE (R206). -/
def execIdleRelease (j : Fin 64) (s : State) : Out := s.on fun d => d.idleRelease j

/-- Trigger inputs with SRC 2 that name the receiver and the virtual channel take an event (R208); a receiver that is being
castled delivers none (R347). -/
def Device.frameDone (d : Device) (rx vc : Nat) : Device :=
  if (d.proc.watEntry (0x20 + rx)).moving then d
  else (d.stampEvent (.camera rx vc)).triggerBy fun w => w % 8 == 2 && bits w 9 8 == rx && bits w 13 10 == vc

/-- CAMERA_FRAME_DONE (R208, R347). -/
def execCameraFrameDone (rx : Fin 4) (vc : Fin 16) (s : State) : Out := s.on fun d => d.frameDone rx vc

/-- JOB.TRIG_CLR: the selected counters become 0 (R210). -/
def Device.trigClr (d : Device) (j mask : Nat) : Device :=
  d.modJob j fun x => { x with trig := (List.range 4).map fun t => if bitOf mask t then 0 else x.trig.getD t 0 }

/-- TRIG_CLR (R210). -/
def execTrigClr (j : Fin 64) (mask : Fin 16) (s : State) : Out := s.on fun d => d.trigClr j mask

/-! ### Checkpoints and variants (R202, R203) -/

/-- The distance by which a head would move to reach a resume position, if its entries are published. -/
def Ring.distance (r : Ring) (index : Nat) (wrap : Bool) : Option Nat :=
  if r.count ≤ index then none
  else
    let n : Int := if wrap = r.head.wrap then (index : Int) - r.head.index else (r.count : Int) - r.head.index + index
    if 0 ≤ n ∧ n ≤ r.fill then some n.toNat else none

/-- The resume-table entry of ring `l` of a variant for checkpoint `c`: index, wrap bit and SEQ (R202). -/
def Device.resumeEntry (d : Device) (v : Variant) (c l : Nat) : Nat × Bool × Nat :=
  let w := d.nat (v.resume + ((c - 1) * v.engines + l) * 8) 8
  (bits w 23 0, bitOf w 24, w / 2 ^ 32)

/-- The move of another variant's rings to checkpoint `c`, all of them or none (R202). -/
def Device.moveVariant (d : Device) (j k c : Nat) : Device :=
  let v := (d.job j).var k
  let ls := List.range v.engines
  let steps := ls.map fun l => let e := d.resumeEntry v c l; (v.ring l, (d.ring (v.ring l)).distance e.1 e.2.1, e.2.2)
  let setStale (b : Bool) (x : Job) : Job :=
    { x with stale := x.stale - (if x.isStale k then 2 ^ k else 0) + (if b then 2 ^ k else 0) }
  if decide (c ≤ v.ckptMax) && steps.all fun s => s.2.1.isSome then
    let d := steps.foldl (fun d s => d.moveRing s.1 { d.ring s.1 with head := (d.ring s.1).head.move (d.ring s.1).count (s.2.1.getD 0) }) d
    d.modJob j fun x =>
      { setStale false x with
        doneSeq := steps.foldl (fun t s => tput doneDef t s.1 s.2.2) x.doneSeq,
        ckptPos := steps.foldl (fun t s => tput posDef t s.1 ((d.ring s.1).head, s.2.2)) x.ckptPos }
  else d.modJob j (setStale true)

/-- Engines of a job's set that a shrink keeps: first those that no written reservation names, whole quads from the
highest down, then the highest-numbered (R203). -/
def keepEngines (set named : List Nat) (want : Nat) : List Nat :=
  let rest := sortBy (fun a b => decide (b ≤ a)) (set.filter fun e => !named.contains e)
  let first := pickEngines rest (List.range 8).reverse want
  first ++ ((sortBy (fun a b => decide (b ≤ a)) (set.filter fun e => named.contains e)).take (want - first.length))

/-- Engines that a reservation written and not yet in effect names (R192, R203). -/
def Device.namedEngines (d : Device) : List Nat :=
  (List.range 32).filter fun e => d.dict.staged.any fun s => s.key / 256 == 0x3000 && s.key % 256 ≤ 8 && bitOf (leNat s.value % 2 ^ 32) e

/-- Engines of a job's set that are not on their way out. -/
def Device.activeSet (d : Device) (j : Nat) : List Nat := (d.job j).held.filter fun e => !(d.engine e).leaving

/-- A switch to variant `v` at a checkpoint boundary: engines go without a save, new ones come under R191, and all are
bound afresh; slab contents do not survive (R203). -/
def Device.switchVariant (d : Device) (j v : Nat) : Device :=
  let old := d.activeSet j
  let want := ((d.job j).var v).engines
  let kept := if want < old.length then keepEngines old d.namedEngines want else old
  let gone := old.filter fun e => !kept.contains e
  let fresh := buildSet (d.freeFor j) (want - kept.length)
  let es := sortBy (fun a b => decide (a ≤ b)) (kept ++ fresh)
  let d := gone.foldl (fun d e => d.modEng e fun g => { g with leaving := true, noSave := true, issued := [] }) d
  let d := kept.foldl (fun d e => d.scramble (opSlabBase e) (opSlabBase e + 0x40_0000)) d
  let d := d.bindEngines j es
  let held := (sortBy (fun a b => decide (a ≤ b)) ((d.job j).held ++ fresh)).dedup
  d.modJob j fun x => { x with variant := v, held := held, startHeld := held.length, quotaGrace := false }

/-- The variant decision of a checkpoint boundary (R203, R204): the job releases all its engines when nothing fits its
quota. -/
def Device.decideVariant (d : Device) (j : Nat) : Device :=
  let x := d.job j
  let set := d.activeSet j
  let free := (d.freeFor j).length
  let cur := x.active.engines
  let target := if x.rc.rt then set.length + free else min x.quota (set.length + free)
  match x.bestVariant target with
  | none =>
    let d := set.foldl (fun d e => d.modEng e fun g => { g with leaving := true, noSave := true, issued := [] }) d
    d.modJob j fun x => { x with st := .takingBack, release := .toReady, tbAt := d.tn, idleSince := none }
  | some v =>
    let n := (x.var v).engines
    if (cur < n ∧ (x.rc.rt = true ∨ 0 ≤ x.deficit)) ∨ (n < cur ∧ (x.rc.rt = false ∧ x.quota < cur)) then d.switchVariant j v
    else d.modJob j fun x => { x with quotaGrace := false }

/-- The positions of checkpoint `ckpt` in the rings of every variant: recorded for the active one, moved for the others
(R202). -/
def Device.checkpointMoves (d : Device) (j : Nat) : Device :=
  let x := d.job j
  let rs := (List.range x.active.engines).map fun l => x.active.ring l
  let d := d.modJob j fun x =>
    { x with ckptPos := rs.foldl (fun t n => tput posDef t n ((d.ring n).head, tget doneDef x.doneSeq n)) x.ckptPos }
  ((List.range x.rc.variants.length).filter fun k => k != x.variant).foldl (fun d k => d.moveVariant j k x.ckpt) d

/-- The checkpoint boundary of a job, once owed and while the job runs (R37, R38, R117, R202). -/
def Device.checkpointBoundary (d : Device) (j : Nat) : Device :=
  let x := d.job j
  if d.tb.started ∧ x.ckptOwed = true ∧ x.st = .running ∧ x.ckptAt ≤ d.tn then
    let d := (d.checkpointMoves j).modJob j fun x => { x with ckptOwed := false }
    let d := d.serveMoves (.checkpoint j) x.ckpt
    let d := (List.range 128).foldl (fun d t =>
      let r := TaskRec.ofBytes (d.dict.val 0x5010 (t + 1))
      if r.kind = 1 ∧ r.id = j then { d with arb := d.arb.setTask t ((d.arb.task t).complete true) } else d) d
    d.decideVariant j
  else d

/-- CHECKPOINT_BOUNDARY (R202). -/
def execCheckpointBoundary (j : Fin 64) (s : State) : Out := s.on fun d => d.checkpointBoundary j

/-! ### The scheduler (R194, R205 to R207) -/

/-- State changes that were waiting for a tempo boundary (R189, R196, R215). -/
def Device.jobStates (d : Device) : Device :=
  (d.jobs.map Prod.fst).foldl (fun d j =>
    let x := d.job j
    match x.nextSt with
    | some s => d.modJob j fun x => { x with st := s, nextSt := none }
    | none =>
      if x.held ≠ [] then d
      else match x.release with
        | .suspend => d.modJob j fun x => { x with st := .suspended, release := .none, reload := true, clockHold := x.clockHold }
        | .toReady => d.modJob j fun x => { x with st := .ready, release := .none }
        | .delete => d.modJob j fun x => { x with st := .free, release := .none, hold := false, clockHold := false }
        | _ => d) d

/-- Engine time of the tempo that ended (R207). -/
def Device.jobTime (d : Device) : Device :=
  d.jobNums.foldl (fun d j => d.modJob j fun x => { x with etime := (x.etime + x.startHeld) % 2 ^ 64 }) d

/-- Idle times and dormant jobs at a tempo boundary (R206). -/
def Device.jobIdle (d : Device) : Device :=
  d.jobNums.foldl (fun d j =>
    let idle := d.idleNow j
    d.modJob j fun x =>
      { x with idleSince := if idle then some (x.idleSince.getD d.tn) else none, dormant := x.dormant && d.ringsEmpty j,
               quotaGrace := x.st == .running && !x.rc.rt && decide (x.quota < x.active.engines) }) d

/-- The job competes for engines (R205, R206). -/
def Job.runnable (x : Job) : Bool :=
  (x.st == .ready || x.st == .suspended || x.st == .running) && !x.hold && !x.dormant

/-- Engines of the pool (R205). -/
def Device.pool (d : Device) : Nat := ((List.range 32).filter fun e => !d.isReserved e && !bitOf d.sched.oos e).length

/-- The deficits of the runnable shared jobs after the tempo that ended, in 2^−16 engine-µs (R205). -/
def Device.deficits (d : Device) : Device :=
  let js := d.jobNums.filter fun j => (d.job j).runnable && !(d.job j).rc.rt
  let w := (js.map fun j => (d.job j).weight).foldl (· + ·) 0
  let pool := d.pool
  let top : Int := (pool * 1000 * 65536 : Nat)
  js.foldl (fun d j => d.modJob j fun x =>
    { x with deficit := (clampInt (-top) top (x.deficit + ((pool * x.weight * 65536 / w : Nat) : Int) - ((x.startHeld * 65536 : Nat) : Int))).1 }) d

/-- The variant that a waiting shared job can be bound to with `n` free engines, and whether that is a rewind (R198,
R199, R205). -/
def Job.pick (x : Job) (n : Nat) : Option (Nat × Bool) :=
  match x.st with
  | .ready => (x.bestVariant (min x.quota n)).map fun v => (v, false)
  | .suspended =>
    if x.active.engines ≤ n then some (x.variant, false)
    else if x.rc.rewind then (x.bestVariant (min x.quota n)).map fun v => (v, true) else none
  | _ => none

/-- Engines of the smallest variant that a waiting job could use, 33 when it could use none (R198, R199, R204, R205). -/
def Job.least (x : Job) : Nat :=
  let fresh := ((List.range x.rc.variants.length).filter fun v => !x.isStale v).map fun v => (x.var v).engines
  let fits := fresh.filter fun n => decide (n ≤ x.quota)
  if x.st = .suspended then (if x.rc.rewind then fits else []).foldl min x.active.engines else fits.foldl min 33

/-- Binds or rewinds a waiting job; `bad`: engines whose reload meets an uncorrectable error. -/
def Device.startJob (d : Device) (j v : Nat) (rw : Bool) (bad : List (Nat × Nat)) : Device :=
  (if rw then d.rewind j v else d).bindJob j v bad

/-- What a rewind builds on: when the boundary of the last checkpoint is still owed, the positions of that checkpoint are
set first (R199, R202). -/
def Device.rewindBase (d : Device) (j n : Nat) : Device :=
  let x := d.job j
  if x.st = .suspended ∧ x.rc.rewind = true ∧ x.ckptOwed = true ∧ n < x.active.engines then d.checkpointMoves j else d

/-- The victim of a take-back for waiting job `j` (R197, R205): of equals the lowest number. -/
def Device.victim (d : Device) (j : Nat) : Option Nat :=
  let x := d.job j
  let ok (k : Nat) : Bool :=
    let y := d.job k
    y.st == .running && !y.rc.rt && !d.jobHalted k && decide (y.boundAt + 100 ≤ d.tn) && decide (y.deficit < 0)
      && decide (x.least ≤ (d.freeFor j).length + ((d.activeSet k).filter fun e => x.rc.allows e && !d.isReserved e && !d.outOfService e && !(d.engine e).suspect).length)
  (d.jobNums.filter ok).foldl (fun best k => match best with
    | some b => if (d.job k).deficit < (d.job b).deficit then some k else some b
    | none => some k) none

/-- Insertion of a job into an order by falling deficit, ties to the lower number (R205). -/
def Device.byDeficit (d : Device) (js : List Nat) : List Nat :=
  sortBy (fun a b => decide ((d.job b).deficit < (d.job a).deficit) || ((d.job a).deficit == (d.job b).deficit && decide (a ≤ b))) js

/-- One waiting shared job: it is bound, or a victim is taken back for it, at most one at a boundary (R205). -/
def Device.serveJob (bad : List (Nat × Nat)) (p : Device × Bool) (j : Nat) : Device × Bool :=
  let (d, taken) := p
  let x := d.job j
  let n := (d.freeFor j).length
  let base := d.rewindBase j n
  match (base.job j).pick n with
  | some (v, rw) => if 0 ≤ x.deficit then (base.startJob j v rw bad, taken) else p
  | none =>
    if !taken && decide (((100 * x.least * 65536 : Nat) : Int) ≤ x.deficit) then
      match d.victim j with
      | some k => (d.takeBack k, true)
      | none => p
    else p

/-- A CROSS_DEVICE job is not bound while the device is not in step (R274). -/
def Device.inStepFor (d : Device) (j : Nat) : Bool := !(d.job j).rc.crossDevice || d.tb.inStep

/-- RT jobs run on their reserved engines whenever they may (R193); one that holds engines no longer reserved for it is
taken back (log entry 67). -/
def Device.serveRt (bad : List (Nat × Nat)) (d : Device) (j : Nat) : Device :=
  let x := d.job j
  if x.st = .running then
    (if x.held.all fun e => (d.reservedFor j).contains e then d else d.takeBack j)
  else if (x.st = .ready ∨ x.st = .suspended) ∧ x.hold = false ∧ x.clockHold = false ∧ d.inStepFor j = true then
    let inService := ((d.reservedFor j).filter fun e => !d.outOfService e && !(d.engine e).suspect && x.rc.allows e).length
    let free := (d.freeFor j).length
    match x.st with
    | .ready => (match x.bestVariant inService with
      | some v => if (x.var v).engines ≤ free then d.startJob j v false bad else d
      | none => d)
    | _ =>
      if x.active.engines ≤ free then d.startJob j x.variant false bad
      else if x.rc.rewind then
        let base := d.rewindBase j free
        (match (base.job j).bestVariant (min inService free) with
        | some v => base.startJob j v true bad
        | none => d)
      else d
  else d

/-- The scheduler's pass at a tempo boundary (R193, R205). -/
def Device.schedule (d : Device) (bad : List (Nat × Nat)) : Device :=
  let d := d.deficits
  let d := (d.jobNums.filter fun j => (d.job j).rc.rt).foldl (Device.serveRt bad) d
  let taken := d.jobNums.any fun j => (d.job j).st == .takingBack && (d.job j).tbAt == d.tn
  let waiting := d.jobNums.filter fun j =>
    let x := d.job j
    !x.rc.rt && (x.st == .ready || x.st == .suspended) && x.runnable && !x.clockHold && d.inStepFor j
  let d := ((d.byDeficit waiting).foldl (Device.serveJob bad) (d, taken)).1
  d.jobNums.foldl (fun d j => d.modJob j fun x => { x with startHeld := x.held.length }) d

/-- A reservation that takes effect takes back every shared job that holds one of its engines (R194). -/
def Device.reserve (d : Device) (sub v : Nat) : Device :=
  let d := { d with sched := { d.sched with reservations := tput zeroDef d.sched.reservations sub v } }
  let hit := d.jobNums.filter fun j => (d.job j).st == .running && !(d.job j).rc.rt && (d.job j).held.any fun e => bitOf (v % 2 ^ 32) e
  hit.foldl Device.takeBack d

end Sys2Proof.Machine
end

