-- ==== Sys2Proof/Machine/Issue.lean ====
section
/-! DEFINITION. Issue, start, commit and faults of engine commands (R91 to R96, R113 to R123, R126). -/

namespace Sys2Proof.Machine

open Sys2Proof

/-! ### The checks at issue (R93) -/

/-- A tensor descriptor of the job's table that a command may name (R98). -/
def Device.readDesc (d : Device) (x : Job) (h : Nat) : Option TDesc :=
  let t := TDesc.ofBytes (d.bytes (x.rc.descTable + 64 * h) 64)
  if h ≤ x.rc.descCount ∧ t.wellFormed = true then some t else none

/-- The operands of a command with their companions, or the slot whose handle is bad (R98). -/
def Device.operands (d : Device) (x : Job) (c : Cmd) : Except Nat (List Operand) :=
  ((List.range 8).filter c.present).foldl (fun acc s =>
    match acc, d.readDesc x (c.handle s) with
    | .error e, _ => .error e
    | .ok _, none => .error s
    | .ok l, some t =>
      if t.auxv then match d.readDesc x t.auxh with
        | none => .error s
        | some k => .ok (l ++ [⟨s, t, some k⟩])
      else .ok (l ++ [⟨s, t, none⟩])) (.ok [])

/-- The entry size of the ring of a tensor; that of a remote ring is known once a proxy has been filled (R270). -/
def Device.entryOf (d : Device) (t : TDesc) : Nat :=
  if d.isRemote t then match findProxy d.fab.proxies (t.addr / 2 ^ 40) t.ring with
    | some p => if p.known then p.esize else t.stride (t.rank - 1)
    | none => t.stride (t.rank - 1)
  else (d.ring t.ring).entrySize

/-- The first slot that breaks a rule of check 7. -/
def Device.shapeFault (d : Device) (c : Cmd) (o : Op) (ops : List Operand) : Option Nat :=
  let good (x : Operand) : Bool :=
    let w := (c.outSlots o).contains x.slot
    x.t.selfShape w (some (d.entryOf x.t)) && x.compShape
      && (match x.comp with | some k => k.selfShape w (some (d.entryOf k)) | none => true)
  ((ops.find? fun x => !good x).map Operand.slot) <|> c.opShapeFault o ops <|> c.hashFault o ops

/-- The descriptors of an operand. -/
def Operand.tensors (x : Operand) : List TDesc := x.t :: x.comp.toList

/-- The world rule, then the seal rule (R102). -/
def worldFault (world : Bool) (ops : List Operand) : Option Nat :=
  (ops.find? fun x => x.tensors.any fun t => t.world != world).map Operand.slot
def sealFault (c : Cmd) (o : Op) (ops : List Operand) : Option Nat :=
  (ops.find? fun x => !c.weightSlot o x.slot && x.tensors.any fun t => t.sealed).map Operand.slot

/-- The aliasing check (R122). -/
def Device.aliasFault (d : Device) (c : Cmd) (o : Op) (ops : List Operand) : Option Nat :=
  match opAt ops 0 with
  | none => none
  | some x =>
    let out (y : Operand) : Bool := (c.outSlots o).contains y.slot
    if !c.atomic && ops.any fun y => y.slot != 0 && overlap (d.extent x true) (d.extent y (out y)) then some 0 else none

/-- Rings of this device that a tensor of an operand is a run of, with the entries. -/
def Device.ringsOf (d : Device) (x : Operand) : List (Nat × Nat) :=
  (x.tensors.filter fun t => t.isRing && !d.isRemote t).map fun t => (t.ring, t.size (t.rank - 1))

/-- Runs of one ring count once. -/
def mergeRuns (l : List (Nat × Nat)) : List (Nat × Nat) :=
  l.foldl (fun acc p => if acc.any fun q => q.1 == p.1 then acc.map fun q => if q.1 = p.1 then (q.1, max q.2 p.2) else q else acc ++ [p]) []

/-- Output rings with the entries that need room, and input rings with the entries that are read (R95, R100, R115). -/
def Device.outRings (d : Device) (c : Cmd) (o : Op) (ops : List Operand) : List (Nat × Nat) :=
  if o = .publish then [(c.p1 % 512, bits c.p1 31 16)]
  else mergeRuns ((ops.filter fun x => (c.outSlots o).contains x.slot).flatMap d.ringsOf)
def Device.inRings (d : Device) (c : Cmd) (o : Op) (ops : List Operand) : List (Nat × Nat) :=
  if o = .wait then (if c.p1 % 4 = 1 then [(bits c.p1 16 8, 0)] else [])
  else mergeRuns ((ops.filter fun x => !(c.outSlots o).contains x.slot).flatMap d.ringsOf)

/-- Every ring that the command names belongs to the job (check 10). -/
def Device.ringFault (d : Device) (j : Nat) (c : Cmd) (o : Op) (ops : List Operand) : Option Nat :=
  let owned (n : Nat) : Bool := (d.ring n).jobOwn && (d.ring n).job == j
  match ops.find? fun x => !((d.ringsOf x).all fun p => owned p.1) with
  | some x => some x.slot
  | none => if (d.outRings c o ops ++ d.inRings c o ops).all fun p => owned p.1 then none else some slotNone

/-- The target of a SIGNAL to a trigger input belongs to the same instance (R114). -/
def Device.targetFault (d : Device) (j : Nat) (c : Cmd) (o : Op) : Option Nat :=
  let t := d.job (bits c.p1 9 4)
  if o = .signal ∧ c.p1 % 4 = 0 ∧ (t.st = .free ∨ t.rc.inst ≠ (d.job j).rc.inst) then some slotNone else none

/-- The first slot whose descriptor, or whose companion's, the region checkers refuse to the engine, with the address (R96,
R184). -/
def Device.descRefused (d : Device) (x : Job) (c : Cmd) : Option (Nat × Nat) :=
  let bad (h : Nat) : Option Nat :=
    if h ≤ x.rc.descCount then d.refusedAt .engines x.rc.world false (x.rc.descTable + 64 * h) 64 else none
  ((List.range 8).filter c.present).findSome? fun s =>
    ((bad (c.handle s)) <|> ((d.readDesc x (c.handle s)).bind fun t => if t.auxv then bad t.auxh else none)).map fun a => (s, a)

/-- The ten checks of R93 in their order: the fault code and slot, or the opcode and the operands. A descriptor that the engine may
not read faults the command with WORLD as it is read (R96, R184). -/
def Device.issueCheck (d : Device) (j : Nat) (c : Cmd) (expected : Nat) : Except (Nat × Nat) (Op × List Operand) :=
  let x := d.job j
  if c.chken && !c.crcGood then .error (fcDescCrc, slotNone)
  else if c.seq ≠ expected then .error (fcSeq, slotNone)
  else match c.op with
    | none => .error (fcOpcode, slotNone)
    | some o =>
      if !c.reservedOk || !c.paramsOk o then .error (fcOpcode, slotNone)
      else match c.slotFault o, d.descRefused x c, d.operands x c with
        | some s, _, _ => .error (fcHandle, s)
        | none, some p, _ => .error (fcWorld, p.1)
        | none, none, .error s => .error (fcHandle, s)
        | none, none, .ok ops =>
          let checks := [(fcClass, c.classFault o ops), (fcFormat, c.formatFault o ops), (fcShape, d.shapeFault c o ops),
            (fcWorld, worldFault x.rc.world ops), (fcSeal, sealFault c o ops), (fcAlias, d.aliasFault c o ops),
            (fcRing, d.ringFault j c o ops), (fcTarget, d.targetFault j c o)]
          match checks.findSome? fun p => p.2.map fun s => (p.1, s) with
          | some f => .error f
          | none => .ok (o, ops)

/-! ### Issue (R91 to R96, R477) -/

/-- The next command of an engine, when its front end may take one: the runner, the command ring and the descriptor. -/
def Device.nextCommand (d : Device) (e : Nat) : Option (Runner × Nat × Cmd) :=
  match d.runner e with
  | none => none
  | some w =>
    let x := d.job w.j
    let g := d.engine e
    let n := x.active.ring w.l
    let r := d.ring n
    let k := g.issued.length
    if x.st = .running ∧ !g.leaving ∧ !g.halted ∧ !g.halting ∧ !x.ckptOwed ∧ k < maxIssued ∧ k < r.fill
        ∧ k < (d.ring (x.rc.complRing0 + w.l)).free then
      some (w, n, Cmd.ofBytes (d.bytes (r.entryAddr r.head k) 64))
    else none

/-- The engine stops before its next command (R477). -/
def Eng.halt (g : Eng) : Eng :=
  if g.issued.isEmpty then { g with halted := true, halting := false, step := none } else { g with halting := true, step := none }

/-- A breakpoint hits: the engine halts, with every engine of the job where ALL_STOP is set (R477). -/
def Device.breakHit (d : Device) (w : Runner) (b : Nat) : Device :=
  let es := if bitOf (d.dbg.bpWord b) 12 then (d.job w.j).held.filter fun e => !(d.engine e).leaving else [w.e]
  let d := es.foldl (fun d e => d.modEng e Eng.halt) d
  { d with dbg := { d.dbg with hit := w.j + 64 * w.l + 2 ^ 31 } }

/-- One step less to go, where the debugger steps the engine (R477). -/
def Eng.stepTaken (g : Eng) : Eng :=
  match g.step with
  | none => g
  | some n => if n ≤ 1 then { g with step := none, halting := true } else { g with step := some (n - 1) }

/-- Slots that a command reads. -/
def Issued.sources (i : Issued) : List Operand :=
  i.ops.filter fun x => if i.op = .vprog then x.slot != 0 else !(i.cmd.writes i.op).contains x.slot
def Issued.dests (i : Issued) : List Operand := i.ops.filter fun x => (i.cmd.writes i.op).contains x.slot
def Issued.outSlot (i : Issued) (x : Operand) : Bool := (i.cmd.outSlots i.op).contains x.slot

/-- Extents of a set of operands. -/
def Device.extents (d : Device) (i : Issued) (xs : List Operand) : List Extent := xs.flatMap fun x => d.extent x (i.outSlot x)

/-- The SEQ that the next command of an engine must carry (R92, R93). -/
def Device.expectedSeq (d : Device) (w : Runner) (n : Nat) : Nat :=
  (tget doneDef (d.job w.j).doneSeq n + (d.engine w.e).issued.length + 1) % 2 ^ 32

/-- The region checkers refuse the fetch of an engine's next command, at an address (R91, R184). -/
def Device.fetchRefused (d : Device) (w : Runner) (n : Nat) : Option Nat :=
  let r := d.ring n
  d.refusedAt .engines w.world false (r.entryAddr r.head (d.engine w.e).issued.length) 64

/-- A command that has passed every check is issued; it is held back when one of its extents overlaps a destination of an earlier
uncommitted command (R93, R94). -/
def Device.issued (d : Device) (e n : Nat) (c : Cmd) (o : Op) (ops : List Operand) : Issued :=
  let i : Issued :=
    { cmd := c, op := o, ops := ops, ring := n, heldBack := false, started := false, startTn := 0, startDt := 0, done := false,
      st := 0, outs := d.outRings c o ops, ins := d.inRings c o ops, plain := [], produced := none, clash := false,
      fetched := [] }
  { i with heldBack := (d.engine e).issued.any fun x => overlap (d.extents i i.ops) (d.extents x x.dests) }

/-- The front end takes the next command: a breakpoint hits, a check fails, or the command is issued (R93). A fetch, or the read of
a descriptor, that the region checkers refuse faults the command with WORLD and is logged (R184, R240). -/
def Device.issue (d : Device) (e : Nat) : Device :=
  match d.nextCommand e with
  | none => d
  | some (w, n, c) =>
    match d.fetchRefused w n, (if (d.engine e).step.isNone then d.dbg.hits w.j w.l c.seq else none) with
    | some a, _ => (d.logRefusal (Port.engine e) a false w.world).cmdFault w (d.expectedSeq w n) fcWorld slotNone a true
    | none, some b => d.breakHit w b
    | none, none =>
      match d.issueCheck w.j c (d.expectedSeq w n) with
      | .error (code, slot) =>
        let d := match d.descRefused (d.job w.j) c with
          | some p => if code = fcWorld then d.logRefusal (Port.engine e) p.2 false w.world else d
          | none => d
        d.cmdFault w c.seq code slot 0 true
      | .ok (o, ops) => d.modEng e fun g => { g with issued := g.issued ++ [d.issued e n c o ops], issueSeq := c.seq }.stepTaken

/-- COMMAND_ISSUE (R93). -/
def execCommandIssue (e : Fin 32) (s : State) : Out := s.on fun d => d.issue e

/-- A breakpoint hits when the next command matches one (R477). -/
def Device.breakpoint (d : Device) (e : Nat) : Device :=
  match d.nextCommand e with
  | none => d
  | some (w, _, c) => match (if (d.engine e).step.isNone then d.dbg.hits w.j w.l c.seq else none) with
    | some b => d.breakHit w b
    | none => d

/-- BREAKPOINT_HIT (R477). -/
def execBreakpointHit (e : Fin 32) (s : State) : Out := s.on fun d => d.breakpoint e

/-! ### Start (R94, R95, R267, R270, R271) -/

/-- Command `k` of the engine's issued commands may start: order, extents and rings (R94, R95), and no checkpoint boundary
of its job is owed (R202). One that is held back starts only as the first uncommitted command of its ring (R94). -/
def Device.mayStart (d : Device) (g : Eng) (k : Nat) (i : Issued) : Bool :=
  let earlier := g.issued.take k
  let alone (x : Issued) : Bool := x.op.isBarrier || x.cmd.atomic
  (k == 0 || (!alone i && !i.heldBack)) && !(earlier.any alone) && (g.bound.all fun b => !(d.job b.1).ckptOwed)
    && (i.op == .publish || i.outs.all fun p => decide (p.2 ≤ (d.ring p.1).free))
    && i.ins.all fun p => decide (p.2 ≤ (d.ring p.1).fill)

/-- Changes the issued command with a SEQ. -/
def Eng.modIssued (g : Eng) (seq : Nat) (f : Issued → Issued) : Eng :=
  { g with issued := g.issued.map fun i => if i.cmd.seq = seq then f i else i }

/-- The remote ring that a REMOTE writes: device, ring and entries. -/
def Device.remoteRing (d : Device) (i : Issued) : Option (Nat × Nat × Nat) :=
  match opAt i.ops 0 with
  | some x => if i.op = .remote ∧ x.t.isRing ∧ d.isRemote x.t then some (x.t.addr / 2 ^ 40, x.t.ring, x.t.size (x.t.rank - 1)) else none
  | none => none

/-- A proxy may be replaced: none of its tail advances is open (R270). -/
def Fab.idleProxy (f : Fab) (p : Proxy) : Bool :=
  !((f.putDst p.dev).unacked.any fun q => q.tail && q.addr % 512 == p.ring)
    && !(f.waiting.any fun w => w.msg.type == .tailAdv && w.msg.dst == p.dev && w.msg.addr % 512 == p.ring)

/-- A proxy for a remote ring is allocated and its state asked for, where one of the 64 is free or may be replaced (R270). -/
def Device.askProxy (d : Device) (dev ring : Nat) (world : Bool) : Device :=
  let f := d.fab
  let oldest := (f.proxies.filter f.idleProxy).foldl (fun b p => match b with
    | some (q : Proxy) => if p.used < q.used then some p else some q
    | none => some p) none
  let room : Option (List Proxy) :=
    if f.proxies.length < 64 then some f.proxies else oldest.map fun q => f.proxies.erase q
  match room with
  | none => d
  | some ps =>
    let p : Proxy := ⟨dev, ring, false, .zero, .zero, 0, 0, f.useClock + 1⟩
    (d.modFab fun f => { f with proxies := ps ++ [p], useClock := f.useClock + 1 }).send
      { FMsg.plain .ringQuery d.ownId dev with tag := 8192, addr := dev * 2 ^ 40 + ring, world := world } noRing

/-- Remote reads for the sources that lie on other devices (R112, R264). -/
def Device.askSources (d : Device) (w : Runner) (i : Issued) : Device :=
  let level := d.nextLevel (Port.engine w.e)
  let gen := (d.proc.inst w.ctx).gen
  let rs := (i.sources.filter fun x => d.isRemote x.t).flatMap fun x => (d.ranges x false).filter fun r => spaceOf r.1 == 4
  let ps := rs.flatMap fun r =>
    let a := r.1 % 2 ^ 56
    let lo := a / 16 * 16
    let hi := (a + r.2 + 15) / 16 * 16
    pieces d.fab.maxData hi ((hi - lo) / 16 + 1) lo
  ps.foldl (fun d p => d.askRead ⟨.engine w.e i.cmd.seq, p.1 / 2 ^ 40, p.1, units p.2, 0, false, 0, w.ctx, gen⟩ w.world level) d

/-- A command starts. -/
def Device.begin (d : Device) (w : Runner) (i : Issued) : Device :=
  let (t, d) := d.stamp
  let plain := d.plainRanges w i.dests
  let d := d.modEng w.e fun g => g.modIssued i.cmd.seq fun x =>
    { x with started := true, startTn := d.tn, startDt := t, plain := plain }
  d.askSources w i

/-- The oldest command that has not started, started if it may; unreachable destinations fault it (R94, R95, R267). -/
def Device.commandStart (d : Device) (e : Nat) : Device :=
  let g := d.engine e
  match d.runner e, g.issued.findIdx? fun i => !i.started with
  | some w, some k =>
    match g.issued[k]? with
    | none => d
    | some i =>
      if (d.job w.j).st ≠ .running ∨ !d.mayStart g k i then d
      else match i.ops.find? fun x => d.isRemote x.t && d.unreachable (x.t.addr / 2 ^ 40) with
        | some x =>
          (d.logBridge x.t.addr (if d.fab.id.isNone then 6 else 5) (x.t.addr / 2 ^ 40) 0 0).cmdFault w i.cmd.seq fcRemoteFail
            x.slot x.t.addr false
        | none => match d.remoteRing i with
          | none => d.begin w i
          | some (dev, ring, n) => match findProxy d.fab.proxies dev ring with
            | none => d.askProxy dev ring w.world
            | some p =>
              if !p.known then d
              else if i.ops.any fun x => x.slot == 0 && x.t.stride (x.t.rank - 1) != p.esize then
                d.cmdFault w i.cmd.seq fcShape 0 0 false
              else if n ≤ p.free then
                (d.modFab fun f => { f with useClock := f.useClock + 1, proxies := f.proxies.map fun q =>
                  if q = p then { q with used := f.useClock + 1 } else q }).begin w i
              else d
  | _, _ => d

/-- COMMAND_START (R94). -/
def execCommandStart (e : Fin 32) (s : State) : Out := s.on fun d => d.commandStart e

/-! ### Commit (R119) -/

/-- A put of this device's commands (R266). -/
def Device.sendTails (d : Device) (i : Issued) (world : Bool) : Device :=
  match d.remoteRing i with
  | none => d
  | some (dev, ring, n) =>
    let d := d.modFab fun f => { f with proxies := f.proxies.map fun p =>
      if p.dev = dev ∧ p.ring = ring then { p with tail := p.tail.move p.count n } else p }
    (List.range ((n + 65534) / 65535)).foldl (fun d k =>
      d.send { FMsg.plain .tailAdv d.ownId dev with addr := dev * 2 ^ 40 + ring, arg := min 65535 (n - k * 65535), world := world } i.ring) d

/-- Entries that a command publishes in each output ring: those it wrote (R119, R133). -/
def Device.published (d : Device) (i : Issued) : List (Nat × Nat) :=
  match i.produced with
  | none => i.outs
  | some p => i.outs.map fun r =>
    match i.ops.find? fun x => (x.slot == 0 || x.slot == 6) && (d.ringsOf x).any fun q => q.1 == r.1 with
    | some x => (r.1, (p + x.t.elems / max 1 r.2 - 1) / max 1 (x.t.elems / max 1 r.2))
    | none => r

/-- A trigger input of a job takes an event of a SIGNAL (R114, R209). -/
def Device.triggerJob (d : Device) (j t : Nat) : Device := d.modJob j fun x => x.trigger t 0 1

/-- A fabric signal has arrived (R114, R208). -/
def Device.fabricSignal (d : Device) (n : Nat) : Device := d.triggerBy (trigNames 4 15 8 n)

/-- The event that a SIGNAL delivers at its commit (R114). -/
def Device.deliverSignal (d : Device) (w : Runner) (i : Issued) : Device :=
  let p := i.cmd.p1
  match p % 4 with
  | 0 => d.triggerJob (bits p 9 4) (bits p 11 10)
  | 1 =>
    if d.isOwn (bits p 8 4) then d.fabricSignal (bits p 23 16)
    else d.send { FMsg.plain .signal d.ownId (bits p 8 4) with arg := bits p 23 16, world := w.world } i.ring
  | _ => d.signalIrq w.ctx (bits p 15 4)

/-- An issued command of an engine has the ring as an output. -/
def Eng.produces (g : Eng) (n : Nat) : Bool := g.issued.any fun x => x.outs.any fun p => p.1 == n

/-- Entries that two producers of one ring write are undefined (R169): those that this one publishes, and those of the engines'
commands that have the ring as an output. -/
def Device.ringClash (d : Device) (n k : Nat) : Device :=
  let r := d.ring n
  let d := (List.range k).foldl (fun d i => let a := r.entryAddr r.tail i; d.scramble a (a + r.entrySize)) d
  (List.range 32).foldl (fun d e => if (d.engine e).produces n then
    d.modEng e fun g => { g with issued := g.issued.map fun x => if x.outs.any fun p => p.1 == n then { x with clash := true } else x }
    else d) d

/-- The commit of one command, in one step (R119). -/
def Device.commitOne (d : Device) (w : Runner) (i : Issued) : Device :=
  let two (n : Nat) : Bool := i.clash || (List.range 32).any fun e => e != w.e && (d.engine e).produces n
  let d := (d.published i).foldl (fun d p => if two p.1 then d.ringClash p.1 p.2 else d) d
  let d := (d.published i).foldl (fun d p => match (d.ring p.1).publish p.2 with
    | some r => d.moveRing p.1 r
    | none => d) d
  let d := d.sendTails i w.world
  let d := d.modJob w.j fun x => { x with doneSeq := tput doneDef x.doneSeq i.ring i.cmd.seq, idleSince := none }
  let d := ((i.ring, 1) :: i.ins).foldl (fun d p => match (d.ring p.1).advance p.2 with
    | some r => d.moveRing p.1 r
    | none => d) d
  let d := if i.cmd.cr then d.record w i.cmd.seq 0 i.st else d
  let d := if i.cmd.irq then d.instIrq w.ctx (64 + w.j) else d
  let d := match i.op with
    | .wait => if i.cmd.p1 % 4 = 0 then d.modJob w.j fun x => x.trigger (bits i.cmd.p1 3 2) 1 0 else d
    | .signal => d.deliverSignal w i
    | _ => d
  let d := d.count (teBase w.e + 0x40) 1
  d.modEng w.e fun g =>
    let g := { g with issued := g.issued.filter fun x => x.cmd.seq != i.cmd.seq }
    if g.halting then g.halt else g

/-- The condition of a WAIT holds now (R113). -/
def Device.waitHolds (d : Device) (w : Runner) (i : Issued) : Bool :=
  let p := i.cmd.p1
  let n := p / 2 ^ 32
  let x := d.job w.j
  match p % 4 with
  | 0 => decide (1 ≤ x.trig.getD (bits p 3 2) 0)
  | 1 => decide (n ≤ (d.ring (bits p 16 8)).fill)
  | 2 => let s := tget doneDef x.doneSeq (x.active.ring (bits p 12 8)); s == n || seqLater s n
  | _ => decide (i.startTn + n ≤ d.tn)

/-- Engines of a job that still belong to its running set, with their commands at the front. -/
def Device.fronts (d : Device) (j : Nat) : List (Nat × Option Issued) :=
  (d.activeSet j).map fun e => (e, (d.engine e).issued.head?)

/-- All checkpoints of a job commit in the same cycle; the boundary is owed from the next tempo boundary on (R117). -/
def Device.commitCheckpoint (d : Device) (j c : Nat) : Device :=
  let d := (d.fronts j).foldl (fun d p => match d.runner p.1, p.2 with
    | some w, some i => d.commitOne w i
    | _, _ => d) d
  d.modJob j fun x => { x with ckpt := c, ckptOwed := true, ckptAt := d.tn + 1 }

/-- Writes of a command ring's REMOTE that have not been handed over to a link: they wait for a route, for room among the puts, or
for credit (R33, R119). -/
def Fab.unhanded (f : Fab) (ring : Nat) : Bool :=
  let mine (m : FMsg) : Bool := m.type == .wr && m.src == f.id.getD 0
  (f.waiting.any fun w => mine w.msg && w.ring == ring)
    || f.ports.any fun p => p.2.queue.any fun m => mine m && (f.putDst m.dst).unacked.any fun q => q.num == m.tag && q.ring == ring

/-- Every write of a command has reached its ordering point (R119). -/
def Device.ordered (d : Device) (e : Nat) (i : Issued) : Bool :=
  !(d.engine e).hasStores i.cmd.seq && !(i.op == .remote && d.fab.unhanded i.ring)

/-- The oldest command of an engine commits, once it is done and its stores have reached their ordering point (R119). One whose
completion record the region checkers refuse faults instead (R184; log entry 154). -/
def Device.commandCommit (d : Device) (e : Nat) : Device :=
  match d.runner e, (d.engine e).issued.head? with
  | some w, some i =>
    if !i.started || !i.done || !d.ordered e i then d
    else if i.cmd.cr && (d.recordRefused w).isSome then
      d.cmdFault w i.cmd.seq fcWorld slotNone ((d.recordRefused w).getD 0) false
    else match i.op with
      | .checkpoint => d.commitCheckpoint w.j (i.cmd.p1 % 2 ^ 32)
      | .wait => if i.cmd.p1 % 4 ≠ 0 ∨ d.waitHolds w i then d.commitOne w i else d
      | .publish => if (d.ring (i.cmd.p1 % 512)).publish (bits i.cmd.p1 31 16) = none then
          d.cmdFault w i.cmd.seq fcRing slotNone 0 false else d.commitOne w i
      | _ => d.commitOne w i
  | _, _ => d

/-- COMMAND_COMMIT (R119). -/
def execCommandCommit (e : Fin 32) (s : State) : Out := s.on fun d => (d.commandCommit e).sendHeads

/-! ### Faults during execution (R93, R113, R123) -/

/-- Conditions that the surroundings of an engine decide: bus errors, uncorrectable errors of memory, and residues of
the PE array (R124, R126). -/
def faultAllowed (o : Op) (code : Nat) : Bool :=
  (code == fcBounds || code == fcEcc) && !o.isFrontEnd
    || (code == fcResidue && (o == .mma || o == .attn || o == .spmm))

/-- The running command that meets such a condition. -/
def Device.faultOf (d : Device) (f : CmdFault) : Option FaultOf :=
  match d.runner f.engine, (d.engine f.engine).issued[f.place]? with
  | some w, some i =>
    if i.started && !i.done && faultAllowed i.op f.code then some ⟨w, i.cmd.seq, f.code, f.slot % 16, f.addr, false⟩ else none
  | _, _ => none

/-- Running commands of one job meet such conditions in one cycle (R93, R126, R212): `f`, and those of `also` that another command
of the same job meets. An uncorrectable error of a read is written to the die's error log and counts against the memory (R176, log
entry 89). -/
def Device.commandFault (d : Device) (f : CmdFault) (also : List CmdFault) : Device :=
  match d.faultOf f with
  | none => d
  | some x =>
    let same (p : CmdFault × FaultOf) : Bool := p.2.w.j == x.w.j && (p.1.engine != f.engine || p.1.place != f.place)
    let all := (f, x) :: ((also.filterMap fun g => (d.faultOf g).map fun y => (g, y)).filter same)
    let one := all.foldl (fun l p => if l.any fun q => q.1.engine == p.1.engine && q.1.place == p.1.place then l else l ++ [p]) []
    let order := sortBy (fun p q => decide (p.2.w.l < q.2.w.l) || (p.2.w.l == q.2.w.l && decide (p.1.place ≤ q.1.place))) one
    let d := d.cmdFaults (order.map Prod.snd)
    (order.foldl (fun d p => if p.2.code = fcEcc then
        (d.logRefusal (.engine p.2.w.e) p.2.addr false p.2.w.world).memError p.2.addr (if p.1.tag then .tagMismatch else .uncorrectable)
      else d) d).grantRTag

/-- COMMAND_FAULT (R93). -/
def execCommandFault (fault : CmdFault) (also : List CmdFault) (s : State) : Out := s.on fun d => d.commandFault fault also

/-- An ATOMIC command that has not committed once 8 tempos have passed since its start faults (R123). -/
def Device.atomicOverrun (d : Device) (e : Nat) : Device :=
  match d.runner e, (d.engine e).issued.find? fun i => i.started && i.cmd.atomic && decide (i.startTn + 8 ≤ d.tn) with
  | some w, some i => d.cmdFault w i.cmd.seq fcAtomicOverrun slotNone 0 false
  | _, _ => d

/-- ATOMIC_OVERRUN (R123). -/
def execAtomicOverrun (e : Fin 32) (s : State) : Out := s.on fun d => d.atomicOverrun e

/-- A WAIT whose condition has not held when its time-out expires faults (R113). -/
def Device.waitTimeout (d : Device) (e : Nat) : Device :=
  match d.runner e, (d.engine e).issued.find? fun i => i.started && !i.done && i.op == .wait with
  | some w, some i =>
    if i.cmd.p2 % 2 ^ 32 ≠ 0 ∧ i.startTn + i.cmd.p2 % 2 ^ 32 ≤ d.tn ∧ d.waitHolds w i = false then
      d.cmdFault w i.cmd.seq fcWaitTimeout slotNone 0 false
    else d
  | _, _ => d

/-- WAIT_TIMEOUT (R113). -/
def execWaitTimeout (e : Fin 32) (s : State) : Out := s.on fun d => d.waitTimeout e

/-- The oldest entry of a write-combining buffer drains to its controller, as one write of the engine's port (R223, R235); stores
that wait take its place (R174). It waits while the port may not issue or its path leads over a link that is down (R219, R224). -/
def Device.wcbDrain (d : Device) (e : Nat) : Device :=
  match (d.engine e).wcb with
  | [] => d
  | w :: rest =>
    let p := Port.engine e
    if !d.mayIssue p || !d.reaches p.die (w.line * 64) then d
    else
    let d := d.served p true (w.line * 64) w.bytes.length
    let d := (List.range 64).foldl (fun d k => match w.byte (w.line * 64 + k) with
      | some b => d.putByte (w.line * 64 + k) b
      | none => d) d
    d.modEng e fun g => Eng.letIn (g.stq.length + 1) { g with wcb := rest }

/-- WCB_DRAIN (R174). -/
def execWcbDrain (e : Fin 32) (s : State) : Out := s.on fun d => d.wcbDrain e

end Sys2Proof.Machine
end

