-- ==== Sys2Proof/Machine/TimeCmds.lean ====
section
/-! DEFINITION. Commands of the time base, the calendar and the sealed moves (chapter 02). -/

namespace Sys2Proof.Machine

open Sys2Proof

/-- A port of the fabric is enabled, by TL.PORT_CTRL and by the mask of 0x2100:01, and not refused (R36). -/
def Device.portWaits (d : Device) : Bool :=
  (List.range 8).any fun p => (d.fab.port p).ctrl && bitOf (d.dict.num 0x2100 1) p && (d.fab.port p).st != .refused

/-- Time start (R36): at the fabric time of the first TIME message where the device waits for one, else at 0. The start is
no boundary itself (log entry 60). -/
def Device.timeStart (d : Device) (stamp : Option Nat) : Device :=
  if d.tb.started || !d.pwr.good then d
  else
    let v := match stamp with
      | some t => if d.portWaits && !d.fab.king then some (t % 2 ^ 64) else none
      | none => none
    { d with tb := { d.tb with started := true, dt := v.getD 0, mark := d.fresh, inStep := v.isSome || d.fab.king, king := d.fab.king } }

/-- SEAL (R39, R40, R42, R46). -/
def execSeal (b : BlockId) (group : Fin 32) (s : State) : Out := s.on fun d => d.sealBlk b group

/-- The loss of the gPTP master (R55): with no master seen since time start SYNC stays NONE. -/
def Device.gptpLoss (d : Device) : Device :=
  if d.tb.sync = .synced then { d with tb := { d.tb with sync := .holdover } } else d

/-- GPTP_MASTER_LOSS (R55). -/
def execGptpMasterLoss (s : State) : Out := s.on fun d => d.gptpLoss

/-- The servo has a master (R55); nothing counts as seen before time start. -/
def Device.gptpGain (d : Device) : Device :=
  if d.tb.started then { d with tb := { d.tb with sync := .synced } } else d

/-- GPTP_SYNC (R55). -/
def execGptpSync (s : State) : Out := s.on fun d => d.gptpGain

/-- CAL_SET (R58). -/
def execCalSet (s : State) : Out := s.on fun d => { d with cal := d.cal.set }

/-- A tick of the calendar clock (R57, R58, R60). -/
def Device.calTick (d : Device) : Device :=
  let (c, ended) := d.cal.tick
  let d := { d with cal := c }
  if ended then d.event evCalendarEnd none 0 else d

/-- CALENDAR_TICK (R57). -/
def execCalendarTick (s : State) : Out := s.onKeep fun d => d.calTick

/-- Master time at the latest tempo boundary (R51). -/
def Device.masterTime (d : Device) : Int :=
  Sys2Proof.Machine.masterTime d.tb.dt d.tb.offsetNow (two (d.sw .tb) (tbBase + 0x38)) (toSigned 32 (d.sw .tb (tbBase + 0x30)))

/-- The UTC view in nanoseconds (R54); it is valid once a master has been seen (R55). -/
def Device.utcView (d : Device) : Int :=
  if d.tb.sync = .none then 0 else d.masterTime - toSigned 32 (d.sw .tb (tbBase + 0x58)) * 1000000000

/-- The calendar on the UTC view (R59): date, time and CAL_SUB; nothing outside the calendar's range. -/
def Device.calRewrite (d : Device) : Device :=
  let u := d.utcView - (epoch2000 : Int) * 1000000000
  if d.cal.sync && d.tb.sync != .none && decide (0 ≤ u) then
    let secs := u.toNat / 1000000000
    let c := DateTime.ofSeconds secs
    if c.valid then
      { d with cal := { d.cal with now := c, sub := u.toNat % 1000000000 * 32768 / 1000000000, pending := none, atEnd := false } }
    else d
  else d

/-- CALENDAR_REWRITE (R59). -/
def execCalendarRewrite (s : State) : Out := s.on fun d => d.calRewrite

/-- A read of CAL_DATE latches CAL_TIME and CAL_SUB (R61). -/
def Device.calRead (d : Device) : Device :=
  { d with cal := { d.cal with latch := some (d.cal.now.timeWord, BitVec.ofNat 32 d.cal.sub) } }.note
    (.read (tbBase + 0x80) d.cal.now.dateWord.toNat)

/-- CAL_DATE_READ (R61). -/
def execCalDateRead (s : State) : Out := s.on fun d => d.calRead

end Sys2Proof.Machine
end

