-- ==== Sys2Proof/Machine/FabCmds.lean ====
section
/-! DEFINITION. The Toterlink fabric (chapter 09): links, membership, configurations, remote reads and writes, remote
rings, time, heartbeats and partition. -/

namespace Sys2Proof.Machine

open Sys2Proof

/-- The serial of this unit. -/
def ownSerial : Nat := Config.serial.toNat

/-! ### Links (R242, R249 to R251, R275) -/

/-- TLp is enabled: PORT_CTRL.ENABLE and the mask 0x2100:01. -/
def Device.linkEnabled (d : Device) (p : Nat) : Bool := (d.fab.port p).ctrl && bitOf (d.dict.num 0x2100 1) p

/-- Training has failed: the link trains again in the next round (R242). -/
def LPort.failed (p : LPort) : LPort := { p.reset .training with tried := true }

/-- The outcome of training, once per round while the port is enabled (R242): ×4 runs under version 2 only. -/
def Device.linkTraining (d : Device) (p : Nat) (o : TrainOutcome) : Device :=
  let x := d.fab.port p
  if !d.linkEnabled p || !(x.st == .off || x.st == .training) || x.tried then d
  else match o with
    | .x8 => d.modLink p fun x => x.reset .hello
    | .x4 high => if d.fab.version = 1 then d.modLink p LPort.failed else d.modLink p fun x => { x.reset .hello with x4 := true, x4High := high }
    | .none => d.modLink p LPort.failed

/-- LINK_TRAINING (R242). -/
def execLinkTraining (port : Fin 8) (outcome : TrainOutcome) (s : State) : Out := s.on fun d => d.linkTraining port outcome

/-- A message to every ACTIVE link but one. -/
def Device.flood (d : Device) (except : Nat) (m : FMsg) : Device :=
  ((List.range 8).filter fun p => p != except && d.linkActive p).foldl (fun d p => d.tx p m) d

/-- A LINK_STATE message: both ends of a link by serial and port, and whether it is ACTIVE (log entry 75). -/
def linkStateMsg (l : FLink) (up : Bool) : FMsg :=
  { FMsg.plain .linkState 0 0 with
    len := 2, arg := b2n up,
    data := leBytes 8 l.a ++ leBytes 8 l.b ++ leBytes 1 l.ap ++ leBytes 1 l.bp ++ zeros 14 }

def FMsg.linkOf (m : FMsg) : FLink := ⟨field m.data 0 8, field m.data 16 1, field m.data 8 8, field m.data 17 1⟩

/-- A link with its ends exchanged. -/
def FLink.flip (l : FLink) : FLink := ⟨l.b, l.bp, l.a, l.ap⟩

/-- The set of ACTIVE links after a report. -/
def linksAfter (ls : List FLink) (l : FLink) (up : Bool) : List FLink :=
  let rest := ls.filter fun x => x != l && x != l.flip
  if up then rest ++ [l] else rest

/-- Links between known devices, by fabric ID. -/
def Fab.idLinks (f : Fab) : List FLink :=
  let idOf (s : Nat) : Option Nat := (f.known.find? fun m => m.serial == s).map Member.id
  f.links.filterMap fun l => match idOf l.a, idOf l.b with
    | some a, some b => some ⟨a, l.ap, b, l.bp⟩
    | _, _ => none

/-- Serials that this device can reach over ACTIVE links (R276). -/
def Fab.partSerials (f : Fab) : List Nat := reach f.links 32 [ownSerial]

/-- Members of this device's part, by ID (R276). -/
def Fab.part (f : Fab) : List Nat :=
  let ss := f.partSerials
  (f.known.filter fun m => ss.contains m.serial).map Member.id

/-! ### Configurations (R258 to R263) -/

/-- The routing table of the member `x` of a configuration over `links` (R260, R261). -/
def tableFor (links : List FLink) (c : FabConfig) (x : Nat) : Tab Route :=
  c.activeIds.foldl (fun t dst => tput routeDef t dst (routeFor links (bfsLevels links c.king 32) x dst)) []

/-- A configuration is passed on over every ACTIVE link (R259). -/
def Device.sendConfig (d : Device) (c : FabConfig) : Device :=
  ((List.range 8).filter d.linkActive).foldl (fun d p => d.note (.config p c)) d

/-- A configuration is committed: it is the last stable one, and waits for its boundary (R259). -/
def Fab.commit (f : Fab) (c : FabConfig) : Fab :=
  { f with stableConfig := some c, cfgGen := c.gen, pending := none, dueConfigs := f.dueConfigs ++ [c] }

/-- The COMMIT of a configuration (R252, R259). -/
def commitMsg (c : FabConfig) : FMsg := { FMsg.plain .commit c.king 0 with arg := c.gen % 2 ^ 16, addr := c.gen }

/-- The king commits once every active member that it can reach has answered (R259). -/
def Device.commitIfAcked (d : Device) : Device :=
  match d.fab.pending with
  | none => d
  | some c =>
    let part := d.fab.part
    if d.fab.king && (c.activeIds.filter fun i => part.contains i).all fun i => d.fab.acks.contains i then
      (d.modFab fun f => f.commit c).flood 8 (commitMsg c)
    else d

/-- The king sends a configuration to every member and waits for their answers (R259). -/
def Device.proposeConfig (d : Device) (members : List Member) (membership : Bool) (applyTn : Nat) : Device :=
  let me := ((members.find? fun m => m.serial == ownSerial).map Member.id).getD 0
  let gen := (max d.fab.cfgGen ((d.fab.pending.map FabConfig.gen).getD 0) + 1) % 2 ^ 32
  let d := d.modFab fun f => { f with known := members }
  let base : FabConfig := ⟨gen, members, me, d.fab.version, applyTn, membership, []⟩
  let c := { base with tables := base.activeIds.map fun i => (i, tableFor d.fab.idLinks base i) }
  ((d.modFab fun f => { f with pending := some c, acks := [me] }).sendConfig c).commitIfAcked

/-- The next round boundary after now. -/
def Device.nextRound (d : Device) : Nat := (d.tn / 1000 + 1) * 1000

/-- The released IDs go, and the first devices that were refused an ID get them, in order (R258); the serials known with the devices
still refused. -/
def Fab.released (f : Fab) : List Member × List (Nat × Nat) :=
  let kept := f.known.filter fun m => !f.releases.contains m.id
  (kept ++ (f.refusedJoins.zip f.releases).map (fun x => ⟨x.1.1, x.2, true⟩), f.refusedJoins.drop f.releases.length)

/-- The releases take effect with a configuration that changes membership (R258). -/
def Device.takeReleases (d : Device) : Device :=
  d.modFab fun f => { f with known := f.released.1, refusedJoins := f.released.2, releases := [] }

/-- A configuration that changes membership or the king, at the next round boundary: the devices that can be reached are active
(R258, R259, R277, R279). -/
def Device.membershipConfig (d : Device) : Device :=
  let d := d.takeReleases
  let ss := d.fab.partSerials
  d.proposeConfig (d.fab.known.map fun m => { m with active := ss.contains m.serial }) true d.nextRound

/-- The king's configurations, one at a time: the routing configuration first, which applies within 10 tempos of the change of link
state, then one that changes membership (R263). -/
def Device.kingConfig (d : Device) : Device :=
  let d := if d.fab.pending.isSome then d.commitIfAcked else d
  if !d.fab.king || d.fab.pending.isSome then d
  else match d.fab.config with
    | none => d
    | some c =>
      if d.fab.wantRoutes then (d.modFab fun f => { f with wantRoutes := false }).proposeConfig c.members false (d.tn + 8)
      else if d.fab.wantMembers then (d.modFab fun f => { f with wantMembers := false }).membershipConfig
      else d

/-- A known device that is absent can be reached (R279), or a configuration that changes membership has not applied yet and no
longer shows the links (R263). -/
def Fab.owesMembers (f : Fab) : Bool :=
  let ss := f.partSerials
  (f.known.any fun m => !m.active && ss.contains m.serial) || (f.pending.toList ++ f.dueConfigs).any fun c => c.membership

/-- A change of one link is kept, flooded and, on the king, followed by a configuration (R263, R275). -/
def Device.linkChange (d : Device) (from' : Nat) (l : FLink) (up : Bool) : Device :=
  let ls := linksAfter d.fab.links l up
  if ls = d.fab.links ∨ (up = true ∧ d.fab.links.contains l.flip) then d
  else
    let d := (d.modFab fun f => { f with links := ls }).flood from' (linkStateMsg l up)
    if d.fab.king then
      ((d.modFab fun f => { f with wantRoutes := true, wantMembers := f.wantMembers || f.owesMembers }).kingConfig).kingConfig
    else d

/-- The link of a port by serials. -/
def Device.portLink (d : Device) (p : Nat) : FLink := ⟨ownSerial, p, (d.fab.port p).peerSerial, (d.fab.port p).peerPort⟩

/-- A link goes down: its buffers are lost, and it retrains (R275); an ACTIVE link is reported. -/
def Device.linkDown (d : Device) (p : Nat) : Device :=
  let x := d.fab.port p
  if x.st = .off ∨ x.st = .training ∨ x.st = .refused then d
  else
    let l := d.portLink p
    let act := x.st == .active
    let d := d.modLink p fun x => { x.reset .training with downs := (x.downs + b2n act) % 2 ^ 32 }
    if act then d.linkChange p l false else d

/-- LINK_DOWN (R275). -/
def execLinkDown (port : Fin 8) (s : State) : Out := s.on fun d => d.linkDown port

/-- A link is refused with a reason of PORT_STATUS.REFUSE. -/
def Device.refuseLink (d : Device) (p reason : Nat) : Device :=
  let d := d.linkDown p
  d.modLink p fun x => { x.reset .refused with refuse := reason, peerSerial := x.peerSerial }

/-! ### HELLO (R255, R256) -/

/-- The versions this device runs (R255). -/
def ownVmin : Nat := 1
def ownVmax : Nat := 2

/-- PROFILE_HASH (R256): of the values of 0x2100:01 to 04 (log entry 75). -/
def Device.profileHash (d : Device) : List Byte :=
  (Config.sha384 ([1, 2, 3, 4].flatMap fun s => d.dict.val 0x2100 s)).take 16

/-- The 48 bytes of a HELLO. -/
def Hello.bytes (h : Hello) : List Byte :=
  leBytes 8 h.serial ++ leBytes 1 h.vmin ++ leBytes 1 h.vmax ++ leBytes 1 h.proposed
    ++ leBytes 1 (b2n h.king + 2 * b2n h.resigned + 4 * b2n h.holdsId) ++ leBytes 1 h.port ++ leBytes 1 h.curId ++ zeros 2
    ++ (h.profileHash ++ zeros 16).take 16 ++ leBytes 4 h.cfgGen ++ leBytes 8 h.kingSerial ++ zeros 4

def Hello.ofBytes (b : List Byte) : Hello :=
  let fl := field b 11 1
  ⟨field b 0 8, field b 8 1, field b 9 1, field b 10 1, bitOf fl 0, bitOf fl 1, bitOf fl 2, field b 12 1, field b 13 1 % 32,
   (b.drop 16).take 16, field b 32 4, field b 36 8⟩

/-- The HELLO that a port of this device sends (R256). -/
def Device.ownHello (d : Device) (p : Nat) : Hello :=
  ⟨ownSerial, ownVmin, ownVmax, bits d.pwr.straps 6 2, d.fab.king, d.fab.st == .resigned, d.fab.id.isSome, p,
   d.fab.id.getD 0, d.profileHash, d.fab.cfgGen, d.fab.kingSerial⟩

/-- This device's contribution to a handshake, and the nonce for the partner's report, from random data (R249, R250). -/
def Device.contribute (d : Device) (p : Nat) : Device :=
  ({ d with fresh := d.fresh + 1 }.modLink p fun x => { x with eph := d.fresh }).note
    (.share p (Config.linkShare (Config.random d.fresh)) (leBytes 48 (Config.random d.fresh)))

/-- The key and the salt of the direction that the device with a serial sends in (R249; log entry 161). -/
def directionKey (secrets : List Byte × List Byte) (serial : Nat) : LinkKey :=
  let b := Config.hkdf (secrets.1 ++ secrets.2) (leBytes 8 serial) 36
  ⟨b.take 32, (b.drop 32).take 4⟩

/-- The keys of a handshake wait for the next block boundary (R248, R249, R251). -/
def LPort.newKeys (x : LPort) (share : List Byte) : LPort :=
  let s := Config.linkSecrets (Config.random x.eph) share
  { x with txNext := some (directionKey s ownSerial), rxNext := some (directionKey s x.peerSerial) }

/-- A HELLO arrives (R255, R256): the link takes the highest common version, or is refused. -/
def Device.hello (d : Device) (p : Nat) (h : Hello) : Device :=
  if (d.fab.port p).st ≠ .hello then d
  else
    let v := min ownVmax h.vmax
    let fv := d.fab.version
    let known (x : LPort) : LPort := { x with peerSerial := h.serial, peerId := if h.holdsId then some h.curId else none,
                                              peerKing := h.king, peerPort := h.port % 8, peerResigned := h.resigned,
                                              peerGen := h.cfgGen, peerMin := h.vmin, peerMax := h.vmax }
    let d := d.modLink p known
    if v < max ownVmin h.vmin ∨ (fv ≠ 0 ∧ (fv < h.vmin ∨ h.vmax < fv)) then d.refuseLink p 1
    else if h.profileHash ≠ d.profileHash then d.refuseLink p 2
    else if v = 1 ∧ (d.fab.port p).x4 then d.modLink p LPort.failed
    else
      let d := (d.modLink p fun x => { x with st := .handshake, version := v, hsAt := d.tn }).contribute p
      if d.fab.st = .alone ∧ h.kingSerial ≠ 0 then d.modFab fun f => { f with candidate := h.kingSerial, parent := some p } else d

/-- HELLO (R256). -/
def execHello (port : Fin 8) (h : Hello) (s : State) : Out := s.on fun d => d.hello port h

/-- A fresh handshake begins (R251). -/
def Device.beginRekey (d : Device) (p : Nat) : Device :=
  (d.modLink p fun x => { x with rekeyAt := d.tn + 1, hsAt := d.tn }).contribute p

/-- The partner's contribution to the handshake (R249), or to the fresh handshake of a rekey, which either end begins (R251). The
new keys derive from both contributions; this device's report follows under them (R250). -/
def Device.handshake (d : Device) (p : Nat) (m : HandshakeMsg) : Device :=
  let x := d.fab.port p
  match x.st with
  | .handshake =>
    if !m.signed then d.refuseLink p 3
    else
      let d := d.modLink p fun x => { x.newKeys m.share with st := .attesting }
      let (b, d) := (d.modLink p LPort.alignBlocks).attestation m.nonce
      (d.pump p).note (.report p b)
  | .active =>
    if !m.signed then d.refuseLink p 3
    else
      let d := if x.rekeyAt = 0 then d.beginRekey p else d
      d.modLink p fun x => { x.newKeys m.share with rekeyAt := 0 }
  | _ => d

/-- HANDSHAKE (R249). -/
def execHandshake (port : Fin 8) (h : HandshakeMsg) (s : State) : Out := s.on fun d => d.handshake port h

/-- A handshake that has not completed within 20 rounds refuses the link (R249). -/
def Device.handshakeTimeout (d : Device) (p : Nat) : Device :=
  let x := d.fab.port p
  if (x.st = .handshake ∨ (x.st = .active ∧ x.rekeyAt ≠ 0)) ∧ x.hsAt + 20000 ≤ d.tn then d.refuseLink p 3 else d

/-- HANDSHAKE_TIMEOUT (R249). -/
def execHandshakeTimeout (port : Fin 8) (s : State) : Out := s.on fun d => d.handshakeTimeout port

/-- A fresh handshake begins, 60,000 rounds after the last or before the block count reaches 2^32 (R251). -/
def Device.startRekey (d : Device) (p : Nat) : Device :=
  let x := d.fab.port p
  if x.st = .active ∧ (x.hsAt + 60000000 ≤ d.tn ∨ 2 ^ 32 ≤ x.txBlocks + 1000000) then
    d.beginRekey p
  else d

/-- REKEY (R251). -/
def execRekey (port : Fin 8) (s : State) : Out := s.on fun d => d.startRekey port

/-- A partner's report meets the policy of 0x2100:03 (R444). -/
def Device.policyMet (d : Device) (r : PartnerReport) : Bool :=
  let h := d.dict.num 0x2100 3
  if h = 0 then r.lifecycle == Lifecycle.owned.code && r.ownersSame && decide (d.sec.step ≤ r.step)
  else if h ≤ 8 then
    let rec' := d.dict.val 0x6030 h
    (List.range 4).all fun k =>
      let want := (rec'.drop (8 + 48 * k)).take 48
      leNat want == 0 || r.digests.getD k [] == want
  else false

/-- A link has become ACTIVE: it is reported, and a device without a fabric begins discovery (R250, R257). -/
def Device.linkUp (d : Device) (p : Nat) : Device :=
  let d := d.modLink p fun x => { x with st := .active, hbMiss := 0, hbSeen := true }
  let d := if d.fab.st = .alone then d.modFab fun f =>
      { f with st := .discovering, electing := true, stable := 0, candidate := if f.candidate = 0 then ownSerial else f.candidate } else d
  (d.linkChange p (d.portLink p) true).pump p

/-- The attestation of a link (R250): once both ends accept, it is ACTIVE; else it is refused and the enclave logs the partner's
serial. -/
def Device.attestationCheck (d : Device) (p : Nat) (r : PartnerReport) : Device :=
  if (d.fab.port p).st ≠ .attesting then d
  else if r.signed && r.fresh && d.policyMet r && r.accepts then d.linkUp p
  else (d.refuseLink p 4).note (.integrity (d.fab.port p).peerSerial)

/-- ATTESTATION_CHECK (R250, R444). -/
def execAttestationCheck (port : Fin 8) (rep : PartnerReport) (s : State) : Out := s.on fun d => d.attestationCheck port rep

/-! ### Retry (R244, R245) -/

/-- RETRY_REQ: every kept flit from the named SEQ on is sent again (R245). -/
def Device.retryReq (d : Device) (p seq : Nat) : Device :=
  let x := d.fab.port p
  if x.st = .off ∨ x.st = .training ∨ x.st = .refused then d
  else (d.modLink p fun x => { x with replays := (x.replays + 1) % 2 ^ 64 }).note (.resend p ((x.kept.dropWhile fun k => k.seq != seq).map KeptFlit.bytes))

/-- RETRY_REQ (R245). -/
def execRetryReq (port : Fin 8) (seq : Nat) (s : State) : Out := s.on fun d => d.retryReq port (seq % 4096)

/-- A lost RETRY_REQ is sent again while the gap remains (R244). -/
def Device.retryAgain (d : Device) (p : Nat) : Device :=
  if (d.fab.port p).gap then d.note (.retryReq p (d.fab.port p).rxSeq) else d

/-- RETRY_REQ_RESEND (R244). -/
def execRetryReqResend (port : Fin 8) (s : State) : Out := s.on fun d => d.retryAgain port

/-! ### Election and IDs (R257, R258) -/

/-- ELECT(c) arrives on a port (R257). -/
def Device.elect (d : Device) (p : Nat) (m : FMsg) : Device :=
  let c := field m.data 0 8
  if d.fab.st = .discovering ∧ d.fab.electing = true ∧ better (d.dict.num 0x2100 2) c d.fab.candidate then
    d.modFab fun f => { f with candidate := c, parent := some p, stable := 0 }
  else d

/-- ELECT (R257). -/
def execElect (port : Fin 8) (m : FMsg) (s : State) : Out := s.on fun d => d.elect port m

/-- The election ends once the candidate has not changed for 64 tempos: this device is king, or joins through its parent
(R257). -/
def Device.electionEnd (d : Device) : Device :=
  let f := d.fab
  if f.electing = false ∨ f.stable < 64 then d
  else if f.candidate = ownSerial then
    d.modFab fun f => { f with electing := false, electedAt := d.tn, king := true, kingSerial := ownSerial }
  else match f.parent with
    | none => d
    | some p => (d.modFab fun f => { f with electing := false, kingSerial := f.candidate }).tx p
        { FMsg.plain .hello 0 0 with len := 3, data := (d.ownHello p).bytes }

/-- ELECTION_END (R257). -/
def execElectionEnd (s : State) : Out := s.on fun d => d.electionEnd

/-- A join travels toward the king, or has reached it (R257, R258). -/
def Device.join (d : Device) (m : FMsg) : Device :=
  let h := Hello.ofBytes m.data
  if d.fab.king then d.modFab fun f => { f with joins := (f.joins.filter fun x => x.serial != h.serial) ++ [h] }
  else match d.fab.parent with
    | some p => d.tx p m
    | none => d

/-- JOIN (R257). -/
def execJoin (port : Fin 8) (m : FMsg) (s : State) : Out :=
  s.on fun d => if d.linkActive port then d.join m else d

/-- The members after one batch of joins, and the devices refused (R258). -/
def assignIds (known : List Member) (batch : List Hello) : List Member × List Hello :=
  let back := known.map fun m => if batch.any fun h => h.serial == m.serial then { m with active := true } else m
  let new := sortBy (fun a b => decide (a.serial ≤ b.serial)) (batch.filter fun h => !known.any fun m => m.serial == h.serial)
  let taken (ms : List Member) (i : Nat) : Bool := ms.any fun m => m.id == i
  let (ms, later) := new.foldl (fun (acc : List Member × List Hello) h =>
    if h.proposed < 31 ∧ taken acc.1 h.proposed = false then (acc.1 ++ [⟨h.serial, h.proposed, true⟩], acc.2)
    else (acc.1, acc.2 ++ [h])) (back, [])
  later.foldl (fun (acc : List Member × List Hello) h =>
    match (List.range 32).find? fun i => !taken acc.1 i with
    | some i => (acc.1 ++ [⟨h.serial, i, true⟩], acc.2)
    | none => (acc.1, acc.2 ++ [h])) (ms, [])

/-- The version of a fabric that forms (R255): the lowest highest version, within the cap of 0x2100:04. -/
def Device.formVersion (d : Device) (batch : List Hello) : Nat :=
  batch.foldl (fun v h => min v h.vmax) (min ownVmax (d.dict.num 0x2100 4))

/-- The king assigns IDs: at first to one batch, later to each join alone (R258). -/
def Device.idAssign (d : Device) : Device :=
  if d.fab.king = false ∨ d.fab.electing = true ∨ d.tn < d.fab.electedAt + 16 then d
  else
    let d := d.takeReleases
    let f := d.fab
    let first := f.stableConfig.isNone && f.pending.isNone
    let all := (if first then [d.ownHello 0] else []) ++ f.joins
    if all.isEmpty then d
    else
      let version := if f.version = 0 then d.formVersion all else f.version
      let fit := all.filter fun h => decide (h.vmin ≤ version) && decide (version ≤ h.vmax)
      let (ms, bad) :=
        if first then assignIds f.known fit
        else fit.foldl (fun acc h => let r := assignIds acc.1 [h]; (r.1, acc.2 ++ r.2)) (f.known, [])
      let d := bad.foldl (fun d _ => d.exhausted 0x02) d
      let d := d.modFab fun f =>
        { f with joins := [], known := ms, version := version, refusedJoins := f.refusedJoins ++ bad.map fun h => (h.serial, h.proposed) }
      d.proposeConfig ms true d.nextRound

/-- ID_ASSIGN (R258). -/
def execIdAssign (s : State) : Out := s.on fun d => d.idAssign

/-- A message goes one step toward the king: by the route to it, else by the parent of the election (R257, R259). -/
def Device.toKing (d : Device) (king : Nat) (m : FMsg) : Device :=
  match (d.fab.route king).prim.or d.fab.parent with
  | some p => d.tx p m
  | none => d.flood 8 m

/-- A configuration that this device does not hold yet. -/
def Fab.newer (f : Fab) (c : FabConfig) : Bool :=
  (f.stableConfig.toList ++ f.pending.toList).all fun g => decide (g.gen < c.gen)

/-- A CONFIG arrives (R259): it is kept and passed on, and a member acknowledges it. -/
def Device.takeConfig (d : Device) (c : FabConfig) : Device :=
  if d.fab.king || d.fab.st == .alone || !d.fab.newer c then d
  else
    let d := (d.modFab fun f => { f with pending := some c }).sendConfig c
    match c.members.find? fun m => m.serial == ownSerial && m.active with
    | none => d
    | some m => d.toKing c.king { FMsg.plain .configAck m.id c.king with arg := c.gen % 2 ^ 16, addr := c.gen }

/-- CONFIG (R259). -/
def execConfig (c : FabConfig) (s : State) : Out := s.on fun d => d.takeConfig c

/-- A member has answered; when all have, the king commits (R259). Another device passes the answer on. -/
def Device.configAck (d : Device) (m : FMsg) : Device :=
  if !d.fab.king then d.toKing m.dst m
  else match d.fab.pending with
    | none => d
    | some c =>
      if m.arg != c.gen % 2 ^ 16 then d
      else
        let acks := if d.fab.acks.contains m.src then d.fab.acks else m.src :: d.fab.acks
        (d.modFab fun f => { f with acks := acks }).commitIfAcked

/-- CONFIG_ACK (R259). -/
def execConfigAck (m : FMsg) (s : State) : Out := s.on fun d => d.configAck m

/-- COMMIT of the configuration whose generation ADDR[31:0] carries (R252, R259). -/
def Device.commitConfig (d : Device) (m : FMsg) : Device :=
  match d.fab.pending with
  | some c => if c.gen = m.addr % 2 ^ 32 then d.modFab fun f => f.commit c else d
  | none => d

/-- COMMIT (R259). -/
def execCommit (m : FMsg) (s : State) : Out := s.on fun d => d.commitConfig m

/-- Jobs that resignation put in FAILED are restarted when the device heals (R279). -/
def Device.healJobs (d : Device) : Device :=
  (d.jobNums.filter fun j => (d.job j).st == .failed && (d.job j).faultCode == 0x83).foldl (fun d j => (d.jobRestart j).1) d

/-- The ports of a device as a configuration leaves them: the partners' IDs, and "no fabric ID" on the links of a device that
was refused one (R258; log entry 107). -/
def Fab.portsAfter (f : Fab) (c : FabConfig) (refused : Bool) : Tab LPort :=
  (List.range 8).foldl (fun t p =>
    let x := tget lportDef t p
    let known := c.members.find? fun m => m.serial == x.peerSerial
    if x.st = .active then
      tput lportDef t p { x with peerId := (known.map Member.id).or x.peerId, refuse := if refused then 5 else 0 }
    else t) f.ports

/-- The boundary of a committed configuration has come (R259). -/
def Device.configDue (d : Device) (c : FabConfig) : Bool := decide (c.applyTn ≤ d.tn) && (!c.membership || d.tn % 1000 == 0)

/-- Ports of the device `me` whose link is up in the king's tree (R260). -/
def Fab.linksUp (f : Fab) (king me : Nat) : List Nat :=
  let lv := bfsLevels f.idLinks king 32
  (neighbours f.idLinks me).filterMap fun nb => if linkUp lv me nb.2 then some nb.1 else none

/-- A configuration applies (R258, R259, R262, R273, R279). The device follows the time of the partner on its route to the king
(R272), and a device on an ACTIVE link that cannot run the fabric version is refused there (R255). -/
def Device.adoptConfig (d : Device) (c : FabConfig) : Device :=
  let mine := c.members.find? fun m => m.serial == ownSerial
  let me := (mine.map Member.id).getD 32
  let king := match mine with | some m => m.active && m.id == c.king | none => false
  let ks := ((c.members.find? fun m => m.id == c.king).map Member.serial).getD 0
  let wasResigned := d.fab.st == .resigned
  let st : FabSt := match mine with
    | some m => if m.active then .member else d.fab.st
    | none => if d.fab.st = .discovering then .refused else d.fab.st
  let d := d.modFab fun f => { f with known := c.members }
  let d := d.modFab fun f =>
    { f with config := some c, id := mine.map Member.id, king := king, kingSerial := ks, version := c.version, routes := c.table me,
             upPorts := f.linksUp c.king me, st := st, electing := false, ports := f.portsAfter c (st == .refused),
             parent := if king then none else (tget routeDef (c.table me) c.king).prim.or f.parent }
  let d := { d with tb := { d.tb with king := king, inStep := king || d.tb.inStep } }
  let d := if wasResigned && st == .member then d.healJobs else d
  let d := ((List.range 8).filter d.linkActive).foldl (fun d p =>
    let x := d.fab.port p
    if c.version < x.peerMin ∨ x.peerMax < c.version then d.refuseLink p 1 else d) d
  d.flush true

/-- The committed configurations whose boundary has come apply, in the order of their generations; an older one than the one that
applies is void (R259). -/
def Device.applyConfig (d : Device) : Device :=
  let due := d.fab.dueConfigs.filter d.configDue
  due.foldl (fun d c => if d.fab.config.all fun g => decide (g.gen < c.gen) then d.adoptConfig c else d)
    (d.modFab fun f => { f with dueConfigs := f.dueConfigs.filter fun c => !d.configDue c })

/-- LINK_STATE arrives on a port (R263, R275). -/
def execLinkState (port : Fin 8) (m : FMsg) (s : State) : Out :=
  s.on fun d => if d.linkActive port then d.linkChange port m.linkOf (m.arg % 2 == 1) else d

/-- A release of an ID (0x2100:05): the king accepts it for an absent device's ID alone (chapter 09). -/
def Device.releaseId (d : Device) (id : Nat) : Device × Nat :=
  if 32 ≤ id then (d, abRange)
  else if d.fab.king && d.fab.known.any fun m => m.id == id && !m.active then
    (d.modFab fun f => { f with releases := if f.releases.contains id then f.releases else f.releases ++ [id] }, 0)
  else (d, abState)

/-- RELEASE_ID (R258). -/
def execReleaseId (id : Nat) (s : State) : Out := s.on fun d => answer (d.releaseId id)

/-! ### Remote reads and writes (R28, R264 to R268) -/

/-- Data messages of the source are taken (R268): both devices belong to one part. Others are refused: requests with RD_ERR or
WR_NACK, answers and signals without one. -/
def Device.takesFrom (d : Device) (src : Nat) : Bool := d.fab.id.isSome && d.fab.part.contains src

/-- A remote access of `n` bytes may be served (R28): memory, region checkers and worlds of this device. -/
def Device.remoteAllowed (d : Device) (world write : Bool) (a n : Nat) : Bool :=
  [a, a + n - 1].all fun p =>
    match placeOf p with
    | .stack _ | .slab _ => d.answers p && !(d.gov p).sealed && d.rgnAllows .toterlink world write false p
    | .sram => d.sramWorld p == world
    | _ => false

/-- An access of the port of requests from other devices that a region checker or the map refuses is logged (R240). -/
def Device.logRemote (d : Device) (world write : Bool) (a n : Nat) : Device :=
  match placeOf a, placeOf (a + n - 1) with
  | .sram, .sram => d
  | _, _ => d.logRefusal Port.toterlink a write world

/-- A remote read of memory meets the outcome of its error correction, as a read of a master of this device does (R176, R177):
whether it has data. -/
def Device.remoteRead (d : Device) (world : Bool) (a : Nat) (ecc : EccOutcome) : Bool × Device :=
  match placeOf a, ecc with
  | .sram, _ | _, .clean => (true, d)
  | _, .corrected => (true, d.memError a .corrected)
  | _, e => (false, (d.logRefusal Port.toterlink a false world).memError a e)

/-- A remote read request at its destination (R28, R176, R177, R253, R264, R268). -/
def Device.rdReq (d : Device) (m : FMsg) (ecc : EccOutcome) : Device :=
  if !d.isOwn m.dst then d.forward m
  else
    let a := m.addr % 2 ^ 40
    let n := 16 * m.len
    if !(d.takesFrom m.src && m.fits d.fab.maxData) then
      let (r, d) := d.free16
      d.sendErr m r
    else if !d.reaches .hub a then d
    else if d.remoteAllowed m.world false a n then
      let (ok, d) := d.remoteRead m.world a ecc
      if ok then (d.served Port.toterlink false a n).send { FMsg.plain .rdData d.ownId m.src with
        level := m.level, tag := m.tag, gen := m.gen, addr := m.addr, len := m.len, data := d.bytes a n } noRing
      else
        let (r, d) := d.free16
        d.sendErr m r
    else
      let (r, d) := (d.logRemote m.world false a n).free16
      d.sendErr m r

/-- RD_REQ (R264). -/
def execRdReq (r : RemoteRead) (s : State) : Out := s.on fun d => d.rdReq r.msg r.ecc

/-- A late reply is dropped and counted (R265). -/
def Device.lateRead (d : Device) : Device := d.modFab fun f => { f with late := min (2 ^ 32 - 1) (f.late + 1) }

/-- Bytes of a remote read take their places in the response: a request of at most 64 bytes holds each offset within a page
at most once, and translation keeps the offset (R338). -/
def Inflight.fill (i : Inflight) (a : Nat) (bs : List Byte) : Inflight :=
  match i.resp with
  | .data b => { i with resp := .data ((List.range b.length).map fun k =>
      let o := (i.base + k) % 4096
      if a % 4096 ≤ o ∧ o < a % 4096 + bs.length then bs.getD (o - a % 4096) 0 else b.getD k 0) }
  | _ => i

/-- The data of a remote read go to whoever asked (R264); those of an earlier generation of the instance are discarded,
for a bus request when it completes (R354). -/
def Device.deliverRead (d : Device) (r : RTag) (bs : List Byte) : Device :=
  match r.origin with
  | .engine e s =>
    if r.instGen ≠ (d.proc.inst r.inst).gen then d.modInst r.inst fun x => { x with late := min (2 ^ 32 - 1) (x.late + 1) }
    else d.modEng e fun g => g.modIssued s fun i => { i with fetched := mwrite i.fetched r.addr bs }
  | .bus p id => d.modPort p fun x => { x with inflight := x.inflight.map fun i => if i.id = id then i.fill r.addr bs else i }

/-- RD_DATA (R264, R265). -/
def Device.rdData (d : Device) (m : FMsg) : Device :=
  if !d.isOwn m.dst then d.forward m
  else if !d.takesFrom m.src then d
  else match d.fab.tag m.tag with
    | none => d.lateRead
    | some r =>
      if r.gen ≠ m.gen ∨ r.dst ≠ m.src then d.lateRead
      else
        let d := d.modFab fun f => f.freeRTag m.tag
        (if r.orphan then d.lateRead else d.deliverRead r m.data).grantRTag

/-- RD_DATA (R264). -/
def execRdData (m : FMsg) (s : State) : Out := s.on fun d => d.rdData m

/-- The tag field of a RING_QUERY, which no remote read uses (log entry 75). -/
def queryTag : Nat := 8192

/-- The proxy of a refused query goes, and the commands that wait for it fault (R269, R270). -/
def Device.queryFails (d : Device) (dev ring : Nat) : Device :=
  let d := d.modFab fun f => { f with proxies := f.proxies.filter fun p => !(p.dev == dev && p.ring == ring) }
  (List.range 32).foldl (fun d e =>
    match d.runner e, (d.engine e).issued.find? fun i => !i.started && ((d.remoteRing i).map fun r => (r.1, r.2.1)) == some (dev, ring) with
    | some w, some i => d.cmdFault w i.cmd.seq fcRemoteFail 0 0 false
    | _, _ => d) d

/-- RD_ERR (R264, R265, R269). -/
def Device.rdErr (d : Device) (m : FMsg) : Device :=
  if !d.isOwn m.dst then d.forward m
  else if !d.takesFrom m.src then d
  else if m.tag = queryTag then d.queryFails m.src (m.addr % 512)
  else match d.fab.tag m.tag with
    | none => d.lateRead
    | some r =>
      if r.gen ≠ m.gen ∨ r.dst ≠ m.src then d.lateRead
      else if r.orphan then ((d.modFab fun f => f.freeRTag m.tag).lateRead).grantRTag
      else (d.readFails m.tag r 3 m.arg).grantRTag

/-- RD_ERR (R264). -/
def execRdErr (m : FMsg) (s : State) : Out := s.on fun d => d.rdErr m

/-- A remote read that 64 tempos have not answered times out (R264, R265). -/
def Device.readTimeout (d : Device) (t : Nat) : Device :=
  match d.fab.tag t with
  | none => d
  | some r =>
    if d.tn < r.sentTn + 64 then d
    else if r.orphan then (d.modFab fun f => f.freeRTag t).grantRTag
    else (d.readFails t r 4 0).grantRTag

/-- REMOTE_READ_TIMEOUT (R264). -/
def execRemoteReadTimeout (tag : Nat) (s : State) : Out := s.on fun d => d.readTimeout tag

/-- A put refused on the far side comes back with its address and number (R266). -/
def Device.nack (d : Device) (m : FMsg) : Device :=
  let (r, d) := d.free16
  d.send { FMsg.plain .wrNack d.ownId m.src with level := m.level, tag := m.tag, addr := m.addr, arg := r } noRing

/-- A put has landed: the source's count is reported (R266). -/
def Device.landed (d : Device) (m : FMsg) : Device :=
  let n := (tget natDef d.fab.landed m.src + 1) % 2 ^ 16
  (d.modFab fun f => { f with landed := tput natDef f.landed m.src n }).send
    { FMsg.plain .putAck d.ownId m.src with level := m.level, arg := n } noRing

/-- WR (R28, R253, R266, R268). -/
def Device.wr (d : Device) (m : FMsg) : Device :=
  if !d.isOwn m.dst then d.forward m
  else
    let a := m.addr % 2 ^ 40
    let n := 16 * m.len
    if !(d.takesFrom m.src && m.fits d.fab.maxData) then d.nack m
    else if !d.reaches .hub a then d
    else if d.remoteAllowed m.world true a n then ((d.put a (m.written (d.bytes a n))).served Port.toterlink true a n).landed m
    else (d.logRemote m.world true a n).nack m

/-- WR (R266). -/
def execWr (m : FMsg) (s : State) : Out := s.on fun d => d.wr m

/-- WR_NACK: the put is logged, and its ring's next FENCE faults (R266, R267). -/
def Device.wrNack (d : Device) (m : FMsg) : Device :=
  if !d.isOwn m.dst then d.forward m
  else if !d.takesFrom m.src then d
  else
    let pd := d.fab.putDst m.src
    match pd.unacked.find? fun p => p.num == m.tag with
    | none => d
    | some p =>
      ((d.modFab fun f => (f.setPuts m.src { pd with unacked := pd.unacked.filter fun q => q.num != m.tag }).badRing p.ring).logBridge
        m.addr (if p.tail then 7 else 1) m.src m.tag m.arg).flush false

/-- WR_NACK (R266). -/
def execWrNack (m : FMsg) (s : State) : Out := s.on fun d => d.wrNack m

/-- PUT_ACK: the count of landed puts covers the oldest open ones (R266). -/
def Device.putAck (d : Device) (m : FMsg) : Device :=
  if !d.isOwn m.dst then d.forward m
  else if !d.takesFrom m.src then d
  else
    let pd := d.fab.putDst m.src
    let k := (m.arg + 2 ^ 16 - pd.acked) % 2 ^ 16
    (d.modFab fun f => f.setPuts m.src { pd with unacked := pd.unacked.drop k, acked := m.arg % 2 ^ 16 }).flush false

/-- PUT_ACK (R266). -/
def execPutAck (m : FMsg) (s : State) : Out := s.on fun d => d.putAck m

/-- A put that 64 tempos have neither acknowledged nor refused is lost (R266). -/
def Device.putLost (d : Device) (dev num : Nat) : Device :=
  let pd := d.fab.putDst dev
  match pd.unacked.find? fun p => p.num == num with
  | none => d
  | some p =>
    if d.tn < p.sentTn + 64 then d
    else ((d.modFab fun f => (f.setPuts dev { pd with unacked := pd.unacked.filter fun q => q.num != num }).badRing p.ring).logBridge
      p.addr 2 dev num 0).flush false

/-- PUT_LOST (R266). -/
def execPutLost (dev num : Nat) (s : State) : Out := s.on fun d => d.putLost dev num

/-! ### Remote rings (R269 to R271) -/

/-- The ring is bound to the producer (R269). -/
def Device.bound (d : Device) (ring producer : Nat) : Bool :=
  (List.range 64).any fun i =>
    let w := d.reg (tlBase + 0x2000 + 4 * i)
    bitOf w 15 && w % 512 == ring && bits w 14 10 == producer

/-- TAIL_ADV: the entries are published, or the advance comes back (R168, R269, R271). -/
def Device.tailAdv (d : Device) (m : FMsg) : Device :=
  if !d.isOwn m.dst then d.forward m
  else
    let n := m.addr % 512
    match (if d.takesFrom m.src && d.bound n m.src then (d.ring n).publish m.arg else none) with
    | some r => (d.moveRing n r).landed m
    | none => d.nack m

/-- TAIL_ADV (R271). -/
def execTailAdv (m : FMsg) (s : State) : Out := s.on fun d => d.tailAdv m

/-- A fabric signal (R114, R208). -/
def Device.signalIn (d : Device) (m : FMsg) : Device :=
  if !d.isOwn m.dst then d.forward m else if d.takesFrom m.src then d.fabricSignal (m.arg % 256) else d

/-- FABRIC_SIGNAL (R114). -/
def execFabricSignal (m : FMsg) (s : State) : Out := s.on fun d => d.signalIn m

/-- RING_QUERY (R269, R270); the layout of the state is log entry 75. -/
def Device.ringQuery (d : Device) (m : FMsg) : Device :=
  if !d.isOwn m.dst then d.forward m
  else
    let n := m.addr % 512
    if d.takesFrom m.src && d.bound n m.src then
      let r := d.ring n
      d.send { FMsg.plain .ringState d.ownId m.src with
          addr := m.addr, len := 2,
          data := leBytes 8 r.head.word ++ leBytes 8 r.tail.word ++ leBytes 4 r.count ++ leBytes 4 r.entrySize ++ zeros 8 } noRing
    else
      let (r, d) := d.free16
      d.sendErr { m with tag := queryTag } r

/-- RING_QUERY (R270). -/
def execRingQuery (m : FMsg) (s : State) : Out := s.on fun d => d.ringQuery m

/-- Changes the proxy of a ring of the source of a message. -/
def Device.modProxy (d : Device) (m : FMsg) (f : Proxy → Proxy) : Device :=
  if !d.isOwn m.dst then d.forward m
  else if !d.takesFrom m.src then d
  else d.modFab fun x => { x with proxies := x.proxies.map fun p => if p.dev = m.src ∧ p.ring = m.addr % 512 then f p else p }

/-- RING_STATE fills a proxy (R270). -/
def Device.ringState (d : Device) (m : FMsg) : Device :=
  d.modProxy m fun p =>
    if p.known then p
    else { p with known := true, head := RPtr.ofWord (field m.data 0 8), tail := RPtr.ofWord (field m.data 8 8),
                  count := field m.data 16 4, esize := field m.data 20 4 }

/-- RING_STATE (R270). -/
def execRingState (m : FMsg) (s : State) : Out := s.on fun d => d.ringState m

/-- HEAD_UPD moves the head that a proxy holds (R270). -/
def Device.headUpd (d : Device) (m : FMsg) : Device := d.modProxy m fun p => { p with head := RPtr.ofWord (field m.data 0 8) }

/-- HEAD_UPD (R270). -/
def execHeadUpd (m : FMsg) (s : State) : Out := s.on fun d => d.headUpd m

/-! ### Time, heartbeats and partition (R272 to R279) -/

/-- TIME on a link (R36, R49, R50, R272): the start value of device time, or a sample for the servo, whose rate within
200 ppm is free. The device follows its parent. -/
def Device.timeMsg (d : Device) (p stamp : Nat) : Device :=
  if !d.tb.started then d.timeStart (some stamp)
  else if d.tb.king || d.fab.st == .resigned || (match d.fab.parent with | some q => q != p | none => false) then d
  else
    let (now, d) := d.stamp
    let diff : Int := (stamp : Int) + (d.fab.port p).delay - now
    let ppm : Int := ((Config.freeWord d.fresh).toNat % 201 : Nat)
    { d with fresh := d.fresh + 1,
             tb := { d.tb with fabricPpm := if diff < 0 then -ppm else ppm, inStep := decide (diff.natAbs ≤ 20) } }

/-- TIME (R272). -/
def execTime (port : Fin 8) (stamp : Nat) (s : State) : Out := s.on fun d => if (d.fab.port port).st = .off then d else d.timeMsg port stamp

/-- HEARTBEAT (R275). -/
def execHeartbeat (port : Fin 8) (s : State) : Out :=
  s.on fun d => if d.linkActive port then d.modLink port fun x => { x with hbSeen := true } else d

/-- The misses of the tempo that ended; the eighth in a row takes a link down (R275). -/
def Device.heartbeats (d : Device) : Device :=
  ((List.range 8).filter d.linkActive).foldl (fun d p =>
    let d := d.modLink p fun x => { x with hbMiss := if x.hbSeen then 0 else x.hbMiss + 1, hbSeen := false }
    if 8 ≤ (d.fab.port p).hbMiss then d.linkDown p else d) d

/-- The partner on a link is a child in the king's tree: its route to the king begins on this link (R260, R272). -/
def Fab.child (f : Fab) (p : Nat) : Bool :=
  let x := f.port p
  match f.config, x.peerId with
  | some c, some i => i != c.king && (tget routeDef (c.table i) c.king).prim == some x.peerPort
  | _, _ => false

/-- What a tempo boundary sends: heartbeats, HELLOs, ELECTs, and TIME to children and to partners without an ID (R256, R257,
R272, R275). -/
def Device.fabricSends (d : Device) : Device :=
  let d := if d.fab.electing then d.modFab fun f => { f with stable := f.stable + 1 } else d
  (List.range 8).foldl (fun d p =>
    let x := d.fab.port p
    match x.st with
    | .active =>
      let d := d.tx p (FMsg.plain .heartbeat d.ownId 0)
      let d := if d.fab.electing then d.tx p { FMsg.plain .elect d.ownId 0 with len := 1, data := leBytes 8 d.fab.candidate ++ zeros 8 } else d
      if d.tb.started ∧ d.fab.st = .member ∧ (x.peerId.isNone ∨ d.fab.child p) then
        d.tx p { FMsg.plain .time d.ownId 0 with len := 1, data := zeros 16 }
      else d
    | .hello | .handshake | .attesting => d.tx p { FMsg.plain .hello d.ownId 0 with len := 3, data := (d.ownHello p).bytes }
    | _ => d) d

/-- Every configuration that another member of the part holds passes; which those are is free, by the member's own reading of R276,
where the part has other members (log entry 169). -/
def Device.othersPass (d : Device) (me : Nat) (part : List Nat) : Bool :=
  part.all (fun i => i == me) || (Config.partHolds d.fresh).all fun g => partRule g.1 g.2 part

/-- The decision of R276 on the part that this device sees, over the configurations that it holds and those that other members of
the part hold; a continuing part that has lost its king has a new one at once, and the king lists the lost devices as
absent (R277). A resigned device whose part passes is admitted again (R279). -/
def Device.partDecision (d : Device) : Device :=
  match d.fab.stableConfig, d.fab.id with
  | some c, some me =>
    let part := d.fab.part
    let pass := ((c :: d.fab.pending.toList).all fun g => partPass g part) && d.othersPass me part
    let d := { d with fresh := d.fresh + 1 }
    if pass then
      let king := if part.contains c.king then some c.king else
        let designated := d.dict.num 0x2100 2
        ((d.fab.known.filter fun m => part.contains m.id).foldl (fun (b : Option Member) m => match b with
          | some x => if better designated m.serial x.serial then some m else some x
          | none => some m) none).map Member.id
      let lost := c.members.any fun m => m.active && !part.contains m.id
      let d := d.modFab fun f => { f with
        resignDue := false, king := king == some me,
        kingSerial := ((f.known.find? fun m => some m.id == king).map Member.serial).getD 0,
        wantMembers := f.wantMembers || (king == some me && (lost || king != some c.king || f.st == .resigned)) }
      d.kingConfig.kingConfig
    else d.modFab fun f => { f with resignDue := f.st != .resigned }
  | _, _ => d

/-- PART_DECISION (R276). -/
def execPartDecision (s : State) : Out := s.on fun d => d.partDecision

/-- The device resigns at the first tempo boundary after its decision (R278). -/
def Device.resign (d : Device) : Device :=
  if !d.fab.resignDue then d
  else
    let d := d.modFab fun f => { f with resignDue := false, st := .resigned, king := false, wantRoutes := false, wantMembers := false }
    let d := { d with tb := { d.tb with king := false } }
    let d := (d.jobNums.filter fun j => (d.job j).rc.crossDevice).foldl (fun d j =>
      (d.modJob j fun x => if x.st = .teardown then { x with faultCode := 0x83 } else x).jobFault j 0x83 0) d
    d.event evResigned none 0

/-! ### Tags (R231, R264) -/

/-- A free remote-read tag goes to a stalled read. -/
def Device.remoteGrant (d : Device) : Device := d.grantRTag

end Sys2Proof.Machine
end

