-- ==== Sys2Proof/Machine/GfxCmds.lean ====
section
/-! DEFINITION. Graphics and display in the device (chapter 11): render passes, ray queries, pipes, frames and CRC
regions. -/

namespace Sys2Proof.Machine

open Sys2Proof

def Device.modGfx (d : Device) (f : Gfx → Gfx) : Device := { d with gfx := f d.gfx }
def Device.modPipe (d : Device) (p : Nat) (f : Pipe → Pipe) : Device := d.modGfx fun g => g.setPipe p (f (g.pipe p))

/-! ### Accesses of units of the world-assignment table (R334, R337, R338) -/

def gpxUnit : Nat := 0x26
def pipeUnit (p : Nat) : Nat := 0x24 + p

/-- The world of a unit. -/
def Device.unitWorld (d : Device) (u : Nat) : Bool := (d.proc.watEntry u).world

/-- The package-local address of an access by a unit, by the context of IOMMU.SRC_CTX. -/
def Device.unitPlace (d : Device) (u : Nat) (write : Bool) (a : Nat) : Option Nat × Device :=
  d.translate (tget ctxDef d.proc.srcCtx u) (d.unitWorld u) write a

/-- The pages [a, a + n), as address and length. -/
def unitPages (a n : Nat) : List (Nat × Nat) :=
  (List.range (n / 4096 + 2)).filterMap fun k =>
    let lo := max a ((a / 4096 + k) * 4096)
    let hi := min (a + n) ((a / 4096 + k + 1) * 4096)
    if lo < hi then some (lo, hi - lo) else none

/-- A write by a unit of contents that the specification does not give (shader output, compressed depth): the bytes become
free; a refused page keeps its contents and is logged. -/
def Device.unitDraw (d : Device) (port : Port) (u : Nat) (r : Nat × Nat) : Device :=
  (unitPages r.1 r.2).foldl (fun d pg =>
    match d.unitPlace u true pg.1 with
    | (none, d) => d
    | (some a, d) =>
      if !d.reaches port.die a then d
      else if d.hubMay port.group (d.unitWorld u) true a pg.2 then (d.scramble a (a + pg.2)).served port true a pg.2
      else d.logRefusal port a true (d.unitWorld u)) d

/-- A write by a unit, page by page; a refused page keeps its contents and is logged (R240). -/
def Device.unitPut (d : Device) (port : Port) (u : Nat) (r : Nat × List Byte) : Device :=
  (unitPages r.1 r.2.length).foldl (fun d pg =>
    match d.unitPlace u true pg.1 with
    | (none, d) => d
    | (some a, d) => d.hubPut port (d.unitWorld u) a ((r.2.drop (pg.1 - r.1)).take pg.2)) d

/-- The bytes that a unit reads within a page; zeros where it may not. -/
def Device.unitBytes (d : Device) (port : Port) (u a n : Nat) : List Byte :=
  match (d.unitPlace u false a).1 with
  | some x => if d.reaches port.die x && d.hubMay port.group (d.unitWorld u) false x n then d.bytes x n else zeros n
  | none => zeros n

/-! ### Render passes (R315 to R322) -/

/-- An address of a pass lies in HS0, HS1 or a shared slab and outside every sealed region (R315). -/
def Device.passAddrOk (d : Device) (a : Nat) : Bool :=
  match (d.unitPlace gpxUnit false a).1 with
  | none => false
  | some p => match placeOf p with
    | .stack _ | .slab _ => !(d.gov p).sealed
    | _ => false

/-- The completion record of a pass goes into the completion ring, when it is named and has room. -/
def Device.passRecord (d : Device) (seq code partials : Nat) : Device :=
  let (t, d) := d.stamp
  match d.ringReg (d.reg (gpxBase + 0xC)) with
  | none => d
  | some n => (d.hubPublish Port.gpx (d.unitWorld gpxUnit) n (Sys2Proof.Machine.passRecord seq code partials t)).getD d

/-- The colours of a pixel as its attachments load them, or zero (R316). -/
def Device.loadPixel (d : Device) (p : Pass) (x y : Nat) : List Byte :=
  p.cols.flatMap fun c =>
    let n := colBytes c.format
    if c.load then d.unitBytes Port.gpx gpxUnit (c.addr + y * c.pitch + x * n) n else zeros n

/-- What a partial render before primitive `cut` writes (R319): colour without resolve, whose places in the multisample buffer within
a tile are not stated, and compressed depth into the spill slots; later parts of the pass go on from tile memory as it was. -/
def Device.partialRender (d : Device) (p : Pass) (key : Nat) (load : Nat → Nat → List Byte) (cut : Nat) : Device :=
  let d := if p.samples = 4 then (if p.ncol = 0 then d else d.unitDraw Port.gpx gpxUnit (p.mscol, p.tiles * 4096 * p.colourBytes))
    else (p.rows key cut load fun _ => true).foldl (fun d r => d.unitPut Port.gpx gpxUnit r) d
  if p.depth = 0 then d else d.unitDraw Port.gpx gpxUnit (two d.reg (gpxBase + 0x20) % 2 ^ 40, p.spillNeed)

/-- The pass at the head of the pass ring is checked and begins, or is refused with its code (R315). `cuts` are the primitives that
met a bin overflow, as the surroundings give them, each with a partial render (R319); the rows of the stored attachments are those
of all primitives in their order (R316, R321). -/
def Device.renderPass (d : Device) (cuts : List Nat) : Device :=
  -- a GPX that is being castled takes no new work (R346)
  match d.gfx.pass, (d.ringReg (d.reg (gpxBase + 8))).filter fun _ => !(d.proc.watEntry gpxUnit).moving with
  | none, some n =>
    let r := d.ring n
    match r.advance 1 with
    | none => d
    | some r' =>
      let p := Pass.ofBytes (d.bytes (r.entryAddr r.head 0) 128)
      let code := p.code (d.reg (gpxBase + 0x28)) d.passAddrOk
      let d := d.moveRing n r'
      if code = 0 then
        let key := d.fresh
        let load := d.loadPixel p
        let d := cuts.foldl (fun d k => d.partialRender p key load k) ({ d with fresh := key + 1 }.servedFree Port.gpx false p.cmdlist)
        (d.modGfx fun g => { g with
          pass := some (p, cuts.length), partials := cuts.length,
          rows := p.rows key (Config.primCount key) load fun c => c.store }).count (gpxBase + 0x30) cuts.length
      else d.passRecord p.seq code 0
  | _, _ => d

/-- RENDER_PASS (R315). -/
def execRenderPass (cuts : List Nat) (s : State) : Out := s.on fun d => d.renderPass cuts

/-- The pass ends: stored attachments are written within the target, and the completion record (R316). -/
def Device.passComplete (d : Device) : Device :=
  match d.gfx.pass with
  | none => d
  | some (p, n) =>
    let d := d.gfx.rows.foldl (fun d r => d.unitPut Port.gpx gpxUnit r) d
    (d.modGfx fun g => { g with pass := none, rows := [], partials := 0 }).passRecord p.seq 0 n

/-- PASS_COMPLETE (R316). -/
def execPassComplete (s : State) : Out := s.on fun d => d.passComplete

/-! ### The ray traversal unit (R323 to R326) -/

/-- A query may not be answered with a test: its mesh entry is empty, or an MCE query's mesh lies outside the system
SRAM (R325). An entry is its address, its size and its kind (log entry 48). -/
def Device.meshBad (d : Device) (h : Nat) (fromMce : Bool) : Bool :=
  let a := gpxBase + 0x100 + h * 16
  let base := two (d.sw .gpx) a % 2 ^ 40
  let size := d.sw .gpx (a + 8)
  decide (16 ≤ h) || size == 0 || (fromMce && !(decide (sramBase ≤ base) && decide (base + size ≤ sramBase + sramSize)))

/-- The sweep of the MCE that a tag names: candidate, sample interval and sphere of the batch in effect (R309; log entry 47). -/
def Device.sweepOf (d : Device) (tag : Nat) : Option (List Byte × List Byte × Nat × Nat × Nat) :=
  match d.mce.rayPhase, d.mce.model, d.liveBatch with
  | some _, some md, some b =>
    let c := tag / 256 / 15
    let i := tag / 256 % 15
    if c < min 4 (batchC b.bytes) ∧ i + 1 < batchS b.bytes ∧ tag % 256 < modelP md then some (md, b.bytes, c, i, tag % 256) else none
  | _, _, _ => none

/-- Three binary32 words of a sphere centre, NaN where it has none. -/
def centreBytes (p : Option V3) : List Byte :=
  match p with
  | some v => [v.x, v.y, v.z].flatMap fun x => leBytes 4 (coordWord x).toNat
  | none => (List.range 3).flatMap fun _ => leBytes 4 binary32.nanBits

/-- The capsule of a sweep (R309): from the sphere's centre at one sample to its centre at the next, with radius r + u, and THRESH the
clearance of CLEAR_MIN. Mesh, pose slot, link mask and tag are as the query names them. With it the link transforms of the sample,
which the MCE writes into the pose slot before (R326). -/
def Device.sweepQuery (d : Device) (md b : List Byte) (c i s : Nat) (bytes : List Byte) : List Byte × List Rat :=
  let p := candPrim md b c
  let base := batchBase b
  let n := batchS b
  let poses (k : Nat) := p.links md base (p.sampleTime n k)
  let u : Rat := match inflationParts md p base n with
    | some (a, v, w) => a + rootOf v + rootOf w
    | none => 0
  let r := coordWord (rat32 md (sphereAt md s + 16) + u)
  let thresh := coordWord ((d.clearMin : Rat) * (d.mcePitch : Rat) / 8000000)
  (centreBytes (sphereCentre md (poses i) s) ++ centreBytes (sphereCentre md (poses (i + 1)) s) ++ leBytes 4 r.toNat
     ++ leBytes 4 thresh.toNat ++ bytes.drop 32,
   (poses i).flatMap fun x => match x with | some q => q.nums | none => List.replicate 12 0)

/-- A capsule query is taken (R324). A query of the MCE in ray mode is the sweep that its tag names (R309), and the MCE has written
the link transforms of its sample into the query's pose slot (R326). -/
def Device.rtuQuery (d : Device) (bytes : List Byte) (fromMce : Bool) : Device :=
  let slot := queryPose bytes
  let (bytes, d) : List Byte × Device := match (if fromMce then d.sweepOf (field bytes 48 2) else none) with
    | some (md, b, c, i, s) =>
      let q := d.sweepQuery md b c i s bytes
      (q.1, d.modGfx fun g => { g with poses := tput posesDef g.poses slot q.2 })
    | none => (bytes, d)
  let q := RtuQuery.ofBytes bytes fromMce (d.meshBad (queryMesh bytes) fromMce) (tget posesDef d.gfx.poses slot)
  let d := d.modGfx fun g => { g with queries := g.queries ++ [q] }
  if fromMce && d.mce.rayPhase.isSome then d.modMce fun m => { m with sweeps := tput sweepDef m.sweeps q.tag .taken } else d

/-- RTU_QUERY (R324). -/
def execRtuQuery (bytes : List Byte) (fromMce : Bool) (s : State) : Out := s.on fun d => d.rtuQuery bytes fromMce

/-- The answer to a query (R325): FAIL with minus infinity for a bad mesh; else PASS or FAIL with a distance below THRESH,
both free. An answer within the first 15 tempos of the ray cycle decides the MCE's sweep (R310). -/
def Device.rtuAnswer (d : Device) (tag : Nat) : Device :=
  match d.gfx.queries.find? fun q => q.tag == tag with
  | none => d
  | some q =>
    let key := leBytes 8 d.fresh ++ q.bytes
    let pass := !q.bad && Config.rtuPass key q.poses
    let w := (Config.rtuDist key q.poses).toNat
    let dist := if q.bad || !fLt (of32 w) (of32 q.thresh) then negInf32 else w
    let d := { d with fresh := d.fresh + 1 }.modGfx fun g => { g with queries := g.queries.erase q }
    let d := d.note (.rtu q.tag pass dist)
    let inTime := match d.mce.rayPhase with | some p => decide (p < 15) | none => false
    if q.fromMce && inTime then
      d.modMce fun m => { m with sweeps := tput sweepDef m.sweeps q.tag (if pass then .pass else .fail) }
    else d

/-- RTU_ANSWER (R325). -/
def execRtuAnswer (tag : Nat) (s : State) : Out := s.on fun d => d.rtuAnswer tag

/-! ### Pipes (R327 to R333) -/

def pipeBlock (p : Nat) : BlockId := if p = 0 then .pipe0 else .pipe1

/-- A setting of kind display frame. -/
def Device.pipeSw (d : Device) (p o : Nat) : Nat := d.sw (pipeBlock p) (pipeBase p + o)

/-- PIPE.PERIOD and PIPE.ANCHOR. -/
def Device.pipePeriod (d : Device) (p : Nat) : Nat := d.reg (pipeBase p + 8)
def Device.pipeAnchor (d : Device) (p : Nat) : Nat := two d.reg (pipeBase p + 0x10)

/-- The timing registers keep R327 and R328; each PIPE.TIMING word holds its count in [15:0] (log entry 48). -/
def Device.pipeTimingOk (d : Device) (p : Nat) : Bool :=
  let t (i : Nat) : Nat := d.reg (pipeBase p + 0x20 + 4 * i) % 2 ^ 16
  timingOk (t 0) (t 1) (t 2) (t 3) (d.reg (pipeBase p + 0x18)) (d.pipePeriod p)

/-- Writing PIPE.CTRL.ENABLE = 1 (R328). -/
def Device.pipeEnable (d : Device) (p : Nat) : Device :=
  if (d.gfx.pipe p).enable then d
  else if d.pipeTimingOk p then d.modPipe p fun x => { x with enable := true, frameTn := none }
  else d.modPipe p fun x => { x with timingErr := true }

/-- PIPE_ENABLE (R328). -/
def execPipeEnable (p : Fin 2) (s : State) : Out := s.on fun d => d.pipeEnable p

/-- REGION_EN of a pipe (SW field of PIPE.CTRL). -/
def Device.regionOn (d : Device) (p k : Nat) : Bool := bitOf (d.pipeSw p 0) (2 + k)

/-- A frame boundary of the pipe falls on the present tempo boundary and has not been taken (R328); a pipe that is being castled begins
no frame (R346). -/
def Device.frameDue (d : Device) (p : Nat) : Bool :=
  let x := d.gfx.pipe p
  let per := d.pipePeriod p
  d.tb.started && x.enable && !(d.proc.watEntry (pipeUnit p)).moving && decide (0 < per) && decide (d.pipeAnchor p ≤ d.tn) && (d.tn - d.pipeAnchor p) % per == 0
    && x.frameTn != some d.tn

/-- The tasks of the supervision table with a kind and a number start a period (R415). -/
def Device.beginTasks (d : Device) (p : Nat → TaskRec → Bool) : Device :=
  (List.range 128).foldl (fun d t =>
    if p t (d.taskRec t) then
      { d with arb := d.arb.setTask t ((d.arb.task t).begin d.tn (d.job ((d.taskRec t).id)).etime) }
    else d) d

/-- A frame boundary (R328, R329): the frame count, the moves of the pipe, and a new period of its tasks (R414); the bytes that the
pipe fetches in the frame are counted at port 8 (R235, R331). -/
def Device.frameBoundary (d : Device) (p : Nat) : Device :=
  if d.frameDue p then
    let n := ((d.gfx.pipe p).frame + 1) % 2 ^ 64
    let d := (d.modPipe p fun x => { x with frame := n, frameTn := some d.tn, late := [], reported := [] }).servedFree Port.dcu false dcuBase
    let d := d.serveMoves (.frame p) n
    d.beginTasks fun _ t => t.kind == 4 && t.id == p
  else d

/-- FRAME_BOUNDARY (R328). -/
def execFrameBoundary (p : Fin 2) (s : State) : Out := s.on fun d => d.frameBoundary p

/-- Late data of a plane (R331); a line of a frame is counted once. -/
def Device.underflow (d : Device) (p plane line x : Nat) : Device :=
  if (d.gfx.pipe p).frameTn.isSome && (d.gfx.pipe p).enable && decide (plane < 3) then
    let again := (d.gfx.pipe p).late.any fun l => l.line == line
    (d.modPipe p fun y => { y with underflow := true, late := ⟨plane, line, x⟩ :: y.late }).count (pipeBase p + 0x48) (b2n !again)
  else d

/-- UNDERFLOW (R331). -/
def execUnderflow (p : Fin 2) (plane : Fin 4) (line : Nat) (x : Nat) (s : State) : Out :=
  s.on fun d => d.underflow p plane line x

/-- A plane as its words set it (log entry 48). -/
def Device.plane (d : Device) (p i : Nat) : Plane :=
  let f (o : Nat) : Nat := d.pipeSw p (0x60 + 32 * i + o)
  ⟨two f 0 % 2 ^ 40, f 8, f 0xC % 2 ^ 16, f 0xC / 2 ^ 16, f 0x10 % 2 ^ 16, f 0x10 / 2 ^ 16, bitOf (f 0x14) 0⟩

/-- The memory a plane may lie in (R330): BASE and OVERLAY in a stack or a shared slab, SAFETY in the system SRAM. -/
def planePlace (i a : Nat) : Bool :=
  match placeOf a with
  | .stack _ | .slab _ => decide (i < 2)
  | .sram => i == 2
  | _ => false

/-- A pixel word of plane `i` as the DCU fetches it; data that the DCU may not read does not arrive, so the plane is
transparent there (R331). -/
def Device.pixel (d : Device) (p i a : Nat) : Nat :=
  match (d.unitPlace (pipeUnit p) false a).1 with
  | none => 0
  | some x =>
    if planePlace i x && d.hubMay Port.dcu.group (d.unitWorld (pipeUnit p)) false x 4 then d.nat x 4 else 0

/-- The composed pixel (R330): the planes' source-over, each fetched by its own index. -/
def Device.outPixel (d : Device) (p x y : Nat) : Rgb :=
  let late := (d.gfx.pipe p).late
  (List.range 3).foldl (fun c i => composeOver (d.plane p i) i late (d.pixel p i) x y c) (0, 0, 0)

/-- The CRC of region k over the frame in progress (R332), and whether it equals EXPECT. -/
def Device.regionValue (d : Device) (p k : Nat) : Nat × Bool :=
  let f (o : Nat) : Nat := d.pipeSw p (0x200 + 16 * k + o)
  let c := regionCrc (d.outPixel p) (f 0 % 2 ^ 16) (f 0 / 2 ^ 16) (f 4 % 2 ^ 16) (f 4 / 2 ^ 16)
  (c, c == f 8)

/-- The report of a region goes to the Arbiter; when every enabled region of the frame has reported a match, the pipe's
tasks are complete (R332, R333, R415). -/
def Device.regionReport (d : Device) (p k : Nat) : Device :=
  let x := d.gfx.pipe p
  if x.enable && x.frameTn.isSome && d.regionOn p k && !x.reported.contains k then
    let v := d.regionValue p k
    let m := x.mismatch - (if bitOf x.mismatch k then 2 ^ k else 0) + (if v.2 then 0 else 2 ^ k)
    let d := d.modPipe p fun y => { y with reported := k :: y.reported, mismatch := m, last := tput zeroDef y.last k v.1 }
    let y := d.gfx.pipe p
    if (List.range 16).all fun i => !d.regionOn p i || (y.reported.contains i && !bitOf m i) then
      d.completeTasks false fun _ t => t.kind == 4 && t.id == p
    else d
  else d

/-- REGION_CRC_REPORT (R332). -/
def execRegionCrcReport (p : Fin 2) (k : Fin 16) (s : State) : Out := s.on fun d => d.regionReport p k

end Sys2Proof.Machine
end

