-- ==== Sys2Proof/Machine/PowerCmds.lean ====
section
/-! DEFINITION. Commands of power, clocks, resets and bring-up (chapter 17). -/

namespace Sys2Proof.Machine

open Sys2Proof

def Device.modPwr (d : Device) (f : Power → Power) : Device := { d with pwr := f d.pwr }

/-! ### Bring-up (R466, R467) -/

/-- The bound of a milestone in µs after power good (R466). -/
def milestoneBound : Nat → Nat
  | 1 => 1000 | 2 => 40000 | 3 => 120000 | 4 => 350000 | _ => 600000

/-- The milestone `k` is reached after the one before it. Its time is free: within its bound and not before the previous
milestone after power good, any time in the run after a system reset (R463, R466). -/
def Device.milestone (d : Device) (k : Nat) : Device :=
  if d.pwr.bringUp + 1 = k then
    let f := (Config.freeWord d.fresh).toNat
    let prev := d.pwr.milestones.getD (k - 2) 0
    let t := if d.pwr.rerun then f else prev + f % (milestoneBound k + 1 - prev)
    { d with fresh := d.fresh + 1 }.modPwr fun p => { p with bringUp := k, milestones := p.milestones.set (k - 1) t }
  else d

/-- The field is ready once time has started and the profile of the reset has been tried: the gateway's ports come up
(R399, R466). -/
def Device.fieldReady (d : Device) : Device :=
  if d.pwr.bringUp = 2 ∧ d.tb.started ∧ d.pwr.profileTried then
    let d := d.milestone 3
    { d with fgw := (List.range 36).foldl (fun g p =>
        let x := g.port p
        if x.st = .off then g.setPort p { x with st := .active } else g) d.fgw }
  else d

/-- Both stacks are trained and the field is ready: hard repairs of earlier soft repairs are done, the patrol scrub runs,
and the replica cross-check of the start begins (R179, R426, R466). -/
def Device.stacksReady (d : Device) : Device :=
  if d.pwr.bringUp = 3 ∧ d.pwr.hs0 = .trained ∧ d.pwr.hs1 = .trained then
    let d := d.milestone 4
    { d with arb := { d.arb with xcheck := some 16 } }
  else d

/-- ARBITER_VALID (R408, R466): the Arbiter runs, in the safe state and with the gate closed. -/
def Device.arbiterValid (d : Device) : Device :=
  if d.pwr.good && !d.arb.valid then
    { d with arb := { d.arb with valid := true, safe := true, safeN := false, gateOpen := false } }.milestone 1
  else d

def execArbiterValid (s : State) : Out := s.onKeep fun d => d.arbiterValid

/-- TIME_START brings the field nearer to ready (R36, R466). -/
def Device.startTime (d : Device) (stamp : Option Nat) : Device := (d.timeStart stamp).fieldReady

/-- TIME_START (R36). -/
def execTimeStart (stamp : Option Nat) (s : State) : Out := s.on fun d => d.startTime stamp

def Power.setHs (p : Power) (h : Nat) (t : Trained) (tries : Nat) : Power :=
  if h = 0 then { p with hs0 := t, hsTries0 := tries } else { p with hs1 := t, hsTries1 := tries }

def Power.tries (p : Power) (h : Nat) : Nat := if h = 0 then p.hsTries0 else p.hsTries1

/-- STACK_TRAINED (R467): the end of one attempt at training a stack, which starts once the firmware runs. -/
def Device.stackTrained (d : Device) (h : Nat) (ok : Bool) : Device :=
  if d.pwr.bringUp < 2 ∨ d.pwr.hs h = .trained ∨ d.pwr.hs h = .failed then d
  else
    let n := d.pwr.tries h + 1
    (d.modPwr fun p => p.setHs h (if ok then .trained else if n = 3 then .failed else .training) n).stacksReady

/-- READY_FOR_JOBS (R466): after the stacks are trained and the cross-check has ended. -/
def Device.readyForJobs (d : Device) : Device :=
  if d.pwr.bringUp = 4 ∧ d.arb.xcheck.isNone then d.milestone 5 else d

def execReadyForJobs (s : State) : Out := s.on fun d => d.readyForJobs

/-! ### Resets (R463) -/

/-- RESET_CAUSE bits (chapter 17). -/
def causePor : Nat := 1
def causeArbSupply : Nat := 2
def causeSysPin : Nat := 4
def causeRequest : Nat := 8
def causeWatchdog : Nat := 16
def causeTrip : Nat := 32
def causeWake : Nat := 64

/-- What a reset keeps of the instances: their generations. -/
def Proc.gens (p : Proc) : Tab Inst :=
  (List.range 32).foldl (fun t i => tput instDef t i { instDef i with gen := (p.inst i).gen }) []

/-- The enclave after a power-on reset: OTP and the tamper count stay, an accepted transition takes effect, keys are drawn
anew (R431, R435, R438). -/
def Sec.powerOn (s : Sec) : Sec :=
  let l := s.nextLifecycle.getD s.lifecycle
  let x := { Sec.init with
    lifecycle := l, owners := s.owners, ownerHash := s.ownerHash, revoked := s.revoked, step := s.step, tamperCount := s.tamperCount }
  let x := if l = .owned ∧ s.lifecycle ≠ .owned then x.setOwner 0 s.claim else x
  if l = s.lifecycle ∨ (l ≠ .fieldReturn ∧ l ≠ .scrapped) then x else x.zeroise

/-- The Arbiter after a power-on reset: the safe state; the fault log and the cycle count survive all but the loss of
VDD_ARB (R408, R430). -/
def Arb.powerOn (a : Arb) (supply : Bool) : Arb :=
  if supply then Arb.init
  else { Arb.init with log := a.log, logNext := a.logNext, logWrapped := a.logWrapped, logCount := a.logCount,
                       logLost := a.logLost, cycles := a.cycles }

/-- POWER_ON_RESET (R447, R463, R484, R491): POR_n falls, or VDD_ARB comes up, and power is good again. The calendar keeps its values unless VBAT_RTC was lost with VDD_ARB (R495). -/
def Device.powerOnReset (d : Device) (straps : StrapSamples) (lost : SupplyLoss) : Device :=
  let arbSupply := lost != .none
  let woken := d.pwr.keepAlive && d.pwr.wakeKept
  let cause := Nat.lor d.pwr.resetCause
    ((if arbSupply then causeArbSupply else causePor) + (if woken then causeWake else 0))
  { Device.init with
    cal := if lost = .battery then Calendar.init else d.cal
    arb := d.arb.powerOn arbSupply
    sec := d.sec.powerOn
    dict := { Dict.init with slots := d.dict.slots, profileSel := straps.vote % 4 }
    proc := { Proc.init with insts := d.proc.gens }
    stk := { Stk.init with hardRepairs := d.stk.hardRepairs ++ d.stk.repairs }
    pwr := { Power.init with resetCause := cause, straps := straps.vote, temps := d.pwr.temps }
    out := d.out
    fresh := d.fresh }

def execPowerOnReset (straps : StrapSamples) (lost : SupplyLoss) (s : State) : Out :=
  s.onKeep fun d => d.powerOnReset straps lost

/-- The registers of the time base (R463). -/
def inTimeBase (a : Nat) : Bool := decide (tbBase ≤ a) && decide (a < tbBase + 0x100_0000)

/-- The state after a reset of every die but the keep-alive domain (R463): the calendar, the Arbiter's state, the tamper
watch, RESET_CAUSE and the debug session stay, as do OTP and the profile store; every memory is cleared and every key slot
is wiped. -/
def Device.diesReset (d : Device) : Device :=
  { Device.init with
    cal := d.cal
    arb := { d.arb with profileOk := false, gateOpen := false, tasks := [], xcheck := none, recHere := false, recs := [] }
    sec := { Sec.init with
      lifecycle := d.sec.lifecycle
      nextLifecycle := d.sec.nextLifecycle
      owners := d.sec.owners
      ownerHash := d.sec.ownerHash
      claim := d.sec.claim
      revoked := d.sec.revoked
      step := d.sec.step
      tampered := d.sec.tampered
      tamperCount := d.sec.tamperCount
      entropyErr := d.sec.entropyErr
      keys := if d.sec.tampered then [] else [0, 1] }
    dict := { ({ Dict.init with slots := d.dict.slots, profileSel := d.dict.profileSel } : Dict) with
      vals := tput dictDefault [] (dictKey 0x8000 0x0D) (d.dict.val 0x8000 0x0D) }
    proc := { Proc.init with insts := d.proc.gens }
    stk := { Stk.init with repairs := d.stk.repairs, hardRepairs := d.stk.hardRepairs }
    pwr := { Power.init with
      resetCause := d.pwr.resetCause
      straps := d.pwr.straps
      temps := d.pwr.temps
      bringUp := min 1 d.pwr.bringUp
      milestones := d.pwr.milestones.take 1 ++ [0, 0, 0, 0]
      supplyEn := d.pwr.supplyEn
      wakeKept := d.pwr.wakeKept
      keepAlive := d.pwr.keepAlive
      crystalStopped := d.pwr.crystalStopped
      rerun := true
      startDt := d.tb.dt
      railCd0 := d.pwr.railCd0
      railCd1 := d.pwr.railCd1
      railHub := d.pwr.railHub
      railSram := d.pwr.railSram }
    dbg := { d.dbg with bp := [], hit := 0, modules := [] }
    out := d.out
    fresh := d.fresh }

/-- A system reset (R402, R463, R484, R491): every die but the keep-alive domain and the time base. It is absorbed into one
that runs. Of the time base, IN_STEP, KING and the fabric's rate adjustment still fall: the fabric that they speak of is gone
(DESIGN CHOICE, log entry 165). -/
def Device.systemReset (d : Device) (straps : StrapSamples) (cause : Nat) (pin : Bool) : Device :=
  if d.pwr.inSysReset then d.modPwr fun p => { p with sysPinLow := p.sysPinLow || pin }
  else
    let x := d.diesReset
    { x with
      tb := { d.tb with king := false, inStep := false, fabricPpm := 0 }
      moves := tput moveDef [] BlockId.tb.key (d.blk .tb)
      groups := d.groups
      regs := d.regs.filter fun x => inTimeBase x.1
      holds := d.holds.filter fun x => inTimeBase x.1
      dict := { x.dict with profileSel := straps.vote % 4 }
      pwr := { x.pwr with
        resetCause := Nat.lor d.pwr.resetCause cause
        straps := straps.vote % 4 + d.pwr.straps / 4 * 4
        sysPinLow := pin
        inSysReset := true } }

/-- The thermal trip (R428, R460): the safe state with cause 0x08, and every die but the keep-alive domain held in reset;
DT runs on (R36). -/
def Device.thermalTrip (d : Device) (sensor : Nat) : Device :=
  if d.pwr.held then d
  else
    let d := d.safeCause 0x08 (some sensor)
    let x := { d with arb := { d.arb with trip := true } }.diesReset
    { x with tb := { TimeBase.init with started := d.tb.started, dt := d.tb.dt },
             pwr := { x.pwr with resetCause := Nat.lor d.pwr.resetCause causeTrip, held := true, startDt := 0 } }

/-- THERMAL_TRIP (R428). -/
def execThermalTrip (sensor : Fin 48) (s : State) : Out := s.onKeep fun d => d.thermalTrip sensor

/-- SYSTEM_RESET (R463): SYS_RST_n low for 1 µs. -/
def execSystemReset (straps : StrapSamples) (s : State) : Out := s.on fun d => d.systemReset straps causeSysPin true

/-- SYSTEM_RESET_REQUEST (0x8000:0E). -/
def execSystemResetRequest (straps : StrapSamples) (s : State) : Out := s.on fun d => d.systemReset straps causeRequest false

/-- WATCHDOG_EXPIRY (R463). -/
def execWatchdogExpiry (straps : StrapSamples) (s : State) : Out := s.on fun d => d.systemReset straps causeWatchdog false

/-! ### Quads (R450 to R458) -/

def Power.eachQuad (p : Power) (qs : List Nat) (f : Quad → Quad) : Power :=
  qs.foldl (fun p q => p.setQuad q (f (p.quad q))) p

/-- A quad holds a reserved engine (R457). -/
def Device.quadReserved (d : Device) (q : Nat) : Bool := (List.range 4).any fun i => d.isReserved (4 * q + i)

/-- AVS_FAILURE (R451): every retry of a transaction failed, for rail 0 or 1 of AVSBus 0 or for AVSBus 1. -/
def Device.avsFailure (d : Device) (rail : Nat) : Device :=
  d.modPwr fun p =>
    let p := { p with avsErr := true }
    if rail < 2 then p.eachQuad (quadsOf rail) fun x => { x with avsHold := true } else p

def execAvsFailure (rail : Fin 3) (s : State) : Out := s.on fun d => d.avsFailure rail

/-- QUAD_POWER_ON (R159, R455). -/
def Device.quadPowerOn (d : Device) (q : Nat) : Device :=
  let x := d.pwr.quad q
  if x.powering then
    (List.range 4).foldl (fun d i => d.clearSlab (4 * q + i))
      (d.modPwr fun p => p.setQuad q { x with powered := true, powering := false })
  else d

def execQuadPowerOn (q : Fin 8) (s : State) : Out := s.on fun d => d.quadPowerOn q

/-- The throttle point in 0.1 °C (R458, R490): GLB-96A 115 °C, GLB-96I 95 °C. -/
def throttlePoint : Int := if Config.grade then 950 else 1150

/-- The thermal ceilings at a round boundary (R458). -/
def Power.thermalRound (p : Power) : Power :=
  (List.range 8).foldl (fun p q =>
    let x := p.quad q
    let ts := (List.range 4).map fun i => p.temp (4 * q + i)
    if ts.any fun t => decide (throttlePoint ≤ t) then p.setQuad q { x with thermCeil := x.thermCeil - 1 }
    else if ts.all fun t => decide (t ≤ throttlePoint - 30) then p.setQuad q { x with thermCeil := min 9 (x.thermCeil + 1) }
    else p) p

/-- The quad at which the cap loop lowers next: one without a reserved engine, in descending number, else a reserved one
(R457). -/
def Device.capDown (d : Device) : Option Nat :=
  let above (q : Nat) : Bool := decide (0 < (d.pwr.quad q).capCeil)
  let down := (List.range 8).reverse
  match down.find? fun q => !d.quadReserved q && above q with
  | some q => some q
  | none => down.find? fun q => d.quadReserved q && above q

/-- The cap loop and the excursions at a round boundary (R457): one step of one quad in a round. -/
def Device.capRound (d : Device) (mw : Nat) : Device :=
  let cap := d.dict.num 0x8000 0x01 * 1000
  let d := d.modPwr fun p => { p with roundMw := mw }
  if cap < mw then
    let n := d.pwr.excursion + 1
    let d := d.modPwr fun p => { p with excursion := min 255 n }
    let d := match d.capDown with
      | some q => d.modPwr fun p => p.setQuad q { p.quad q with capCeil := (p.quad q).capCeil - 1 }
      | none => d
    let d := if n = 8 then
        let free := (List.range 8).filter fun q => !d.quadReserved q
        d.modPwr fun p => { p.eachQuad free (fun x => { x with capCeil := 0 }) with gpxHalf := true }
      else d
    if 9 ≤ n then d.modPwr fun p => p.eachQuad (List.range 8) fun x => { x with capCeil := 0 } else d
  else
    let d := d.modPwr fun p => { p with excursion := 0 }
    if mw * 100 < cap * 95 then
      d.modPwr fun p =>
        let p := { p with gpxHalf := false }
        match (List.range 8).find? fun q => decide ((p.quad q).capCeil < 9) with
        | some q => p.setQuad q { p.quad q with capCeil := (p.quad q).capCeil + 1 }
        | none => p
    else d

/-- The fast limiter at a tempo boundary (R456). -/
def Power.tempoPower (p : Power) (mw : Nat) : Power :=
  { p with tempoMw := mw, fastLimit := if 230000 < mw then true else if mw < 220000 then false else p.fastLimit }

/-! ### Stacks, the crystal and keep-alive (R453, R459, R464, R465) -/

/-- The limit that a case temperature asks for, in quarters (R459). -/
def caseLimit (t : Int) : Nat := if t < 1010 then 0 else if t < 1020 then 1 else if t < 1030 then 2 else 3

def Power.hsLimit (p : Power) (h : Nat) : Nat := if h = 0 then p.hsLimit0 else p.hsLimit1
def Power.hsHeld (p : Power) (h : Nat) : Bool := if h = 0 then p.hsHeld0 else p.hsHeld1
def Power.setLimit (p : Power) (h n : Nat) (held : Bool) : Power :=
  if h = 0 then { p with hsLimit0 := n, hsHeld0 := held } else { p with hsLimit1 := n, hsHeld1 := held }

/-- STACK_THROTTLE (R459): the case of a stack has reached a temperature. -/
def Device.stackThrottle (d : Device) (h : Nat) (t : Int) : Device :=
  d.modPwr fun p =>
    let held := (p.hsHeld h && decide (1000 < t)) || decide (1050 ≤ t)
    p.setLimit h (if held then 3 else max (p.hsLimit h) (caseLimit t)) held

def execStackThrottle (h : Fin 2) (temp : Int) (s : State) : Out := s.on fun d => d.stackThrottle h temp

/-- The case temperature of a stack, the higher of its two sensors (R459). -/
def Power.caseTemp (p : Power) (h : Nat) : Int := max (p.temp (44 + 2 * h)) (p.temp (45 + 2 * h))

/-- The stacks' limits at a round boundary: raised by a hot case, taken off one quarter at or below 100 °C (R459). -/
def Device.stackRound (d : Device) (h : Nat) : Device :=
  let t := d.pwr.caseTemp h
  if t ≤ 1000 then d.modPwr fun p => p.setLimit h (p.hsLimit h - 1) false else d.stackThrottle h t

/-- CRYSTAL_STOP (R453). -/
def Device.crystalStop (d : Device) : Device :=
  { d with cal := { d.cal with sync := false } }.modPwr fun p => { p with crystalStopped := true }

def execCrystalStop (s : State) : Out := s.on fun d => d.crystalStop

/-- KEEP_ALIVE_REQUEST (R464): every job is deleted, every pipe and port disabled, and SUPPLY_EN goes low. -/
def Device.keepAlive (d : Device) : Device :=
  let d := (List.range 64).foldl (fun d j => d.jobDelete j) d
  let d := (List.range 2).foldl (fun d p => d.modPipe p fun x => { x with enable := false, frameTn := none }) d
  let d := { d with fgw := (List.range 36).foldl (fun g p => g.setPort p { g.port p with st := .off }) d.fgw }
  let d := (List.range 8).foldl (fun d p => (d.linkDown p).modLink p fun x => { x with ctrl := false, st := .off }) d
  d.modPwr fun p => { p with supplyEn := false, keepAlive := true }

def execKeepAliveRequest (s : State) : Out := s.on fun d => d.keepAlive

/-- WAKE (R465): a wake, kept to the 10 ms point, drives SUPPLY_EN high. -/
def Device.wake (d : Device) : Device :=
  if d.pwr.keepAlive then d.modPwr fun p => { p with supplyEn := true, wakeKept := true } else d

def execWake (s : State) : Out := s.onKeep fun d => d.wake

end Sys2Proof.Machine
end

