-- ==== Sys2Proof/Machine/ArbCmds.lean ====
section
/-! DEFINITION. Commands of the Arbiter and of functional safety (chapter 15). -/

namespace Sys2Proof.Machine

open Sys2Proof

def Device.modArb (d : Device) (f : Arb → Arb) : Device := { d with arb := f d.arb }

/-! ### Causes from pins and monitors (R407 to R409) -/

/-- ESTOP (R407). -/
def Device.estop (d : Device) : Device :=
  if d.arb.valid && !d.arb.estop then (d.modArb fun a => { a with estop := true }).safeCause 0x01 none else d

def execEstop (s : State) : Out := s.onKeep fun d => d.estop

/-- ESTOP_RELEASE (R407): the pin is high again; the safe state stays. -/
def Device.estopRelease (d : Device) : Device := d.modArb fun a => { a with estop := false }

def execEstopRelease (s : State) : Out := s.onKeep fun d => d.estopRelease

/-- TEMPO_LOSS (R408): 300 cycles without a pulse, once pulses have begun. -/
def Device.tempoLost (d : Device) : Device :=
  if d.arb.valid && d.tb.started && !d.arb.tempoLoss then
    (d.modArb fun a => { a with tempoLoss := true, goodPulses := 0 }).safeCause 0x04 none
  else d

def execTempoLoss (s : State) : Out := s.onKeep fun d => d.tempoLost

/-- A tempo pulse reaches the Arbiter (R408): it ends a tempo loss and counts toward the 1,000 good pulses. -/
def Arb.pulse (a : Arb) (cycles : Nat) : Arb :=
  { a with tempoLoss := false, goodPulses := min 1000 (a.goodPulses + 1), cycles := (a.cycles + cycles) % 2 ^ 64 }

/-- A fault of the Arbiter itself: the safe state, and SAFE_ALIVE stops (R406, R409). -/
def Device.arbOwnFault (d : Device) (cause : Nat) : Device :=
  if d.arb.valid then (d.safeCause cause none).modArb fun a => { a with arbFault := true } else d

/-- ARBITER_MISMATCH (R409). -/
def execArbiterMismatch (s : State) : Out := s.onKeep fun d => d.arbOwnFault 0x03

/-- OSCILLATOR_FAULT (R409, R452). -/
def execOscillatorFault (s : State) : Out := s.onKeep fun d => d.arbOwnFault 0x05

/-- SAFE_ALIVE_TOGGLE (R406). -/
def Device.aliveToggle (d : Device) : Device :=
  if d.arb.valid && !d.arb.arbFault then d.modArb fun a => { a with alive := !a.alive } else d

def execSafeAliveToggle (s : State) : Out := s.onKeep fun d => d.aliveToggle

/-- A supply leaves its window (R449). -/
def Device.supplyFault (d : Device) (n : Nat) : Device :=
  if d.arb.valid && !d.arb.supplyOut.contains n then
    (d.modArb fun a => { a with supplyOut := n :: a.supplyOut }).safeCause 0x06 (some n)
  else d

/-- SUPPLY_FAULT (R449): above its absolute maximum rating a supply leaves the device without a specified behaviour
(R486). -/
def execSupplyFault (n : Fin 11) (overMax : Bool) (s : State) : Out :=
  if overMax then .fault .aboveAbsoluteMaximum else s.onKeep fun d => d.supplyFault n

/-- SUPPLY_BACK_IN_WINDOW (R409). -/
def Device.supplyBack (d : Device) (n : Nat) : Device :=
  d.modArb fun a => { a with supplyOut := a.supplyOut.filter fun x => x != n }

def execSupplyBackInWindow (n : Fin 11) (s : State) : Out := s.onKeep fun d => d.supplyBack n

/-- TJ_REPORT (R458): cause 0x07, and the quads of the sensor's compute die go to 0.6 GHz. -/
def Device.tjReport (d : Device) (sensor : Nat) : Device :=
  let d := d.reportCause 0x07 (some sensor)
  if sensor < 32 then d.modPwr fun p => p.eachQuad (quadsOf (sensor / 16)) fun x => { x with thermCeil := 0 } else d

def execTjReport (sensor : Fin 48) (s : State) : Out := s.on fun d => d.tjReport sensor

/-! ### Command links (R410 to R413) -/

/-- A pair that runs: not stopped for adjudication and not removed (R421). -/
def Device.pairRuns (d : Device) (p : Nat) : Bool :=
  let st := (d.arb.pair p).st
  st == .normal || st == .degraded

/-- The sender may ARM and RELEASE: a pair named in 0x5000:02 (R413). -/
def Device.mayArm (d : Device) (s : ArbSender) : Bool :=
  match s with
  | .pair p => d.pairRuns p && bitOf (d.dict.num 0x5000 0x02) p
  | _ => false

/-- Any SPC pair (R413). -/
def Device.isPair (d : Device) (s : ArbSender) : Bool :=
  match s with
  | .pair p => d.pairRuns p
  | _ => false

/-- A command on a command link: ignored and counted unless its sender may give it (R413). -/
def Device.arbCommand (d : Device) (ok : Bool) (f : Device → Device) : Device :=
  if ok then f d else d.modArb Arb.refuse

/-- ARM (R410). -/
def Device.arm (d : Device) (r : ArbReq) : Device :=
  d.arbCommand (d.mayArm r.sender) fun d => if d.arb.armAllowed then d.modArb fun a => { a with gateOpen := true } else d

def execArm (r : ArbReq) (s : State) : Out := s.on fun d => d.arm r

/-- RELEASE (R412). -/
def Device.releaseSafe (d : Device) (r : ArbReq) : Device :=
  d.arbCommand (d.mayArm r.sender) fun d => if d.arb.releaseAllowed then d.modArb Arb.release else d

def execRelease (r : ArbReq) (s : State) : Out := s.on fun d => d.releaseSafe r

/-- DONE (R413, R415): only from the pair that runs the partition of the task. -/
def Device.done (d : Device) (r : ArbReq) : Device :=
  d.arbCommand (d.isPair r.sender && r.runs && decide (r.arg < 128) && (d.taskRec r.arg).kind == 2) fun d =>
    d.modArb fun a => a.setTask r.arg ((a.task r.arg).complete false)

def execDone (r : ArbReq) (s : State) : Out := s.on fun d => d.done r

/-- ACK (R413). -/
def Device.ack (d : Device) (r : ArbReq) : Device :=
  d.arbCommand ((d.isPair r.sender || r.sender == .fwc) && decide (r.arg < 64)) fun d => d.modArb fun a => a.ack r.arg

def execAck (r : ArbReq) (s : State) : Out := s.on fun d => d.ack r

/-- The start of a replica cross-check; one that runs absorbs it (R426). -/
def Arb.startCheck (a : Arb) : Arb := if a.xcheck.isSome then a else { a with xcheck := some 16 }

/-- XCHECK (R413, R426). -/
def Device.xcheckCmd (d : Device) (r : ArbReq) : Device := d.arbCommand (d.isPair r.sender) fun d => d.modArb Arb.startCheck

def execXcheck (r : ArbReq) (s : State) : Out := s.on fun d => d.xcheckCmd r

/-- CROSS_CHECK_DONE (R426): the field returns to use; a difference is a field-store fault (R291). -/
def Device.crossCheckDone (d : Device) (bad : Bool) : Device :=
  if d.arb.xcheck.isSome then
    let d := d.modArb fun a => { a with xcheck := none }
    if bad then d.modMce fun m => { m with fieldFault := true } else d
  else d

def execCrossCheckDone (bad : Bool) (s : State) : Out := s.on fun d => d.crossCheckDone bad

/-- A write of 0x5101:01 (R430). -/
def Device.logAck (d : Device) (e : Nat) : Device × Nat :=
  if e < 64 then (d.modArb fun a => a.ack e, 0) else (d, abRange)

/-- LOG_ACKNOWLEDGE (R430). -/
def execLogAcknowledge (e : Nat) (s : State) : Out := s.on fun d => answer (d.logAck e)

/-! ### Task supervision (R414 to R418) -/

/-- The task's deadline has come and it is not complete (R416). For a display pipe the deadline is the end of the first
line of vertical blanking, and while tempos are lost the Arbiter measures it in its own cycles (R408): both the surroundings time
(log entry 62). -/
def TaskRun.fallDue (t : TaskRun) (r : TaskRec) (tn : Nat) (lost : Bool) : Bool :=
  t.armed && (t.prevOpen || (!t.done && !t.judged && match t.start with
    | some s => r.kind == 4 || lost || decide (s + r.deadline ≤ tn)
    | none => false))

/-- The job of a job task has not been deleted (R415). -/
def Device.taskLives (d : Device) (r : TaskRec) : Bool := r.kind != 1 || (d.job r.id).st != .free

/-- The run of a task after a flag fall; LIMIT in a row restart the count (R416). -/
def TaskRun.fall (t : TaskRun) (limit : Nat) : TaskRun :=
  let n := if t.falls + 1 = limit then 0 else t.falls + 1
  if t.prevOpen then { t with prevOpen := false, falls := n, lastOk := false }
  else { t with judged := true, falls := n, lastOk := false }

/-- Code 0x80 of a job fault by the Arbiter (R417). -/
def fcTask : Nat := 0x80

/-- RESTART of a task's job: a job fault, or RESTART of a job already in FAILED (R417). -/
def Device.restartTask (d : Device) (r : TaskRec) : Device :=
  if r.kind = 1 then
    if (d.job r.id).st = .failed then (d.jobRestart r.id).1 else d.jobFault r.id fcTask 0
  else d

/-- The action at LIMIT (R417): its reaction in the log, and its effect. -/
def Device.takeAction (d : Device) (t falls : Nat) (r : TaskRec) : Device :=
  let gate (d : Device) : Device := if r.gate then d.modArb Arb.closeGate else d
  match r.action with
  | 1 => gate ((d.arbReport 0x02 (some t) reactRestart falls).restartTask r)
  | 2 =>
    let d := d.arbSafe 0x02 (some t) falls
    gate (if r.kind = 1 then d.jobFault r.id fcTask 0 else d)
  | _ => gate (d.arbReport 0x02 (some t) (if r.gate then reactGate else reactReport) falls)

/-- FLAG_FALL (R416, R417). -/
def Device.flagFall (d : Device) (t : Nat) : Device :=
  let r := d.taskRec t
  let x := d.arb.task t
  if d.arb.valid && d.taskLives r && x.fallDue r d.tn d.arb.tempoLoss then
    let n := x.falls + 1
    let d := d.modArb fun a => a.setTask t (x.fall r.limit)
    if n = r.limit then d.takeAction t n r else d.arbReport 0x02 (some t) reactReport n
  else d

def execFlagFall (t : Fin 128) (s : State) : Out := s.on fun d => d.flagFall t

/-- TASK_CLOCK_EXHAUSTED (R418): the job is taken back and held until the next period starts. -/
def Device.clockExhausted (d : Device) (t : Nat) : Device :=
  let r := d.taskRec t
  let x := d.arb.task t
  if r.kind = 1 ∧ d.taskLives r = true ∧ 0 < r.budget ∧ x.armed ∧ !x.clockHold ∧ x.etime0 + r.budget ≤ (d.job r.id).etime then
    let d := d.modArb fun a => a.setTask t { x with clockHold := true }
    (d.takeBack r.id).modJob r.id fun j => { j with clockHold := true }
  else d

def execTaskClockExhausted (t : Fin 128) (s : State) : Out := s.on fun d => d.clockExhausted t

/-- The unit of a task has been enabled, or its job has been RUNNING (R415). -/
def Device.taskArms (d : Device) (t : Nat) (r : TaskRec) : Bool :=
  match r.kind with
  | 1 => (d.job r.id).st != .free && ((d.job r.id).st == .running || decide (0 < (d.job r.id).etime) || (d.arb.task t).armed)
  | 2 => true
  | 3 => d.mce.enable || (d.arb.task t).armed
  | _ => false

/-- The periods that start at a tempo boundary (R415, R418). A task of a deleted job is no longer armed. -/
def Device.taskPeriods (d : Device) : Device :=
  (List.range 128).foldl (fun d t =>
    let r := d.taskRec t
    if r.kind = 0 ∨ r.kind = 4 then d
    else
      let d := if r.kind = 1 ∧ (d.job r.id).st = .free then d.modArb fun a => a.setTask t TaskRun.init else d
      if 0 < r.period ∧ d.tn % r.period = r.phase ∧ d.taskArms t r then
        let d := d.modArb fun a => a.setTask t ((a.task t).begin d.tn (d.job r.id).etime)
        if r.kind = 1 then d.modJob r.id fun j => { j with clockHold := false } else d
      else d) d

/-! ### Redundant pairs (R420, R421) -/

/-- PAIR_MISMATCH (R421). -/
def execPairMismatch (p : Fin 5) (s : State) : Out := s.on fun d => d.pairMismatch p

/-- A pair is removed: the safe state with cause 0x0D (R421). -/
def Device.removePair (d : Device) (p : Nat) : Device :=
  (d.modArb fun a => a.setPair p { a.pair p with st := .removed }).safeCause 0x0D (some p)

/-- ADJUDICATION_DONE (R421). -/
def Device.adjudicated (d : Device) (p : Nat) (o : AdjOutcome) : Device :=
  let x := d.arb.pair p
  if x.st = .adjudicating then
    match o with
    | .replicaA | .replicaB =>
      (d.modArb fun a => a.setPair p { x with st := .degraded, degradedMin := d.dict.num 0x5020 0x01, degradedAt := d.tn }).reportCause 0x0B (some p)
    | .both => d.removePair p
    | .transient =>
      let ts := d.tn :: x.transients.filter fun t => decide (d.tn < t + 1000000)
      let d := (d.modArb fun a => a.setPair p { x with st := .normal, transients := ts }).reportCause 0x0C (some p)
      if 3 ≤ ts.length then d.removePair p else d
  else d

def execAdjudicationDone (p : Fin 5) (outcome : AdjOutcome) (s : State) : Out := s.on fun d => d.adjudicated p outcome

/-- Tempos of a minute. -/
def minuteTempos : Nat := 60000000

/-- The degraded time of a pair has passed: in TN, or by the Arbiter's own cycles while tempos are lost (R408, R421). -/
def Device.degradedOver (d : Device) (p : Nat) : Bool :=
  let x := d.arb.pair p
  x.st == .degraded && (d.arb.tempoLoss || decide (x.degradedAt + x.degradedMin * minuteTempos ≤ d.tn))

/-- DEGRADED_EXPIRY (R421). -/
def Device.degradedEnd (d : Device) (p : Nat) : Device := if d.degradedOver p then d.removePair p else d

def execDegradedExpiry (p : Fin 5) (s : State) : Out := s.on fun d => d.degradedEnd p

/-! ### Latent faults and self-tests (R419, R422 to R425) -/

/-- The reaction to a failed test (R423, R424). -/
def Device.latentFault (d : Device) (c : CheckerId) : Device :=
  let src := some c.source
  match c with
  | .engine e => (d.engineOut e).reportCause 0x0E src
  | .slab die r => (d.retireRange die (slabBase die + r.val * 0x2_0000)).reportCause 0x0E src
  | .stack _ => d.reportCause 0x0E src
  | .mce => (d.modArb fun a => a.setPair mcePairKey { a.pair mcePairKey with st := .removed }).safeCause 0x0E src
  | .spc p => (d.modArb fun a => a.setPair p { a.pair p with st := .removed }).safeCause 0x0E src
  | .arbiter => (d.safeCause 0x0E src).arbOwnFault 0x03
  | .display _ | .monitor _ => d.safeCause 0x0E src

/-- LATENT_FAULT_TEST (R423): a passed test changes nothing; under mode 1 no test runs after bring-up. -/
def Device.latentTest (d : Device) (c : CheckerId) (ok : Bool) : Device :=
  if ok || (d.dict.num 0x5000 0x01 == 1 && d.pwr.bringUp == 5) then d else d.latentFault c

def execLatentFaultTest (c : CheckerId) (ok : Bool) (s : State) : Out := s.on fun d => d.latentTest c ok

/-- LF_INTERVAL_EXCEEDED (R425): 24 operating hours since the start under mode 1, logged once for a start. -/
def Device.lfInterval (d : Device) : Device :=
  if d.dict.num 0x5000 0x01 = 1 ∧ 24 ≤ d.operatingHours ∧ d.pwr.lfLogged = false then
    (d.modPwr fun p => { p with lfLogged := true }).reportCause 0x10 none
  else d

def execLfIntervalExceeded (s : State) : Out := s.on fun d => d.lfInterval

/-- ENGINE_SELF_TEST (R419): of a SUSPECT engine while it is unbound. -/
def Device.selfTest (d : Device) (e : Nat) (ok : Bool) : Device :=
  let g := d.engine e
  if g.suspect && g.bound.isNone then (if ok then d.modEng e fun g => { g with suspect := false } else d.engineOut e) else d

def execEngineSelfTest (e : Fin 32) (ok : Bool) (s : State) : Out := s.on fun d => d.selfTest e ok

/-! ### ARB_UART (R430) -/

/-- UART_LOG_DUMP: every entry from the oldest. -/
def Device.uartLog (d : Device) : Device :=
  d.note (.uart ((List.range d.arb.logCount).flatMap fun i => (d.arb.oldest i).bytes))

def execUartLogDump (s : State) : Out := s.onKeep fun d => d.uartLog

/-- UART_STATUS. -/
def Device.uartStatus (d : Device) : Device := d.note (.uart (leBytes 4 (d.arb.status (d.dict.num 0x5000 0x01))))

def execUartStatus (s : State) : Out := s.onKeep fun d => d.uartStatus

end Sys2Proof.Machine
end

