-- ==== Sys2Proof/Machine/SecCmds.lean ====
section
/-! DEFINITION. Commands of the root of trust (chapter 16). -/

namespace Sys2Proof.Machine

open Sys2Proof

def Device.modSec (d : Device) (f : Sec → Sec) : Device := { d with sec := f d.sec }

/-! ### Mailboxes -/

/-- The SEC takes commands: it runs and no tamper has been detected (R432, R436, R445). -/
def Device.secLive (d : Device) : Bool := d.sec.boot == 0 && !d.sec.tampered

/-- A command tag, which the specification does not state (log entry 79). -/
def Device.secTag (d : Device) : Nat × Device := ((Config.freeWord d.fresh).toNat % 2 ^ 24, { d with fresh := d.fresh + 1 })

/-- The result of a command that has run. -/
def Device.secResult (d : Device) (secure : Bool) (result : Nat) : Device :=
  let (t, d) := d.secTag
  (d.modSec fun s => s.post secure result t).note (.sec result)

/-- A refusal whose code the specification does not state: some code other than done (log entry 79). -/
def Device.secRefuse (d : Device) (secure : Bool) : Device :=
  { d with fresh := d.fresh + 1 }.secResult secure (1 + (Config.freeWord d.fresh).toNat % 10)

/-- A command of a mailbox, whose request is taken up: those that only the secure mailbox takes are refused from the other
(chapter 16). -/
def Device.secCommand (d : Device) (code : Nat) (secure both : Bool) (f : Device → Device) : Device :=
  if !d.secLive then d
  else if !secure && !both then d.secResult false secNotAllowed
  else f (d.modSec fun s => s.takeUp secure code)

/-- A check of a command: its refusal code, or the rest. -/
def Device.secCheck (d : Device) (secure ok : Bool) (code : Nat) (f : Device → Device) : Device :=
  if ok then f d else d.secResult secure code

/-! ### Sealed models (R440 to R442) -/

/-- The lowest memory key slot from 2 to 15 that holds no key (R441). -/
def Sec.freeSlot (s : Sec) : Option Nat := ((List.range 14).map (· + 2)).find? fun k => !s.keys.contains k

/-- The size of the range that the open shadow gives a checker. -/
def Device.openSize (d : Device) (h r : Nat) : Nat :=
  let a := rgnBase h + r * 0x20
  let f := two (d.swOpen (rgnBlock h))
  (f (a + 8) + 1 - f a) * granule h

/-- ATTR of a region that is being loaded: ENABLE, ENC, SEALED, the key slot and RD = 0 beside the open shadow's WORLD and WR
(R441). -/
def sealAttr (attr slot : Nat) : Nat :=
  1 + 2 * bits attr 1 1 + 2 ^ 8 * bits attr 13 8 + 2 ^ 14 + 2 ^ 15 + 2 ^ 16 * slot

/-- Steps 1 and 2 of a sealed load (R433, R434, R440, R441). -/
def Device.sealStart (d : Device) (q : SealLoadReq) : Device :=
  let k := q.region.val
  let h := k / 64
  let r := k % 64
  let p := q.package
  d.secCheck true (p.formOk && decide (p.step ≤ 64)) secMalformed fun d =>
  d.secCheck true (d.sec.signed q.sig && q.sig.owner == p.owner) secSignature fun d =>
  d.secCheck true (decide (d.sec.step ≤ p.step)) secRollback fun d =>
  d.secCheck true (decide ((p.size + 127) / 128 * 128 ≤ d.openSize h r)) secTooSmall fun d =>
  match p.modelKey, d.sec.freeSlot with
  | none, _ => d.secRefuse true
  | some _, none => d.secResult true secSlotInUse
  | some key, some slot =>
    if (d.sec.region k).phase = .none then
      let (t, d) := d.secTag
      let d := d.modSec fun s =>
        { s.setRegion k ⟨.moving, slot, p.size, p.digest, key, t, secDone⟩ with keys := slot :: s.keys, secure := { s.secure with busy := true } }
      d.secSeal h r (sealAttr (d.attrOpen h r) slot)
    else d.secResult true secSlotInUse

/-- SEAL_LOAD (R441): loads run one after the other, and one waits in the mailbox until its stack is trained (R467). -/
def Device.sealLoad (d : Device) (q : SealLoadReq) : Device :=
  d.secCommand 0x10 q.secure false fun d =>
    if d.pwr.hs (q.region.val / 64) = .trained ∧ d.sec.runs = false then d.sealStart q
    else d.modSec fun s => { s with waiting := s.waiting ++ [q], secure := { s.secure with busy := true } }

def execSealLoad (r : SealLoadReq) (s : State) : Out := s.on fun d => d.sealLoad r

/-- While no command runs, the waiting loads whose stack is trained begin in mailbox order; one that is refused gives way to the
next, at most `n` of them. -/
def Device.sealNext (d : Device) : Nat → Device
  | 0 => d
  | n + 1 =>
    if ({ d.sec with waiting := [] } : Sec).runs then d
    else match d.sec.waiting.find? fun q => d.pwr.hs (q.region.val / 64) == .trained with
      | some q => ((d.modSec fun s => { s with waiting := s.waiting.erase q }).sealStart q).sealNext n
      | none => d

/-- The enclave takes up what waits in its mailbox. -/
def Device.sealPump (d : Device) : Device := if d.secLive then d.sealNext d.sec.waiting.length else d

/-- STACK_TRAINED (R467): a load that waited for the stack begins. -/
def Device.trainEnd (d : Device) (h : Nat) (ok : Bool) : Device := (d.stackTrained h ok).sealPump

def execStackTrained (h : Fin 2) (ok : Bool) (s : State) : Out := s.on fun d => d.trainEnd h ok

/-- The end of writing a region (R440, R441): every chunk is decrypted in order, the plaintext stands in the range, and zeros pad
the last pair; the engines may read after the next move. A chunk or digest that fails aborts the load. -/
def Device.sealDone (d : Device) (k : Nat) (chunks : List (List Byte × List Byte)) : Device :=
  let x := d.sec.region k
  if x.phase = .loading then
    let h := k / 64
    let r := k % 64
    match x.plain chunks with
    | some p =>
      let a := (d.regionRange h r).1
      let d := (d.zero a (a + (x.size + 127) / 128 * 128)).put a p
      let d := d.modSec fun s => s.setRegion k { x with phase := .readying }
      d.secSeal h r (d.attrOpen h r + 4)
    | none => (d.modSec fun s => s.setRegion k { x with result := secDigest }).regionWipe h r
  else d

/-- SEAL_LOAD_DONE (R441). -/
def execSealLoadDone (r : SealDone) (s : State) : Out := s.on fun d => d.sealDone r.region r.chunks

/-- The integrity tag that stands beside the pair of bursts at a package-local address of region k (R186, R440). -/
def Device.tagOf (d : Device) (k addr : Nat) : List Byte := pairTag (d.sec.region k).key addr (d.bytes addr 128)

/-- RELEASE (R441, R442): of a READY region, or of one whose load runs or waits, which is aborted. -/
def Device.regionRelease (d : Device) (r : SecReq) : Device :=
  d.secCommand 0x11 r.secure false fun d =>
    d.secCheck true (decide (r.arg < 128)) secMalformed fun d =>
      let k := r.arg
      let x := d.sec.region k
      match x.phase with
      | .ready =>
        let (t, d) := d.secTag
        let d := d.modSec fun s =>
          { s.setRegion k { x with phase := .closing, tag := t, result := secDone } with secure := { s.secure with busy := true } }
        d.secSeal (k / 64) (k % 64) (let a := d.attrOpen (k / 64) (k % 64); a - 4 * bits a 7 2)
      | .moving | .loading | .readying =>
        let d := (d.modSec fun s => s.post true secAborted x.tag).note (.sec secAborted)
        let (t, d) := d.secTag
        let d := d.modSec fun s =>
          { s.setRegion k { x with tag := t, result := secDone } with secure := { s.secure with busy := true } }
        d.regionWipe (k / 64) (k % 64)
      | _ =>
        if d.sec.waiting.any fun q => q.region.val == k then
          ((d.modSec fun s => { s with waiting := s.waiting.filter fun q => q.region.val != k }).secResult true secAborted).secResult true secDone
        else d.secRefuse true

/-- REGION_RELEASE (R442). -/
def execRegionRelease (r : SecReq) (s : State) : Out := s.on fun d => d.regionRelease r

/-! ### Attestation (R443) -/

/-- Bytes into plain registers from `a` on. -/
def Device.putRegs (d : Device) (a : Nat) (bs : List Byte) : Device :=
  (List.range ((bs.length + 3) / 4)).foldl (fun d i => d.setReg (a + 4 * i) (field bs (4 * i) 4)) d

/-- The response buffer of a mailbox (chapter 16). -/
def responseBase (secure : Bool) : Nat := secBase + (if secure then 0x2000 else 0xA000)

/-- ATTEST (R443). -/
def Device.attest (d : Device) (r : SecReq) : Device :=
  d.secCommand 0x20 r.secure true fun d =>
    d.secCheck r.secure (r.bytes.length == 48) secMalformed fun d =>
      let (b, d) := d.attestation r.bytes
      (d.putRegs (responseBase r.secure) b).secResult r.secure secDone

/-- The commands of the command table, with whether the non-secure mailbox takes them (chapter 16). -/
def secCodes : List (Nat × Bool) :=
  [(0x01, true), (0x10, false), (0x11, false), (0x20, true), (0x30, false), (0x31, false), (0x32, false), (0x33, false), (0x40, false)]

/-- The request buffer of a mailbox (chapter 16). -/
def requestBase (secure : Bool) : Nat := secBase + (if secure then 0x1000 else 0x9000)

/-- Bytes of the request buffer. -/
def Device.request (d : Device) (secure : Bool) (n : Nat) : List Byte :=
  ((List.range ((n + 3) / 4)).flatMap fun i => leBytes 4 (d.reg (requestBase secure + 4 * i))).take n

/-- A write of SEC.CMD starts a command (R10, chapter 16): a code that is no command is refused as malformed, one that the mailbox
may not give as not allowed. ATTEST takes its nonce from the request buffer and runs; any other command, whose request has no
stated layout, keeps its mailbox BUSY until its row takes the request up (log entry 78). -/
def Device.secStart (d : Device) (secure : Bool) (code len : Nat) : Device :=
  if !d.secLive then d
  else match secCodes.find? fun p => p.1 == code with
    | none => d.secResult secure secMalformed
    | some (_, both) =>
      if !secure && !both then d.secResult false secNotAllowed
      else if code = 0x20 then d.attest ⟨secure, 0, d.request secure len, ⟨false, 0, false, true⟩⟩
      else d.modSec fun s =>
        if secure then { s with secure := { s.secure with started := s.secure.started ++ [code] } }
        else { s with nonSecure := { s.nonSecure with started := s.nonSecure.started ++ [code] } }

def execAttest (r : SecReq) (s : State) : Out := s.on fun d => d.attest r

/-- A write of 0x2300:01 (R443). -/
def Device.setNonce (d : Device) (nonce : List Byte) : Device × Nat :=
  if nonce.length = 48 then (d.modSec fun s => { s with nonce := nonce }, 0) else (d, abType)

/-- ATTEST_NONCE (R443). -/
def execAttestNonce (nonce : List Byte) (s : State) : Out := s.on fun d => answer (d.setNonce nonce)

/-! ### Owners, steps and the lifecycle (R431 to R435) -/

/-- OWNER_ADD (R431, R433): the slot takes the hash of the key that the request carries. -/
def Device.ownerAdd (d : Device) (r : SecReq) : Device :=
  d.secCommand 0x30 r.secure false fun d =>
    d.secCheck true (decide (r.arg < 4)) secMalformed fun d =>
    d.secCheck true (!bitOf d.sec.owners r.arg) secSlotInUse fun d =>
    d.secCheck true (d.sec.lifecycle == .owned && (d.sec.owners == 0 || d.sec.signed r.sig)) secSignature fun d =>
    d.secCheck true r.sig.otpOk secOtp fun d =>
      (d.modSec fun s => s.setOwner r.arg (Config.sha384 r.bytes)).secResult true secDone

def execOwnerAdd (r : SecReq) (s : State) : Out := s.on fun d => d.ownerAdd r

/-- OWNER_REVOKE (R433): signed by another usable key, and never the last usable one while the device is Owned. -/
def Device.ownerRevoke (d : Device) (r : SecReq) : Device :=
  d.secCommand 0x31 r.secure false fun d =>
    d.secCheck true (decide (r.arg < 4)) secMalformed fun d =>
    d.secCheck true (d.sec.signed r.sig && r.sig.owner != r.arg) secSignature fun d =>
      if !bitOf d.sec.owners r.arg || bitOf d.sec.revoked r.arg then d.secRefuse true
      else d.secCheck true r.sig.otpOk secOtp fun d =>
        (d.modSec fun s => { s with revoked := s.revoked + 2 ^ r.arg }).secResult true secDone

def execOwnerRevoke (r : SecReq) (s : State) : Out := s.on fun d => d.ownerRevoke r

/-- ROLLBACK_ADVANCE (R434). -/
def Device.rollback (d : Device) (r : SecReq) : Device :=
  d.secCommand 0x32 r.secure false fun d =>
    d.secCheck true (decide (r.arg ≤ 64)) secMalformed fun d =>
    d.secCheck true (d.sec.signed r.sig) secSignature fun d =>
    d.secCheck true (decide (d.sec.step < r.arg)) secRollback fun d =>
    d.secCheck true r.sig.otpOk secOtp fun d => (d.modSec fun s => { s with step := r.arg }).secResult true secDone

def execRollbackAdvance (r : SecReq) (s : State) : Out := s.on fun d => d.rollback r

/-- The signature that a transition needs (R435): a Zilvo-signed claim from Provisioned, an owner's from Owned, and to Scrapped
the one that the current state requires. -/
def Sec.lifecycleSigned (s : Sec) (g : SigOutcome) : Bool :=
  match s.lifecycle with
  | .owned => s.signed g
  | _ => g.good && g.zilvo

/-- LIFECYCLE (R435): it takes effect at the next power-on reset. -/
def Device.lifecycleCmd (d : Device) (r : SecReq) : Device :=
  d.secCommand 0x33 r.secure false fun d =>
    match Lifecycle.ofCode r.arg with
    | none => d.secResult true secMalformed
    | some l =>
      if !d.sec.lifecycle.canGo l then d.secRefuse true
      else
        d.secCheck true (d.sec.lifecycleSigned r.sig) secSignature fun d =>
        d.secCheck true r.sig.otpOk secOtp fun d => (d.modSec fun s => { s with nextLifecycle := some l, claim := if l = .owned then Config.sha384 r.bytes else s.claim }).secResult true secDone

def execLifecycle (r : SecReq) (s : State) : Out := s.on fun d => d.lifecycleCmd r

/-! ### Keys and entropy (R437 to R439) -/

/-- An enabled checker names the slot (R438). -/
def Device.slotNamed (d : Device) (k : Nat) : Bool :=
  (List.range 4).any fun set => (d.checkers set).any fun c => c.enable && c.gov.key == k

/-- A slot is loaded with a fresh random key, or refused when the entropy source is in error (R437, R438). -/
def Device.loadKey (d : Device) (k : Nat) : Device :=
  if d.sec.entropyErr then d.secResult true secEntropy
  else if d.slotNamed k then d.secResult true secSlotInUse
  else (d.modSec fun s => { s with keys := if s.keys.contains k then s.keys else k :: s.keys }).secResult true secDone

/-- KEY_SLOT (R437, R438): a request for random data stalls while the source restarts. -/
def Device.keySlot (d : Device) (r : SecReq) : Device :=
  d.secCommand 0x40 r.secure false fun d =>
    d.secCheck true (decide (2 ≤ r.arg) && decide (r.arg ≤ 15)) secMalformed fun d =>
      if d.sec.entropyStalled && !d.sec.entropyErr then
        d.modSec fun s => { s with stalledKeys := s.stalledKeys ++ [r.arg], secure := { s.secure with busy := true } }
      else d.loadKey r.arg

def execKeySlot (r : SecReq) (s : State) : Out := s.on fun d => d.keySlot r

/-- Requests that stalled for random data go on. -/
def Device.unstall (d : Device) : Device :=
  d.sec.stalledKeys.foldl (fun d k => d.loadKey k) (d.modSec fun s => { s with stalledKeys := [] })

/-- ENTROPY_HEALTH_FAIL (R437): the third failure in a row puts the source into error. -/
def Device.entropyFail (d : Device) : Device :=
  let n := d.sec.entropyFails + 1
  let d := d.modSec fun s => { s with entropyFails := n, entropyStalled := true, entropyErr := s.entropyErr || decide (3 ≤ n) }
  if d.sec.entropyErr then d.unstall else d

def execEntropyHealthFail (s : State) : Out := s.on fun d => d.entropyFail

/-- ENTROPY_SOURCE_RESTARTED (R437). -/
def Device.entropyBack (d : Device) : Device :=
  (d.modSec fun s => { s with entropyFails := 0, entropyStalled := false }).unstall

def execEntropySourceRestarted (s : State) : Out := s.on fun d => d.entropyBack

/-- ZEROING_DONE (R439): the ranges hold zeros, written under the settings before the move, and the move is READY. -/
def Device.zeroingDone (d : Device) (b : BlockId) : Device :=
  match b.rgnSet with
  | none => d
  | some set =>
    if (d.blk b).st = .loading ∧ d.zeroing set ∧ d.moveValid b then
      let d := (d.zeroRanges set).foldl (fun d r => d.zero (setBase set + r.1 * granule set) (setBase set + r.2 * granule set)) d
      d.setBlk b ((d.blk b).loaded true)
    else d

def execZeroingDone (b : BlockId) (s : State) : Out := s.on fun d => d.zeroingDone b

/-! ### Tamper and boot (R436, R445) -/

/-- TAMPER (R445): key slots, derived keys and link keys are zeroised, so that links fail; the count rises. -/
def Device.tamper (d : Device) : Device :=
  let d := d.modSec fun s => { s.zeroise with tampered := true, tamperCount := (s.tamperCount + 1) % 2 ^ 32, waiting := [], stalledKeys := [] }
  (List.range 8).foldl (fun d p => if (d.fab.port p).keyed then d.linkDown p else d) d

def execTamper (s : State) : Out := s.onKeep fun d => d.tamper

/-- A copy of an image is accepted in the present lifecycle state (R433, R434, R436). -/
def Sec.accepts (s : Sec) (i : BootImage) : Bool :=
  decide (s.step ≤ i.step) && decide (i.step ≤ 64) && (match s.lifecycle with
    | .owned => s.signed i.sig
    | .scrapped => false
    | _ => i.sig.good && i.sig.zilvo)

/-- Copy A, or copy B when A fails (R436). -/
def Sec.choose (s : Sec) (p : BootImage × BootImage) : Option BootImage :=
  if s.accepts p.1 then some p.1 else if s.accepts p.2 then some p.2 else none

/-- SECURE_BOOT (R432, R436): the PUF fails, recovery, a chain that stops at its second step, or milestone 2. A system reset
ends as the SEC starts. -/
def Device.secureBoot (d : Device) (r : BootOutcome) : Device :=
  if d.pwr.bringUp != 1 then d
  else
    let d := d.modPwr fun p => { p with inSysReset := false, sysPinLow := false }
    let code (n : Nat) : Device := d.modSec fun s => { s with boot := n }
    if !r.puf || d.sec.lifecycle == .scrapped then code 0xE1
    else match d.sec.choose r.secFw with
      | none => code 0xE2
      | some a =>
        let d := d.modSec fun s => { s with boot := 0 }
        match d.sec.choose r.fwc, d.sec.choose r.spc, d.sec.choose r.apc with
        | some b, some c, some e =>
          (d.modSec fun s => { s with digests := [a, b, c, e].flatMap fun i => i.digest.toList }).milestone 2
        | _, _, _ => d

def execSecureBoot (r : BootOutcome) (s : State) : Out := s.on fun d => d.secureBoot r

end Sys2Proof.Machine
end

