-- ==== Sys2Proof/Machine/FgwCmds.lean ====
section
/-! DEFINITION. Commands of the field gateway (chapter 13), transfers apart. -/

namespace Sys2Proof.Machine

open Sys2Proof

def Device.modFgw (d : Device) (f : Gateway → Gateway) : Device := { d with fgw := f d.fgw }
def Device.modFport (d : Device) (p : Nat) (f : FPort → FPort) : Device := d.modFgw fun g => g.setPort p (f (g.port p))
def Device.modNode (d : Device) (n : Nat) (f : Node → Node) : Device := d.modFgw fun g => g.setNode n (f (g.node n))
def Device.modMap (d : Device) (m : Nat) (f : MapRun → MapRun) : Device := d.modFgw fun g => g.setMap m (f (g.map m))

/-- Live counters of the gateway, by address (chapter 13). -/
def fgwGatedSent : Nat := fgwBase + 0x28
def fgwGatedHeld : Nat := fgwBase + 0x30
def fgwGatedExpired : Nat := fgwBase + 0x38
def fgwAuthFail : Nat := fgwBase + 0x40
def fgwRateDrops : Nat := fgwBase + 0x48
def fgwRuleDrops : Nat := fgwBase + 0x50

/-! ### Sending -/

/-- A port transmits (R361, R381). -/
def FPort.sends (p : FPort) : Bool := p.st == .active

/-- A port that is being castled takes no new work (R346). -/
def Device.portShut (d : Device) (p : Nat) : Bool := decide (p < 32) && (d.proc.watEntry p).moving

/-- A frame that a port sends (R362). -/
def Device.handFrame (d : Device) (p : Nat) (f : CFrame) : Device :=
  if (d.fgw.port p).sends && !d.portShut p then (d.note (.frame p f)).count (fportBase p + 0x18) 1 else d

/-- A frame of node 0 on a port. -/
def Device.ownFrame (d : Device) (p func dst src version : Nat) (payload : List Byte) : CFrame :=
  { port := p, medium := portMedium p (d.fgw.port p).canMode, func := func, dst := dst, src := src, payload := payload,
    authentic := true, version := if 16 ≤ p then version else 0 }

/-- Ports 0 to 31, which may carry Celet frames (R361). -/
def fieldPorts : List Nat := List.range 32

/-- The error register 0x1001 (R393). -/
def Device.errorReg (d : Device) : Nat :=
  let temp := d.pwr.anyQuad (fun q => decide (q.thermCeil < 9)) || d.pwr.hsLimit0 != 0 || d.pwr.hsLimit1 != 0
  let comm := d.fgw.nodes.any (fun n => n.2.st == .lost) || d.fab.st == .resigned
    || (List.range 8).any fun p => d.linkEnabled p && !d.linkActive p
  let v := 2 * b2n temp + 4 * b2n comm + 8 * b2n (d.arb.unacked != 0) + 16 * b2n d.dict.active.isNone + 32 * b2n d.stk.anyUncorr
  v + b2n (v != 0)

/-- An EMCY of node 0 for another cause, on every port; its code and its own data are not stated (R375; log entry 81). -/
def Device.sendEmcy (d : Device) : Device :=
  let f (i : Nat) : Nat := (Config.freeWord (d.fresh + i)).toNat
  let b := leBytes 2 (f 0) ++ leBytes 1 d.errorReg ++ leBytes 5 (f 1 + 2 ^ 32 * (f 2 % 256))
  fieldPorts.foldl (fun d p => d.handFrame p (d.ownFrame p fnEmcy 0xFFF 0 0x21 b)) { d with fresh := d.fresh + 3 }

/-- The EMCY of node 0 for a sample of the error register: code 0x1001, the sample, and the low 32 bits of its TN (R393). -/
def Device.errorEmcy (d : Device) (v : Nat) : Device :=
  let b := leBytes 2 0x1001 ++ leBytes 1 v ++ leBytes 4 d.tn ++ zeros 1
  fieldPorts.foldl (fun d p => d.handFrame p (d.ownFrame p fnEmcy 0xFFF 0 0x21 b)) d

/-! ### Receiving (R362, R363, R378, R379) -/

/-- The node that a frame comes from. -/
def Device.nodeOf (d : Device) (f : CFrame) : Option Nat := d.fgw.find (segmentOf f.port) f.src

/-- Version and medium of a frame fit its node, and its length its function code (R363). -/
def Device.frameFits (d : Device) (f : CFrame) : Bool :=
  lengthOk f && (f.medium == .ethernet) == decide (16 ≤ f.port) && (f.func == fnJoinReq || match d.nodeOf f with
    | none => false
    | some n =>
      let v := (d.fgw.node n).version
      (d.fgw.node n).port == f.port && (match f.medium with
        | .ethernet => f.version == v
        | .xl => decide (0x20 ≤ v)
        | _ => true))

/-- A dropped frame is counted (R363, R378). -/
def Device.ruleDrop (d : Device) : Device := d.count fgwRuleDrops 1

/-- The token bucket of a frame's node: whether the frame finds a token (R379). -/
def Device.takeToken (d : Device) (f : CFrame) : Device × Bool :=
  match d.nodeOf f with
  | none => (d, true)
  | some n =>
    let x := d.fgw.node n
    if f.func = fnHeartbeat ∨ x.rate = 0 then (d, true)
    else if 0 < x.tokens then (d.modNode n fun x => { x with tokens := x.tokens - 1 }, true)
    else ((d.modNode n fun x => { x with rateDrops := (x.rateDrops + 1) % 2 ^ 32 }).count fgwRateDrops 1, false)

/-- The version byte of a forwarded frame on Ethernet: that of the node it goes to, 2.1 to another (R362; log entry 167). -/
def Device.forwardVersion (d : Device) (f : CFrame) (p : Nat) : Nat :=
  if p < 16 then 0 else match d.fgw.find (segmentOf p) f.dst with
    | some n => (d.fgw.node n).version
    | none => 0x21

/-- A forward to another port, with the carriage translated; too long a payload is dropped (R378). -/
def Device.forwardFrame (d : Device) (f : CFrame) (p : Nat) : Device :=
  let m := portMedium p (d.fgw.port p).canMode
  if m.limit < f.payload.length then d.ruleDrop
  else d.handFrame p { f with port := p, medium := m, version := d.forwardVersion f p }

/-- What the rules make of a received frame: the device, and whether the Celet core gets the frame (R378, R379, R381). -/
def Device.ingress (d : Device) (f : CFrame) : Device × Bool :=
  let p := d.fgw.port f.port
  if p.st = .off ∨ p.st = .busOff ∨ d.portShut f.port = true then (d, false)
  else
    let d := (d.stampEvent (.ingress f.port)).count (fportBase f.port + 0x10) 1
    let d := if p.st = .alone then d.modFport f.port fun x => { x with st := .active } else d
    if !d.frameFits f then (d.ruleDrop, false)
    else
      match firstRule d.fgw.rules f with
      | none => (d.ruleDrop, false)
      | some r =>
        if r.act = .drop then (d.ruleDrop, false)
        else
          let (d, ok) := d.takeToken f
          if !ok then (d, false)
          else match r.act with
            | .forward => (d.forwardFrame f r.arg, false)
            | .ring =>
              let b := leBytes 4 (celetId f.func f.dst f.src) ++ leBytes 2 f.payload.length ++ zeros 2 ++ f.payload
              ((d.hubPublish Port.fgw true (r.arg % 512) b).getD d.ruleDrop, false)
            | _ => (d, true)

/-- A received frame of a function code, handled by the Celet core when the rules deliver it. -/
def Device.received (d : Device) (f : CFrame) (func : Nat) (core : Device → CFrame → Device) : Device :=
  let f := { f with func := func }
  let (d, ok) := d.ingress f
  if ok then core d f else d

/-! ### Joins (R364 to R367) -/

/-- JOIN_RSP (R364); version and number of a refusal are not stated (log entry 81). -/
def Device.joinAnswer (d : Device) (f : CFrame) (result version number : Nat) : Device :=
  let w := (Config.freeWord d.fresh).toNat
  let (v, n) := if result = 0 then (version, number) else (w % 256, w / 256 % 2 ^ 16)
  let b := f.payload.take 4 ++ leBytes 1 result ++ leBytes 1 v ++ leBytes 2 n
  { d with fresh := d.fresh + 1 }.handFrame f.port (d.ownFrame f.port fnJoinRsp 0xFFF 0 v b)

/-- An active node of the segment holds the serial under another vendor code (R365, result 4). -/
def Device.serialTaken (d : Device) (seg serial vendor : Nat) : Bool :=
  d.fgw.nodes.any fun p => p.2.st == .active && segmentOf p.2.port == seg && p.2.serial == serial && p.2.vendor != vendor

/-- A join that the rules deliver (R365, R366). The heartbeat period, key slot and rate limit of a new entry are not stated
(log entry 80). -/
def Device.joinNode (d : Device) (f : CFrame) : Device :=
  let b := f.payload
  let seg := segmentOf f.port
  let serial := field b 0 4
  let vendor := field b 4 2
  match chooseVersion (field b 6 1) (field b 7 1) f.medium with
  | none => d.joinAnswer f 1 0 0
  | some v =>
    if d.serialTaken seg serial vendor then d.joinAnswer f 4 0 0
    else
      let (t, d) := d.stamp
      let old := (d.fgw.findSerial seg serial vendor).filter fun n => (d.fgw.node n).st != .removed
      match old with
      | some n =>
        let d := d.modNode n fun x => { x with st := .active, version := v, port := f.port, lastHb := t }
        d.joinAnswer f 0 v (d.fgw.node n).number
      | none =>
        match d.fgw.freeEntry with
        | none => (d.exhausted 0x05).joinAnswer f 2 0 0
        | some n =>
          let wish := decide (1 ≤ f.src) && decide (f.src ≤ 0xFFE) && (d.fgw.find seg f.src).isNone
          match (if wish then some f.src else d.fgw.freeNumber seg) with
          | none => d.joinAnswer f 5 0 0
          | some num =>
            let w := (Config.freeWord d.fresh).toNat
            let rate := w / 2 ^ 16
            let node : Node :=
              { Node.init with serial := serial, vendor := vendor, version := v, st := .active, port := f.port, number := num,
                               keySlot := if w % 256 = 0xFF then none else some (w % 256), period := w / 256 % 256,
                               rate := rate, tokens := 4 * rate, lastHb := t }
            ({ d with fresh := d.fresh + 1 }.modFgw fun g => g.setNode n node).joinAnswer f 0 v num

/-- JOIN_REQ (R364 to R367): a request that no rule delivers is refused with result 3 (R378). -/
def Device.joinReq (d : Device) (f : CFrame) : Device :=
  let f := { f with func := fnJoinReq }
  let st := (d.fgw.port f.port).st
  if st = .off ∨ st = .busOff ∨ d.portShut f.port = true then d
  else
    let fits := d.frameFits f
    let (d, ok) := d.ingress f
    if ok then (if f.dst = 0 then d.joinNode f else d) else if fits then d.joinAnswer f 3 0 0 else d

def execJoinReq (f : CFrame) (s : State) : Out := s.on fun d => d.joinReq f

/-- A write of 0x7100:04: the selected entry goes at the next round boundary (R367). -/
def Device.nodeRemove (d : Device) : Device × Nat :=
  let n := d.fgw.selected
  if (d.fgw.node n).st = .free then (d, abState) else (d.modNode n fun x => { x with st := .removed }, 0)

/-- NODE_REMOVE (R367). -/
def execNodeRemove (s : State) : Out := s.on fun d => answer d.nodeRemove

/-! ### Heartbeats and emergencies (R374, R375) -/

/-- A heartbeat period of a node in tempos: field cycles of its group, or rounds (R367). -/
def Device.hbTempos (d : Device) (n : Nat) : Nat :=
  let x := d.fgw.node n
  let p := d.fgw.port x.port
  max 1 x.period * (if p.member then (d.fgw.group p.group).period else 1000)

/-- A heartbeat of a partner: it makes a LOST node ACTIVE again (R374). -/
def Device.nodeBeat (d : Device) (f : CFrame) : Device :=
  match d.nodeOf f with
  | none => d
  | some n =>
    if f.dst != 0 then d
    else
      let (t, d) := d.stamp
      d.modNode n fun x => { x with lastHb := t, st := if x.st = .lost then .active else x.st }

/-- NODE_HEARTBEAT (R374). -/
def execNodeHeartbeat (f : CFrame) (s : State) : Out := s.on fun d => d.received f fnHeartbeat Device.nodeBeat

/-- NODE_LOST (R374): three periods without a heartbeat. -/
def Device.nodeLost (d : Device) (n : Nat) : Device :=
  let x := d.fgw.node n
  if x.st = .active ∧ x.lastHb + 3 * d.hbTempos n * 1000 ≤ d.tb.dt then
    (d.modNode n fun x => { x with st := .lost }).sendEmcy
  else d

def execNodeLost (n : Nat) (s : State) : Out := s.on fun d => d.nodeLost n

/-- An EMCY of a partner: at most one of a node in 10 rounds goes on, the others count as rate drops (R375). -/
def Device.emcyIn (d : Device) (f : CFrame) : Device :=
  match d.nodeOf f with
  | none => d
  | some n =>
    let early := match (d.fgw.node n).emcyTn with
      | some t => decide (d.tn < t + 10000)
      | none => false
    if early then (d.modNode n fun x => { x with rateDrops := (x.rateDrops + 1) % 2 ^ 32 }).count fgwRateDrops 1
    else (d.modNode n fun x => { x with emcyTn := some d.tn }).note (.deliver f)

/-- EMCY (R375). -/
def execEmcy (f : CFrame) (s : State) : Out := s.on fun d => d.received f fnEmcy Device.emcyIn

/-- The device's own heartbeat, once per round on every port, while 0x7000:03 is TRUE (R374). -/
def Device.ownBeat (d : Device) : Device :=
  if d.dict.num 0x7000 0x03 = 1 then
    let n := (d.fgw.hbCount + 1) % 2 ^ 32
    let d := d.modFgw fun g => { g with hbCount := n }
    fieldPorts.foldl (fun d p => d.handFrame p (d.ownFrame p fnHeartbeat 0xFFF 0 0x21 (leBytes 1 NodeSt.active.code ++ leBytes 4 n))) d
  else d

/-! ### Maps (R371 to R373, R376, R377, R380) -/

/-- The settings of map slot m in effect. -/
def Device.mapCfg (d : Device) (m : Nat) : Option MapCfg :=
  (MapCfg.ofBytes (d.dict.val (0x7400 + m) 1)).filter fun c => c.dir != .empty

/-- A GATED or SAFETY map (R371). -/
def MapDir.guarded : MapDir → Bool
  | .gated | .safetyOut | .safetyIn => true
  | _ => false

/-- The partner of a map can speak it: the medium carries its length, and authentication needs version 1.1 or higher, a key slot
and a medium other than classical CAN (R371; log entry 54 for a map with AUTH set). -/
def Device.mapFits (d : Device) (c : MapCfg) : Bool :=
  let x := d.fgw.node c.node
  let m := portMedium x.port (d.fgw.port x.port).canMode
  let auth := c.auth || c.dir.guarded
  decide (c.node < nodeCount) && x.st != .free && decide (c.len + (if c.dir.guarded then 8 else 0) ≤ m.limit)
    && decide (c.len + (if auth then 8 else 0) ≤ m.capacity)
    && (!auth || (decide (0x11 ≤ x.version) && x.keySlot.isSome && m != .classic))

/-- A map slot record keeps the rules of R371. -/
def Device.mapOk (d : Device) (b : List Byte) : Bool :=
  match MapCfg.ofBytes b with
  | none => false
  | some c =>
    c.dir == .empty ||
      (d.mapFits c && decide (sramBase ≤ c.buffer) && decide (c.buffer + 16 + c.len ≤ sramBase + sramSize) && decide (c.ring < 512))

/-- A map runs in group g: its partner's port belongs to the group, which is enabled, and its partner, which may have joined again
in another version, still suits it (R361, R371). -/
def Device.mapIn (d : Device) (c : MapCfg) (g : Nat) : Bool :=
  let p := d.fgw.port (d.fgw.node c.node).port
  p.member && p.group == g && (d.fgw.group g).enable && d.mapFits c

/-- A slot is used: its partner's port belongs to an enabled group (R371). -/
def Device.mapUsed (d : Device) (c : MapCfg) : Bool := d.mapIn c (d.fgw.port (d.fgw.node c.node).port).group

/-- A failed authentication is counted (R377). -/
def Device.authFail (d : Device) (n : Nat) : Device :=
  (d.modNode n fun x => { x with authFail := (x.authFail + 1) % 2 ^ 32 }).count fgwAuthFail 1

/-- A frame of a receive map (R373); one with a trailer must be authentic and fresh (R376, R377). -/
def Device.mapFrame (d : Device) (f : CFrame) (dir : MapDir) : Device :=
  match d.mapCfg f.dst, d.nodeOf f with
  | some c, some n =>
    let auth := c.auth || dir == .safetyIn
    if !d.mapUsed c || c.dir != dir || c.node != n || f.payload.length != c.len + (if auth then 8 else 0) then d.ruleDrop
    else
      let fr := field f.payload c.len 4
      let x := d.fgw.map f.dst
      let take (d : Device) : Device := d.modMap f.dst fun x =>
        { x with got := some (f.payload.take c.len), overwritten := (x.overwritten + b2n x.got.isSome) % 2 ^ 32 }
      if !auth then take d
      else if f.authentic && (d.fgw.node n).keySlot.isSome && freshOk fr x.fRx then take (d.modMap f.dst fun x => { x with fRx := fr })
      else d.authFail n
  | _, _ => d.ruleDrop

/-- RXMAP (R373). -/
def execRxmap (f : CFrame) (s : State) : Out := s.on fun d => d.received f fnRxmap fun d f => d.mapFrame f .rx

/-- SAFETY (R377). -/
def execSafety (f : CFrame) (s : State) : Out := s.on fun d => d.received f fnSafety fun d f => d.mapFrame f .safetyIn

/-- A receive map's buffer: TN, flags with STALE in bit 0, then the data (R373; log entry 54). -/
def Device.writeBuffer (d : Device) (c : MapCfg) (stale : Bool) (data : Option (List Byte)) : Device :=
  let d := d.hubPut Port.fgw true (c.buffer + 8) (leBytes 8 (b2n stale))
  match data with
  | some b => (d.hubPut Port.fgw true c.buffer (leBytes 8 d.tn)).hubPut Port.fgw true (c.buffer + 16) b
  | none => d

/-- The receive maps of a group at its boundary (R373). -/
def Device.updateMaps (d : Device) (g : Nat) : Device :=
  (List.range 2048).foldl (fun d m =>
    match d.mapCfg m with
    | some c =>
      if (c.dir == .rx || c.dir == .safetyIn) && d.mapIn c g then
        match (d.fgw.map m).got with
        | some b => (d.writeBuffer c false (some b)).modMap m fun x => { x with got := none, silent := 0, stale := false }
        | none => d.modMap m fun x => { x with silent := x.silent + 1 }
      else d
    | none => d) d

/-- MAP_TIMEOUT (R373): a map that has been silent for its time-out of cycles. -/
def Device.mapTimeout (d : Device) (m : Nat) : Device :=
  match d.mapCfg m with
  | some c =>
    let x := d.fgw.map m
    if (c.dir == .rx || c.dir == .safetyIn) && decide (0 < c.timeout) && decide (c.timeout ≤ x.silent) && !x.stale then
      ((d.modMap m fun x => { x with stale := true }).writeBuffer c true none).sendEmcy
    else d
  | none => d

def execMapTimeout (map : Nat) (s : State) : Out := s.on fun d => d.mapTimeout map

/-- The newest published entry of a source ring: the device with the head past it, the entry, and the entries skipped
(R372). -/
def Device.newestEntry (d : Device) (n len : Nat) : Device × Option (List Byte) × Nat :=
  let r := d.ring n
  let k := r.fill
  if !r.enable || k == 0 then (d, none, 0)
  else
    let b := d.bytes (r.entryAddr r.head (k - 1)) (16 + len)
    match r.advance k with
    | some r' => (d.moveRing n r', some b, k - 1)
    | none => (d, none, 0)

/-- FRESH and ALLOW_DEGRADED (FGW.CFG). -/
def Device.fgwFresh (d : Device) : Nat := d.sw .fgw (fgwBase + 4) % 32
def Device.fgwDegraded (d : Device) : Bool := bitOf (d.sw .fgw (fgwBase + 4)) 5

/-- The freshness of a sender has run out: nothing more is sent on its key (R377). -/
def Device.wearKey (d : Device) (n : Node) : Device :=
  (d.modFgw fun g => { g with wornKeys := n.keySlot.getD 0xFF :: g.wornKeys }).sendEmcy

/-- Nothing more is sent on the key of a node (R377). -/
def Device.keyWorn (d : Device) (n : Node) : Bool := d.fgw.wornKeys.contains (n.keySlot.getD 0xFF)

/-- A covered frame goes to its port's transmit queue. Its transmission starts in time, and the frame is sent, or it stays in
the queue for GATED_EXPIRE: which, the port's traffic decides, so that it is free (R380; log entry 168). -/
def Device.queueGated (d : Device) (m p : Nat) (f : CFrame) : Device :=
  let starts := (Config.freeWord d.fresh).getLsbD 0
  let d := { d with fresh := d.fresh + 1 }
  if starts then (d.handFrame p f).count fgwGatedSent 1
  else d.modFport p fun x => { x with queue := x.queue ++ [⟨m, d.tn, f⟩] }

/-- The transmit map of an active partner at the boundary (R372, R376, R377, R380): without data a map sends nothing, but a GATED
map its hold frame. -/
def Device.sendMapOf (d : Device) (m : Nat) (c : MapCfg) (node : Node) : Device :=
  let (d, e, skip) := d.newestEntry c.ring c.len
  let d := match e with
    | some b => d.modMap m fun x =>
        { x with lastData := (b.drop 16).take c.len, lastBatch := field b 0 4, lastCand := field b 4 1, skipped := (x.skipped + skip) % 2 ^ 32 }
    | none => d
  let x := d.fgw.map m
  let gated := c.dir == .gated
  let held := x.lastData.length == c.len
  if !(d.fgw.port node.port).sends || d.portShut node.port || (!gated && !held) then d
  else
    let func := match c.dir with | .gated => fnGated | .safetyOut => fnSafety | _ => fnTxmap
    let auth := c.auth || c.dir != .tx
    if auth && d.keyWorn node then d
    else if auth && decide (2 ^ 32 - 1 ≤ x.fTx) then d.wearKey node
    else
      let ok := !gated || (held && covered d.arb.gateOpen d.tn d.fgwFresh d.fgwDegraded d.fgw.verdict x.lastBatch x.lastCand)
      let data := if ok then x.lastData else []
      let id := celetId func m node.number
      let payload := if auth then data ++ trailer (node.keySlot.getD 0xFF) id data x.fTx else data
      let f := d.ownFrame node.port func m node.number node.version payload
      let d := if auth then d.modMap m fun x => { x with fTx := x.fTx + 1 } else d
      if !gated then d.handFrame node.port f
      else if ok then d.queueGated m node.port f
      else (d.handFrame node.port f).count fgwGatedHeld 1

/-- One transmit map at the boundary: that of a lost partner stops (R374). -/
def Device.sendMap (d : Device) (m : Nat) (c : MapCfg) : Device :=
  let node := d.fgw.node c.node
  if node.st = .active then d.sendMapOf m c node else d

/-- The transmit maps of a group in ascending map number (R372). -/
def Device.sendMaps (d : Device) (g : Nat) : Device :=
  (List.range 2048).foldl (fun d m =>
    match d.mapCfg m with
    | some c => if c.dir.transmits && d.mapIn c g then d.sendMap m c else d
    | none => d) d

/-- GATED_EXPIRE (R380): a covered frame whose transmission has not started FRESH tempos after its check. -/
def Device.gatedExpire (d : Device) (p m : Nat) : Device :=
  let old (q : QFrame) : Bool := q.map == m && decide (q.checkTn + d.fgwFresh ≤ d.tn)
  if (d.fgw.port p).queue.any old then
    let n := ((d.fgw.port p).queue.filter old).length
    (d.modFport p fun x => { x with queue := x.queue.filter fun q => !old q }).count fgwGatedExpired n
  else d

def execGatedExpire (port map : Nat) (s : State) : Out := s.on fun d => d.gatedExpire port map

/-- Every node of a port's segment speaks 2.0 or higher, and the medium carries 16 bytes (R375; log entry 82). -/
def Device.longTime (d : Device) (p : Nat) : Bool :=
  portMedium p (d.fgw.port p).canMode != .classic
    && d.fgw.nodes.all fun x => x.2.st == .free || segmentOf x.2.port != segmentOf p || decide (0x20 ≤ x.2.version)

/-- The time object of a group (R375). -/
def Device.sendTime (d : Device) (g : Nat) : Device :=
  let master := if d.tb.sync = .none then 2 ^ 64 - 1 else ofSigned 64 d.masterTime
  fieldPorts.foldl (fun d p =>
    let x := d.fgw.port p
    if x.member && x.group == g then
      d.handFrame p (d.ownFrame p fnTime 0xFFF 0 0x21 (leBytes 8 d.tb.dt ++ (if d.longTime p then leBytes 8 master else [])))
    else d) d

/-! ### Ports (R359, R360, R381, R382) -/

/-- BUS_ALONE (R381): sixteen attempts without an acknowledgement. Each adds 8 to TEC until the port is error passive
(ISO 11898-1). -/
def Device.busAlone (d : Device) (p : Nat) : Device :=
  let x := d.fgw.port p
  if p < 16 ∧ x.st = .active then
    d.modFport p fun x => { x with st := .alone, busAlone := true, queue := [], probeTn := d.tn, errPassive := true,
                                   tec := if x.tec < 128 then 128 + x.tec % 8 else x.tec }
  else d

def execBusAlone (port : Nat) (s : State) : Out := s.on fun d => d.busAlone port

/-- PROBE (R381): single-shot, every 100 rounds; an acknowledged one ends the state. -/
def Device.probe (d : Device) (p : Nat) (acked : Bool) : Device :=
  let x := d.fgw.port p
  if x.st = .alone ∧ x.probeTn + 100000 ≤ d.tn then
    let d := (d.note (.frame p (d.ownFrame p fnProbe 0xFFF 0 0x21 []))).count (fportBase p + 0x18) 1
    d.modFport p fun x => { x with probeTn := d.tn, st := if acked then .active else .alone }
  else d

def execProbe (port : Nat) (acked : Bool) (s : State) : Out := s.on fun d => d.probe port acked

/-- A 10BASE-T1S port. -/
def isT1s (p : Nat) : Bool := decide (16 ≤ p) && decide (p ≤ 23)

/-- T1S_ALONE (R382). -/
def Device.t1sAlone (d : Device) (p : Nat) : Device := if isT1s p then d.modFport p fun x => { x with busAlone := true } else d

def execT1sAlone (port : Nat) (s : State) : Out := s.on fun d => d.t1sAlone port

/-- PLCA_FALLBACK and BEACON (R382): of a follower. The coordinator sends its BEACONs whether or not others answer. -/
def Device.setPlca (d : Device) (p : Nat) (up : Bool) : Device := if isT1s p && (d.fgw.port p).plcaId != 0 then d.modFport p fun x => { x with plca := up } else d

def execPlcaFallback (port : Nat) (s : State) : Out := s.on fun d => d.setPlca port false

def execBeacon (port : Nat) (s : State) : Out := s.on fun d => d.setPlca port true

/-- BUS_OFF (R381): TEC has passed the limit of ISO 11898-1; what ERRCNT then shows is not stated. -/
def Device.busOff (d : Device) (p : Nat) : Device :=
  if p < 16 ∧ (d.fgw.port p).st != .off then
    { d with fresh := d.fresh + 1 }.modFport p fun x => { x with st := .busOff, tec := (Config.freeWord d.fresh).toNat % 256 }
  else d

def execBusOff (port : Nat) (s : State) : Out := s.on fun d => d.busOff port

/-- BUS_OFF_RECOVERY (R381): the counters start again at 0, as ISO 11898-1 lays down. -/
def Device.busOffEnd (d : Device) (p : Nat) : Device :=
  if (d.fgw.port p).st = .busOff then d.modFport p fun x => { x with st := .active, tec := 0, recErr := 0, errPassive := false } else d

def execBusOffRecovery (port : Nat) (s : State) : Out := s.on fun d => d.busOffEnd port

/-- GATE_CYCLE_START (R360): a pending list takes effect at the first cycle start at or after its base time. -/
def Device.gateCycle (d : Device) (p now : Nat) : Device :=
  match (d.fgw.port p).gatesPending with
  | some l => if l.base ≤ now ∧ l.ok = true then d.modFport p fun x => { x with gates := some l, gatesPending := none } else d
  | none => d

def execGateCycleStart (port now : Nat) (s : State) : Out := s.on fun d => d.gateCycle port now

/-- Ports of the TSN switch (R359). -/
def switchPorts : List Nat := (List.range 12).map (· + 24)

/-- The switch learns an address (R359): no new one when its 8,192 entries are in use. -/
def Gateway.learn (g : Gateway) (f : EtherFrame) : Gateway :=
  let rest := g.macs.filter fun m => !(m.1 == f.src && m.2.1 == f.vlan)
  if rest.length < 8192 then { g with macs := (f.src, f.vlan, f.port) :: rest } else g

/-- ETHERNET_FRAME (R359): bridged under IEEE 802.1Q; frames longer than 2,000 bytes are not forwarded. -/
def Device.bridge (d : Device) (f : EtherFrame) : Device :=
  if !switchPorts.contains f.port || decide (2000 < f.bytes.length) || d.portShut f.port then d
  else
    let d := (d.stampEvent (.ingress f.port)).modFgw fun g => g.learn f
    let known := if bitOf f.dst 40 then none else d.fgw.macs.find? fun m => m.1 == f.dst && m.2.1 == f.vlan
    let out := match known with
      | some m => if m.2.2 = f.port then [] else [m.2.2]
      | none => switchPorts.filter fun p => p != f.port
    let out := out.filter fun p => !d.portShut p
    if out.isEmpty then d else (out.foldl (fun d p => d.stampEvent (.egress p)) d).note (.ether out f.bytes)

def execEthernetFrame (f : EtherFrame) (s : State) : Out := s.on fun d => d.bridge f

/-! ### Rules (R378) -/

/-- A write of a rule record: a new rule of the open shadow, or a refusal for exhaustion (R31, R378). -/
def Device.ruleCreate (d : Device) (b : List Byte) : Device × Nat :=
  if b.length != 16 then (d, abType)
  else if 8192 ≤ d.fgw.rulesOpen.length then (d.exhausted 0x0A, abResource)
  else match Rule.ofBytes b d.fgw.nextHandle d.fgw.nextOrder with
    | none => (d, abRange)
    | some r =>
      (d.modFgw fun g => { g with rulesOpen := g.rulesOpen ++ [r], nextHandle := (g.nextHandle + 1) % 2 ^ 16, nextOrder := g.nextOrder + 1 }, 0)

/-- RULE_CREATE (R378). -/
def execRuleCreate (bytes : List Byte) (s : State) : Out := s.on fun d => answer (d.ruleCreate bytes)

/-- A write of a handle deletes its rule from the open shadow. -/
def Device.ruleDelete (d : Device) (h : Nat) : Device × Nat :=
  if d.fgw.rulesOpen.any fun r => r.handle == h then
    (d.modFgw fun g => { g with rulesOpen := g.rulesOpen.filter fun r => r.handle != h }, 0)
  else (d, abRange)

/-- RULE_DELETE (R378). -/
def execRuleDelete (h : Nat) (s : State) : Out := s.on fun d => answer (d.ruleDelete h)

/-! ### The field cycle (R361) -/

/-- A field-cycle boundary of the group falls on the present tempo boundary and has not been taken. -/
def Device.cycleDue (d : Device) (g : Nat) : Bool :=
  let x := d.fgw.group g
  d.tb.started && x.boundaryAt d.tn && x.lastTn != some d.tn

/-- The gateway's actions of a field-cycle boundary: receive maps, the trigger event, transmit maps and the time object. -/
def Device.fieldCycle (d : Device) (g : Nat) : Device :=
  let n := ((d.fgw.group g).cycles + 1) % 2 ^ 64
  let d := d.modFgw fun x => x.setGroup g { x.group g with cycles := n, lastTn := some d.tn }
  let d := d.serveMoves (.fieldCycle g) n
  let d := (d.updateMaps g).triggerBy (trigNames 3 11 8 g)
  let d := d.sendMaps g
  if (d.fgw.group g).time then d.sendTime g else d

/-- The gateway's actions of a round boundary: tokens, removals and the heartbeat (R367, R374, R379). -/
def Device.fieldRound (d : Device) : Device :=
  let d := d.fgw.nodes.foldl (fun d p =>
    let x := p.2
    if x.st = .removed then d.modFgw fun g => g.setNode p.1 Node.init
    else d.modNode p.1 fun x => { x with tokens := min (4 * x.rate) (x.tokens + x.rate) }) d
  d.ownBeat

end Sys2Proof.Machine
end

