-- ==== Sys2Proof/Machine/DictOps.lean ====
section
/-! DEFINITION. The object dictionary (chapter 14): what its entries show, what checks an access meets, how writes are
staged and take effect, and profiles. -/

namespace Sys2Proof.Machine

open Sys2Proof

def Device.modDict (d : Device) (f : Dict → Dict) : Device := { d with dict := f d.dict }

/-! ### Entries that a register block holds (R388, R492) -/

/-- Where a setting lies: block, word, lowest bit, width. -/
structure Home where
  blk : BlockId
  word : Nat
  lo : Nat
  width : Nat
  deriving DecidableEq, Repr

/-- The settings that are dictionary entries too (chapters 02, 10 and 13). -/
def entryHome (ix sub : Nat) : Option Home :=
  let mce (o lo w : Nat) : Option Home := some ⟨.mceCore, mceBase + o, lo, w⟩
  match ix, sub with
  | 0x2020, 0x08 => some ⟨.tb, tbBase + 0x54, 0, 11⟩
  | 0x7000, 0x01 => some ⟨.fgw, fgwBase + 4, 0, 5⟩
  | 0x7000, 0x02 => some ⟨.fgw, fgwBase + 4, 5, 1⟩
  | 0xA000, 0x01 => some ⟨.mceModel, mceBase + 0x40, 0, 64⟩
  | 0xA000, 0x02 => some ⟨.mceModel, mceBase + 0x48, 0, 32⟩
  | 0xA000, 0x03 => mce 0x80 0 16
  | 0xA000, 0x04 => mce 0x80 16 16
  | 0xA000, 0x05 => mce 0x84 0 32
  | 0xA000, 0x06 => mce 0x88 0 32
  | 0xA000, 0x07 => mce 0x8C 0 10
  | 0xA000, 0x08 => mce 0x8C 16 13
  | 0xA000, 0x09 => mce 0x90 0 16
  | 0xA000, 0x0A => mce 0x90 16 16
  | 0xA000, 0x0B => mce 0x94 0 5
  | _, _ => none

/-- The value of a setting in a reading of words. -/
def Home.get (h : Home) (f : Nat → Nat) : Nat := if 32 < h.width then two f h.word else bits (f h.word) (h.lo + h.width - 1) h.lo

/-- The setting written into a table of words. -/
def Home.put (h : Home) (t : Tab Word) (v : Nat) : Tab Word :=
  if 32 < h.width then
    tput swReset (tput swReset t h.word (BitVec.ofNat 32 v)) (h.word + 4) (BitVec.ofNat 32 (v / 2 ^ 32))
  else
    let w := (tget swReset t h.word).toNat
    tput swReset t h.word (BitVec.ofNat 32 (w - bits w (h.lo + h.width - 1) h.lo * 2 ^ h.lo + v % 2 ^ h.width * 2 ^ h.lo))

/-- An accepted value goes into the open shadow. -/
def Device.putOpen (d : Device) (h : Home) (v : Nat) : Device :=
  d.setBlk h.blk { d.blk h.blk with opn := h.put (d.blk h.blk).opn v }

/-- The values that wait for block `b`, in order of acceptance. -/
def Device.waitingFor (d : Device) (b : BlockId) : List Staged := d.dict.staged.filter fun s => s.home == some b.key

def Staged.ix (s : Staged) : Nat := s.key / 256
def Staged.sub (s : Staged) : Nat := s.key % 256

/-- The firmware's seal (R492): the values that fall due by `at'` stand in the open shadow and MOVE_AT names the boundary. -/
def Device.fwSeal (d : Device) (b : BlockId) (at' : Nat) : Device :=
  let now (s : Staged) : Bool := s.home == some b.key && (s.sealed || decide (s.due ≤ at'))
  let d := (d.dict.staged.filter now).foldl (fun d s => match entryHome s.ix s.sub with
    | some h => d.putOpen h (leNat s.value)
    | none => d) d
  let d := d.modDict fun x => { x with staged := x.staged.map fun (s : Staged) => if now s then { s with sealed := true } else s }
  (d.setBlk b { d.blk b with moveAt := at' }).sealBlk b 0

/-- The earliest due TN of a list of staged values. -/
def earliest (l : List Staged) : Nat := (l.map Staged.due).foldl min ((l.headD ⟨0, [], .tempo, 0, 0, none, false⟩).due)

/-- Values that wait for a block with no move of theirs under way are sealed, again where a move of theirs was refused,
withdrawn, reverted or discarded (R492). -/
def Device.fwPump (d : Device) (b : BlockId) : Device :=
  let mine := d.waitingFor b
  if mine.isEmpty || (mine.any Staged.sealed && (d.blk b).pending) then d else d.fwSeal b (earliest mine)

/-- A newly accepted value joins the move under way when it falls due at the same boundary, and else waits for that boundary
(R388, R389). -/
def Device.fwAccept (d : Device) (b : BlockId) (due : Nat) : Device :=
  let under := (d.waitingFor b).filter Staged.sealed
  if under.isEmpty then d.fwPump b
  else if under.all fun s => decide (due ≤ s.due) then d.fwSeal b due
  else d

/-- The block accepts the values accepted so far together with one more (R388). -/
def Device.homeAccepts (d : Device) (h : Home) (v : Nat) : Bool :=
  let t := (d.waitingFor h.blk).foldl (fun t s => match entryHome s.ix s.sub with
    | some x => x.put t (leNat s.value)
    | none => t) (d.blk h.blk).eff
  let x := (d.setBlk h.blk { d.blk h.blk with opn := h.put t v }).sealBlk h.blk 0
  x.moveValid h.blk

/-- WITHDRAW, REVERT and the end of loading, with what the firmware then does (R44, R492). -/
def execWithdraw (b : BlockId) (s : State) : Out := s.on fun d => (d.withdrawBlk b).fwPump b

/-- REVERT (R44). -/
def execRevert (b : BlockId) (s : State) : Out := s.on fun d => (d.revertBlk b).fwPump b

/-- MOVE_LOADED (R39). -/
def execMoveLoaded (b : BlockId) (s : State) : Out := s.on fun d => (d.moveLoaded b).fwPump b

/-- The firmware looks after every block. -/
def Device.fwPumpAll (d : Device) : Device := BlockId.all.foldl Device.fwPump d

/-! ### Values (R383 to R385, and the chapter of each entry) -/

/-- The signer of an image and its owner slot. -/
def imageSigner (img : List Byte) : Nat := field img 7 1

/-- Entries with S set (R396). -/
def safetyEntries : List (Nat × Nat) :=
  (dictRows.filter DRow.s).flatMap fun r =>
    (List.range (r.ixHi + 1 - r.ixLo)).flatMap fun i => (List.range (r.subHi + 1 - r.subLo)).map fun j => (r.ixLo + i, r.subLo + j)

/-- The safety partition of an image equals the one in effect. -/
def Device.sameSafety (d : Device) (rs : List ProfRec) : Bool :=
  safetyEntries.all fun e => profileValue rs e.1 e.2 == d.dict.val e.1 e.2

/-- The fabric section of an image equals the one in effect. -/
def Device.sameFabric (d : Device) (rs : List ProfRec) : Bool :=
  [1, 2, 3, 4].all fun s => profileValue rs 0x2100 s == d.dict.val 0x2100 s

/-- The status word of a slot (chapter 14). -/
def Device.slotStatus (d : Device) (n : Nat) : Nat :=
  let img := d.dict.slot n
  if img.isEmpty then 0
  else
    let rs := d.dict.slotRecords n
    1 + 2 * b2n (d.dict.verified.contains n) + 4 * b2n (imageSigner img == 0x10) + 8 * (imageSigner img % 4)
      + 32 * b2n (match rs with | some r => d.sameSafety r | none => false)
      + 64 * b2n (match rs with | some r => d.sameFabric r | none => false) + 2 ^ 16 * imageStep img

/-- The die of a slab bank that counts spare rows (R180). -/
def bankDie (bank : Nat) : Nat := if bank < 1024 then bank / 256 % 2 else (bank - 1024) / 256 % 2

/-- Spare rows in use on a die. -/
def Device.sparesOn (d : Device) (die : Nat) : Nat := ((d.stk.spares.filter fun p => bankDie p.1 == die).map Prod.snd).foldl (· + ·) 0

/-- The highest of a range of sensors. -/
def Device.hottest (d : Device) (lo n : Nat) : Int := ((List.range n).map fun i => d.pwr.temp (lo + i)).foldl max (d.pwr.temp lo)

/-- A region's status byte (0x6020, 0x6021). -/
def Device.regionByte (d : Device) (k : Nat) : Nat :=
  let r := d.sec.region k
  b2n (r.phase == .ready) + 2 * b2n (r.phase == .moving || r.phase == .loading || r.phase == .readying) + 4 * r.slot

/-- "GLB-96A" or "GLB-96I". -/
def orderingCode : List Byte := [0x47, 0x4C, 0x42, 0x2D, 0x39, 0x36, if Config.grade then 0x49 else 0x41]

def Device.idVal (d : Device) (ix sub : Nat) : Option (List Byte) :=
  match ix, sub with
  | 0x1001, 0x00 => some (leBytes 1 d.errorReg)
  | 0x1018, 0x04 => some (leBytes 8 ownSerial)
  | 0x1018, 0x05 => some orderingCode
  | 0x1018, 0x06 => some (leBytes 1 (b2n Config.grade))
  | 0x2000, 0x01 => some (leBytes 1 (d.dict.active.getD 0xFF))
  | 0x2000, 0x03 => some (leBytes 1 d.dict.switchSt.code)
  | 0x2000, 0x04 => some (leBytes 1 d.dict.switchReason)
  | 0x2000, 0x05 => some (leBytes 1 d.dict.profileSel)
  | 0x2000, 0x06 => some (leBytes 8 d.dict.switchTn)
  | 0x2001, n => some (leBytes 4 (d.slotStatus (n - 1)))
  | 0x2020, 0x01 => some (leBytes 8 d.stamp.1)
  | 0x2020, 0x02 => some (leBytes 8 d.tn)
  | 0x2020, 0x03 => some (leBytes 1 d.tb.sync.code)
  | 0x2020, 0x04 => some (leBytes 8 (ofSigned 64 d.tb.offsetNow))
  | 0x2020, 0x05 => some (leBytes 8 (ofSigned 64 d.tb.stepSize))
  | 0x2020, 0x06 => some (leBytes 4 d.tb.stepCount)
  | 0x2020, 0x07 => some (leBytes 1 (b2n d.tb.inStep))
  | 0x2100, 0x06 => some (leBytes 1 (d.fab.id.getD 0xFF))
  | 0x2100, 0x07 => some (leBytes 1 d.fab.st.code)
  | 0x2100, 0x08 => some (leBytes 4 d.fab.cfgGen)
  | 0x2100, 0x09 => some (leBytes 8 d.fab.kingSerial)
  | 0x2200, 0x01 => some (leBytes 4 (if d.proc.endpoint then 0 else 1))
  | _, _ => none

/-- Entries of an instance (chapter 12). -/
def Device.instVal (d : Device) (i sub : Nat) : Option (List Byte) :=
  let x := d.proc.inst i
  match sub with
  | 0x01 => some (leBytes 4 x.bindWord)
  | 0x02 => some (leBytes 1 x.gen)
  | 0x03 => some (leBytes 2 x.intTgt)
  | 0x04 => some (leBytes 4 x.emuTimeouts)
  | _ => none

/-- Entries of a job (chapter 07). -/
def Device.jobVal (d : Device) (j sub : Nat) : Option (List Byte) :=
  let x := d.job j
  match sub with
  | 0x03 => some (leBytes 1 x.st.code)
  | 0x04 => some (leBytes 2 x.weight)
  | 0x05 => some (leBytes 1 x.quota)
  | 0x06 => some (leBytes 4 (maskOf x.held))
  | 0x07 => some (leBytes 1 x.variant)
  | 0x08 => some (leBytes 8 x.etime)
  | 0x09 => some (leBytes 4 x.restarts)
  | 0x0A => some (leBytes 4 x.faultWord)
  | 0x0B => some (leBytes 4 x.trigWord)
  | 0x0C => some (leBytes 4 x.ckpt)
  | 0x0D => some (leBytes 8 (ofSigned 64 x.deficit))
  | 0x0E => some (leBytes 1 (b2n x.autoRestart))
  | 0x0F => some (leBytes 1 x.createReason)
  | _ => none

/-- Entries of the memories, the Arbiter and the enclave (chapters 06, 15, 16). -/
def Device.memVal (d : Device) (ix sub : Nat) : Option (List Byte) :=
  match ix, sub with
  | 0x4000, 0x01 => some (leBytes 4 (d.sparesOn 0))
  | 0x4000, 0x02 => some (leBytes 4 (d.sparesOn 1))
  | 0x4000, 0x03 => some (leBytes 4 ((d.stk.spares.filter fun p => decide (32 ≤ p.2)).length))
  | 0x4001, 0x01 => some (leBytes 8 d.stk.slabCorr)
  | 0x4001, 0x02 => some (leBytes 8 d.stk.slabUncorr)
  | 0x4002, 0x01 => some (leBytes 8 d.stk.corr0)
  | 0x4002, 0x02 => some (leBytes 8 d.stk.corr1)
  | 0x4002, 0x03 => some (leBytes 8 d.stk.uncorr0)
  | 0x4002, 0x04 => some (leBytes 8 d.stk.uncorr1)
  | 0x4002, 0x05 => some (leBytes 4 d.stk.sealedFail)
  | 0x4003, 0x02 => some (leBytes 4 d.stk.passes)
  | 0x4004, 0x01 => some (leBytes 4 d.stk.retiredPages.length)
  | 0x5000, 0x03 => some (leBytes 4 (if d.dict.num 0x5000 0x01 = 1 then d.operatingHours else 0))
  | 0x5100, 0x01 => some (leBytes 1 d.arb.logCount)
  | 0x5100, 0x02 => some (leBytes 2 d.arb.logLost)
  | 0x5100, 0x04 => some (d.arb.newest (d.dict.num 0x5100 0x03))
  | 0x6000, 0x01 => some (leBytes 1 d.sec.lifecycle.code)
  | 0x6000, 0x02 => some (leBytes 1 d.sec.step)
  | 0x6000, 0x03 => some (leBytes 4 d.sec.tamperCount)
  | 0x6001, n => some (leBytes 1 (b2n (bitOf d.sec.owners (n - 1)) + 2 * b2n (bitOf d.sec.revoked (n - 1))))
  | 0x6020, n => some (leBytes 1 (d.regionByte (n - 1)))
  | 0x6021, n => some (leBytes 1 (d.regionByte (64 + (n - 1))))
  | _, _ => none

/-- Entries of the gateway, power, telemetry, the MCE and the pipes (chapters 10, 11, 13, 14, 17). -/
def Device.unitVal (d : Device) (ix sub : Nat) : Option (List Byte) :=
  match ix, sub with
  | 0x7100, 0x01 => some (leBytes 2 d.fgw.used)
  | 0x7100, 0x02 => some (leBytes 2 d.fgw.selected)
  | 0x7100, 0x03 => some (d.fgw.node d.fgw.selected).bytes
  | 0x7200, 0x03 => some (leBytes 2 d.fgw.rules.length)
  | 0x8000, 0x02 => some (leBytes 4 d.pwr.roundMw)
  | 0x8000, 0x03 => some (leBytes 1 d.pwr.bringUp)
  | 0x8000, 0x04 => some (d.pwr.milestones.flatMap fun t => leBytes 4 t)
  | 0x8000, 0x05 => some (leBytes 1 d.pwr.hs0.code)
  | 0x8000, 0x06 => some (leBytes 1 d.pwr.hs1.code)
  | 0x8000, 0x07 => some (leBytes 1 d.pwr.resetCause)
  | 0x8000, 0x08 => some (leBytes 1 (min 255 d.pwr.excursion))
  | 0x8000, 0x09 => some (leBytes 2 (ofSigned 16 (d.hottest 0 44)))
  | 0x8000, 0x0A => some (leBytes 2 (ofSigned 16 (d.hottest 44 4)))
  | 0x8000, 0x0B => some (leBytes 1 (b2n d.pwr.crystalStopped))
  | 0x9000, 0x01 => some (leBytes 8 d.dict.logged)
  | 0x9000, 0x02 => some (leBytes 4 d.dict.overwritten)
  | 0x9000, 0x04 => some (d.dict.eventAt (d.dict.num 0x9000 0x03))
  | 0xA000, 0x0C => some (leBytes 1 (b2n d.mce.rayEnable))
  | 0xA000, 0x0D => some (leBytes 1 (field d.mce.last 16 1))
  | 0xA000, 0x0E => some (leBytes 8 d.mce.epoch)
  | 0xA000, 0x0F => some (leBytes 8 (d.noc.counter (mceBase + 0x180)).val)
  | 0xA000, 0x10 => some (leBytes 4 (d.noc.counter (mceBase + 0x168)).val)
  | 0xA000, 0x11 => some (leBytes 4 (d.noc.counter (mceBase + 0x158)).val)
  | _, _ => none

/-- Entries of a display pipe. -/
def Device.pipeVal (d : Device) (p sub : Nat) : Option (List Byte) :=
  match sub with
  | 0x01 => some (leBytes 4 (d.pipePeriod p))
  | 0x02 => some (leBytes 8 (d.pipeAnchor p))
  | 0x03 => some (leBytes 8 (d.gfx.pipe p).frame)
  | 0x04 => some (leBytes 2 (d.gfx.pipe p).mismatch)
  | _ => none

/-- What another part of the device shows at an entry; none where the dictionary holds the value itself. -/
def Device.liveVal (d : Device) (ix sub : Nat) : Option (List Byte) :=
  match entryHome ix sub, dictRow ix sub with
  | some h, some r => some (leBytes (r.type.len.getD 4) (h.get (d.sw h.blk)))
  | _, _ =>
    if 0x2201 ≤ ix ∧ ix ≤ 0x221F then d.instVal (ix - 0x2200) sub
    else if 0x3100 ≤ ix ∧ ix ≤ 0x313F then d.jobVal (ix - 0x3100) sub
    else if ix = 0x3000 then some (if sub = 9 then leBytes 4 d.sched.oos else leBytes 8 (tget zeroDef d.sched.reservations sub))
    else if 0xB000 ≤ ix ∧ ix ≤ 0xB001 then d.pipeVal (ix - 0xB000) sub
    else match d.idVal ix sub with
      | some v => some v
      | none => (d.memVal ix sub).or (d.unitVal ix sub)

/-- The value in effect of an entry; the highest subindex at subindex 00 of an index with more (R385). -/
def Device.dictVal (d : Device) (ix sub : Nat) : List Byte :=
  if sub = 0 ∧ highestSub ix ≠ 0 then leBytes 1 (highestSub ix) else (d.liveVal ix sub).getD (d.dict.val ix sub)

/-! ### Values that take effect -/

/-- A value takes effect at its boundary, or when it is accepted (R388). -/
def Device.takeEffect (d : Device) (ix sub : Nat) (v : List Byte) : Device :=
  if ix = 0x3000 then d.reserve sub (leNat v)
  else if 0x3100 ≤ ix ∧ ix ≤ 0x313F then
    d.modJob (ix - 0x3100) fun x => match sub with
      | 0x04 => { x with weight := leNat v }
      | 0x05 => { x with quota := leNat v }
      | _ => { x with autoRestart := leNat v == 1 }
  else if ix = 0xA000 ∧ sub = 0x0C then d.modMce fun m => { m with rayEnable := leNat v == 1 }
  else if 0xB000 ≤ ix ∧ ix ≤ 0xB001 then d.putRegs (pipeBase (ix - 0xB000) + (if sub = 1 then 8 else 0x10)) v
  else if ix = 0x7100 then d.modFgw fun g => { g with selected := leNat v }
  else d.modDict fun x => x.setVal ix sub v

/-- Staged values of entries without a block take effect. -/
def Device.takeStaged (d : Device) (p : Staged → Bool) : Device :=
  let now (s : Staged) : Bool := s.home.isNone && p s
  let l := d.dict.staged.filter now
  let d := d.modDict fun x => { x with staged := x.staged.filter fun s => !now s }
  l.foldl (fun d s => d.takeEffect s.ix s.sub s.value) d

/-- The group whose boundary a value of a map slot waits for: that of the new partner, else of the old one (R388); with
neither, every group's. -/
def Device.slotGroup (d : Device) (m : Nat) (v : List Byte) : Option Nat :=
  let g (b : List Byte) : Option Nat := match (MapCfg.ofBytes b).filter (fun c => c.dir != .empty) with
    | none => none
    | some c => let p := d.fgw.port (d.fgw.node c.node).port; if p.member then some p.group else none
  (g v).or (g (d.dict.val (0x7400 + m) 1))

/-- The dictionary's part of a field-cycle boundary of group `g`. -/
def Device.dictCycle (d : Device) (g : Nat) : Device :=
  d.takeStaged fun s => s.kind == .fieldCycle && decide (s.due ≤ d.tn)
    && (match d.slotGroup (s.ix - 0x7400) s.value with | some x => x == g | none => true)

/-- The dictionary's part of a tempo or round boundary. -/
def Device.dictBoundary (d : Device) (k : BKind) : Device := d.takeStaged fun s => s.kind == k && decide (s.due ≤ d.tn)

/-! ### Profiles (R395 to R402) -/

/-- Rules on a value that hold whatever the state of the device (R387, R397). -/
def staticOk (ix sub : Nat) (v : List Byte) : Bool :=
  let n := leNat v
  let within (lo hi : Nat) : Bool := decide (lo ≤ n) && decide (n ≤ hi)
  match ix with
  | 0x2000 => decide (n ≤ 3) || sub == 8
  | 0x2020 => within 50 1000
  | 0x2100 => match sub with | 3 => within 0 8 | 4 => within 1 2 | 5 => within 0 31 | _ => true
  | 0x3000 => decide (n < 2 ^ 38)
  | 0x4003 => within 8 107
  | 0x5000 => sub != 1 || within 0 1
  | 0x5010 => (TaskRec.ofBytes v).valid
  | 0x5020 => within 1 60
  | 0x5100 => within 0 63
  | 0x5101 => within 0 63
  | 0x7000 => sub != 1 || within 1 16
  | 0x7100 => sub != 2 || within 0 4095
  | 0x8000 => match sub with
    | 0x01 => within 20 180
    | 0x0D => n == 0 || (DateTime.ofWords (BitVec.ofNat 32 n) (BitVec.ofNat 32 (n / 2 ^ 32))).valid
    | 0x0F => within 600 1500 && n % 100 == 0
    | _ => true
  | 0x9000 => within 0 1023
  | 0xA000 => match sub with
    | 0x01 => decide (n < 2 ^ 40)
    | 0x02 => within 5000 100000
    | 0x07 => within 1 1000
    | 0x08 => n % 2 ^ 5 + 2 ^ 8 * bits n 12 8 == n && decide (n % 2 ^ 5 ≤ bits n 12 8)
    | 0x0B => within 1 16
    | _ => true
  | 0xB000 => sub != 1 || within 8333 100000
  | 0xB001 => sub != 1 || within 8333 100000
  | _ =>
    if 0x7400 ≤ ix ∧ ix ≤ 0x7BFF then (MapCfg.ofBytes v).isSome
    else if 0x3100 ≤ ix ∧ ix ≤ 0x313F then (match sub with | 0x02 => within 1 4 | 0x04 => within 1 1000 | 0x05 => within 1 32 | _ => true)
    else true

/-- A body record names a persistent entry, carries its type and holds a value that it accepts (R397). -/
def ProfRec.ok (r : ProfRec) : Bool :=
  match dictRow r.ix r.sub with
  | none => false
  | some d => d.p && d.type.code == r.type && d.type.lenOk r.value && d.type.legal r.value && staticOk r.ix r.sub r.value

/-- The reservations that a list of records leaves reserve no engine twice (R192, R397). -/
def reservationsApart (rs : List ProfRec) : Bool :=
  let w (k : Nat) : Nat := leNat (profileValue rs 0x3000 k) % 2 ^ 32
  (List.range 8).all fun i => (List.range i).all fun j => Nat.land (w (i + 1)) (w (j + 1)) == 0

/-- The records stand in ascending index and subindex. -/
def ascending (rs : List ProfRec) : Bool :=
  (rs.zip rs.tail).all fun p => decide (dictKey p.1.ix p.1.sub < dictKey p.2.ix p.2.sub)

def sha48 (b : List Byte) : List Byte := (Config.sha384 b ++ zeros 48).take 48

/-- The trailer of an image that the device signs (R395, R398). -/
def deviceTrailer (b : List Byte) : List Byte := (Config.sign profileKey b ++ zeros 3405).take 3405

/-- Both signatures of an image verify under a key that is not revoked (R397). -/
def Device.imageSigned (d : Device) (img : List Byte) : Bool :=
  if imageSigner img = 0x10 then img.drop (img.length - 3405) == deviceTrailer (img.take (img.length - 3405))
  else d.sec.ownerOk (imageSigner img) && Config.profileSigned img

/-- The first of reasons 1 to 4 that keeps an image from being valid, 0 for none (R397, R400, R434). -/
def Device.imageReason (d : Device) (img : List Byte) : Nat :=
  if img.isEmpty then 1
  else if !d.imageSigned img then 2
  else if imageStep img < d.sec.step then 3
  else match imageRecords img with
    | none => 4
    | some rs =>
      if decide (imageStep img ≤ 64) && rs.all ProfRec.ok && ascending rs && reservationsApart rs
          && sha48 (recBytes (safetyPart rs)) == (img.drop 16).take 48 then 0 else 4

/-- The reason to refuse a switch to a slot, 0 for none (R400). -/
def Device.switchReason (d : Device) (n : Nat) : Nat :=
  let r := d.imageReason (d.dict.slot n)
  if r != 0 then r
  else match d.dict.slotRecords n with
    | none => 4
    | some rs =>
      if !d.sameSafety rs then 5
      else if (d.fab.st == .member || d.fab.st == .resigned) && !d.sameFabric rs then 6
      else 0

/-- The persistent values in effect as an image signed by the device (R395, R398). -/
def Device.saveImage (d : Device) (slot : Nat) : List Byte :=
  let rs := persistent.map fun e =>
    (⟨e.1, e.2, ((dictRow e.1 e.2).map fun r => r.type.code).getD 0, d.dictVal e.1 e.2⟩ : ProfRec)
  let b := leBytes 4 0x4652_505A ++ leBytes 2 1 ++ leBytes 1 slot ++ leBytes 1 0x10 ++ leBytes 4 rs.length
    ++ leBytes 2 d.sec.step ++ zeros 2 ++ sha48 (recBytes (safetyPart rs)) ++ recBytes rs
  b ++ deviceTrailer b

/-- The entries of a list that block `b` holds and whose values are to change. -/
def Device.changed (d : Device) (b : BlockId) (es : List (Nat × Nat)) (val : Nat → Nat → List Byte) : List ((Nat × Nat) × Home) :=
  es.filterMap fun e => match entryHome e.1 e.2 with
    | some h => if h.blk = b ∧ h.get (d.sw b) ≠ leNat (val e.1 e.2) then some (e, h) else none
    | none => none

/-- The firmware writes new values of a block into the open shadow and seals it for the present boundary (R389, R401, R492):
the seal supersedes a move that is under way (R42), carries the whole open shadow, and is READY, or refused, by then. -/
def Device.firmwareSeal (d : Device) (b : BlockId) (es : List (Nat × Nat)) (val : Nat → Nat → List Byte) : Device :=
  let mine := d.changed b es val
  if mine.isEmpty then d
  else
    let x := d.blk b
    let d := d.setBlk b { x with opn := mine.foldl (fun t m => m.2.put t (leNat (val m.1.1 m.1.2))) x.opn, moveAt := d.tn }
    (d.sealBlk b 0).moveLoaded b

/-- The blocks that hold dictionary entries. -/
def homeBlocks : List BlockId := [.tb, .fgw, .mceModel, .mceCore]

/-- Every entry of a list takes its value from `val`: field-cycle entries at their next boundary when `wait` is set, the
others now, those of one block as one move, which at a boundary (`wait`) has been sealed before it; a move that its block does
not accept is staged (R401, R492). -/
def Device.takeValues (d : Device) (es : List (Nat × Nat)) (val : Nat → Nat → List Byte) (wait : Bool) : Device :=
  let seq := d.dict.switchSeq
  let stage (d : Device) (e : Nat × Nat) (k : BKind) (h : Option Nat) : Device :=
    d.modDict fun x => { x with staged := x.staged ++ [⟨dictKey e.1 e.2, val e.1 e.2, k, d.tn, seq, h, false⟩] }
  let d := es.foldl (fun d e =>
    if (entryHome e.1 e.2).isSome then d
    else if wait && decide (0x7400 ≤ e.1) && decide (e.1 ≤ 0x7BFF) then
      (if val e.1 e.2 = d.dictVal e.1 e.2 then d else stage d e .fieldCycle none)
    else if val e.1 e.2 = d.dictVal e.1 e.2 then d
    else d.takeEffect e.1 e.2 (val e.1 e.2)) d
  homeBlocks.foldl (fun d b =>
    let mine := d.changed b es val
    if mine.isEmpty then d
    else
      let x := if wait then d else d.firmwareSeal b es val
      if (x.blk b).st = .ready ∧ wait = false then x.applyBlk b
      else (mine.foldl (fun d m => stage d m.1 (if b = .mceModel then .round else .tempo) (some b.key)) x).fwPump b) d

/-- Persistent entries that a verified switch replaces: not those written after the switch was accepted (R401). -/
def Device.replaced (d : Device) : List (Nat × Nat) :=
  persistent.filter fun e => decide (tget zeroDef d.dict.lastWrite (dictKey e.1 e.2) ≤ d.dict.switchSeq)

/-- A verified profile is in effect from slot `n`. -/
def Device.profileIn (d : Device) (n : Nat) : Device :=
  let d := d.modDict fun x => { x with active := some n, verified := if x.verified.contains n then x.verified else n :: x.verified }
  { d with arb := { d.arb with profileOk := true }, sec := { d.sec with profileDigest := sha48 (d.dict.slot n) } }

/-- The slot of a READY switch that applies at the present round boundary, with its records (R401). -/
def Device.switchNow (d : Device) : Option (Nat × List ProfRec) :=
  match d.dict.switchTo with
  | some n => if d.dict.switchSt = .ready ∧ d.dict.readyTn ≤ d.tn then (d.dict.slotRecords n).map fun rs => (n, rs) else none
  | none => none

/-- Writes that the profile overwrites are no longer staged (R401). -/
def Device.dropReplaced (d : Device) : Device :=
  let keys := d.replaced.map fun e => dictKey e.1 e.2
  d.modDict fun x => { x with staged := x.staged.filter fun s => !(keys.contains s.key && decide (s.seq ≤ x.switchSeq)) }

/-- The profile's values stand sealed in their blocks when the round boundary comes at which the switch applies, so that they
take effect there as one move of each block (R42, R389, R401). -/
def Device.profileSeal (d : Device) : Device :=
  match d.switchNow with
  | some (_, rs) => homeBlocks.foldl (fun x b => x.firmwareSeal b d.replaced (profileValue rs)) d.dropReplaced
  | none => d

/-- A READY switch applies at a round boundary (R401). -/
def Device.profileApply (d : Device) : Device :=
  match d.switchNow with
  | some (n, rs) =>
    let x := d.dropReplaced.modDict fun x => { x with switchTo := none, switchSt := .applied, switchTn := d.tn }
    ((x.takeValues d.replaced (profileValue rs) true).profileIn n).event evProfileApplied none n
  | none => d

/-- A write of 0x2000:02 (R400, R402). -/
def Device.profileSwitch (d : Device) (n : Nat) : Device × Nat :=
  if 3 < n ∨ d.dict.active = some n then (d, abRange)
  else
    (d.modDict fun x =>
      { x with seq := x.seq + 1, switchSeq := x.seq + 1, switchTo := some n,
               switchSt := if x.switchTo.isSome then .superseded else .verifying }, 0)

/-- PROFILE_SWITCH (R400). -/
def execProfileSwitch (slot : Nat) (s : State) : Out := s.on fun d => answer (d.profileSwitch slot)

/-- The verification of the requested slot ends (R400): READY, or REFUSED with a reason. -/
def Device.profileVerified (d : Device) : Device :=
  match d.dict.switchTo with
  | some n =>
    if d.dict.switchSt = .ready then d
    else
      let r := d.switchReason n
      if r = 0 then
        let (t, d) := d.stamp
        d.modDict fun x =>
          { x with switchSt := .ready, readyTn := (t + 2999) / 1000, verified := if x.verified.contains n then x.verified else n :: x.verified }
      else
        (d.modDict fun x => { x with switchTo := none, switchSt := .refused, switchReason := r }).event evProfileRefused none r
  | none => d

/-- PROFILE_VERIFIED (R400). -/
def execProfileVerified (s : State) : Out := s.on fun d => d.profileVerified

/-- A store operation may begin on a slot (R398). -/
def Device.storeFree (d : Device) (n : Nat) : Bool := d.dict.store.isNone && d.dict.switchTo != some n

def Device.storeStart (d : Device) (n : Nat) (img : List Byte) : Device × Nat :=
  if d.storeFree n then (d.modDict fun x => { x with store := some ⟨n, img⟩ }, 0) else (d, abState)

/-- A write of 0x2000:07 (R398): the values in effect now. -/
def Device.profileSave (d : Device) (n : Nat) : Device × Nat := if 3 < n then (d, abRange) else d.storeStart n (d.saveImage n)

/-- PROFILE_SAVE (R398). -/
def execProfileSave (slot : Nat) (s : State) : Out := s.on fun d => answer (d.profileSave slot)

/-- A write of 0x2000:08 (R398): an image that is not valid is refused with RANGE. -/
def Device.profileImport (d : Device) (img : List Byte) : Device × Nat :=
  if 2 ^ 20 < img.length then (d, abType)
  else if d.imageReason img != 0 then (d, abRange)
  else d.storeStart (field img 6 1) img

/-- PROFILE_IMPORT (R398). -/
def execProfileImport (img : List Byte) (s : State) : Out := s.on fun d => answer (d.profileImport img)

/-- A write of 0x2000:09 (R398). -/
def Device.profileErase (d : Device) (n : Nat) : Device × Nat := if 3 < n then (d, abRange) else d.storeStart n []

/-- PROFILE_ERASE (R398). -/
def execProfileErase (slot : Nat) (s : State) : Out := s.on fun d => answer (d.profileErase slot)

/-- PROFILE_STORE_DONE (R398): the slot's content is replaced whole. -/
def Device.storeDone (d : Device) : Device :=
  match d.dict.store with
  | none => d
  | some o => d.modDict fun x =>
      { x with store := none, slots := tput slotImgDef x.slots o.slot o.image,
               verified := if o.image.isEmpty then x.verified.filter fun n => n != o.slot
                 else if x.verified.contains o.slot then x.verified else o.slot :: x.verified }

def execProfileStoreDone (s : State) : Out := s.on fun d => d.storeDone

/-- PROFILE_LOAD (R399): the slot that the pins select, or every default with event 0x000C and the gate closed; it is tried
once in each reset, when the firmware runs. -/
def Device.profileLoad (d : Device) : Device :=
  if d.pwr.profileTried || decide (d.pwr.bringUp < 2) then d
  else
    let n := d.dict.profileSel
    let r := d.imageReason (d.dict.slot n)
    let d := d.modPwr fun p => { p with profileTried := true }
    let d := match r, d.dict.slotRecords n with
      | 0, some rs => (d.takeValues persistent (profileValue rs) false).profileIn n
      | _, _ =>
        let d := d.takeValues persistent (fun ix sub => dictDefault (dictKey ix sub)) false
        (d.event evProfileNotLoaded none (if r = 0 then 4 else r)).arbGate 0x0F none
    d.fieldReady

def execProfileLoad (s : State) : Out := s.on fun d => d.profileLoad

end Sys2Proof.Machine
end

