-- ==== Sys2Proof/Machine/WorldCmds.lean ====
section
/-! DEFINITION. Worlds, castling, invalidations and device instances (chapter 12). -/

namespace Sys2Proof.Machine

open Sys2Proof

def Device.modProc (d : Device) (f : Proc → Proc) : Device := { d with proc := f d.proc }

/-! ### Worlds (R334, R344) -/

/-- A hart has run since its predictors were cleared. -/
def Device.hartRuns (d : Device) (h : Nat) : Device :=
  d.modProc fun p => { p with harts := tput hartDef p.harts h { p.hart h with predictors := true } }

/-- A hart is visible to the debugger: at level 1 an APC hart is only while MWORLD is 0 (R475). -/
def Device.dmVisible (d : Device) (k h : Nat) : Bool := k != 0 || d.dbg.level != 1 || !(d.proc.hart h).mworld

/-- A machine-mode write of MWORLD; a change of world clears the untagged predictors (R334, R344), and a halt request or a single
step that waits for the non-secure world ends there (R475). A halted hart executes no such write. -/
def Device.mworldWrite (d : Device) (h : Nat) (w : Bool) : Device :=
  if ((d.dbg.module 0).hart h).halted then d
  else
    let x := d.proc.hart h
    let d := d.modProc fun p => { p with harts := tput hartDef p.harts h ⟨w, x.predictors && x.mworld == w⟩ }
    { d with dbg := d.dbg.setModule 0 ((d.dbg.module 0).settle 0 (d.dmVisible 0)) }

/-- MWORLD_WRITE (R334). -/
def execMworldWrite (hart : Fin 16) (w : Bool) (s : State) : Out := s.on fun d => d.mworldWrite hart w

/-! ### Castling (R345 to R347) -/

/-- The new owner exists: an instance is active; a VM, the host and the safety partition always do. -/
def Device.ownerExists (d : Device) (r : CastleReq) : Bool := r.kind != 2 || (d.proc.inst r.inst).active

/-- The unit lock of a WAT entry, 0x6010 (R345). -/
def Device.unitLocked (d : Device) (u : Nat) : Bool := decide (u < 0x3B) && d.dict.num 0x6010 (u + 1) != 0

/-- The refusal reason of a castling request, 0 when it is accepted (R345). -/
def Device.castleReason (d : Device) (r : CastleReq) : Nat :=
  let e := d.proc.watEntry r.unit
  if !castable r.unit then 1
  else if !r.secure && (e.world || r.world) then 2
  else if d.unitLocked r.unit then 3
  else if (d.proc.castling r.unit).isSome then 4
  else if !d.ownerExists r then 5
  else if (r.unit == 0x24 || r.unit == 0x25) && (List.range 16).any (d.regionOn (r.unit - 0x24)) then 6
  else 0

/-- A castling request: quiesce starts, or the request is refused (R345, R346). -/
def Device.castle (d : Device) (r : CastleReq) : Device :=
  let c := d.castleReason r
  if c = 0 then d.modProc fun p => { p with
    castlings := tins (tdel p.castlings r.unit) r.unit ⟨r.world, r.kind, r.vmid, r.inst, r.ctx, r.secure, false⟩,
    wat := tput watDef p.wat r.unit { p.watEntry r.unit with moving := true } }
  else (d.modProc fun p => { p with castleResult := some (r.unit, c) }).note (.castle r.unit c)

/-- CASTLE (R345): the request of the mailbox is taken up (log entry 78). -/
def execCastle (r : CastleReq) (s : State) : Out := s.on fun d => { d with sec := d.sec.takeUp r.secure 0x01 }.castle r

/-- The remaining read tags of a port become orphans (R232). -/
def Device.fencePort (d : Device) (p : Port) : Device :=
  d.modPort p fun x => { x with
    inflight := x.inflight.map fun i => if i.tag.isSome then { i with orphan := true } else i,
    held := [], stalled := [] }

/-- The words of a block in [lo, hi) return to reset in every copy. -/
def Device.resetWords (d : Device) (b : BlockId) (lo hi : Nat) : Device :=
  let clr (t : Tab Word) : Tab Word := t.filter fun p => !(decide (lo ≤ p.1) && decide (p.1 < hi))
  let m := d.blk b
  d.setBlk b { m with eff := clr m.eff, opn := clr m.opn, stage := clr m.stage }

/-- A pending move of a block is discarded (R45). -/
def Device.discardBlk (d : Device) (b : BlockId) : Device := d.setBlk b (d.blk b).discard

/-- A port after the reset of a castling: its group and its carriage are configuration of the gateway and stay. -/
def FPort.castled (p : FPort) : FPort :=
  { FPort.init with st := if p.st = .off then .off else .active, link := p.link, group := p.group, member := p.member,
                    canMode := p.canMode }

/-- Step 2 of a castling: what the reset of a unit clears (R346). -/
def Device.unitReset (d : Device) (u : Nat) : Device :=
  let d := d.modProc fun p => { p with aplic := p.aplic.filter fun x => x != u }
  if u < 0x20 then
    let d := { d with fgw := d.fgw.setPort u (d.fgw.port u).castled }
    { d with noc := (d.noc.setCounter (fportBase u + 0x10) Counter.init).setCounter (fportBase u + 0x18) Counter.init }
  else if u = 0x24 ∨ u = 0x25 then
    let p := u - 0x24
    let d := (d.discardBlk (pipeBlock p)).resetWords (pipeBlock p) (pipeBase p) (pipeBase p + 0x400)
    d.modPipe p fun x => { Pipe.init with linkDown := x.linkDown, frame := x.frame }
  else if u = gpxUnit then
    let d := ((d.fencePort Port.gpx).discardBlk .gpx).resetWords .gpx (gpxBase + 0x180) (gpxBase + 0x200)
    ((d.modGfx fun g => { g with pass := none, rows := [], partials := 0 }).setReg (gpxBase + 8) 0).setReg (gpxBase + 0xC) 0
  else if 0x80 ≤ u then d.zero (sramBase + (u - 0x80) * 0x1_0000) (sramBase + (u - 0x7F) * 0x1_0000)
  else d

/-- Quiesce completes or its bound passes, and the unit is reset (R346). -/
def Device.quiesceDone (d : Device) (u : Nat) : Device :=
  match d.proc.castling u with
  | none => d
  | some c =>
    if c.resetDone then d
    else (d.unitReset u).modProc fun p => { p with castlings := tins (tdel p.castlings u) u { c with resetDone := true } }

/-- QUIESCE_DONE (R346). -/
def execQuiesceDone (unit : Nat) (s : State) : Out := s.on fun d => d.quiesceDone unit

/-- The instance through which an owner is notified: the instance itself, the instance of its VM, or the management
instance for the host. -/
def Device.ownerInst (d : Device) (c : Castling) : Option Nat :=
  match c.kind with
  | 0 => some 0
  | 1 => (List.range 32).find? fun i =>
      (d.proc.inst i).active && (d.proc.inst i).binding == .vm && (d.proc.inst i).target % 2 ^ 14 == c.vmid
  | 2 => some c.inst
  | _ => none

/-- Steps 3 to 5 of a castling at a tempo boundary (R346): the entry, the context, the routes and the notices. -/
def Device.castlingEnd (d : Device) (u : Nat) (c : Castling) : Device :=
  let d := d.modProc fun p => { p with
    wat := tput watDef p.wat u ⟨c.world, c.kind, c.vmid, c.inst, false⟩,
    srcCtx := tput ctxDef p.srcCtx u c.ctx,
    castlings := tdel p.castlings u, castleResult := some (u, 0) }
  let d := if c.world then d.note (.sec 0) else match d.ownerInst c with
    | some i => d.instIrq i 1
    | none => d
  d.note (.castle u 0)

/-- Castlings whose reset is done take effect at a tempo boundary (R337, R346). -/
def Device.castlingTempo (d : Device) : Device :=
  (d.proc.castlings.filter fun c => c.2.resetDone).foldl (fun d c => d.castlingEnd c.1 c.2) d

/-! ### Invalidations (R341) -/

/-- An invalidation starts: the selected entries leave the IOTLB. -/
def Device.invalStart (d : Device) (i : Inval) : Device :=
  d.modProc fun p => { p with tlb := p.tlb.filter fun x => !i.hits x, invalBusy := some i, invalDone := false }

/-- A write of IOMMU.INVAL, held while another runs (R341). -/
def Device.inval (d : Device) (w : Nat) : Device :=
  let i : Inval := ⟨w, d.proc.invalAddr⟩
  if d.proc.invalBusy.isNone then d.invalStart i else d.modProc fun p => { p with invalHeld := p.invalHeld ++ [i] }

/-- INVAL (R341). -/
def execInval (w : DWord) (s : State) : Out := s.on fun d => d.inval w.toNat

/-- An invalidation completes; a held one starts (R341). -/
def Device.invalEnd (d : Device) : Device :=
  match d.proc.invalBusy, d.proc.invalHeld with
  | none, _ => d
  | some _, [] => d.modProc fun p => { p with invalBusy := none, invalDone := true }
  | some _, i :: rest => (d.modProc fun p => { p with invalHeld := rest }).invalStart i

/-- INVAL_DONE (R341). -/
def execInvalDone (s : State) : Out := s.on fun d => d.invalEnd

/-! ### Instance resets (R354 to R356) -/

/-- A data read that carries the instance's current generation is in flight (R356). -/
def Device.instTags (d : Device) (i : Nat) : Bool :=
  let g := (d.proc.inst i).gen
  (d.noc.ports.any fun p => p.2.inflight.any fun x => !x.write && !x.orphan && x.inst == i && x.gen == g)
    || d.fab.tags.any fun t => !t.2.orphan && t.2.inst == i && t.2.instGen == g

/-- Step 5 and 6 of an instance reset: the new generation, cleared buffers, every MSI-X vector masked (its stored mask bit
is inverted, so that a cleared table is masked), and the end of a deletion. -/
def Device.resetEnd (d : Device) (i : Nat) : Device :=
  let d := d.zero (instPage i + 0x1000) (instPage i + 0x2000)
  let d := d.zero (instPage i + 0xE000) (instPage i + 0xF010)
  d.modInst i fun x =>
    let y := { x with gen := (x.gen + 1) % 256, resetting := false, mboxBusy := false, mboxDone := false,
                      mboxOverrun := false, staged := none, answer := none, msixPending := [] }
    if x.deleting then { y with active := false, deleting := false, binding := .none, bindWord := 0, world := false, target := 0 }
    else y

/-- An instance whose drain is over ends its reset (R356). -/
def Device.drainEnd (d : Device) (i : Nat) : Device :=
  if (d.proc.inst i).resetting && !d.instTags i then d.resetEnd i else d

/-- The data of a waiting bus read, with four more bytes. -/
def Inflight.more (i : Inflight) (v : Nat) : Inflight :=
  { i with resp := match i.resp with | .data b => .data (b ++ leBytes 4 v) | r => r }

/-- An emulated word is answered: the value goes to the bus request that waits, or out. -/
def Device.emuGive (d : Device) (i : Nat) (who : Option (Port × Nat)) (v : Nat) : Device :=
  match who with
  | none => d.note (.inst i v)
  | some (p, id) => d.modPort p fun x => { x with inflight := x.inflight.map fun r => if r.id = id then r.more v else r }

/-- The reset of an instance (R355); one that starts during a reset is absorbed. -/
def Device.instReset (d : Device) (i : Nat) : Device :=
  let x := d.proc.inst i
  if !x.active || x.resetting then d
  else
    let reads := x.emuReads
    let d := d.modInst i fun x => { x with resetting := true, emuReads := [], emuWrites := [], emuHeld := [], staged := none }
    let d := reads.foldl (fun d q => d.emuGive i q.who (2 ^ 32 - 1)) d
    let d := ((List.range 64).filter fun j => (d.job j).taken && (d.job j).rc.inst == i).foldl (fun d j => d.jobDelete j) d
    let d := ((List.range 512).filter fun n => (d.ring n).inst == i && (d.ring n).enable).foldl
      (fun d n => d.moveRing n (d.ring n).reset) d
    d.drainEnd i

/-- INSTANCE_RESET (R355). -/
def execInstanceReset (i : Fin 32) (s : State) : Out := s.on fun d => d.instReset i

/-- A read of a generation of an instance becomes an orphan. -/
def Inflight.retire (x : Inflight) (i g : Nat) : Inflight :=
  if !x.write && x.inst == i && x.gen == g then { x with orphan := true } else x

/-- Tags still in flight 64 µs into the drain become orphans (R356). -/
def Device.forceRetire (d : Device) (i : Nat) : Device :=
  if !(d.proc.inst i).resetting then d
  else
    let g := (d.proc.inst i).gen
    let d := { d with noc := { d.noc with ports := d.noc.ports.map fun (p : Nat × PortState) => (p.1, { p.2 with
      inflight := p.2.inflight.map fun (x : Inflight) => x.retire i g }) } }
    let d := { d with fab := d.fab.orphan fun t => t.inst == i && t.instGen == g }
    d.drainEnd i

/-- TAG_FORCE_RETIRE (R356). -/
def execTagForceRetire (i : Fin 32) (s : State) : Out := s.on fun d => d.forceRetire i

/-- Instances whose tags have all retired end their reset, looked at once per tempo. -/
def Device.drainTempo (d : Device) : Device := (List.range 32).foldl (fun d i => d.drainEnd i) d

/-- The reset of every PCIe-bound instance (R349). -/
def Device.resetPcie (d : Device) : Device :=
  (List.range 32).foldl (fun d i => if (d.proc.inst i).binding = .pcie then d.instReset i else d) d

/-- A function-level reset (R349, R355): that of the PF clears VF Enable and resets every PCIe-bound instance. -/
def Device.flr (d : Device) (fn : Nat) : Device :=
  if !d.proc.endpoint || decide (32 ≤ fn) then d
  else if fn = 0 then (d.modProc fun p => { p with vfEnable := false }).resetPcie
  else if (d.proc.inst fn).binding = .pcie then d.instReset fn
  else d

/-- FUNCTION_LEVEL_RESET (R349). -/
def execFunctionLevelReset (fn : Nat) (s : State) : Out := s.on fun d => d.flr fn

/-- The PCIe link goes down or comes up (R24). -/
def Device.pcieLink (d : Device) (up : Bool) : Device := d.modProc fun p => { p with pcieUp := up }

/-- PCIE_LINK_DOWN (R24). -/
def execPcieLinkDown (s : State) : Out := s.on fun d => d.pcieLink false

/-- PCIE_LINK_UP (R24). -/
def execPcieLinkUp (s : State) : Out := s.on fun d => d.pcieLink true

/-! ### Creating and deleting instances (R348) -/

/-- A write of an instance binding by the secure world; the abort code, 0 for success. -/
def Device.instCreate (d : Device) (i w : Nat) : Device × Nat :=
  let x := d.proc.inst i
  if i = 0 then (d, abReadOnly)
  else if w = 0 then
    (if x.active then (d.modInst i fun x => { x with deleting := true }).instReset i else d, 0)
  else if x.active then
    (if (List.range 32).all fun k => (d.proc.inst k).active then (d.exhausted 0x01, abResource) else (d, abState))
  else if w % 4 = 3 ∨ bits w 7 3 ≠ 0 then (d, abRange)
  else
    (d.modInst i fun x => { Inst.init with
      active := true, binding := Binding.ofCode (w % 4), world := bitOf w 2, target := w / 256, bindWord := w,
      gen := x.gen, intTgt := x.intTgt, emuTimeouts := x.emuTimeouts }, 0)

/-- INSTANCE_CREATE (R348). -/
def execInstanceCreate (i : Fin 32) (w : Word) (s : State) : Out := s.on fun d => answer (d.instCreate i w.toNat)

/-- Writing 0 to a binding (R348). -/
def Device.instDelete (d : Device) (i : Nat) : Device × Nat := d.instCreate i 0

/-- INSTANCE_DELETE (R348). -/
def execInstanceDelete (i : Fin 32) (s : State) : Out := s.on fun d => answer (d.instDelete i)

/-! ### Ring views (R351) -/

/-- The view serves the ring. -/
def Device.viewServes (d : Device) (i n : Nat) : Bool := decide (n < 512) && (d.ring n).inst == i && (d.ring n).enable

/-- A move through a ring view: refused with DB_ERR, dropped during a reset. -/
def Device.viewMove (d : Device) (i n : Nat) (f : Ring → Option Ring) : Device :=
  if (d.proc.inst i).resetting then d
  else
    match (if d.viewServes i n then f (d.ring n) else none) with
    | some r => d.moveRing n r
    | none => d.modInst i fun x => { x with dbErr := true }

/-- DOORBELL (R351). -/
def execDoorbell (i : Fin 32) (ring count : Nat) (s : State) : Out :=
  s.on fun d => d.viewMove i ring fun r => r.publish (count % 2 ^ 24)

/-- RING_VIEW_ADVANCE (R351). -/
def execRingViewAdvance (i : Fin 32) (ring count : Nat) (s : State) : Out :=
  s.on fun d => (d.viewMove i ring fun r => r.advance (count % 2 ^ 24)).sendHeads

/-! ### Emulated words (R352) -/

/-- A read of an emulated word stalls until the firmware answers; during a reset it returns at once (R352, R355). -/
def Device.emuRead (d : Device) (i off : Nat) (who : Option (Port × Nat)) : Device :=
  if (d.proc.inst i).resetting then d.emuGive i who (2 ^ 32 - 1)
  else d.modInst i fun x => { x with emuReads := x.emuReads ++ [⟨off % 2 ^ 12, x.emuWrites.length + x.emuHeld.length, who⟩] }

/-- EMULATED_READ (R352). -/
def execEmulatedRead (i : Fin 32) (off : Nat) (s : State) : Out := s.on fun d => d.emuRead i off none

/-- A write of an emulated word is queued, or held at its port while 32 are queued (R352). -/
def Device.emuWrite (d : Device) (i off v : Nat) : Device :=
  d.modInst i fun x =>
    if x.emuWrites.length < 32 ∧ x.emuHeld = [] then { x with emuWrites := x.emuWrites ++ [(off % 2 ^ 12, v % 2 ^ 32)] }
    else { x with emuHeld := x.emuHeld ++ [(off % 2 ^ 12, v % 2 ^ 32)] }

/-- EMULATED_WRITE (R352). -/
def execEmulatedWrite (i : Fin 32) (off v : Nat) (s : State) : Out := s.on fun d => d.emuWrite i off v

/-- The `n` oldest writes have been processed, and held ones move into the queue of 32 (R352). -/
def Inst.writesDone (x : Inst) (n : Nat) : Inst :=
  let all := (x.emuWrites ++ x.emuHeld).drop n
  { x with emuWrites := all.take 32, emuHeld := all.drop 32, emuReads := x.emuReads.map fun r => { r with ahead := r.ahead - n } }

/-- The firmware answers the oldest read, every write before it being processed; with no read waiting it has processed the oldest
queued write (R352). -/
def Device.emuAnswer (d : Device) (i v : Nat) : Device :=
  match (d.proc.inst i).emuReads with
  | q :: rest => (d.modInst i fun x => { x with emuReads := rest }.writesDone q.ahead).emuGive i q.who (v % 2 ^ 32)
  | [] => d.modInst i fun x => x.writesDone 1

/-- EMU_ANSWER (R352). -/
def execEmuAnswer (i : Fin 32) (v : Nat) (s : State) : Out := s.on fun d => d.emuAnswer i v

/-- A time-out is recorded in the instance and logged (R352). -/
def Device.emuLate (d : Device) (i off : Nat) : Device :=
  (d.modInst i fun x => { x with emuTimeout := true, emuErr := off, emuTimeouts := (x.emuTimeouts + 1) % 2 ^ 32 }).event
    evEmuTimeout (some i) off

/-- A read or a held write not served in 64 µs (R352). -/
def Device.emuExpire (d : Device) (i : Nat) (write : Bool) : Device :=
  let x := d.proc.inst i
  if write then
    match x.emuHeld with
    | [] => d
    | (off, _) :: rest =>
      -- a read that came after it no longer waits for it
      (d.modInst i fun x => { x with emuHeld := rest, emuReads := x.emuReads.map fun r =>
        if x.emuWrites.length < r.ahead then { r with ahead := r.ahead - 1 } else r }).emuLate i off
  else
    match x.emuReads with
    | [] => d
    | q :: rest => ((d.modInst i fun x => { x with emuReads := rest }).emuLate i q.off).emuGive i q.who (2 ^ 32 - 1)

/-- EMU_TIMEOUT (R352). -/
def execEmuTimeout (i : Fin 32) (write : Bool) (s : State) : Out := s.on fun d => d.emuExpire i write

/-! ### The dirty-page log (R358) -/

/-- Clearing OVF empties the log and the filter and restarts logging (R358). -/
def Device.dlogClear (d : Device) (i : Nat) : Device :=
  let l := d.proc.dlog i
  d.modProc fun p => p.setDlog i { l with head := l.tail, ovf := false, filter := [] }

/-- DLOG_OVF_CLEAR (R358). -/
def execDlogOvfClear (i : Fin 32) (s : State) : Out := s.on fun d => d.dlogClear i

end Sys2Proof.Machine
end

