-- ==== Sys2Proof/Machine/DictCmds.lean ====
section
/-! DEFINITION. Dictionary accesses by their four paths (chapter 14): the checks in their order, the effects of a write,
the mailbox, the management lane and the firmware call. -/

namespace Sys2Proof.Machine

open Sys2Proof

/-! ### Checks (R387) -/

/-- A path with its limits (R19, R353, R390 to R392). -/
structure DPath where
  secure : Bool
  /-- The instance whose scope holds the path. -/
  scope : Option Nat
  /-- A field transfer that is not authenticated (R391). -/
  open' : Bool
  /-- A management-lane source outside the device's part (R392). -/
  outside : Bool
  deriving DecidableEq, Repr

/-- A path with no limit but its world. -/
def DPath.plain (secure : Bool) : DPath := ⟨secure, none, false, false⟩

/-- An entry that an instance other than 0 reaches (R353). -/
def Device.inScope (d : Device) (i ix : Nat) : Bool :=
  ix == 0x1000 || ix == 0x1018 || ix == 0x2200 + i
    || (decide (0x3100 ≤ ix) && decide (ix ≤ 0x313F)
      && ((d.job (ix - 0x3100)).st == .free || (d.job (ix - 0x3100)).rc.inst == i))

/-- The access code of an entry for a world; subindex 00 of an index with more is CONST (R385). -/
def accessOf (ix sub : Nat) (secure : Bool) : Option DAcc :=
  if sub = 0 ∧ highestSub ix ≠ 0 then some .const
  else (dictRow ix sub).map fun r => if secure then r.sec else r.non

/-- The job of a secure record is not controlled from the non-secure world; a free number may be created from both. -/
def Device.jobWorldOk (d : Device) (p : DPath) (ix sub : Nat) : Bool :=
  !(decide (0x3100 ≤ ix) && decide (ix ≤ 0x313F)) || p.secure || !(d.job (ix - 0x3100)).rc.world
    || (sub == 1 && (d.job (ix - 0x3100)).st == .free)

/-- The checks of a read: NO_INDEX, NO_SUB, ACCESS; 0 when it is allowed. -/
def Device.readCheck (d : Device) (p : DPath) (ix sub : Nat) : Nat :=
  if !indexExists ix then abNoIndex
  else match accessOf ix sub p.secure with
    | none => abNoSub
    | some a =>
      if !a.reads || (match p.scope with | some i => !d.inScope i ix | none => false) then abAccess else 0

/-- A reservation that is written names an RT job and overlaps no other, in effect or staged (R192). -/
def Device.reservationOk (d : Device) (sub n : Nat) : Bool :=
  let job := bits n 37 32
  let others := (List.range 9).filter fun k => k != 0 && k != sub
  let other (k : Nat) : List Nat :=
    let st := d.dict.staged.filter fun s => s.key == dictKey 0x3000 k
    if st.isEmpty then [tget zeroDef d.sched.reservations k] else st.map fun s => leNat s.value
  n == 0 || ((d.job job).taken && (d.job job).rc.rt
    && others.all fun k => (other k).all fun w => Nat.land (w % 2 ^ 32) (n % 2 ^ 32) == 0)

/-- Rules that join a value to the state of the device (check RANGE of R387, R388). -/
def Device.rangeOk (d : Device) (ix sub : Nat) (v : List Byte) : Bool :=
  staticOk ix sub v
    && (match entryHome ix sub with | some h => d.homeAccepts h (leNat v) | none => true)
    && (ix != 0x3000 || d.reservationOk sub (leNat v))
    && (!(decide (0x7400 ≤ ix) && decide (ix ≤ 0x7BFF)) || d.mapOk v)

/-- The checks of a write down to RANGE, in the order of R387; 0 when it goes on to the entry's owner. -/
def Device.writeCheck (d : Device) (p : DPath) (ix sub : Nat) (v : List Byte) : Nat :=
  if !indexExists ix then abNoIndex
  else match accessOf ix sub p.secure, accessOf ix sub (!p.secure) with
    | some a, some b =>
      let row := dictRow ix sub
      let flag (f : DRow → Bool) : Bool := match row with | some r => f r | none => false
      if p.open' && flag DRow.a then abAuth
      else if a == .noAccess || (!a.writes && b.writes) || p.outside || !d.jobWorldOk p ix sub
          || (match p.scope with | some i => !d.inScope i ix | none => false) then abAccess
      else if !a.writes then abReadOnly
      else if flag DRow.s then abSafety
      else match row with
        | none => abReadOnly
        | some r =>
          if !r.type.lenOk v then abType
          else if !r.type.legal v || !d.rangeOk ix sub v then abRange
          else 0
    | _, _ => abNoSub

/-! ### Effects -/

/-- The first boundary of a kind at or after TN `t`. -/
def BKind.align (k : BKind) (t : Nat) : Nat := if k = .round then (t + 999) / 1000 * 1000 else t

/-- An RWB write is accepted (R388): it waits for the first boundary that lies at least 2 tempos later. -/
def Device.stageWrite (d : Device) (ix sub : Nat) (v : List Byte) (k : BKind) : Device :=
  let (t, d) := d.stamp
  let due := k.align ((t + 2999) / 1000)
  let h := entryHome ix sub
  let d := d.modDict fun x => { x with staged := x.staged ++ [⟨dictKey ix sub, v, k, due, x.seq, h.map fun h => h.blk.key, false⟩] }
  match h with
  | some h => d.fwAccept h.blk due
  | none => d

/-- A write whose effect belongs to its owner: the answer of the owner, 0 for success (R13, R31, R387). -/
def Device.ownerWrite (d : Device) (p : DPath) (ix sub : Nat) (v : List Byte) : Device × Nat :=
  let n := leNat v
  match ix, sub with
  | 0x2000, 0x02 => d.profileSwitch n
  | 0x2000, 0x07 => d.profileSave n
  | 0x2000, 0x08 => d.profileImport v
  | 0x2000, 0x09 => d.profileErase n
  | 0x2100, 0x05 => d.releaseId n
  | 0x2300, 0x01 => d.setNonce v
  | 0x5101, 0x01 => d.logAck n
  | 0x7100, 0x04 => if n = 1 then d.nodeRemove else (d, 0)
  | 0x7200, 0x01 => d.ruleCreate v
  | 0x7200, 0x02 => d.ruleDelete n
  | 0x8000, 0x0C => (if n = 1 then d.keepAlive else d, 0)
  | 0x8000, 0x0E =>
    (if n = 1 then d.systemReset ⟨d.pwr.straps, d.pwr.straps, d.pwr.straps⟩ causeRequest false else d, 0)
  | _, _ =>
    if 0x2201 ≤ ix ∧ ix ≤ 0x221F then
      (if sub = 1 then d.instCreate (ix - 0x2200) n else (d.modInst (ix - 0x2200) fun x => { x with intTgt := n }, 0))
    else if 0x3100 ≤ ix ∧ ix ≤ 0x313F then
      (if sub = 1 then d.jobCreate (ix - 0x3100) n p.secure else d.jobControl (ix - 0x3100) n)
    else if 0xB000 ≤ ix ∧ ix ≤ 0xB001 ∧ (d.gfx.pipe (ix - 0xB000)).enable then (d, abState)
    else (d.takeEffect ix sub v, 0)

/-- A job entry that is written at a boundary has a job (0x3100 + j:04, 05, 0E). -/
def Device.stateOk (d : Device) (ix : Nat) : Bool :=
  !(decide (0x3100 ≤ ix) && decide (ix ≤ 0x313F)) || (d.job (ix - 0x3100)).taken

/-- A dictionary write by a path: 0, or the abort code of a refusal that changes nothing (R13, R387, R388). -/
def Device.dictWrite (d : Device) (p : DPath) (ix sub : Nat) (v : List Byte) : Device × Nat :=
  let c := d.writeCheck p ix sub v
  if c != 0 then (d, c)
  else
    let noted (d : Device) : Device :=
      d.modDict fun x => { x with seq := x.seq + 1, lastWrite := tput zeroDef x.lastWrite (dictKey ix sub) (x.seq + 1) }
    match (dictRow ix sub).bind DRow.kind, accessOf ix sub p.secure with
    | some k, some .rwb => if d.stateOk ix then ((noted d).stageWrite ix sub v k, 0) else (d, abState)
    | _, _ =>
      let (x, c) := d.ownerWrite p ix sub v
      if c != 0 then (x, c) else (if (dictRow ix sub).any DRow.p then noted x else x, 0)

/-- A dictionary read by a path: an abort code, or 0 and the value in effect (R13). The attestation report is signed as it
is read (R443). -/
def Device.dictRead (d : Device) (p : DPath) (ix sub : Nat) : Device × Nat × List Byte :=
  let c := d.readCheck p ix sub
  if c != 0 then (d, c, [])
  else if ix = 0x2300 ∧ sub = 2 then
    (if d.sec.nonce.isEmpty then (d, 0, []) else let (b, x) := d.attestation d.sec.nonce; (x, 0, b))
  else (d, 0, d.dictVal ix sub)

/-- FIRMWARE_CALL (R390): the world is MWORLD of the calling hart. -/
def Device.firmwareCall (d : Device) (h : Nat) (r : DictReq) : Device :=
  let p := DPath.plain (d.proc.hart h).mworld
  let d := d.hartRuns h
  if r.write then
    let (d, c) := d.dictWrite p r.index r.sub r.data
    d.note (.dict c [])
  else
    let (d, c, v) := d.dictRead p r.index r.sub
    d.note (.dict c v)

def execFirmwareCall (hart : Fin 16) (r : DictReq) (s : State) : Out := s.on fun d => d.firmwareCall hart r

/-! ### Parts (R353, R390) -/

/-- One request of a path with parts: offset, MORE, data. -/
structure PartReq where
  index : Nat
  sub : Nat
  more : Bool
  offset : Nat
  data : List Byte
  deriving DecidableEq, Repr

/-- The request header of R353, with the data of at most `max` bytes. -/
def PartReq.ofBytes (b : List Byte) (max : Nat) : PartReq :=
  ⟨field b 4 2, field b 6 1, bitOf (field b 7 1) 0, field b 8 4, (b.drop 16).take (min max (field b 2 2))⟩

/-- One part of a write with what is staged: the new staged parts, an abort code, and the value of a write that is whole. -/
def PartReq.take (r : PartReq) (st : Option StagedParts) : Option StagedParts × Nat × Option (List Byte) :=
  let goes := match st with
    | none => r.offset == 0
    | some s => s.index == r.index && s.sub == r.sub && r.offset == s.data.length
  let all := (match st with | some s => s.data | none => []) ++ r.data
  if !goes then (none, abOffset, none)
  else if r.more then (some ⟨r.index, r.sub, all⟩, 0, none)
  else (none, 0, some all)

/-- A read by parts: at most `max` bytes from the offset on, or OFFSET. -/
def Device.partRead (d : Device) (p : DPath) (r : PartReq) (max : Nat) : Device × Nat × List Byte :=
  let (d, c, v) := d.dictRead p r.index r.sub
  if c != 0 then (d, c, [])
  else if v.length ≤ r.offset then (d, abOffset, [])
  else (d, 0, (v.drop r.offset).take max)

/-! ### The mailbox (R353) -/

/-- Bytes of a mailbox request or response that are data. -/
def mboxMax : Nat := 2032

/-- The path of an instance's mailbox: instance 0 is always non-secure (R348). -/
def Device.mboxPath (d : Device) (i : Nat) : DPath :=
  ⟨i != 0 && (d.proc.inst i).world, if i = 0 then none else some i, false, false⟩

/-- A doorbell of the mailbox with a request for reading (`op` 1), writing (`op` 2) or another. -/
def Device.mboxDoorbell (d : Device) (i len op : Nat) : Device :=
  let x := d.proc.inst i
  if !x.active || x.resetting then d
  else if x.mboxBusy then d.modInst i fun x => { x with mboxOverrun := true }
  else
    let b := d.bytes (instPage i + 0x1000) 2048
    let r := PartReq.ofBytes b mboxMax
    let tag := (b.drop 12).take 4
    let d := d.modInst i fun x => { x with mboxBusy := true, mboxLen := len }
    let put (d : Device) (c : Nat) (v : List Byte) : Device := d.modInst i fun x => { x with answer := some ⟨tag, c, v⟩ }
    if op = 1 then
      let (d, c, v) := d.partRead (d.mboxPath i) r mboxMax
      put d c v
    else if op = 2 then
      let (st, c, whole) := r.take x.staged
      let d := d.modInst i fun x => { x with staged := st }
      match whole with
      | some v =>
        let (d, c) := d.dictWrite (d.mboxPath i) r.index r.sub v
        put d c []
      | none => put d c []
    else put d abUnknownCmd []

/-- MAILBOX_READ (R353). -/
def execMailboxRead (i : Fin 32) (len : Nat) (s : State) : Out := s.on fun d => d.mboxDoorbell i len 1

/-- MAILBOX_WRITE (R353). -/
def execMailboxWrite (i : Fin 32) (len : Nat) (s : State) : Out := s.on fun d => d.mboxDoorbell i len 2

/-- MAILBOX_RESPONSE (R353). -/
def Device.mboxAnswer (d : Device) (i : Nat) : Device :=
  match (d.proc.inst i).answer with
  | none => d
  | some a =>
    let b := a.tag ++ leBytes 4 a.abort ++ leBytes 2 a.data.length ++ zeros 6 ++ a.data
    let d := d.put (instPage i + 0x1800) b
    (d.modInst i fun x => { x with mboxBusy := false, mboxDone := true, answer := none }).instIrq i 1

def execMailboxResponse (i : Fin 32) (s : State) : Out := s.on fun d => d.mboxAnswer i

/-! ### The management lane (R390, R392) -/

/-- Bytes of a value in one management message. -/
def mgmtMax : Nat := 256

/-- MGMT (R390, R392): a dictionary access of another device is served and answered; another message is a kill or a fault
notice for the firmware; one for another device is passed on (log entry 75). -/
def Device.mgmt (d : Device) (m : FMsg) : Device :=
  if d.fab.id != some m.dst then d.forward m
  else
    let op := field m.data 0 2
    let r := PartReq.ofBytes m.data mgmtMax
    let p : DPath := ⟨m.world, none, false, !d.takesFrom m.src⟩
    let reply (d : Device) (c : Nat) (v : List Byte) : Device :=
      let b := (m.data.drop 12).take 4 ++ leBytes 4 c ++ leBytes 2 v.length ++ zeros 6 ++ v
      d.send { FMsg.plain .mgmt m.dst m.src with world := m.world, len := units b.length, data := b } noRing
    if op = 1 then
      let (d, c, v) := d.partRead p r mgmtMax
      reply d c v
    else if op = 2 then
      let (st, c, whole) := r.take (tget partsDef d.dict.mgmtParts m.src)
      let d := d.modDict fun x => { x with mgmtParts := tput partsDef x.mgmtParts m.src st }
      match whole with
      | some v =>
        let (d, c) := d.dictWrite p r.index r.sub v
        reply d c []
      | none => reply d c []
    else d.note (.notice m.src m.data)

def execMgmt (m : FMsg) (s : State) : Out := s.on fun d => d.mgmt m

end Sys2Proof.Machine
end

