-- ==== Sys2Proof/Machine/RingCmds.lean ====
section
/-! DEFINITION. Software's commands on rings (R165 to R170, R496). -/

namespace Sys2Proof.Machine

open Sys2Proof

/-- A command that has been issued and neither committed nor been killed names the ring: as the ring it came from, a
source, a destination or the target of a PUBLISH (R170; log entry 61). -/
def Issued.names (i : Issued) (ring : Nat) : Bool :=
  i.ring == ring || (i.ins.any fun p => p.1 == ring) || (i.outs.any fun p => p.1 == ring)

/-- Software may not reset, set or disable the ring now (R170). -/
def Device.ringNamed (d : Device) (n : Nat) : Bool :=
  let r := d.ring n
  r.jobOwn && (List.range 32).any fun e =>
    match (d.engine e).bound with
    | some (j, _) => j == r.job && (d.engine e).issued.any fun i => i.names n
    | none => false

/-- A refused operation of software sets RING.STATUS.ERR and changes nothing else (R168, R170, R496). -/
def Device.ringErr (d : Device) (n : Nat) : Device := d.setRing n { d.ring n with err := true }

/-- Every entry of the ring table that holds ring `n` is in use (R165). -/
def Device.ringsFull (d : Device) (n : Nat) : Bool := (List.range 256).all fun i => (d.ring (n / 256 * 256 + i)).enable

/-- A write of RING.CFG that the ring does not take: ERR (R496), and a creation that finds all 256 entries of the die's table in
use is refused with resource code 0x04 (R31, R165; log entry 93). -/
def Device.cfgRefused (d : Device) (n cfg : Nat) : Device :=
  let x := d.ringErr n
  if bitOf cfg 15 && d.ringsFull n then x.exhausted 0x04 else x

/-- The ring with the result of an operation, or ERR. -/
def Device.ringDo (d : Device) (n : Nat) (r : Option Ring) : Device :=
  match r with
  | some r => d.moveRing n r
  | none => d.ringErr n

/-- RING.ADVANCE: the head moves, or ERR is set (R167, R168). -/
def Device.ringAdvance (d : Device) (n k : Nat) : Device := d.ringDo n ((d.ring n).advance k)

/-- RING.PUBLISH: the tail moves, or ERR is set (R167, R168). Entries of a ring that an engine's command produces too are undefined
(R169). -/
def Device.ringPublish (d : Device) (n k : Nat) : Device :=
  let two := ((d.ring n).publish k).isSome && (List.range 32).any fun e => (d.engine e).produces n
  (if two then d.ringClash n k else d).ringDo n ((d.ring n).publish k)

/-- RING.CTRL.RESET by software (R168, R170). -/
def Device.ringReset (d : Device) (n : Nat) : Device :=
  d.ringDo n (if (d.ring n).enable && !d.ringNamed n then some (d.ring n).reset else none)

/-- RING.CTRL.SET by software (R168, R170). -/
def Device.ringSet (d : Device) (n : Nat) : Device := d.ringDo n (if d.ringNamed n then none else (d.ring n).set)

/-- A write of RING.CFG while the ring is disabled: with ENABLE it creates the ring, or sets ERR for a bad geometry
and leaves ENABLE 0 (R165, R496). -/
def Device.ringEnable (d : Device) (n cfg : Nat) : Device :=
  let r := d.ring n
  if r.enable then d.cfgRefused n cfg
  else
    let r' := r.withCfg cfg
    if r'.enable then
      (if r'.geometryOk (n / 256) then d.setRing n r'.create else d.setRing n { r' with enable := false, err := true })
    else d.setRing n r'

/-- A write of RING.CFG while the ring is enabled: it disables the ring when it changes ENABLE alone, JOBOWN is 0 and
R170 allows it; else it is ignored and sets ERR (R496). -/
def Device.ringDisable (d : Device) (n cfg : Nat) : Device :=
  let r := d.ring n
  if r.enable then
    (if r.withCfg cfg = { r with enable := false } ∧ r.jobOwn = false ∧ d.ringNamed n = false then
      d.setRing n { r with enable := false }
     else d.cfgRefused n cfg)
  else d.ringEnable n cfg

/-- RING_ADVANCE (R167). -/
def execRingAdvance (ring : Fin 512) (n : BitVec 24) (s : State) : Out := s.on fun d => (d.ringAdvance ring n.toNat).sendHeads

/-- RING_PUBLISH (R168). -/
def execRingPublish (ring : Fin 512) (n : BitVec 24) (s : State) : Out := s.on fun d => d.ringPublish ring n.toNat

/-- RING_RESET (R170). -/
def execRingReset (ring : Fin 512) (s : State) : Out := s.on fun d => (d.ringReset ring).sendHeads

/-- RING_SET (R170). -/
def execRingSet (ring : Fin 512) (s : State) : Out := s.on fun d => (d.ringSet ring).sendHeads

/-- RING_ENABLE (R496). -/
def execRingEnable (ring : Fin 512) (cfg : Word) (s : State) : Out := s.on fun d => d.ringEnable ring cfg.toNat

/-- RING_DISABLE (R496). -/
def execRingDisable (ring : Fin 512) (cfg : Word) (s : State) : Out := s.on fun d => d.ringDisable ring cfg.toNat

end Sys2Proof.Machine
end

