-- ==== Sys2Proof/Machine/RegWords.lean ====
section
/-! DEFINITION. The words of the register windows: what a read of each returns and does, and what a write does, by the
access codes of R10 (R7 to R12) and the register tables of the chapters. -/

namespace Sys2Proof.Machine

open Sys2Proof

/-! ### Access codes -/

/-- One 32-bit word of a register window. `put` takes the word written and the bits that the hardware sets in the same
cycle (R11). -/
structure Reg where
  get : Device → Nat
  onRead : Device → Device := id
  put : Device → Nat → Nat → Device := fun d _ _ => d

/-- No register (R9). -/
def Reg.hole : Reg := { get := fun _ => 0 }
/-- RO. -/
def Reg.ro (f : Device → Nat) : Reg := { get := fun d => f d % 2 ^ 32 }
/-- A word of an RO register of 64 bits or more: `o` bytes above its first. -/
def Reg.part (f : Device → Nat) (o : Nat) : Reg := .ro fun d => f d / 2 ^ (8 * o)
/-- A word of a byte string. -/
def Reg.bytes (f : Device → List Byte) (o : Nat) : Reg := .ro fun d => field (f d) o 4
/-- A live 64-bit value with one holding register (R237), at address `a` of its low word. -/
def Reg.live (a : Nat) (f : Device → Nat) (o : Nat) : Reg :=
  if o = 0 then { get := fun d => f d % 2 ^ 32, onRead := fun d => d.holdHigh a (f d) }
  else { get := fun d => (tget (fun _ => (0 : Word)) d.holds a).toNat }
/-- A live counter that is RO. -/
def Reg.counterRo (a o : Nat) : Reg := .live a (fun d => (d.noc.counter a).val) o
/-- A live counter that is RW (R237, R239). -/
def Reg.counter (a o : Nat) : Reg :=
  { Reg.counterRo a o with
      put := fun d v hw =>
        d.modCounter a fun c => if o = 0 then c.writeLow (BitVec.ofNat 32 v) else c.writeHigh (BitVec.ofNat 32 v) (hw != 0) }
/-- RW, while `ok` holds: the bits of `mask` (R9, R10). -/
def Reg.rwIf (ok : Device → Bool) (a mask : Nat) : Reg :=
  { get := fun d => d.reg a, put := fun d v _ => if ok d then d.setReg a (Nat.land v mask) else d }
/-- RW. -/
def Reg.rw (a mask : Nat) : Reg := .rwIf (fun _ => true) a mask
/-- SW: a read returns the value in effect, a write the shadow (R10). -/
def Reg.sw (b : BlockId) (a mask : Nat) : Reg :=
  { get := fun d => d.sw b a, put := fun d v _ => d.setOpen b a (Nat.land v mask) }
/-- WO. -/
def Reg.wo (f : Device → Nat → Device) : Reg := { get := fun _ => 0, put := fun d v _ => f d v }

/-- All 32 bits. -/
def full : Nat := 2 ^ 32 - 1

/-- The halves of a 64-bit number with one word replaced. -/
def putHalf (n o v : Nat) : Nat := if o = 0 then n / 2 ^ 32 * 2 ^ 32 + v else n % 2 ^ 32 + v * 2 ^ 32

/-! ### Sealed moves (R39 to R48) -/

/-- A write of MOVE_CTRL: REVERT, WITHDRAW and SEAL in this order (R44), with GROUP. -/
def Device.moveCtrl (d : Device) (b : BlockId) (v : Nat) : Device :=
  let d := d.setBlk b { d.blk b with groupField := bits v 12 8 }
  let d := if bitOf v 2 then d.revertBlk b else d
  let d := if bitOf v 1 then d.withdrawBlk b else d
  let d := if bitOf v 0 then d.sealBlk b (bits v 12 8) else d
  d.fwPump b

/-- MOVE_CTRL, MOVE_STATUS and MOVE_MISSED_N of a block, in consecutive words. -/
def moveReg (b : BlockId) (o : Nat) : Reg :=
  if o = 0 then { get := fun d => 256 * (d.blk b).groupField, put := fun d v _ => d.moveCtrl b v }
  else if o = 4 then
    { get := fun d => (d.blk b).status b.kind.code, put := fun d v hw => d.setBlk b ((d.blk b).clear v hw) }
  else if o = 8 then .ro fun d => (d.blk b).missedN
  else .hole

/-- MOVE_AT. -/
def moveAtReg (b : BlockId) (o : Nat) : Reg :=
  { get := fun d => (d.blk b).moveAt / 2 ^ (8 * o) % 2 ^ 32,
    put := fun d v _ => d.setBlk b { d.blk b with moveAt := putHalf (d.blk b).moveAt o v } }

/-! ### The time base (chapter 02) -/

/-- TB.CAL_CTRL: SET, ERR and SYNC (R58). -/
def Calendar.writeCtrl (c : Calendar) (v hw : Nat) : Calendar :=
  let c := { c with err := w1c c.err v hw 1, sync := bitOf v 3 }
  if bitOf v 0 then c.set else c

def calReg (o : Nat) : Reg :=
  match o with
  | 0 => { get := fun d => d.cal.now.dateWord.toNat,
           onRead := fun d => { d with cal := { d.cal with latch := some (d.cal.now.timeWord, BitVec.ofNat 32 d.cal.sub) } },
           put := fun d v _ => { d with cal := { d.cal with stagedDate := BitVec.ofNat 32 v } } }
  | 4 => { get := fun d => match d.cal.latch with | some l => l.1.toNat | none => d.cal.now.timeWord.toNat,
           put := fun d v _ => { d with cal := { d.cal with stagedTime := BitVec.ofNat 32 v } } }
  | 8 => .ro fun d => match d.cal.latch with | some l => l.2.toNat | none => d.cal.sub
  | _ => { get := fun d => d.cal.ctrl, put := fun d v hw => { d with cal := d.cal.writeCtrl v hw } }

def tbReg (o : Nat) : Reg :=
  if o < 8 then
    let r := Reg.live tbBase (fun d => d.stamp.1) o
    { r with onRead := fun d => if o = 0 then (r.onRead d).stamp.2 else d }
  else if o < 0x10 then .live (tbBase + 8) (fun d => d.tn) (o - 8)
  else if o = 0x10 then .ro fun d => d.tb.status
  else if 0x20 ≤ o ∧ o < 0x28 then .sw .tb (tbBase + o) full
  else if 0x28 ≤ o ∧ o < 0x30 then .part (fun d => ofSigned 64 d.tb.offsetNow) (o - 0x28)
  else if o = 0x30 then .sw .tb (tbBase + o) full
  else if 0x38 ≤ o ∧ o < 0x40 then .sw .tb (tbBase + o) full
  else if 0x40 ≤ o ∧ o < 0x48 then .part (fun d => ofSigned 64 d.tb.stepSize) (o - 0x40)
  else if 0x48 ≤ o ∧ o < 0x50 then .part (fun d => d.tb.stepTn) (o - 0x48)
  else if o = 0x50 then .ro fun d => d.tb.stepCount
  else if o = 0x54 then .sw .tb (tbBase + o) 0x7FF
  else if o = 0x58 then .sw .tb (tbBase + o) full
  else if 0x80 ≤ o ∧ o < 0x90 then calReg (o - 0x80)
  else if 0xE0 ≤ o ∧ o < 0xE8 then moveAtReg .tb (o - 0xE0)
  else if 0xF0 ≤ o ∧ o < 0xFC then moveReg .tb (o - 0xF0)
  else if 0x100 ≤ o ∧ o < 0x140 then
    let g := (o - 0x100) / 4 + 1
    { get := fun d => d.members g, put := fun d v _ => { d with groups := tput zeroDef d.groups g (v % 64) } }
  else .hole

/-! ### Engines, rings, checkers and stacks (chapters 04 and 06) -/

/-- The command ring of the job that an engine is bound to. -/
def Device.teRing (d : Device) (e : Nat) : Option (Nat × Nat) :=
  (d.engine e).bound.map fun b => (b.1, (d.job b.1).active.ring b.2)

def teReg (e o : Nat) : Reg :=
  if o = 0 then .ro fun _ => teId e
  else if o = 4 then .ro fun d => (d.engine e).status
  else if o = 8 then .ro fun d => (d.engine e).bindWord
  else if o = 0x10 then .ro fun d => ((d.teRing e).map Prod.snd).getD 0
  else if 0x18 ≤ o ∧ o < 0x20 then .part (fun d => ((d.teRing e).map fun r => (d.ring r.2).head.word).getD 0) (o - 0x18)
  else if o = 0x20 then .ro fun d => ((d.teRing e).map fun r => tget doneDef (d.job r.1).doneSeq r.2).getD 0
  else if o = 0x24 then .ro fun d => (d.engine e).issueSeq
  else if o = 0x28 then .ro fun d => (d.engine e).faultInfo
  else if o = 0x2C then .ro fun d => (d.engine e).faultSeq
  else if 0x30 ≤ o ∧ o < 0x38 then .part (fun d => (d.engine e).faultAddr) (o - 0x30)
  else if 0x38 ≤ o ∧ o < 0x40 then .counterRo (teBase e + 0x38) (o - 0x38)
  else if 0x40 ≤ o ∧ o < 0x48 then .counterRo (teBase e + 0x40) (o - 0x40)
  else if o = 0x48 then .ro fun d => (d.engine e).kills
  else if o = 0x4C then .ro fun d => (d.engine e).checkCnt
  else .hole

/-- A write of RING.BASE or RING.COUNT: only while the ring is disabled (R496). -/
def Device.ringConfig (d : Device) (n : Nat) (f : Ring → Ring) : Device :=
  if (d.ring n).enable then d.ringErr n else d.setRing n (f (d.ring n))

/-- A write of RING.CTRL (R170): one that sets both RESET and SET is refused. -/
def Device.ringCtrl (d : Device) (n v : Nat) : Device :=
  match bitOf v 0, bitOf v 1 with
  | true, true => d.ringErr n
  | true, false => d.ringReset n
  | false, true => d.ringSet n
  | false, false => d

/-- A word of SET_HEAD or SET_TAIL. -/
def ptrMask (o : Nat) : Nat := if o = 0 then 2 ^ 25 - 1 else full

def ringWord (n o : Nat) : Reg :=
  if o < 8 then
    { get := fun d => (d.ring n).base / 2 ^ (8 * o) % 2 ^ 32,
      put := fun d v _ => d.ringConfig n fun r => { r with base := putHalf r.base o (if o = 0 then v / 64 * 64 else v % 256) } }
  else if o = 8 then { get := fun d => (d.ring n).cfgWord, put := fun d v _ => d.ringDisable n v }
  else if o = 0xC then
    { get := fun d => (d.ring n).count, put := fun d v _ => d.ringConfig n fun r => { r with count := v % 2 ^ 24 } }
  else if o < 0x18 then .part (fun d => (d.ring n).head.word) (o - 0x10)
  else if o < 0x20 then .part (fun d => (d.ring n).tail.word) (o - 0x18)
  else if o = 0x20 then .wo fun d v => (d.ringCtrl n v).sendHeads
  else if o = 0x24 then
    { get := fun d => (d.ring n).statusWord, put := fun d v hw => d.setRing n { d.ring n with err := w1c (d.ring n).err v hw 2 } }
  else if o = 0x28 then .wo fun d v => (d.ringAdvance n (v % 2 ^ 24)).sendHeads
  else if o = 0x2C then .wo fun d v => d.ringPublish n (v % 2 ^ 24)
  else if o < 0x38 then
    { get := fun d => (d.ring n).setHead / 2 ^ (8 * (o - 0x30)) % 2 ^ 32,
      put := fun d v _ => d.setRing n { d.ring n with setHead := putHalf (d.ring n).setHead (o - 0x30) (Nat.land v (ptrMask (o - 0x30))) } }
  else
    { get := fun d => (d.ring n).setTail / 2 ^ (8 * (o - 0x38)) % 2 ^ 32,
      put := fun d v _ => d.setRing n { d.ring n with setTail := putHalf (d.ring n).setTail (o - 0x38) (Nat.land v (ptrMask (o - 0x38))) } }

/-- A word of a region checker of a set (R184, R186). -/
def rgnWord (set r o : Nat) : Reg :=
  let a := rgnBase set + r * 0x20 + o
  if o < 0x10 then .sw (rgnBlock set) a full else if o = 0x10 then .sw (rgnBlock set) a 0xFFFFF else .hole

/-- CNT_FLAGS of `n` counters at consecutive addresses (R238, R239). -/
def flagsReg (a n : Nat) : Reg :=
  { get := fun d => ((List.range n).map fun k =>
      let c := d.noc.counter (a + 8 * k)
      2 ^ k * b2n c.ovf + 2 ^ (16 + k) * b2n c.lost).foldl (· + ·) 0,
    put := fun d v hw => (List.range n).foldl (fun d k =>
      d.modCounter (a + 8 * k) fun c => { c with ovf := w1c c.ovf v hw k, lost := w1c c.lost v hw (16 + k) }) d }

/-- The snapshot of the counter at `a`, itself at address `at'`. -/
def snapReg (a at' o : Nat) : Reg := .live at' (fun d => (d.noc.counter a).snap) o

/-- The window of a stack controller. -/
def stackReg (h o : Nat) : Reg :=
  let c := stackBase h + 0x2000
  if 0xF00 ≤ o ∧ o < 0xF0C then moveReg (rgnBlock h) (o - 0xF00)
  else if 0xF10 ≤ o ∧ o < 0xF18 then moveAtReg (rgnBlock h) (o - 0xF10)
  else if 0x1000 ≤ o ∧ o < 0x1800 then rgnWord h ((o - 0x1000) / 0x20) (o % 0x20)
  else if 0x2000 ≤ o ∧ o < 0x2040 then .counter (stackBase h + o / 8 * 8) (o % 8)
  else if 0x2040 ≤ o ∧ o < 0x2080 then snapReg (stackBase h + (o - 0x40) / 8 * 8) (stackBase h + o / 8 * 8) (o % 8)
  else if o = 0x2080 then flagsReg c 8
  else .hole

/-! ### Jobs (chapter 07) -/

def jobReg (j o : Nat) : Reg :=
  let a := fwcBase + 0x10_0000 + j * 0x40
  if o = 0 then .ro fun d => (d.job j).status
  else if o = 4 then .ro fun d => maskOf (d.job j).held
  else if 8 ≤ o ∧ o < 0x10 then .live (a + 8) (fun d => (d.job j).etime) (o - 8)
  else if o = 0x10 then .ro fun d => (d.job j).trigWord
  else if o = 0x14 then
    { get := fun d => (d.job j).trigOvf,
      put := fun d v hw => d.modJob j fun x => { x with
        trigOvf := ((List.range 4).map fun t => 2 ^ t * b2n (w1c (bitOf x.trigOvf t) v hw t)).foldl (· + ·) 0 } }
  else if o = 0x18 then .wo fun d v => d.trigClr j (v % 16)
  else if o = 0x1C then .ro fun d => (d.job j).faultWord
  else if o = 0x20 then .ro fun d => (d.job j).ckpt
  else if o = 0x24 then .ro fun d => (d.job j).restarts
  else if 0x28 ≤ o ∧ o < 0x30 then .live (a + 0x28) (fun d => ofSigned 64 (d.job j).deficit) (o - 0x28)
  else .hole

/-! ### Regulation (chapter 08) -/

def portWord (p : Port) (o : Nat) : Reg :=
  let a := portBase p
  let b := nocBlock p.die
  if o = 0 then .sw b a 3
  else if o = 4 then .sw b (a + 4) full
  else if o = 8 then .sw b (a + 8) 0xFFFF
  else if o = 0xC then .ro fun d =>
    let st := d.noc.port p
    d.outCount p % 2 ^ 16 + 2 ^ 16 * d.nextLevel p + 2 ^ 19 * b2n (decide (d.portSoft p ≤ d.outCount p)) + 2 ^ 20 * b2n (!st.held.isEmpty)
  else if o = 0x10 then .ro fun d => min 0xFFFF (d.noc.port p).avg
  else if 0x40 ≤ o ∧ o < 0x88 then .counter (a + o / 8 * 8) (o % 8)
  else if o = 0x90 then flagsReg (a + 0x40) 9
  else if 0xA0 ≤ o ∧ o < 0xE8 then snapReg (a + (o - 0x60) / 8 * 8) (a + o / 8 * 8) (o % 8)
  else .hole

/-- A write of NOC.ERR_INFO (R11, R240): VALID clears the log; an access that is refused in the same cycle, of which no rule
gives the particulars, is the first of the log then. -/
def Device.errInfoWrite (d : Device) (die : Die) (v hw : Nat) : Device :=
  let d := if bitOf v 16 then d.errLogClear die else d
  if bitOf hw 16 then
    let x := (Config.freeWord d.fresh).toNat
    { d with fresh := d.fresh + 2 }.logRefusal ⟨die, x % 32⟩ (x / 128 + 2 ^ 25 * (Config.freeWord (d.fresh + 1)).toNat) (bitOf x 5) (bitOf x 6)
  else d

/-- A write of NOC.CNT_CTRL in the hub's block (R236). -/
def Device.cntCtrl (d : Device) (v : Nat) : Device :=
  let d := { d with noc := { d.noc with hold := bitOf v 1 } }
  if bitOf v 0 then d.latch else d

def nocReg (die : Die) (o : Nat) : Reg :=
  let b := nocBlock die
  if o < 0xC then moveReg b o
  else if o = 0x10 then
    if die = .hub then { get := fun d => 2 * b2n d.noc.hold, put := fun d v _ => d.cntCtrl v } else .hole
  else if 0x18 ≤ o ∧ o < 0x20 then .part (fun d => d.noc.snapTn) (o - 0x18)
  else if 0x20 ≤ o ∧ o < 0x28 then .part (fun d => (d.noc.err die).addr) (o - 0x20)
  else if o = 0x28 then
    { get := fun d => (d.noc.err die).info,
      put := fun d v hw => d.errInfoWrite die v hw }
  else if 0x30 ≤ o ∧ o < 0x38 then moveAtReg b (o - 0x30)
  else if 0x1000 ≤ o ∧ o < 0x1000 + portCount die * 0x100 then portWord ⟨die, (o - 0x1000) / 0x100⟩ (o % 0x100)
  else .hole

/-- Registers common to a compute die (R22). -/
def commonReg (k o : Nat) : Reg :=
  if 0x10_0000 ≤ o ∧ o < 0x10_4000 then ringWord (256 * k + (o - 0x10_0000) / 0x40) (o % 0x40)
  else if 0x20_0000 ≤ o ∧ o < 0x20_0200 then rgnWord (2 + k) ((o - 0x20_0000) / 0x20) (o % 0x20)
  else if 0x20_0400 ≤ o ∧ o < 0x20_040C then moveReg (rgnBlock (2 + k)) (o - 0x20_0400)
  else if 0x20_0410 ≤ o ∧ o < 0x20_0418 then moveAtReg (rgnBlock (2 + k)) (o - 0x20_0410)
  else if 0x30_0000 ≤ o ∧ o < 0x30_4000 then nocReg (if k = 0 then .cd0 else .cd1) (o - 0x30_0000)
  else .hole

/-! ### Toterlink (chapter 09) -/

/-- TL.PORT_CTRL: a port that is disabled goes down and is OFF (R242; log entry 84). -/
def Device.portCtrl (d : Device) (p v : Nat) : Device :=
  if bitOf v 0 then d.modLink p fun x => { x with ctrl := true }
  else
    let d := d.linkDown p
    d.modLink p fun x => { x.reset .off with ctrl := false }

def tlPort (p o : Nat) : Reg :=
  if o = 0 then .ro fun d => (d.fab.port p).status (d.fab.upPorts.contains p)
  else if o = 4 then { get := fun d => b2n (d.fab.port p).ctrl, put := fun d v _ => d.portCtrl p v }
  else if 8 ≤ o ∧ o < 0x10 then .part (fun d => (d.fab.port p).peerSerial) (o - 8)
  else if 0x10 ≤ o ∧ o < 0x18 then .live (tlBase + 0x1010 + p * 0x100) (fun d => (d.fab.port p).replays) (o - 0x10)
  else if o = 0x18 then .ro fun d => (d.fab.port p).downs
  else .hole

def tlReg (o : Nat) : Reg :=
  if o = 0 then .ro fun d => d.fab.status
  else if o = 4 then .ro fun d => d.fab.cfgGen
  else if 8 ≤ o ∧ o < 0x10 then .part (fun _ => Config.serial.toNat) (o - 8)
  else if 0x10 ≤ o ∧ o < 0x18 then .part (fun d => d.fab.kingSerial) (o - 0x10)
  else if o = 0x18 then .ro fun d => d.fab.idMask true
  else if o = 0x1C then .ro fun d => d.fab.idMask false
  else if o = 0x20 then .ro fun d => d.fab.tagsWord
  else if o = 0x24 then .ro fun d => d.fab.late
  else if o = 0x28 then .ro fun d => d.fab.errCount
  else if o = 0x2C then .ro fun d => d.fab.errNext
  else if 0x100 ≤ o ∧ o < 0x180 then .ro fun d => (d.fab.route ((o - 0x100) / 4)).word
  else if 0x400 ≤ o ∧ o < 0x600 then .bytes (fun d => (tget bridgeErrDef d.fab.errLog ((o - 0x400) / 0x20)).bytes) (o % 0x20)
  else if 0x1000 ≤ o ∧ o < 0x1800 then tlPort ((o - 0x1000) / 0x100) (o % 0x100)
  else if 0x2000 ≤ o ∧ o < 0x2100 then .rw (tlBase + o) 0xFDFF
  else .hole

/-! ### The motion check engine (chapter 10) -/

/-- MCE.STATUS. -/
def Device.mceStatus (d : Device) : Nat :=
  field d.mce.last 16 1 % 8 + 8 * b2n d.mce.fieldValid + 16 * b2n (decide (0 < d.mce.planN)) + 32 * b2n d.mce.wave.isSome
    + 64 * b2n ((d.arb.pair mcePairKey).st == .degraded) + 128 * b2n d.mce.fieldFault + 256 * b2n d.arb.gateOpen

/-- A write of MCE.CTRL. -/
def Device.mceCtrl (d : Device) (v : Nat) : Device :=
  let d := d.modMce fun m => { m with enable := bitOf v 0, rayEnable := bitOf v 2 }
  let d := if bitOf v 1 then d.fieldReset else d
  if bitOf v 3 then d.waveAbort else d

/-- The bits of the core settings of the MCE that hold a field. -/
def mceMask (o : Nat) : Nat :=
  if 0x70 ≤ o ∧ o < 0x80 then 0x8000_01FF
  else if o = 0x8C then 0x1F1F_03FF
  else if o = 0x94 then 0x1F
  else if o = 0x9C then 0xFF
  else if o = 0xA0 then 0x1FF
  else full

/-- The offsets of the core settings. -/
def mceCoreWord (o : Nat) : Bool :=
  [0x50, 0x54, 0x58, 0x60, 0x64, 0x68, 0x70, 0x74, 0x78, 0x7C, 0x80, 0x84, 0x88, 0x8C, 0x90, 0x94, 0x98, 0x9C, 0xA0, 0xA8,
   0xB0, 0xB4].contains o

def mceReg (o : Nat) : Reg :=
  if o = 0 then { get := fun d => b2n d.mce.enable + 4 * b2n d.mce.rayEnable, put := fun d v _ => d.mceCtrl v }
  else if o = 4 then .ro fun d => d.mceStatus
  else if 8 ≤ o ∧ o < 0x14 then moveReg .mceCore (o - 8)
  else if 0x18 ≤ o ∧ o < 0x20 then moveAtReg .mceCore (o - 0x18)
  else if 0x20 ≤ o ∧ o < 0x2C then moveReg .mceModel (o - 0x20)
  else if 0x30 ≤ o ∧ o < 0x38 then moveAtReg .mceModel (o - 0x30)
  else if o = 0x40 then .sw .mceModel (mceBase + o) full
  else if o = 0x44 then .sw .mceModel (mceBase + o) 0xFF
  else if o = 0x48 then .sw .mceModel (mceBase + o) full
  else if mceCoreWord o then .sw .mceCore (mceBase + o) (mceMask o)
  else if 0x100 ≤ o ∧ o < 0x140 then .bytes (fun d => d.mce.last) (o - 0x100)
  else if 0x140 ≤ o ∧ o < 0x148 then .part (fun d => d.mce.epoch) (o - 0x140)
  else if o = 0x148 then .ro fun d => d.mce.batchErr
  else if 0x150 ≤ o ∧ o < 0x190 then .counterRo (mceBase + o / 8 * 8) (o % 8)
  else if 0x200 ≤ o ∧ o < 0x320 then .bytes (fun d => d.mce.waveResult) (o - 0x200)
  else .hole

/-! ### Graphics and display (chapter 11) -/

def Device.gpxIdle (d : Device) : Bool := d.gfx.pass.isNone

def gpxReg (o : Nat) : Reg :=
  let a := gpxBase + o
  if o = 0 then .ro fun d =>
    b2n d.gfx.pass.isSome + 2 * b2n (d.gfx.pass.isSome && decide (0 < d.gfx.partials)) + 4 * b2n (!d.gfx.queries.isEmpty)
  else if o = 8 ∨ o = 0xC then .rw a 0x8000_01FF
  else if o = 0x10 ∨ o = 0x20 then .rwIf Device.gpxIdle a full
  else if o = 0x14 ∨ o = 0x24 then .rwIf Device.gpxIdle a 0xFF
  else if o = 0x18 ∨ o = 0x28 then .rwIf Device.gpxIdle a full
  else if 0x30 ≤ o ∧ o < 0x38 then .counterRo (gpxBase + 0x30) (o - 0x30)
  else if 0x100 ≤ o ∧ o < 0x200 then .sw .gpx a (match o % 16 with | 4 => 0xFF | 12 => 1 | _ => full)
  else if 0x200 ≤ o ∧ o < 0x20C then moveReg .gpx (o - 0x200)
  else if 0x210 ≤ o ∧ o < 0x218 then moveAtReg .gpx (o - 0x210)
  else .hole

/-- A write of PIPE.CTRL: OUT10 on pipe 0 alone, REGION_EN in the shadow, and ENABLE (R328). -/
def Device.pipeCtrl (d : Device) (p v : Nat) : Device :=
  let d := d.setOpen (pipeBlock p) (pipeBase p) (Nat.land v 0x3FFFC)
  let d := if p = 0 then d.modPipe p fun x => { x with out10 := bitOf v 1 } else d
  if bitOf v 0 then d.pipeEnable p else d.modPipe p fun x => { x with enable := false, frameTn := none }

def pipeReg (p o : Nat) : Reg :=
  let a := pipeBase p + o
  let b := pipeBlock p
  let off (d : Device) : Bool := !(d.gfx.pipe p).enable
  if o = 0 then
    { get := fun d => b2n (d.gfx.pipe p).enable + 2 * b2n (d.gfx.pipe p).out10 + Nat.land (d.pipeSw p 0) 0x3FFFC,
      put := fun d v _ => d.pipeCtrl p v }
  else if o = 4 then
    { get := fun d => (d.gfx.pipe p).status,
      put := fun d v hw => d.modPipe p fun x => { x with timingErr := w1c x.timingErr v hw 1, underflow := w1c x.underflow v hw 2 } }
  else if o = 8 ∨ (0x10 ≤ o ∧ o < 0x1C) ∨ (0x20 ≤ o ∧ o < 0x30) then .rwIf off a full
  else if 0x40 ≤ o ∧ o < 0x48 then .part (fun d => (d.gfx.pipe p).frame) (o - 0x40)
  else if 0x48 ≤ o ∧ o < 0x50 then .counterRo (pipeBase p + 0x48) (o - 0x48)
  else if 0x60 ≤ o ∧ o < 0xC0 then .sw b a (match o % 32 with | 4 => 0xFF | 20 => 1 | 24 | 28 => 0 | _ => full)
  else if 0x100 ≤ o ∧ o < 0x10C then moveReg b (o - 0x100)
  else if 0x110 ≤ o ∧ o < 0x118 then moveAtReg b (o - 0x110)
  else if 0x200 ≤ o ∧ o < 0x300 then
    if o % 0x10 = 0xC then .ro fun d => tget zeroDef (d.gfx.pipe p).last ((o - 0x200) / 0x10) else .sw b a full
  else .hole

/-- SAFETY plane, region and timing registers of a pipe (chapter 11). -/
def pipeSecure (o : Nat) : Bool :=
  (decide (8 ≤ o) && decide (o < 0x30)) || (decide (0xA0 ≤ o) && decide (o < 0xC0)) || (decide (0x200 ≤ o) && decide (o < 0x300))

/-! ### The IOMMU (chapter 12) -/

/-- A context of the secure world: of a secure instance, or one that serves it. -/
def Device.ctxSecure (d : Device) (c : Nat) : Bool := bitOf (d.ctxTc c) 1 || (decide (c < 32) && (d.proc.inst c).world)

/-- An entry of the fault log (log entry 70). -/
def IommuFault.bytes (f : IommuFault) : List Byte := leBytes 8 f.addr ++ leBytes 4 f.cause ++ leBytes 1 f.ctx ++ zeros 3

/-- Changes a dirty-page log. -/
def Device.modDlog (d : Device) (i : Nat) (f : DirtyLog → DirtyLog) : Device := d.modProc fun p => p.setDlog i (f (p.dlog i))

def dlogReg (i o : Nat) : Reg :=
  if o < 8 then
    { get := fun d => (d.proc.dlog i).base / 2 ^ (8 * o) % 2 ^ 32,
      put := fun d v _ => d.modDlog i fun l => { l with base := putHalf l.base o v / 2 ^ 19 * 2 ^ 19 } }
  else if o < 0x10 then
    { get := fun d => (d.proc.dlog i).head.word / 2 ^ (8 * (o - 8)) % 2 ^ 32,
      put := fun d v _ => d.modDlog i fun l => { l with head := RPtr.ofWord (putHalf l.head.word (o - 8) v), filter := [] } }
  else if o < 0x18 then .part (fun d => (d.proc.dlog i).tail.word) (o - 0x10)
  else if o = 0x18 then { get := fun d => b2n (d.proc.dlog i).en, put := fun d v _ => d.modDlog i fun l => { l with en := bitOf v 0 } }
  else if o = 0x1C then
    { get := fun d => b2n (d.proc.dlog i).ovf + 2 * (d.proc.dlog i).fill,
      put := fun d v hw => (if bitOf v 0 then d.dlogClear i else d).modDlog i fun l => { l with ovf := bitOf hw 0 || l.ovf } }
  else .hole

/-- Words of the IOMMU window that are one context's or one instance's: its number, for the checks of the alias. -/
def iommuCtx (o : Nat) : Option Nat :=
  if o < 0x800 then some (o / 0x20) else if 0x8000 ≤ o ∧ o < 0x8800 then some ((o - 0x8000) / 0x40) else none

def iommuReg (o : Nat) : Reg :=
  let a := iommuBase + o
  if o < 0x800 then (if o % 0x20 = 0xC then .rw a 0xF3FF_FFFF else if o % 0x20 < 0x10 then .rw a full else if o % 0x20 = 0x10 then .rw a 0xF else .hole)
  else if 0x1000 ≤ o ∧ o < 0x1400 then .ro fun d => tget ctxDef d.proc.srcCtx ((o - 0x1000) / 4)
  else if o = 0x2000 then .wo fun d v => { d with holds := tput (fun _ => (0 : Word)) d.holds a (BitVec.ofNat 32 v) }
  else if o = 0x2004 then .wo fun d v => d.inval ((tget (fun _ => (0 : Word)) d.holds (a - 4)).toNat + 2 ^ 32 * (v % 2 ^ 7))
  else if o = 0x2008 then .ro fun d => b2n d.proc.invalDone
  else if o = 0x2010 then .ro fun d => d.proc.faultLost
  else if 0x2018 ≤ o ∧ o < 0x2020 then
    { get := fun d => d.proc.invalAddr / 2 ^ (8 * (o - 0x2018)) % 2 ^ 32,
      put := fun d v _ => d.modProc fun p => { p with invalAddr := putHalf p.invalAddr (o - 0x2018) v % 2 ^ 38 } }
  else if 0x3000 ≤ o ∧ o < 0x3400 then
    .bytes (fun d => match d.proc.faultLog[(o - 0x3000) / 16]? with | some f => f.bytes | none => zeros 16) (o % 16)
  else if 0x8000 ≤ o ∧ o < 0x8800 then dlogReg ((o - 0x8000) / 0x40) (o % 0x40)
  else .hole

/-- A word through the non-secure alias: a secure context, and a fault of one, reads as zero and ignores writes. -/
def aliasReg (d : Device) (o : Nat) : Reg :=
  let hidden : Bool :=
    match iommuCtx o with
    | some c => d.ctxSecure c
    | none =>
      if 0x1000 ≤ o ∧ o < 0x1400 then d.ctxSecure (tget ctxDef d.proc.srcCtx ((o - 0x1000) / 4))
      else if 0x3000 ≤ o ∧ o < 0x3400 then ((d.proc.faultLog[(o - 0x3000) / 16]?).map fun f => d.ctxSecure f.ctx).getD false
      else false
  if hidden then .hole else iommuReg o

/-! ### Instance pages (chapter 12) -/

/-- INST.MBOX_DB: the operation stands in the first two bytes of the request buffer (R353). -/
def Device.mboxWrite (d : Device) (i v : Nat) : Device := d.mboxDoorbell i (v % 2 ^ 12) (d.nat (instPage i + 0x1000) 2)

def instReg (i o : Nat) : Reg :=
  match o with
  | 0x00 => .ro fun d => (d.proc.inst i).idWord i
  | 0x04 =>
    { get := fun d => (d.proc.inst i).statusWord,
      put := fun d v hw => d.modInst i fun x => { x with
        dbErr := w1c x.dbErr v hw 2, emuTimeout := w1c x.emuTimeout v hw 3, irqDrop := w1c x.irqDrop v hw 4 } }
  | 0x08 => .wo fun d v => if bitOf v 0 then d.instReset i else d
  | 0x0C => .wo fun d v => d.mboxWrite i v
  | 0x10 =>
    { get := fun d => (d.proc.inst i).mboxWord,
      put := fun d v hw => d.modInst i fun x => { x with mboxDone := w1c x.mboxDone v hw 1, mboxOverrun := w1c x.mboxOverrun v hw 2 } }
  | 0x14 => .ro fun d => (d.proc.inst i).emuErr
  | 0x18 => .ro fun d => (d.proc.inst i).late
  | 0x1C => .ro fun d => (d.proc.inst i).irqDrops
  | _ => .hole

/-- A word of a ring view (R351). -/
def viewReg (i n o : Nat) : Reg :=
  let see (f : Ring → Nat) (d : Device) : Nat := if d.viewServes i n then f (d.ring n) else 0
  let bad (d : Device) : Device := if d.viewServes i n then d else d.modInst i fun x => { x with dbErr := true }
  if o < 0x10 then
    { Reg.part (see fun r => if o < 8 then r.head.word else r.tail.word) (o % 8) with put := fun d _ _ => bad d }
  else if o = 0x10 then .wo fun d v => d.viewMove i n fun r => r.publish (v % 2 ^ 24)
  else if o = 0x14 then .wo fun d v => (d.viewMove i n fun r => r.advance (v % 2 ^ 24)).sendHeads
  else { Reg.ro (if o = 0x18 then see Ring.statusWord else fun _ => 0) with put := fun d _ _ => bad d }

/-- A word of an instance page's MSI-X table: the vector control words mask, the others are plain (R350). -/
def msixReg (i o : Nat) : Reg :=
  let a := instPage i + 0xE000 + o
  if o % 16 = 12 then { get := fun d => d.nat a 4 ^^^ 1, put := fun d v _ => d.msixWrite i (o / 16) v }
  else { get := fun d => d.nat a 4, put := fun d v _ => d.put a (leBytes 4 v) }

/-- A word of the MSI-X pending bits (R350). -/
def pendingReg (i k : Nat) : Reg :=
  { get := fun d => ((List.range 32).map fun b => if (d.proc.inst i).msixPending.contains (32 * k + b) then 2 ^ b else 0).sum,
    put := fun d _ _ => d }

/-- A word of an instance page outside the emulated words and the mailbox buffers. -/
def pageReg (i o : Nat) : Reg :=
  if o < 0x100 then instReg i o
  else if 0x2000 ≤ o ∧ o < 0x6000 then viewReg i ((o - 0x2000) / 0x20) (o % 0x20)
  else if 0xE000 ≤ o ∧ o < 0xE800 then msixReg i (o - 0xE000)
  else if 0xF000 ≤ o ∧ o < 0xF010 then pendingReg i ((o - 0xF000) / 4)
  else .hole

/-! ### The gateway (chapter 13) -/

/-- FGW.STATUS. -/
def Device.fgwStatus (d : Device) : Nat :=
  let fresh := match d.fgw.verdict with | some r => decide (d.tn - r.tn ≤ d.fgwFresh) | none => false
  b2n d.arb.gateOpen + 2 * b2n fresh + 4 * b2n d.fgw.cfgErr + 8 * b2n (decide (nodeCount ≤ d.fgw.used))

/-- A write to a running group or port is ignored and sets CFG_ERR (R361). -/
def Device.cfgErr (d : Device) : Device := d.modFgw fun g => { g with cfgErr := true }

/-- Changes a port group. -/
def Device.modGroup (d : Device) (g : Nat) (f : FGroup → FGroup) : Device := d.modFgw fun x => x.setGroup g (f (x.group g))

/-- A write of a group's setting, while it is disabled (R361). -/
def Device.groupSet (d : Device) (g : Nat) (f : FGroup → FGroup) : Device :=
  if (d.fgw.group g).enable then d.cfgErr else d.modGroup g f

/-- A write of GROUP.CTRL: ENABLE at once, TIME while disabled. -/
def Device.groupCtrl (d : Device) (g v : Nat) : Device :=
  let x := d.fgw.group g
  let d := if x.time = bitOf v 1 then d else d.groupSet g fun x => { x with time := bitOf v 1 }
  if bitOf v 0 = x.enable then d else d.modGroup g fun x => { x with enable := bitOf v 0, lastTn := none }

/-- A write of FPORT.GROUP: while the groups that it leaves and joins are disabled; ports 0 to 31 only (R361). -/
def Device.portGroup (d : Device) (p v : Nat) : Device :=
  let x := d.fgw.port p
  if 32 ≤ p then d
  else if (x.member && (d.fgw.group x.group).enable) || (bitOf v 4 && (d.fgw.group (v % 16)).enable) then d.cfgErr
  else d.modFport p fun x => { x with group := v % 16, member := bitOf v 4 }

def groupReg (g o : Nat) : Reg :=
  if o = 0 then { get := fun d => (d.fgw.group g).period, put := fun d v _ => d.groupSet g fun x => { x with period := v } }
  else if o = 4 then
    { get := fun d => b2n (d.fgw.group g).enable + 2 * b2n (d.fgw.group g).time, put := fun d v _ => d.groupCtrl g v }
  else
    { get := fun d => (d.fgw.group g).anchor / 2 ^ (8 * (o - 8)) % 2 ^ 32,
      put := fun d v _ => d.groupSet g fun x => { x with anchor := putHalf x.anchor (o - 8) v } }

def fportReg (p o : Nat) : Reg :=
  if o = 0 then
    { get := fun d => (d.fgw.port p).status, put := fun d v hw => d.modFport p fun x => { x with busAlone := w1c x.busAlone v hw 2 } }
  else if o = 4 then
    { get := fun d => (d.fgw.port p).group + 16 * b2n (d.fgw.port p).member, put := fun d v _ => d.portGroup p v }
  else if o = 8 then .ro fun d => if p < 16 then (d.fgw.port p).tec % 256 + 256 * ((d.fgw.port p).recErr % 256) else 0
  else if 0x10 ≤ o ∧ o < 0x20 then .counterRo (fportBase p + o / 8 * 8) (o % 8)
  else .hole

def fgwReg (o : Nat) : Reg :=
  if o = 0 then { get := fun d => d.fgwStatus, put := fun d v hw => d.modFgw fun g => { g with cfgErr := w1c g.cfgErr v hw 2 } }
  else if o = 4 then .sw .fgw (fgwBase + 4) 0x3F
  else if 8 ≤ o ∧ o < 0x14 then moveReg .fgw (o - 8)
  else if 0x18 ≤ o ∧ o < 0x20 then moveAtReg .fgw (o - 0x18)
  else if 0x20 ≤ o ∧ o < 0x28 then .part (fun d => (d.fgw.verdict.map GateRec.tn).getD 0) (o - 0x20)
  else if 0x28 ≤ o ∧ o < 0x58 then .counterRo (fgwBase + o / 8 * 8) (o % 8)
  else if 0x100 ≤ o ∧ o < 0x200 then groupReg ((o - 0x100) / 0x10) (o % 0x10)
  else if 0x1000 ≤ o ∧ o < 0x1000 + 36 * 0x40 then fportReg ((o - 0x1000) / 0x40) (o % 0x40)
  else .hole

/-! ### The Arbiter mirror, the enclave, clocks and resets (chapters 15 to 17) -/

def arbReg (o : Nat) : Reg :=
  if o = 0 then .ro fun d => d.arb.status (d.dict.num 0x5000 0x01)
  else if o = 4 then .ro fun d => d.arb.cause
  else if 8 ≤ o ∧ o < 0x10 then .live (mirrorBase + 8) (fun d => d.arb.cycles) (o - 8)
  else if o = 0x10 then .ro fun d => d.arb.logInfo
  else if 0x100 ≤ o ∧ o < 0x300 then .ro fun d => (d.arb.task ((o - 0x100) / 4)).word
  else if 0x1000 ≤ o ∧ o < 0x1800 then .bytes (fun d => (d.arb.entry ((o - 0x1000) / 0x20)).bytes) (o % 0x20)
  else .hole

/-- A word of a SEC mailbox; a write of SEC.CMD starts a command (R10; log entry 78). -/
def secReg (secure : Bool) (o : Nat) : Reg :=
  if o = 0 then .ro fun d => d.sec.status secure
  else if o = 4 then .wo fun d v => (d.note (.secCmd secure (v % 256) (bits v 19 8))).secStart secure (v % 256) (bits v 19 8)
  else if o = 8 then .ro fun d => let b := if secure then d.sec.secure else d.sec.nonSecure; b.result + 256 * b.tag
  else if 0x1000 ≤ o ∧ o < 0x3000 then .rw (secBase + (if secure then 0 else 0x8000) + o) full
  else .hole

/-- A WAT entry (R336). -/
def watReg (u : Nat) : Reg := .ro fun d => (d.proc.watEntry u).word (d.unitLocked u)

def cruReg (o : Nat) : Reg :=
  if o = 0 then .ro fun d => d.pwr.status
  else if o = 4 then
    { get := fun d => d.pwr.resetCause,
      put := fun d v hw => d.modPwr fun p => { p with
        resetCause := ((List.range 7).map fun k => 2 ^ k * b2n (w1c (bitOf p.resetCause k) v hw k)).foldl (· + ·) 0 } }
  else if 8 ≤ o ∧ o < 0x14 then moveReg .cru (o - 8)
  else if 0x18 ≤ o ∧ o < 0x20 then moveAtReg .cru (o - 0x18)
  else if 0x20 ≤ o ∧ o < 0x40 then
    { Reg.sw .cru (cruBase + o) 0x10F with get := fun d => d.sw .cru (cruBase + o) + 65536 * d.quadStep ((o - 0x20) / 4) }
  else if o = 0x80 then .ro fun d => d.pwr.tempoMw
  else if 0x100 ≤ o ∧ o < 0x1C0 then .ro fun d => ofSigned 16 (d.pwr.temp ((o - 0x100) / 4))
  else .hole

end Sys2Proof.Machine
end

