-- ==== Sys2Proof/Machine/RegMap.lean ====
section
/-! DEFINITION. The register windows (R20 to R25): which register an address names for an access, and which accesses a
window answers with a bus error. -/

namespace Sys2Proof.Machine

open Sys2Proof

/-- Who makes an access: the master's port, the world, and the instance that it masters for. -/
structure Who where
  port : Port
  secure : Bool
  inst : Nat
  deriving DecidableEq, Repr

/-- A register for the accesses that `ok` allows; none is a bus error. -/
def Reg.only (ok : Bool) (r : Reg) : Option Reg := if ok then some r else none

/-- The world of the access owns a unit's registers (R336). -/
def Device.ownsUnit (d : Device) (w : Who) (u : Nat) : Bool := (d.proc.watEntry u).world == w.secure

/-- A castling of the unit is in progress: its registers answer the SEC alone (R346). -/
def Device.unitShut (d : Device) (w : Who) (u : Nat) : Bool := (d.proc.watEntry u).moving && w.port != Port.sec

/-- The SEC window (chapters 12 and 16): the secure mailbox, the non-secure mailbox 0x8000 above it, and the WAT. -/
def secWindow (w : Who) (write : Bool) (o : Nat) : Option Reg :=
  if 0x1_0000 ≤ o ∧ o < 0x1_0400 then (watReg ((o - 0x1_0000) / 4)).only (w.secure && !write)
  else if 0x8000 ≤ o ∧ o < 0x1_0000 then some (secReg false (o - 0x8000))
  else if o < 0x8000 then (secReg true o).only w.secure
  else (Reg.hole).only w.secure

/-- The FWC window (chapter 07): the blocks of the jobs, which are read by the secure world; of their registers only
TRIG_OVF and TRIG_CLR are written. -/
def fwcWindow (w : Who) (write : Bool) (o : Nat) : Option Reg :=
  if 0x10_0000 ≤ o ∧ o < 0x10_1000 then
    (jobReg ((o - 0x10_0000) / 0x40) (o % 0x40)).only (w.secure && (!write || o % 0x40 == 0x14 || o % 0x40 == 0x18))
  else (Reg.hole).only w.secure

/-- Mesh entries 0 to 7 are written by the secure world alone (R347). -/
def gpxWindow (d : Device) (w : Who) (write : Bool) (o : Nat) : Option Reg :=
  if d.unitShut w gpxUnit then none
  else if 0x100 ≤ o ∧ o < 0x180 ∧ write = true then (gpxReg o).only w.secure
  else (gpxReg o).only (d.ownsUnit w gpxUnit || (w.port == Port.debug && w.secure))

/-- The DCU window: a pipe's registers by its owner's world, the secure-only ones by the secure world (chapter 11). -/
def dcuWindow (d : Device) (w : Who) (o : Nat) : Option Reg :=
  if 0x1000 ≤ o ∧ o < 0x1800 then
    let p := (o - 0x1000) / 0x400
    if d.unitShut w (pipeUnit p) then none
    else if pipeSecure (o % 0x400) then (pipeReg p (o % 0x400)).only w.secure
    else (pipeReg p (o % 0x400)).only (d.ownsUnit w (pipeUnit p) || (w.port == Port.debug && w.secure))
  else (Reg.hole).only (w.secure || d.ownsUnit w (pipeUnit 0) || d.ownsUnit w (pipeUnit 1))

/-- The FGW window: the secure world, and a port's registers also its owner (chapter 13). -/
def fgwWindow (d : Device) (w : Who) (o : Nat) : Option Reg :=
  if 0x1000 ≤ o ∧ o < 0x1800 then
    let p := (o - 0x1000) / 0x40
    if d.unitShut w p then none else (fgwReg o).only (w.secure || d.ownsUnit w p)
  else (fgwReg o).only w.secure

/-- The IOMMU window and its non-secure alias (chapter 12). -/
def iommuWindow (d : Device) (w : Who) (o : Nat) : Option Reg :=
  if 0x80_0000 ≤ o then some (aliasReg d (o - 0x80_0000)) else (iommuReg o).only w.secure

/-- A window of the hub (R20). -/
def hubWindow (d : Device) (w : Who) (write : Bool) (n o : Nat) : Option Reg :=
  match n with
  | 0 => (cruReg o).only w.secure
  | 1 => (arbReg o).only (!write)
  | 2 => secWindow w write o
  | 3 => fwcWindow w write o
  | 4 => (nocReg .hub o).only w.secure
  | 5 => (mceReg o).only w.secure
  | 6 => gpxWindow d w write o
  | 7 => dcuWindow d w o
  | 8 => fgwWindow d w o
  | 9 => (tlReg o).only w.secure
  | 12 => iommuWindow d w o
  | 13 => (tbReg o).only (w.secure || !write)
  | _ => some Reg.hole

/-- The window of a compute die (R22): engines and common registers, all of the secure world. -/
def cdWindow (w : Who) (k o : Nat) : Option Reg :=
  (if o < 0x100_0000 then teReg (16 * k + o / 0x10_0000) (o % 0x10_0000) else commonReg k (o - 0x100_0000)).only w.secure

/-- Whether an access reaches instance i's page (R350): through the function of the instance, from the harts through the
mapping of its VM or of the host, or from the secure world. -/
def Device.pageOpen (d : Device) (w : Who) (i : Nat) : Bool :=
  let x := d.proc.inst i
  let hart := w.port.die == .hub && decide (w.port.port < 4)
  if w.port = Port.pcie then
    x.active && x.binding == .pcie && w.inst == i && d.proc.endpoint && (i == 0 || d.proc.vfEnable)
  else
    w.secure || (x.active && !x.world && hart && (x.binding == .vm || (i == 0 && !d.proc.endpoint)))

/-- The register at a word address of the register windows and instance pages. -/
def regOf (d : Device) (w : Who) (write : Bool) (a : Nat) : Option Reg :=
  match placeOf a with
  | .inst i => (pageReg i (a - instPage i)).only (d.pageOpen w i)
  | .regs =>
    if a < 0xF1_0000_0000 then hubWindow d w write ((a - 0xF0_0000_0000) / 0x100_0000) (a % 0x100_0000)
    else if a < 0xF2_0000_0000 then cdWindow w 0 (a - 0xF1_0000_0000)
    else if a < 0xF3_0000_0000 then cdWindow w 1 (a - 0xF2_0000_0000)
    else (stackReg ((a - 0xF3_0000_0000) / 0x100_0000) (a % 0x100_0000)).only w.secure
  | _ => none

/-- One word is read; none is a bus error. -/
def Device.wordRead (d : Device) (w : Who) (a : Nat) : Option (Nat × Device) :=
  (regOf d w false a).map fun r => (r.get d % 2 ^ 32, r.onRead d)

/-- One word is written, the hardware setting the bits `hw` in the same cycle (R11); none is a bus error. -/
def Device.wordWrite (d : Device) (w : Who) (a v hw : Nat) : Option Device :=
  (regOf d w true a).map fun r => r.put d (v % 2 ^ 32) hw

/-- Words are read in ascending order (R8): the data, and whether every word answered. -/
def Device.wordsRead (d : Device) (w : Who) : List Nat → List Byte × Bool × Device
  | [] => ([], true, d)
  | a :: as => match d.wordRead w a with
    | some (v, d) => let r := d.wordsRead w as; (leBytes 4 v ++ r.1, r.2.1, r.2.2)
    | none => let r := d.wordsRead w as; (zeros 4 ++ r.1, false, r.2.2)

/-- Words are written in ascending order (R8), with whether every word answered. -/
def Device.wordsWrite (d : Device) (w : Who) (hw : Nat) : List (Nat × Nat) → Bool × Device
  | [] => (true, d)
  | (a, v) :: as => match d.wordWrite w a v hw with
    | some d => d.wordsWrite w (hw / 2 ^ 32) as
    | none => let r := d.wordsWrite w (hw / 2 ^ 32) as; (false, r.2)

end Sys2Proof.Machine
end

