-- ==== Sys2Proof/Machine/BusCmds.lean ====
section
/-! DEFINITION. Bus requests (chapters 01, 08 and 12): routing, translation, checks, budgets and tags, and writes and reads
of registers. -/

namespace Sys2Proof.Machine

open Sys2Proof

/-! ### Who makes a request (R334, R338) -/

/-- The world that a request of a port carries (R334): the SPC, the FWC, the SEC, the MCE and the storage hosts are secure; an
engine has the world of its job, the GPX that of its WAT entry, the PCIe controller that of the instance it masters for; a
hart's world is one that MWORLD of some hart of its cluster holds. -/
def Device.worldOf (d : Device) (p : Port) (asked : Bool) (inst : Nat) : Bool :=
  match p.engineOf with
  | some e => ((d.runner e).map Runner.world).getD asked
  | none =>
    if p.die = .hub then
      (match p.port with
       | 4 | 5 | 6 | 9 | 15 => true
       | 7 => (d.proc.watEntry gpxUnit).world
       | 11 => (d.proc.inst inst).world
       | 12 | 13 | 14 | 8 | 10 => asked
       | c => if (List.range 4).any fun k => (d.proc.hart (4 * c + k)).mworld == asked then asked else !asked)
    else asked

/-- The instance that a request is made for: an engine's is that of its job. -/
def Device.instOf (d : Device) (p : Port) (asked : Nat) : Nat :=
  match p.engineOf with
  | some e => ((d.runner e).map Runner.ctx).getD (asked % 32)
  | none => asked % 32

/-- The context that translates a request (R338): none for the processors, the debug port, the MCE and requests of other
devices; the instance's for engines and the PCIe controller; that of the WAT entry for the GPX. -/
def Device.ctxOf (d : Device) (p : Port) (asked : Option Nat) (inst : Nat) : Option Nat :=
  match p.engineOf with
  | some _ => some inst
  | none =>
    if p.die = .hub then
      (if p.port ≤ 6 ∨ p.port = 9 ∨ p.port = 12 ∨ p.port = 14 then none
       else if p.port = 11 then some inst
       else if p.port = 7 then some (tget ctxDef d.proc.srcCtx gpxUnit)
       else asked.map fun c => c % 64)
    else asked.map fun c => c % 64

/-- The maker of a request. -/
def Device.who (d : Device) (r : BusReq) : Who :=
  let i := d.instOf r.master r.inst
  ⟨r.master, d.worldOf r.master r.secure i, i⟩

/-! ### What a request meets (R20 to R28) -/

/-- The response of a request whose parts have these responses. -/
def BusResp.join : BusResp → BusResp → BusResp
  | .lost, _ | _, .lost => .lost
  | .data a, .data b => .data (a ++ b)
  | .ok, .ok => .ok
  | _, _ => .error

/-- A refused access, logged where R240 says so. -/
def Device.refuse (d : Device) (w : Who) (a : Nat) (write log : Bool) : Device × BusResp :=
  (if log then d.logRefusal w.port a write w.secure else d, .error)

/-- A permitted access to a memory, with what its check bits show (R176, R177, R186). An uncorrectable read is written
to the die's error log (log entry 89). -/
def Device.memAccess (d : Device) (w : Who) (r : BusReq) (a n : Nat) (bs : List Byte) : Device × BusResp :=
  if r.write then (d.put a bs, .ok)
  else match r.ecc with
    | .clean => (d, .data (d.bytes a n))
    | .corrected => (d.memError a .corrected, .data (d.bytes a n))
    | e => ((d.logRefusal w.port a false w.secure).memError a e, .error)

/-- One byte of the motion-field store (R21): the voxel of a place in a replica is free (log entry 88). -/
def Device.fieldByte (d : Device) (a : Nat) : Byte :=
  let o := a - 0xD0_1000_0000
  if o < 0x100_0000 then
    BitVec.ofNat 8 (ofSigned 8 (tget codeDef d.mce.fine.codes (Config.fieldPlace false (o % 0x10_0000))))
  else
    BitVec.ofNat 8 (ofSigned 16 (tget codeDef d.mce.coarse.codes (Config.fieldPlace true (o % 0x4_0000 / 2))) / 256 ^ (o % 2))

/-- A read of the motion-field store (R21): a single-bit error is corrected and counted, an uncorrectable one sets the field-store
fault and has no data (R291). -/
def Device.fieldRead (d : Device) (r : BusReq) (a n : Nat) : Device × BusResp :=
  let data := BusResp.data ((List.range n).map fun k => d.fieldByte (a + k))
  match r.ecc with
  | .clean => (d, data)
  | .corrected => (d.fieldErrors 1 false, data)
  | _ => (d.fieldErrors 0 true, .error)

/-- An access to registers (R8): 32 or 64 bits, aligned, and whole: a part of a wider access has no effect. A 64-bit read leaves
the holding registers alone (R237). -/
def Device.regAccess (d : Device) (w : Who) (write : Bool) (a n : Nat) (bs : List Byte) (whole : Bool) : Device × BusResp :=
  if !whole ∨ (n ≠ 4 ∧ n ≠ 8) ∨ a % n ≠ 0 then (d, .error)
  else
    let as := (List.range (n / 4)).map fun k => a + 4 * k
    if write then
      let r := d.wordsWrite w 0 (as.map fun x => (x, field bs (x - a) 4))
      (r.2, if r.1 then .ok else .error)
    else
      let r := d.wordsRead w as
      (if n = 8 then { r.2.2 with holds := d.holds } else r.2.2, if r.2.1 then .data r.1 else .error)

/-- An access to instance i's page: emulated words wait for the firmware (R352), the mailbox buffers are memory, the rest
are registers (R350). -/
def Device.pageAccess (d : Device) (w : Who) (id i : Nat) (write : Bool) (a n : Nat) (bs : List Byte) (whole : Bool) :
    Device × BusResp :=
  let o := a - instPage i
  if 0x800 ≤ o ∧ o < 0x1000 then
    if !whole || !d.pageOpen w i || (n != 4 && n != 8) || a % n != 0 then (d, .error)
    else
      let ks := List.range (n / 4)
      if write then (ks.foldl (fun d k => d.emuWrite i (o + 4 * k) (field bs (4 * k) 4)) d, .ok)
      else (ks.foldl (fun d k => d.emuRead i (o + 4 * k) (some (w.port, id))) d, .data [])
  else if 0x1000 ≤ o ∧ o + n ≤ 0x2000 then
    if !d.pageOpen w i then (d, .error) else if write then (d.put a bs, .ok) else (d, .data (d.bytes a n))
  else d.regAccess w write a n bs whole

/-- A request meets the window of its package-local address, all of it within one page (R20 to R25, R184, R337, R467). One whose
path leads over a link that is down waits there (R17, R219). -/
def Device.localAccess (d : Device) (w : Who) (id : Nat) (r : BusReq) (a n : Nat) (bs : List Byte) : Device × BusResp :=
  let write := r.write
  let whole := n == r.len
  if !d.reaches w.port.die a then (d, .lost)
  else match placeOf a with
  | .stack _ | .slab _ =>
    if !d.answers a then d.refuse w a write false
    else if d.rgnAllows w.port.group w.secure write false a then d.memAccess w r a n bs
    else d.refuse w a write true
  | .opSlab e =>
    let free := (d.engine e).bound.isNone || (d.engine e).halted
    if (w.port.die != .hub || w.port == Port.debug) && free then d.memAccess w r a n bs else d.refuse w a write true
  | .sram => if d.sramWorld a = w.secure then d.memAccess w r a n bs else d.refuse w a write false
  | .fieldStore =>
    if write || !w.secure then d.refuse w a write false else d.fieldRead r a n
  | .pcie =>
    if !d.proc.pcieUp then d.refuse w a write true
    else if write then (d.note (.pcie a bs), .ok)
    else (d, .data ((r.data ++ zeros n).take n))
  | .rom =>
    if w.port != Port.sec then d.refuse w a write true
    else if write then d.refuse w a write false
    else (d, .data ((List.range n).map fun k => Config.romByte (a + k - 0xFF_F000_0000)))
  | .inst i => d.pageAccess w id i write a n bs whole
  | .regs => d.regAccess w write a n bs whole
  | .outside => d.refuse w a write true

/-- A request to another device (R27, R28, R264, R266): reads ask for their data in messages, writes are posted. A device
without a fabric ID fails the access and logs it. -/
def Device.remoteAccess (d : Device) (w : Who) (id level : Nat) (write : Bool) (a n : Nat) (bs : List Byte) : Device × BusResp :=
  let dev := a / 2 ^ 40
  if d.fab.id.isNone then (d.logBridge a 6 dev 0 0, .error)
  else if write then
    ((pieces d.fab.maxData (a + n) (n / 16 + 3) a).foldl (fun d p =>
      d.send (d.writeMsg level w.secure a bs p.1 p.2) noRing) d, .ok)
  else
    let lo := a / 16 * 16
    let hi := (a + n + 15) / 16 * 16
    let gen := (d.proc.inst w.inst).gen
    ((pieces d.fab.maxData hi ((hi - lo) / 16 + 1) lo).foldl (fun d p =>
      d.askRead ⟨.bus w.port id, dev, p.1, units p.2, 0, false, 0, w.inst, gen⟩ w.secure level) d, .data (zeros n))

/-- The package-local address that an address names, if it names one of this device (R16, R26, R27). -/
def Device.localOf (d : Device) (isGlobal : Bool) (p : Nat) : Option Nat :=
  if isGlobal then (if p < 2 ^ 45 ∧ d.isOwn (p / 2 ^ 40) = true then some (p % 2 ^ 40) else none)
  else if p < 2 ^ 40 then some p else none

/-- A part of a request within one page, after translation (R16, R26, R27, R338). -/
def Device.partAccess (d : Device) (w : Who) (ctx : Option Nat) (id level : Nat) (r : BusReq) (a n : Nat) (bs : List Byte) :
    Device × BusResp :=
  let t : Option Nat × Device := match ctx with
    | none => (some a, d)
    | some c => d.translate c w.secure r.write a
  match t with
  | (none, d) => (d, .error)
  | (some p, d) =>
    match d.localOf r.global p with
    | some a => d.localAccess w id r a n bs
    | none =>
      if !r.global || decide (2 ^ 45 ≤ p) then d.refuse w p r.write true
      else if !d.reaches w.port.die tlBase then (d, .lost)
      else d.remoteAccess w id level r.write p n bs

/-- The bytes that a request writes. -/
def BusReq.bytes (r : BusReq) : List Byte := (r.data ++ zeros r.len).take r.len

/-- A request is served: every part within a page on its own, and an error on any part is the response of the whole. -/
def Device.serve (d : Device) (w : Who) (id level : Nat) (r : BusReq) : Device × BusResp :=
  let ctx := d.ctxOf r.master r.ctx w.inst
  (pagesOf r.addr r.len).foldl (fun (p : Device × BusResp) x =>
    let q := p.1.partAccess w ctx id level r x.1 x.2 ((r.bytes.drop (x.1 - r.addr)).take x.2)
    (q.1, p.2.join q.2)) (d, if r.write then .ok else .data [])

/-! ### Issue (R223 to R225, R230 to R232) -/

/-- The stack whose controller serves a request (R235): that of its first byte after translation. -/
def Device.stackOf (d : Device) (w : Who) (r : BusReq) : Option Nat :=
  let t : Option Nat := match d.ctxOf r.master r.ctx w.inst with
    | none => some r.addr
    | some c => (d.translate c w.secure r.write r.addr).1
  match t.bind (d.localOf r.global) with
  | none => none
  | some a => match placeOf a with | .stack h => some h | _ => none

/-- A request leaves its port with a level and, for a read, a tag: it is served, and its response waits for its
completion (R221, R223, R225, R228). Its number is one more than the last. -/
def Device.issueBus (d : Device) (r : BusReq) (tag : Option Nat) : Device :=
  let p := r.master
  let w := d.who r
  let level := d.nextLevel p
  let id := (d.noc.port p).nextId + 1
  let stack := d.stackOf w r
  let x : Inflight := ⟨id, w.secure, level, r.len, r.write, tag, false, w.inst, (d.proc.inst w.inst).gen, stack, r.addr,
    if r.write then .ok else .data []⟩
  let d := d.modPort p fun s => { s with inflight := s.inflight ++ [x], nextId := id }
  let d := match tag with
    | some t => d.modPool p.die fun q => { q with used := t :: q.used }
    | none => d
  let q := d.serve w id level r
  q.1.modPort p fun s => { s with inflight := s.inflight.map fun i =>
    if i.id = id then { i with resp := i.resp.join q.2 } else i }

/-- The next port, after the last one served, with a stalled read that may issue (R231). -/
def Device.nextWaiting (d : Device) (die : Die) : Option Nat :=
  let n := portCount die
  ((List.range n).map fun k => ((d.noc.pool die).lastPort + 1 + k) % n).find? fun p =>
    !(d.noc.port ⟨die, p⟩).stalled.isEmpty && d.mayIssue ⟨die, p⟩

/-- A request that may issue does: a read takes a tag of its die's pool, or stalls behind earlier stalled reads of its port and
behind every port that waits for a tag already (R33, R230, R231). -/
def Device.launch (d : Device) (r : BusReq) : Device :=
  let p := r.master
  if r.write then d.issueBus r none
  else match (d.noc.port p).stalled, d.nextWaiting p.die, d.poolTag p.die with
    | [], none, some t => d.issueBus r (some t)
    | _, _, _ => d.modPort p fun s => { s with stalled := s.stalled ++ [r] }

/-- A master offers a request of 1 to 64 bytes (R223); it is held behind held ones, or while OUT is not below HARD
(R224). -/
def Device.offer (d : Device) (r : BusReq) : Device :=
  let p := r.master
  if r.len = 0 ∨ 64 < r.len ∨ portCount p.die ≤ p.port then d
  else if (d.noc.port p).held.isEmpty && d.mayIssue p then d.launch r
  else d.modPort p fun s => { s with held := s.held ++ [r] }

/-- BUS_ACCESS (R20). Requests of the debug port come from frames alone, and those of other devices from messages. -/
def execBusAccess (r : BusReq) (s : State) : Out :=
  s.on fun d => if r.master = Port.debug ∨ r.master = Port.toterlink then d else d.offer r

/-- Network cycles in which a port has held a request since they were counted last (R224; log entry 87). -/
def Device.countHeld (d : Device) (p : Port) : Device :=
  { d with fresh := d.fresh + 1 }.count (portBase p + 0x80) (Config.heldCycles d.fresh).val

/-- The oldest held request issues once OUT is below HARD (R224). -/
def Device.heldIssue (d : Device) (p : Port) : Device :=
  match (d.noc.port p).held with
  | [] => d
  | r :: rest =>
    if !d.mayIssue p then d
    else
      let d := if rest.isEmpty then d.countHeld p else d
      (d.modPort p fun s => { s with held := rest }).launch r

/-- HELD_REQUEST_ISSUE (R224). -/
def execHeldRequestIssue (p : Port) (s : State) : Out := s.on fun d => d.heldIssue p

/-- A free tag of the die's pool goes to the oldest stalled read of the next waiting port (R231). -/
def Device.tagGrant (d : Device) (die : Die) : Device :=
  match d.nextWaiting die, d.poolTag die with
  | some p, some t =>
    (match (d.noc.port ⟨die, p⟩).stalled with
     | [] => d
     | r :: rest =>
       ((d.modPort ⟨die, p⟩ fun s => { s with stalled := rest }).modPool die fun q => { q with lastPort := p }).issueBus r (some t))
  | _, _ => d

/-- TAG_GRANT (R231); the hub's bridge grants remote-read tags in the same way (R264). -/
def execTagGrant (die : Die) (s : State) : Out :=
  s.on fun d => if die = .hub then (d.tagGrant die).remoteGrant else d.tagGrant die

/-! ### Writes and reads of registers (R8 to R12) -/

/-- The maker of a register access: a hart of an APC cluster has the world of its MWORLD (R334). -/
def Device.regWho (d : Device) (r : RegReq) : Who :=
  let i := d.instOf r.master r.inst
  if r.master.die = .hub ∧ r.master.port < 4 then ⟨r.master, (d.proc.hart (4 * r.master.port + r.hart % 4)).mworld, i⟩
  else ⟨r.master, d.worldOf r.master r.secure i, i⟩

/-- A write of a register: its bus response goes to the master, whose number 0 it carries. Over a link that is down it does not
arrive (R219). -/
def Device.registerWrite (d : Device) (r : RegReq) : Device :=
  let w := d.regWho r
  let n := if r.wide then 8 else 4
  if !d.reaches r.master.die r.addr then d
  else match placeOf r.addr with
  | .regs | .inst _ =>
    let o := r.addr % 0x1_0000
    let q : Device × BusResp :=
      if 0xF8_0000_0000 ≤ r.addr ∧ 0x800 ≤ o ∧ o < 0x2000 then
        d.pageAccess w 0 ((r.addr - 0xF8_0000_0000) / 0x1_0000) true r.addr n (leBytes n r.value) true
      else if r.addr % n ≠ 0 then (d, .error)
      else
        let ws := if r.wide then [(r.addr, r.value % 2 ^ 32), (r.addr + 4, r.value / 2 ^ 32)] else [(r.addr, r.value)]
        let x := d.wordsWrite w r.hwSet ws
        (x.2, if x.1 then .ok else .error)
    q.1.note (.bus r.master 0 q.2)
  | _ => d

/-- REGISTER_WRITE (R10). -/
def execRegisterWrite (r : RegReq) (s : State) : Out :=
  s.on fun d => if r.master = Port.debug ∨ r.master = Port.toterlink then d else d.registerWrite r

/-! ### Live counters, by the rows that name their words (R237, R239; log entry 91) -/

/-- The secure world's access that a counter row stands for. -/
def secureWho : Who := ⟨Port.fwc, true, 0⟩

/-- A 32-bit read of the low word of a 64-bit counter or snapshot register: its high word goes to the holding register
(R237). -/
def Device.counterLowRead (d : Device) (a : Nat) : Device :=
  match d.wordRead secureWho a with
  | some (v, d) => d.note (.read a v)
  | none => d

/-- COUNTER_LOW_READ (R237). -/
def execCounterLowRead (addr : Nat) (s : State) : Out := s.on fun d => d.counterLowRead addr

/-- COUNTER_LOW_WRITE (R239). -/
def execCounterLowWrite (addr : Nat) (v : Word) (s : State) : Out :=
  s.on fun d => (d.wordWrite secureWho addr v.toNat 0).getD d

/-- COUNTER_HIGH_WRITE (R239): `addr` is that of the counter, its high word 4 above; `inc`: an increment falls into the
cycle of the write. -/
def execCounterHighWrite (addr : Nat) (v : Word) (inc : Bool) (s : State) : Out :=
  s.on fun d => (d.wordWrite secureWho (addr + 4) v.toNat (b2n inc)).getD d

/-- COUNTER_WRITE_64 (R239). -/
def execCounterWrite64 (addr : Nat) (v : DWord) (inc : Bool) (s : State) : Out :=
  s.on fun d => (d.wordsWrite secureWho (2 ^ 32 * b2n inc) [(addr, v.toNat % 2 ^ 32), (addr + 4, v.toNat / 2 ^ 32)]).2

/-- A read of an RC register: the value, then cleared but for the bits that the hardware sets in the same cycle (R10,
R11); a read through the debug port leaves it (R12). -/
def Device.rcRead (d : Device) (a : Nat) (debug : Bool) (hw : Nat) : Device :=
  let v := (tget (fun _ => (0 : Word)) d.rcs a).toNat
  { d with rcs := tput (fun _ => (0 : Word)) d.rcs a (BitVec.ofNat 32 (if debug then Nat.lor v hw else hw)) }.note (.read a v)

/-- RC_READ (R10). -/
def execRcRead (addr : Nat) (debug : Bool) (hwSet : Nat) (s : State) : Out := s.on fun d => d.rcRead addr debug hwSet

end Sys2Proof.Machine
end

