-- ==== Sys2Proof/Machine/Boundary.lean ====
section
/-! DEFINITION. Tempo, round and field-cycle boundaries (R35 to R38): what each chapter does at them, in the order of log entry
8. -/

namespace Sys2Proof.Machine

open Sys2Proof

/-! ### Tempo boundaries -/

/-- Device time reaches the next whole multiple of 1,000 (R35): the counters are copied into their snapshots unless HOLD is
set (R236), TN advances, a slew goes on (R52), a round boundary falls due, and the Arbiter sees the pulse (R408). -/
def Device.tempoClock (d : Device) (env : TempoEnv) : Device :=
  let n := d.tn + 1
  let t := d.tb.slew (d.sw .tb (tbBase + 0x54) % 2 ^ 11)
  let noc := if d.noc.hold then d.noc else d.noc.snapshot n false
  { d with tb := { t with dt := n * 1000, mark := d.fresh, roundDue := n % 1000 == 0 }, noc := noc,
           arb := if d.arb.valid then d.arb.pulse env.arbCycles else d.arb }

/-- Busy cycles of the engines in the tempo that ended (log entry 24), and held cycles of the ports (R224). -/
def Device.tempoCounts (d : Device) : Device :=
  let busy := (List.range 32).filter fun e => (d.engine e).running.isSome
  let d := busy.foldl (fun d e => { d with fresh := d.fresh + 1 }.count (teBase e + 0x38) (Config.freeCycles d.fresh).val) d
  let ports := [Die.cd0, Die.cd1, Die.hub].flatMap fun die => (List.range (portCount die)).map fun p => Port.mk die p
  (ports.filter fun p => !(d.noc.port p).held.isEmpty).foldl Device.countHeld d

/-- Settings that are due take effect (R40, R388), a profile's among them at a round boundary (R401), the firmware seals what waits for the next boundary (R492), and a waiting sealed load
begins (R441). -/
def Device.tempoMoves (d : Device) : Device :=
  let d := if d.tb.roundDue then d.profileSeal else d
  ((d.serveMoves .tempo d.tn).dictBoundary .tempo).fwPumpAll.sealPump

/-- Jobs at a tempo boundary: triggers, engine time, states, idle times and the scheduler's pass (R189, R205 to R208). -/
def Device.tempoJobs (d : Device) (bad : List (Nat × Nat)) : Device := d.jobTime.triggerTempo.jobStates.jobIdle.schedule bad

/-- The Arbiter judges the tempo that ended: a record that did not arrive counts as a bad one while the MCE is enabled
(R314, R410). -/
def Device.recordMissing (d : Device) : Device :=
  let d := if d.mce.out.isSome || (d.mce.enable && !d.arb.recHere) then d.modArb fun a => a.noteRec ⟨false, modeOff⟩ else d
  d.modArb fun a => { a with recHere := false, xcheck := match a.xcheck with
    | some n => if n ≤ 1 then none else some (n - 1)
    | none => none }

/-- Worlds and instances at a tempo boundary (R346, R356). -/
def Device.tempoWorlds (d : Device) : Device := d.castlingTempo.drainTempo

/-- The fabric at a tempo boundary (R256, R257, R259, R263, R270, R272, R275, R278). -/
def Device.tempoFabric (d : Device) : Device := d.heartbeats.resign.applyConfig.kingConfig.fabricSends.sendHeads

/-- The firmware samples the error register: a change from 0 sends an EMCY (R393). -/
def Device.errorSample (d : Device) : Device :=
  let v := d.errorReg
  let d := if d.dict.errSample = 0 ∧ v ≠ 0 then d.errorEmcy v else d
  d.modDict fun x => { x with errSample := v }

/-- A tempo boundary. It comes while DT runs, and not before the round boundary of the present TN has been served. Where it is a round
boundary too, the MCE's tempo begins with the settings that the round boundary brings (R284, R290). -/
def Device.tempo (d : Device) (env : TempoEnv) : Device :=
  if !d.tb.started || d.tb.roundDue then d
  else
    let d := env.corrected.foldl (fun d a => d.memError a .corrected) d
    let d := (d.tempoCounts.tempoClock env).tempoMoves
    let d := (d.tempoJobs env.loadBad).recordMissing
    let d := (if d.tb.roundDue then d.mceWaits else d.mceTempo env.mce).tempoWorlds
    let d := d.tempoFabric.taskPeriods.errorSample
    (d.modPwr fun p => p.tempoPower env.powerMw).settleRails

/-- A tempo boundary while a thermal trip holds the dies: DT counts on (R36), and the Arbiter sees the pulse. -/
def Device.heldTempo (d : Device) (env : TempoEnv) : Device :=
  if d.tb.started then
    { d with tb := { d.tb with dt := (d.tn + 1) * 1000, mark := d.fresh }, arb := if d.arb.valid then d.arb.pulse env.arbCycles else d.arb }
  else d

/-- TEMPO_BOUNDARY (R35). -/
def execTempoBoundary (env : TempoEnv) (s : State) : Out :=
  s.onKeep fun d => if d.pwr.held then d.heldTempo env else d.tempo env

/-! ### Round boundaries -/

/-- The links at a round boundary: ports that the mask of 0x2100:01 has taken off go down, and the others train again while
their link is not up (R242); each link measures its delay (R272). -/
def Device.linkRound (d : Device) (delays : List Nat) : Device :=
  (List.range 8).foldl (fun d p =>
    let d := if d.linkEnabled p then d.modLink p fun x => if x.st = .off then x.reset .training else { x with tried := false }
      else if (d.fab.port p).st = .off then d
      else (d.linkDown p).modLink p fun x => x.reset .off
    if d.linkActive p then d.modLink p fun x => { x with delay := delays.getD p x.delay } else d) d

/-- The readings of the temperature sensors (R458). -/
def Device.takeTemps (d : Device) (ts : List Int) : Device :=
  d.modPwr fun p => { p with temps := (List.range 48).foldl (fun t i => tput tempDef t i (ts.getD i (p.temp i))) p.temps }

/-- The per-round actions, once, at a tempo boundary at which TN is a multiple of 1,000 (R35). -/
def Device.round (d : Device) (env : RoundEnv) : Device :=
  if !d.tb.roundDue then d
  else
    let d := { d with tb := { d.tb with roundDue := false } }
    let d := (d.takeTemps env.temps).serveMoves .round (d.tn / 1000)
    let d := ((d.profileApply.dictBoundary .round).fwPumpAll).mceTempo env.mce
    let d := (d.remapRows.linkRound env.delays).applyConfig
    let d := (d.fieldRound.capRound env.roundMw).modPwr Power.thermalRound
    ((d.stackRound 0).stackRound 1).settleRails

/-- ROUND_BOUNDARY (R35). -/
def execRoundBoundary (env : RoundEnv) (s : State) : Out := s.on fun d => d.round env

/-! ### Field-cycle boundaries -/

/-- A field-cycle boundary of a port group, when one is due (R361, R388). -/
def Device.cycleBoundary (d : Device) (g : Nat) : Device := if d.cycleDue g then (d.dictCycle g).fieldCycle g else d

/-- FIELD_CYCLE_BOUNDARY (R361). -/
def execFieldCycleBoundary (g : Fin 16) (s : State) : Out := s.on fun d => d.cycleBoundary g

end Sys2Proof.Machine
end

