-- ==== Sys2Proof/Machine/DbgCmds.lean ====
section
/-! DEFINITION. Commands of the serial debug port and of the TAP (chapter 18). -/

namespace Sys2Proof.Machine

open Sys2Proof

def Device.modDbg (d : Device) (f : Dbg → Dbg) : Device := { d with dbg := f d.dbg }

/-- The ACK of a frame that ends with it (R470). -/
def Device.dbgAck (d : Device) (a : DbgAck) : Device := d.note (.dbg a [])

/-! ### The session (R446, R473) -/

/-- A challenge is good for 10 s (R446). -/
def challengeNs : Nat := 10 * 10 ^ 9

/-- The DRBG draws a challenge (R446). -/
def Device.drawChallenge (d : Device) : Device :=
  let bs := (List.range 32).map fun k => BitVec.ofNat 8 (Config.random (d.fresh + k))
  let (t, d) := { d with fresh := d.fresh + 32 }.stamp
  d.modDbg fun g => { g with challenge := bs, challengeLive := true, challengeAt := t }

/-- A read of word 0 of DBGP.CHALLENGE: random data stalls after a failed health test and is refused once the source is in
error (R437). -/
def Device.challengeRead (d : Device) : Device :=
  if d.sec.entropyErr then d.dbgAck .fault
  else if d.sec.entropyStalled then d.dbgAck .wait
  else
    let d := d.drawChallenge
    d.note (.dbg .ok (d.dbg.challenge.take 4))

/-- CHALLENGE_READ (R446). -/
def execChallengeRead (s : State) : Out := s.onKeep fun d => d.challengeRead

/-- A write of DBGP.UNLOCK submits the response, whose length stands in [15:0], and spends the challenge (R446, R473). -/
def Device.unlock (d : Device) (v : Nat) : Device :=
  if d.dbg.unlockBusy then d
  else
    let (t, d) := d.stamp
    d.modDbg fun g => { g with
      unlockBusy := true
      respFresh := g.challengeLive && decide (t - g.challengeAt ≤ challengeNs) && decide (v % 2 ^ 16 ≤ 4096)
      challengeLive := false }

/-- DEBUG_UNLOCK (R446). -/
def execDebugUnlock (w : Word) (s : State) : Out := s.onKeep fun d => d.unlock w.toNat

/-- A response grants its level: an owner signature 1 or 2, and a Zilvo signature 3 in Field-return alone (R446). -/
def Sec.unlocks (s : Sec) (r : UnlockOutcome) : Bool :=
  r.named && (match r.level with
    | 1 | 2 => s.signed r.sig
    | 3 => s.lifecycle == .fieldReturn && r.sig.good && r.sig.zilvo
    | _ => false)

/-- The verification ends: the level in effect is replaced, or UNLOCK_FAIL is set (R446, R473). -/
def Device.unlockVerified (d : Device) (r : UnlockOutcome) : Device :=
  if !d.dbg.unlockBusy then d
  else if d.dbg.respFresh && d.sec.unlocks r then d.modDbg fun g => { g with unlockBusy := false, respFresh := false, level := r.level }
  else d.modDbg fun g => { g with unlockBusy := false, respFresh := false, unlockFail := true }

/-- UNLOCK_VERIFIED (R446). -/
def execUnlockVerified (r : UnlockOutcome) (s : State) : Out := s.onKeep fun d => d.unlockVerified r

/-- A write of DBGP.CLOSE (R473). -/
def Device.dbgClose (d : Device) : Device :=
  d.modDbg fun g => { g with level := 0, pending := g.pending.map fun p => { p with closed := true } }

/-- DEBUG_CLOSE (R473). -/
def execDebugClose (s : State) : Out := s.onKeep fun d => d.dbgClose

/-! ### Session levels (R473) -/

/-- Bytes [a, a + n) meet [lo, hi). -/
def meets (a n lo hi : Nat) : Bool := decide (a < hi) && decide (lo < a + n)

/-- SPACE 0: the SEC mailbox windows need level 3, as the rest of the SEC window does with WORLD 1; WORLD 0 needs level 1 and
WORLD 1 level 2 (R446, R473). -/
def busLevel (h : DbgHeader) : Nat :=
  if meets h.addr (4 * h.count) secBase (secBase + 0x1_0000) then 3
  else if h.world then (if meets h.addr (4 * h.count) secBase (secBase + 0x100_0000) then 3 else 2)
  else 1

/-- SPACE 1: the level of a debug module (R473). -/
def moduleLevel (m : Nat) : Nat := match m with | 0 => 1 | 3 => 3 | _ => 2

/-- The session level allows the access of a header (R473); the recovery window is open while SEC.STATUS.BOOT is 0xE2. -/
def Device.dbgAllows (d : Device) (h : DbgHeader) : Bool :=
  match h.space with
  | 0 => decide (busLevel h ≤ d.dbg.level)
  | 1 => decide (moduleLevel (bits h.addr 9 8) ≤ d.dbg.level)
  | 2 => decide (1 ≤ d.dbg.level)
  | _ => d.sec.boot == 0xE2 || !meets h.addr (4 * h.count) 0x8000 0x10_8000

/-- Engine debug of a job: level 1 reaches jobs of the non-secure world (R473). -/
def Device.dbgJob (d : Device) (j : Nat) : Bool :=
  decide (2 ≤ d.dbg.level) || (d.dbg.level == 1 && !(d.job j).rc.world)

/-! ### Engine debug (R477) -/

/-- Changes the engines of a job that are not being released. -/
def Device.jobEngines (d : Device) (j : Nat) (f : Eng → Eng) : Device :=
  ((d.job j).held.filter fun e => !(d.engine e).leaving).foldl (fun d e => d.modEng e f) d

/-- RESUME clears the halt. -/
def Eng.resume (g : Eng) : Eng := { g with halted := false, halting := false, step := none }

/-- STEP lets a halted engine issue and commit `n` commands. -/
def Eng.stepFor (n : Nat) (g : Eng) : Eng := if g.halted && n != 0 then { g with halted := false, step := some n } else g

/-- A command of EDBG.CMD that the session level allows (R473); a frame of SPACE 2 fails while WERR is set (R471). -/
def Device.edbgCmd (d : Device) (j : Nat) (f : Eng → Eng) : Device :=
  if d.dbg.werr then d.dbgAck .fault
  else if !d.dbgJob j then d.dbgAck .denied
  else if d.pwr.held then d
  else d.jobEngines j f

/-- ENGINE_HALT (R477). -/
def execEngineHalt (j : Fin 64) (s : State) : Out := s.onKeep fun d => d.edbgCmd j Eng.halt

/-- ENGINE_RESUME (R477). -/
def execEngineResume (j : Fin 64) (s : State) : Out := s.onKeep fun d => d.edbgCmd j Eng.resume

/-- ENGINE_STEP (R477). -/
def execEngineStep (j : Fin 64) (n : Nat) (s : State) : Out := s.onKeep fun d => d.edbgCmd j (Eng.stepFor (n % 2 ^ 16))

/-- EDBG.HALTED: engines of jobs that the session may examine. -/
def Device.haltedMask (d : Device) : Nat :=
  ((List.range 32).map fun e =>
    if (d.engine e).halted && (match (d.engine e).bound with | some b => d.dbgJob b.1 | none => true) then 2 ^ e else 0).sum

/-- A word of EDBG.BP. -/
def bpHalf (v o : Nat) : Nat := v / 2 ^ (8 * (o % 8)) % 2 ^ 32

/-- A word of SPACE 2 is read; a job beyond the level is refused. -/
def Device.edbgRead (d : Device) (o : Nat) : Option Nat :=
  if o < 0x40 then
    let v := d.dbg.bpWord (o / 8)
    if v = 0 ∨ d.dbgJob (v % 64) then some (bpHalf v o) else none
  else if o = 0x44 then (if d.dbg.hit = 0 ∨ d.dbgJob (d.dbg.hit % 64) then some d.dbg.hit else none)
  else if o = 0x48 then some d.haltedMask
  else some 0

/-- Writable bits of EDBG.BP. -/
def bpMask (o : Nat) : Nat := if o % 8 = 0 then 0x3FFF else 2 ^ 32 - 1

/-- The breakpoint after a write of one word. -/
def bpWith (v o w : Nat) : Nat :=
  if o % 8 = 0 then v / 2 ^ 32 * 2 ^ 32 + Nat.land w (bpMask o) else v % 2 ^ 32 + w * 2 ^ 32

/-- A word of SPACE 2 is written, with the bits that the hardware sets in the same cycle (R11); a job beyond the level is refused. -/
def Device.edbgWrite (d : Device) (o v hw : Nat) : Option Device :=
  if o < 0x40 then
    let b := bpWith (d.dbg.bpWord (o / 8)) o v
    if d.dbgJob (b % 64) then some (d.modDbg fun g => { g with bp := tput bpDef g.bp (o / 8) b }) else none
  else if o = 0x40 then
    (if !d.dbgJob (bits v 7 2) then none
     else match v % 4 with
       | 1 => some (d.jobEngines (bits v 7 2) Eng.halt)
       | 2 => some (d.jobEngines (bits v 7 2) Eng.resume)
       | 3 => some (d.jobEngines (bits v 7 2) (Eng.stepFor (v / 2 ^ 16)))
       | _ => some d)
  else if o = 0x44 then some (d.modDbg fun g => { g with hit := g.hit % 2 ^ 31 + 2 ^ 31 * b2n (w1c (bitOf g.hit 31) v hw 31) })
  else some d

/-! ### The port space (R473) -/

/-- A word of SPACE 3 as it reads; WO registers read zero (R10). -/
def Device.portWord (d : Device) (o : Nat) : Nat :=
  if o = 0 then d.dbg.status
  else if 0x100 ≤ o ∧ o < 0x120 then field d.dbg.challenge (o - 0x100) 4
  else if o = 0x2000 then d.sec.status true
  else if 0x4000 ≤ o ∧ o < 0x4800 then field (d.arb.entry ((o - 0x4000) / 32)).bytes ((o - 0x4000) % 32) 4
  else 0

/-- A word of SPACE 3 is written, with the bits that the hardware sets in the same cycle (R11, R436, R473). -/
def Device.portWrite (d : Device) (o v hw : Nat) : Device :=
  if o = 0 then d.modDbg fun g => { g with werr := w1c g.werr v hw 2, unlockFail := w1c g.unlockFail v hw 5 }
  else if o = 4 then d.dbgClose
  else if o = 8 then d.unlock v
  else if 0x1000 ≤ o ∧ o < 0x2000 then d.modDbg fun g => { g with resp := mwrite g.resp (o - 0x1000) (leBytes 4 v) }
  else if 0x8000 ≤ o ∧ o < 0x10_8000 then d.modDbg fun g => { g with recovery := mwrite g.recovery (o - 0x8000) (leBytes 4 v) }
  else d

/-! ### Frames (R468 to R472) -/

/-- The READ or WRITE of a header: the checks in their order, then the access (R470, R471, R473). -/
def Device.dbgFrame (d : Device) (h : DbgHeader) (again access : Device → Device) : Device :=
  if !h.start then d
  else if !h.crcOk then d.dbgAck .crc
  else if d.dbg.faultNext then (d.modDbg fun g => { g with faultNext := false }).dbgAck .fault
  else if d.dbg.werr && decide (h.space < 3) then d.dbgAck .fault
  else match d.dbg.pending with
    | some p => if p.header = h then again d else d.dbgAck .wait
    | none =>
      if !h.reservedOk || (h.op != 1 && h.op != 2) then d.dbgAck .fault
      else if !d.dbgAllows h then d.dbgAck .denied
      else access d

/-- The data of the pending access, once all of it has arrived (R471, R473). -/
def Device.dbgDeliver (d : Device) : Device :=
  match d.dbg.pending with
  | none => d
  | some p =>
    if !p.complete then d.dbgAck .wait
    else
      let d := d.modDbg fun g => { g with pending := none }
      if p.closed then d.dbgAck .denied
      else match p.reply with
        | .data bs => d.note (.dbg .ok bs)
        | _ => d.dbgAck .fault

/-- A request of the port for one word (R472). -/
def DbgHeader.request (h : DbgHeader) (write : Bool) (a : Nat) (bs : List Byte) (ecc : EccOutcome) : BusReq :=
  { master := Port.debug, secure := h.world, addr := a, len := 4, write := write, data := bs, inst := 0, ctx := none, ecc := ecc, global := false }

/-- The oldest request of the port completes. -/
def Device.dbgComplete (d : Device) (ns : Nat) : Device :=
  match (d.noc.port Port.debug).inflight.find? fun i => !i.orphan with
  | some i => d.requestComplete Port.debug i.id ns
  | none => d

/-- Words that the port obtains at once. -/
def Device.dbgGot (d : Device) (h : DbgHeader) (f : Nat → BusResp) : Device :=
  d.modDbg fun g => { g with pending := g.pending.map fun p => { p with got := h.words.map fun a => (a, f a) } }

/-- A word as a response. -/
def wordData (v : Nat) : BusResp := .data (leBytes 4 v)

/-- A DMI word (R474, R475). -/
def Device.dmiWord (d : Device) (fresh a : Nat) : Nat :=
  let k := bits a 9 8
  (d.dbg.module k).read k (a % 256) (Config.dmiRead fresh).toNat (d.dmVisible k)

/-- A DMI write (R474 to R476). -/
def Device.dmiPut (d : Device) (a v : Nat) : Device :=
  let k := bits a 9 8
  let free := (Config.dmiRead d.fresh).toNat + 2 ^ 32 * (Config.dmiRead (d.fresh + 1)).toNat
  { d with fresh := d.fresh + 2 }.modDbg fun g => g.setModule k ((g.module k).write k (a % 256) v free (d.dmVisible k))

/-- The words of a READ are asked for (R471 to R474): SPACE 0 through port 14, in ascending order; SPACE 2 in the engines; SPACE 3
in the keep-alive domain, which a read of the challenge draws from; DBGP.STATUS.PENDING leaves out the read itself. -/
def Device.dbgAsk (d : Device) (h : DbgHeader) (r : DbgArrival) : Device :=
  match h.space with
  | 0 =>
    if d.pwr.held then d
    else
      let d := h.words.foldl (fun d a =>
        d.offer (h.request false a ((r.host.drop (a - h.addr)).take 4) (if a = h.addr then r.ecc else .clean))) d
      r.ns.foldl (fun d n => d.dbgComplete n) d
  | 1 =>
    if d.pwr.held then d
    else { d with fresh := d.fresh + h.count }.dbgGot h fun a => wordData (d.dmiWord (d.fresh + (a - h.addr) / 4) (h.addr + (a - h.addr) / 4))
  | 2 =>
    if d.pwr.held then d
    else d.dbgGot h fun a => if a % 4 ≠ 0 then .error else match d.edbgRead a with | some v => wordData v | none => .error
  | _ =>
    let word (d : Device) (a : Nat) : BusResp := wordData ((d.modDbg fun g => { g with pending := none }).portWord a)
    if h.addr % 4 ≠ 0 then d.dbgGot h fun _ => .error
    else if h.words.contains 0x100 then
      (if d.sec.entropyErr then d.dbgGot h fun _ => .error
       else if d.sec.entropyStalled then d
       else let d := d.drawChallenge; d.dbgGot h (word d))
    else d.dbgGot h (word d)

/-- The identical header again (R471): a read that still waits for random data tries again. -/
def Device.dbgAgain (d : Device) (h : DbgHeader) (r : DbgArrival) : Device :=
  (if h.space = 3 ∧ (d.dbg.pending.map fun p => p.got.isEmpty) = some true then d.dbgAsk h r else d).dbgDeliver

/-- A READ (R471); a job beyond the level in SPACE 2 is DENIED. -/
def Device.dbgRead (d : Device) (h : DbgHeader) (r : DbgArrival) : Device :=
  if h.space = 2 ∧ (h.words.any fun a => (d.edbgRead a).isNone) then d.dbgAck .denied
  else
    let d := (d.modDbg fun g => { g with pending := some ⟨h, [], false⟩ }).dbgAsk h r
    if r.late && h.space != 0 && h.space != 3 then d.dbgAck .wait else d.dbgDeliver

/-- One word of a WRITE (R471 to R474): none where the session level does not allow it. -/
def Device.dbgPut (d : Device) (h : DbgHeader) (a : Nat) (bs : List Byte) (hw : Nat) : Option Device :=
  match h.space with
  | 0 => some (if d.pwr.held then d else d.offer (h.request true a bs .clean))
  | 1 =>
    some (if d.pwr.held then d else d.dmiPut (h.addr + (a - h.addr) / 4) (leNat bs))
  | 2 => if d.pwr.held ∨ a % 4 ≠ 0 then some d else d.edbgWrite a (leNat bs) hw
  | _ => some (if a % 4 ≠ 0 then d else d.portWrite a (leNat bs) hw)

/-- A WRITE (R470, R471): its data CRC passes and every word is issued in ascending order, or nothing is written. -/
def Device.dbgWrite (d : Device) (h : DbgHeader) (x : DbgData) : Device :=
  let bs := (x.bytes ++ zeros (4 * h.count)).take (4 * h.count)
  let d := d.note (.dbg .ok [])
  if dbgCrc16 bs ≠ x.crc.toNat ∨ x.bytes.length ≠ 4 * h.count then d.dbgAck .crc
  else
    let r := h.words.foldl (fun (p : Device × Bool) a =>
      match p.1.dbgPut h a ((bs.drop (a - h.addr)).take 4) x.hwSet with
      | some d => (d, p.2)
      | none => (p.1, false)) (d, true)
    r.1.dbgAck (if r.2 then .ok else .denied)

/-- DEBUG_READ (R469): the 72 bits of a header. -/
def Device.readFrame (d : Device) (w : BitVec 72) (r : DbgArrival) : Device :=
  let h := DbgHeader.ofBits w.toNat
  d.dbgFrame h (fun d => d.dbgAgain h r) fun d => if h.op = 1 then d.dbgRead h r else d.dbgWrite h ⟨[], 0, 0⟩

def execDebugRead (w : BitVec 72) (r : DbgArrival) (s : State) : Out := s.onKeep fun d => d.readFrame w r

/-- A frame with a write data phase (R469). -/
def Device.writeFrame (d : Device) (w : BitVec 72) (x : DbgData) (late : Bool) : Device :=
  let h := DbgHeader.ofBits w.toNat
  let r : DbgArrival := ⟨[], late, .clean, []⟩
  d.dbgFrame h (fun d => d.dbgAgain h r) fun d => if h.op = 1 then d.dbgRead h r else d.dbgWrite h x

/-- DEBUG_WRITE (R469). -/
def execDebugWrite (w : BitVec 72) (data : DbgData) (s : State) : Out := s.onKeep fun d => d.writeFrame w data true

/-- A frame of SPACE 1. A replay that leaves the copies of an SPC pair different is a mismatch of the pair (R421, R476). -/
def Device.dmiFrame (d : Device) (w : BitVec 72) (x : DbgData) (o : DmiOutcome) : Device :=
  let h := DbgHeader.ofBits w.toNat
  if h.space ≠ 1 then d
  else
    let e := d.writeFrame w x o.late
    let p := (e.dbg.module 1).hartsel
    if o.differ ∧ h.op = 2 ∧ bits h.addr 9 8 = 1 ∧ (e.dbg.module 1).hart p ≠ (d.dbg.module 1).hart p ∧ p < 4 then e.pairMismatch p else e

/-- DMI_ACCESS (R474). -/
def execDmiAccess (w : BitVec 72) (data : DbgData) (outcome : DmiOutcome) (s : State) : Out := s.onKeep fun d => d.dmiFrame w data outcome

/-- The pending access is cancelled: its reads that wait leave the port, and late replies are discarded (R232, R471). -/
def Device.dbgCancel (d : Device) : Device :=
  (d.modPort Port.debug fun s => { s with
    inflight := s.inflight.map fun i => if i.write then i else { i with orphan := true }
    held := s.held.filter fun r => r.write
    stalled := s.stalled.filter fun r => r.write }).modDbg fun g => { g with pending := none }

/-- FRAMER_RESET (R468): the session stays open. -/
def execFramerReset (s : State) : Out := s.onKeep fun d => d.dbgCancel

/-- An access that is pending 1 ms after its first header is abandoned (R471). -/
def Device.dbgTimeout (d : Device) : Device :=
  if d.dbg.pending.isNone then d else d.dbgCancel.modDbg fun g => { g with faultNext := true }

/-- DEBUG_ACCESS_TIMEOUT (R471). -/
def execDebugAccessTimeout (s : State) : Out := s.onKeep fun d => d.dbgTimeout

/-- The oldest write of the port that its target refused completes, and WERR is set (R471). -/
def Device.dbgRefused (d : Device) : Device :=
  let d := match (d.noc.port Port.debug).inflight.find? fun i => i.write && i.resp == .error with
    | some i => d.requestComplete Port.debug i.id ((Config.freeNs d.fresh).val)
    | none => d
  { d with fresh := d.fresh + 1 }.modDbg fun g => { g with werr := true }

/-- DEBUG_WRITE_REFUSED (R471). -/
def execDebugWriteRefused (s : State) : Out := s.onKeep fun d => d.dbgRefused

/-! ### The TAP (R479) -/

/-- An instruction is loaded: one that drives pins only while SYS_RST_n is low, and BYPASS otherwise. -/
def Device.tapLoad (d : Device) (t : TapInstr) : Device :=
  d.modDbg fun g => { g with tapReset := false, tap := if t.drives && !d.pwr.sysPinLow then .bypass else t }

/-- BYPASS (R479). -/
def execBypass (s : State) : Out := s.onKeep fun d => d.tapLoad .bypass

/-- IDCODE (R479): the identity is shifted out. -/
def execIdcode (s : State) : Out := s.onKeep fun d => (d.tapLoad .idcode).note (.tap (idcode Config.manufacturer))

/-- SAMPLE_PRELOAD (R479): the boundary register captures the pins, and is shifted out. -/
def execSamplePreload (v : Nat) (s : State) : Out :=
  s.onKeep fun d => ((d.tapLoad .samplePreload).modDbg fun g => { g with boundary := v }).note (.tap v)

/-- EXTEST (R479). -/
def execExtest (s : State) : Out := s.onKeep fun d => d.tapLoad .extest

/-- EXTEST_PULSE (R479). -/
def execExtestPulse (s : State) : Out := s.onKeep fun d => d.tapLoad .extestPulse

/-- EXTEST_TRAIN (R479). -/
def execExtestTrain (s : State) : Out := s.onKeep fun d => d.tapLoad .extestTrain

/-- CLAMP (R479). -/
def execClamp (s : State) : Out := s.onKeep fun d => d.tapLoad .clamp

/-- HIGHZ (R479). -/
def execHighz (s : State) : Out := s.onKeep fun d => d.tapLoad .highz

/-- TRST_n low: Test-Logic-Reset (R479). -/
def execTapReset (s : State) : Out := s.onKeep fun d => d.modDbg fun g => { g with tapReset := true, tap := .idcode }

end Sys2Proof.Machine
end

