-- ==== Sys2Proof/Machine/FlitCmds.lean ====
section
/-! DEFINITION. The reception of flits (R243 to R248, R252). -/

namespace Sys2Proof.Machine

open Sys2Proof

/-- A message that has been received whole on a port goes to its meaning. Before the link is ACTIVE only HELLO and TIME are taken; on an
ACTIVE link a HELLO is a join (R257). The contents of CONFIG and HANDSHAKE messages come with the rows CONFIG and HANDSHAKE. -/
def Device.dispatch (d : Device) (p : Nat) (m : FMsg) : Device :=
  if (d.fab.port p).st ≠ .active then
    (if m.type = .hello then d.hello p (Hello.ofBytes m.data)
     else if m.type = .time ∧ (d.fab.port p).st ≠ .off then d.timeMsg p (field m.data 0 8)
     else d)
  else match m.type with
    | .rdReq => d.rdReq m .clean
    | .rdData => d.rdData m
    | .rdErr => d.rdErr m
    | .wr => d.wr m
    | .wrNack => d.wrNack m
    | .putAck => d.putAck m
    | .tailAdv => d.tailAdv m
    | .signal => d.signalIn m
    | .ringQuery => d.ringQuery m
    | .ringState => d.ringState m
    | .headUpd => d.headUpd m
    | .mgmt => d.mgmt m
    | .time => d.timeMsg p (field m.data 0 8)
    | .heartbeat => d.modLink p fun x => { x with hbSeen := true }
    | .hello => d.join m
    | .elect => d.elect p m
    | .config | .handshake => d
    | .configAck => d.configAck m
    | .linkState => d.linkChange p m.linkOf (m.arg % 2 == 1)
    | .commit => (d.commitConfig m).flood p m

/-- A COMMIT that has been seen before is not flooded again. -/
def Device.commitSeen (d : Device) (m : FMsg) : Bool :=
  m.type == .commit && !(match d.fab.pending with
    | some c => c.gen == m.addr % 2 ^ 32
    | none => false)

/-- Messages received, in order. -/
def Device.takeMsgs (d : Device) (p : Nat) (ms : List FMsg) : Device :=
  ms.foldl (fun d m => if d.commitSeen m then d else d.dispatch p m) d

/-- A flit that is discarded opens a gap: one RETRY_REQ names the expected SEQ (R244). -/
def Device.gap (d : Device) (p : Nat) : Device :=
  if (d.fab.port p).gap then d
  else (d.modLink p fun x => { x with gap := true }).note (.retryReq p (d.fab.port p).rxSeq)

/-- The ACK and the credits of a flit's header (R245, R246). -/
def Device.takeHeader (d : Device) (p : Nat) (h : FlitHead) : Device :=
  (d.modLink p fun x => (if h.ackv then x.ackTo h.ack else x).credit h.crvc h.credits).pump p

/-- The payload of a DATA flit joins the bytes of its channel: the messages that stand whole there leave them, the flit's place in
the receive buffer is free, and its credit returns (R246, R252). -/
def LPort.absorb (x : LPort) (vc : Nat) (payload : List Byte) : LPort × List (Option FMsg) :=
  let r := takeMessages 24 (x.rxStream.getD vc [] ++ payload)
  ({ x with rxStream := x.rxStream.set vc r.2, due := x.due.set vc (x.due.getD vc 0 + 1) }, r.1)

/-- The payloads of flits in clear text are delivered: PAD flits carry nothing, messages of unknown types are dropped and counted
(R248, R252). -/
def Device.deliver (d : Device) (p : Nat) (fs : List (FlitHead × List Byte)) : Device :=
  let r := (fs.filter fun f => f.1.type == 1).foldl (fun a f => ((a.1.absorb f.1.vc f.2).1, a.2 ++ (a.1.absorb f.1.vc f.2).2)) (d.fab.port p, [])
  let d := (d.modLink p fun _ => r.1).modFab fun b => { b with errCount := min (2 ^ 32 - 1) (b.errCount + (r.2.filter Option.isNone).length) }
  d.takeMsgs p (r.2.filterMap id)

/-- A new key takes effect with the first block that has the new KEYPHASE; the first key with the first block (R251). -/
def LPort.rxSwitch (x : LPort) (phase : Bool) : LPort :=
  match x.rxNext with
  | some k => if x.rxKey.isNone || phase != x.rxPhase then { x with rxKey := some k, rxNext := none, rxPhase := phase, rxBlocks := 0 } else x
  | none => x

/-- The last flit of a block: its messages are delivered once its tag verifies; a tag that fails takes the link down and is
reported to the enclave (R248). -/
def Device.blockEnd (d : Device) (p : Nat) (k : LinkKey) : Device :=
  let x := d.fab.port p
  match openBlock k x.rxBlocks x.rxBlock with
  | some fs => (d.modLink p fun x => { x with rxBlock := [], rxBlocks := x.rxBlocks + 1 }).deliver p fs
  | none => (d.linkDown p).note (.integrity 0)

/-- A DATA or PAD flit in sequence: in clear text its messages are delivered at once, once keys are in place with their
block (R248, R251). -/
def Device.acceptFlit (d : Device) (p : Nat) (h : FlitHead) (payload : List Byte) : Device :=
  let x := d.fab.port p
  let d := d.modLink p fun x =>
    let x := if x.rxSeq % 8 = 0 then x.rxSwitch h.keyphase else x
    { x with rxSeq := (x.rxSeq + 1) % 4096, rxSeen := true, ackDue := true, gap := false }
  match (d.fab.port p).rxKey with
  | none => d.deliver p [(h, payload)]
  | some k =>
    let d := d.modLink p fun x => { x with rxBlock := x.rxBlock ++ [(h, payload)] }
    if x.rxSeq % 8 = 7 then d.blockEnd p k else d

/-- What a flit with a correct CRC does. Inside a gap every flit but the expected one is discarded (R244); a reserved TYPE has no
effect (log entry 30). A header counts where its flit is taken, so that a flit sent again returns its credits once. -/
def Device.takeFlit (d : Device) (p : Nat) (f : Flit) : Device :=
  let x := d.fab.port p
  let h := f.head
  if h.type = 1 ∨ h.type = 2 then
    if h.seq = x.rxSeq then (d.takeHeader p h).acceptFlit p h f.payload else d.gap p
  else if x.gap then d
  else if h.type = 0 then d.takeHeader p h
  else if h.type = 3 then (d.takeHeader p h).retryReq p h.seq
  else d

/-- A flit arrives on a port (R243 to R246). -/
def Device.flitReceive (d : Device) (p : Nat) (f : Flit) : Device :=
  let x := d.fab.port p
  if x.st = .off ∨ x.st = .training ∨ x.st = .refused then d
  else if !f.good then d.gap p
  else (d.takeFlit p f).settle p

/-- FLIT_RECEIVE (R244). -/
def execFlitReceive (port : Fin 8) (flit : Flit) (s : State) : Out := s.on fun d => d.flitReceive port flit

end Sys2Proof.Machine
end

