-- ==== Sys2Proof/Machine/Opcodes.lean ====
section
/-! DEFINITION. The opcodes of the tensor engines (R103 to R118, R127 to R154): each command here carries out the oldest
started command of its opcode on the engine. -/

namespace Sys2Proof.Machine

open Sys2Proof

/-- The oldest started command of an opcode that has not been carried out. -/
def Eng.pendingOp (g : Eng) (o : Op) : Option Issued := g.issued.find? fun i => i.started && !i.done && i.op == o

/-- Every remote read of a command has been answered (R264). -/
def Fab.answered (f : Fab) (e seq : Nat) : Bool :=
  !(f.tags.any fun t => !t.2.orphan && t.2.ofEngine e [seq]) && !(f.stalled.any fun t => t.ofEngine e [seq])

/-- The views of an issued command's operands by slot. -/
def Device.views (d : Device) (w : Runner) (i : Issued) (s : Nat) : Option View :=
  (opAt i.ops s).map fun x => d.view w i.fetched x (i.outSlot x)

/-- The ranges that a command reads of a source: of the rows of a GATHER only those that its indices name (log entry 76). -/
def Device.sourceRanges (d : Device) (w : Runner) (i : Issued) (x : Operand) : List (List (Nat × Nat) × Bool) :=
  let rows (t : TDesc) : List Nat :=
    match i.op, x.slot, d.views w i 2 with
    | .gather, 1, some b =>
      (List.range (b.t.size 0)).filterMap fun k =>
        let n := b.int 0 k + i.cmd.biasVal
        if 0 ≤ n ∧ n < (t.size 1 : Int) then some n.toNat else none
    | _, _, _ => List.range t.rows
  x.tensors.map fun t => (d.rowRanges t (i.outSlot x) (rows t), t.sealed)

/-- The first read of a command's sources that fails: code, slot and address. -/
def Device.checkSources (d : Device) (w : Runner) (i : Issued) : Device × Option (Nat × Nat × Nat) :=
  i.sources.foldl (fun p x => (p.1.sourceRanges w i x).foldl (fun p r => match p.2 with
    | some _ => p
    | none =>
      let (d, f) := p.1.checkRanges w false r.2 (i.cmd.weightSlot i.op x.slot) r.1
      (d, f.map fun c => (c.1, x.slot, c.2))) p) (d, none)

/-- The first write of a command that fails. -/
def Device.checkWrites (d : Device) (w : Runner) (ws : List (Nat × List Byte)) : Device × Option (Nat × Nat) :=
  d.checkRanges w true false false (ws.map fun x => (x.1, x.2.length))

/-- The writes of a REMOTE: messages to another device, each within the size of the fabric version (R118, R253). -/
def Device.sendWrites (d : Device) (w : Runner) (i : Issued) (ws : List (Nat × List Byte)) : Device :=
  let level := d.nextLevel (Port.engine w.e)
  ws.foldl (fun d x =>
    let d := d.served (Port.engine w.e) true tlBase x.2.length
    let a := x.1 % 2 ^ 56
    (pieces d.fab.maxData (a + x.2.length) (x.2.length / 16 + 3) a).foldl (fun d p =>
      d.send (d.writeMsg level w.world a x.2 p.1 p.2) i.ring) d) d

/-- Marks a command as carried out. -/
def Device.finish (d : Device) (w : Runner) (i : Issued) (st : NumStatus) (produced : Option Nat) : Device :=
  d.modEng w.e fun g => g.modIssued i.cmd.seq fun x => { x with done := true, st := st, produced := produced }

/-- The package-local place of an address of an operand, outside the engine's own slab and store. -/
def Device.netPlace (d : Device) (w : Runner) (u : Nat) : Option Nat :=
  match spaceOf u with
  | 0 => (d.translate w.ctx w.world false (u % 2 ^ 56)).1
  | 1 => some (u % 2 ^ 56)
  | _ => none

/-- The package-local pieces, within pages, that a command reads of memory outside its engine. -/
def Device.netSources (d : Device) (w : Runner) (i : Issued) : List (Nat × Nat) :=
  (((i.sources.flatMap fun x => d.sourceRanges w i x).flatMap Prod.fst).flatMap fun r => pagesOf r.1 r.2).filterMap fun r =>
    (d.netPlace w r.1).map fun p => (p, r.2)

/-- The package-local pieces that a command may write outside its engine. -/
def Device.netDests (d : Device) (w : Runner) (i : Issued) : List (Nat × Nat) :=
  ((i.dests.flatMap fun x => d.ranges x true).flatMap fun r => pagesOf r.1 r.2).filterMap fun r =>
    (d.netPlace w r.1).map fun p => (p, r.2)

/-- A load of a piece waits for entries of the write-combining buffer to drain (R175); it is made line by line (log entry 155). -/
def Eng.loadWaits (g : Eng) (p n : Nat) : Bool :=
  (List.range ((p + n - 1) / 64 + 1 - p / 64)).any fun k =>
    let lo := max p ((p / 64 + k) * 64)
    let hi := min (p + n) ((p / 64 + k + 1) * 64)
    g.load lo (hi - lo) == .waits

/-- A command can reach its operands now: no path leads over a link that is down (R17, R219), its port may issue (R224), and none of
its loads waits for the engine's own stores (R175). -/
def Device.mayRun (d : Device) (w : Runner) (i : Issued) : Bool :=
  let src := d.netSources w i
  let all := src ++ d.netDests w i
  all.all (fun r => d.reaches (Port.engine w.e).die r.1) && (all.isEmpty || d.mayIssue (Port.engine w.e))
    && src.all fun r => match placeOf r.1 with
      | .stack _ => !(d.engine w.e).loadWaits r.1 r.2
      | _ => true

/-- The requests by which a command has read its operands outside its engine: how many bytes they carry is open (R223, R235; log
entry 153). -/
def Device.readTraffic (d : Device) (w : Runner) (i : Issued) : Device :=
  ((d.netSources w i).map Prod.fst).foldl (fun d p => d.servedFree (Port.engine w.e) false p) d

/-- Carries out a data opcode: its sources are checked and read, `run` computes, and the writes are checked and made. -/
def Device.dataOp (d : Device) (e : Nat) (o : Op)
    (run : Issued → (Nat → Option View) → (Nat → Nat) → ExecRes) : Device :=
  match d.runner e, (d.engine e).pendingOp o with
  | some w, some i =>
    if !d.fab.answered e i.cmd.seq || !d.mayRun w i then d
    else match d.checkSources w i with
      | (d, some f) => d.cmdFault w i.cmd.seq f.1 f.2.1 f.2.2 false
      | (d, none) => match run i (d.views w i) (d.read w i.fetched) with
        | .error f => d.cmdFault w i.cmd.seq f.1 f.2 0 false
        | .ok out => match d.checkWrites w (out.writes.filter fun x => spaceOf x.1 != 4) with
          | (d, some f) => d.cmdFault w i.cmd.seq f.1 0 f.2 false
          | (d, none) =>
            let d := d.readTraffic w i
            let d := (out.writes.filter fun x => spaceOf x.1 != 4).foldl (fun d x => d.storeBytes w i.cmd.seq x.1 x.2) d
            let d := d.sendWrites w i (out.writes.filter fun x => spaceOf x.1 == 4)
            d.finish w i out.st out.produced
  | _, _ => d

/-- MMA (R103, R104, R125). -/
def execMma (e : Fin 32) (s : State) : Out := s.on fun d => d.dataOp e .mma fun i v _ => runMma i.cmd (intPath i.ops) v

/-- ATTN (R107, R108). -/
def execAttn (e : Fin 32) (s : State) : Out :=
  s.on fun d => d.dataOp e .attn fun i v _ => runAttn i.cmd (fmt2 i.ops 2 1 fun w x => pairPath w x == some true) v

/-- SPMM (R106, R152 to R154). -/
def execSpmm (e : Fin 32) (s : State) : Out := s.on fun d => d.dataOp e .spmm fun i v _ => runSpmm i.cmd (intPath i.ops) v

/-- VPROG (R109 to R111). -/
def execVprog (e : Fin 32) (s : State) : Out :=
  s.on fun d => d.dataOp e .vprog fun i v rd => runVprog i.cmd (inSpace 3 0) rd v

/-- CVT (R112). -/
def execCvt (e : Fin 32) (s : State) : Out := s.on fun d => d.dataOp e .cvt fun i v _ => runCvt i.cmd v

/-- COPY (R112). -/
def execCopy (e : Fin 32) (s : State) : Out := s.on fun d => d.dataOp e .copy fun _ v _ => runCopy v

/-- REMOTE (R118, R271). -/
def execRemote (e : Fin 32) (s : State) : Out := s.on fun d => d.dataOp e .remote fun _ v _ => runCopy v

/-- GATHER (R135). -/
def execGather (e : Fin 32) (s : State) : Out := s.on fun d => d.dataOp e .gather fun i v _ => runGather i.cmd v

/-- SCATTER (R136 to R138). -/
def execScatter (e : Fin 32) (s : State) : Out := s.on fun d => d.dataOp e .scatter fun i v _ => runScatter i.cmd v

/-- SEGRED (R139 to R141). -/
def execSegred (e : Fin 32) (s : State) : Out := s.on fun d => d.dataOp e .segred fun i v _ => runSegred i.cmd v

/-- SORT (R142). -/
def execSort (e : Fin 32) (s : State) : Out := s.on fun d => d.dataOp e .sort fun i v _ => runSort i.cmd v

/-- MERGE (R143). -/
def execMerge (e : Fin 32) (s : State) : Out := s.on fun d => d.dataOp e .merge fun i v _ => runMerge i.cmd v

/-- TOPK (R144). -/
def execTopk (e : Fin 32) (s : State) : Out := s.on fun d => d.dataOp e .topk fun i v _ => runTopk i.cmd v

/-- SETOP (R145, R146). -/
def execSetop (e : Fin 32) (s : State) : Out := s.on fun d => d.dataOp e .setop fun i v _ => runSetop i.cmd v

/-- HASHB (R147 to R150). -/
def execHashb (e : Fin 32) (s : State) : Out := s.on fun d => d.dataOp e .hashb fun i v _ => runHashb i.cmd v

/-- HASHP (R147, R148, R151). -/
def execHashp (e : Fin 32) (s : State) : Out := s.on fun d => d.dataOp e .hashp fun i v _ => runHashp i.cmd v

/-! ### Front-end commands (R113 to R118) -/

/-- A front-end command that acts at its commit alone is ready for it. -/
def Device.frontOp (d : Device) (e : Nat) (o : Op) (ready : Device → Runner → Issued → Bool) : Device :=
  match d.runner e, (d.engine e).pendingOp o with
  | some w, some i => if ready d w i then d.finish w i 0 none else d
  | _, _ => d

/-- WAIT (R113): the condition holds. -/
def execWait (e : Fin 32) (s : State) : Out := s.on fun d => d.frontOp e .wait Device.waitHolds

/-- SIGNAL (R114). -/
def execSignal (e : Fin 32) (s : State) : Out := s.on fun d => d.frontOp e .signal fun _ _ _ => true

/-- NOP (R118). -/
def execNop (e : Fin 32) (s : State) : Out := s.on fun d => d.frontOp e .nop fun _ _ _ => true

/-- PUBLISH: more entries than the ring's free space fault with RING (R115, R168). -/
def Device.publishOp (d : Device) (e : Nat) : Device :=
  match d.runner e, (d.engine e).pendingOp .publish with
  | some w, some i =>
    if (d.ring (i.cmd.p1 % 512)).publish (bits i.cmd.p1 31 16) = none then d.cmdFault w i.cmd.seq fcRing slotNone 0 false
    else d.finish w i 0 none
  | _, _ => d

/-- PUBLISH (R115). -/
def execPublish (e : Fin 32) (s : State) : Out := s.on fun d => d.publishOp e

/-- Puts of a command ring that have neither landed nor failed (R116, R267). -/
def Fab.openPuts (f : Fab) (ring : Nat) : Bool :=
  (f.puts.any fun p => p.2.unacked.any fun u => u.ring == ring) || f.waiting.any fun w => w.msg.isPut && w.ring == ring

/-- FENCE (R116, R267): with PARAM1[0] it waits for the puts of its ring, and faults when one was refused or lost. -/
def Device.fenceOp (d : Device) (e : Nat) : Device :=
  match d.runner e, (d.engine e).pendingOp .fence with
  | some w, some i =>
    if bitOf i.cmd.p1 0 then
      (if d.fab.badPutRings.contains i.ring then d.cmdFault w i.cmd.seq fcRemoteFail slotNone 0 false
       else if d.fab.openPuts i.ring then d
       else d.finish w i 0 none)
    else d.finish w i 0 none
  | _, _ => d

/-- FENCE (R116). -/
def execFence (e : Fin 32) (s : State) : Out := s.on fun d => d.fenceOp e

/-- CHECKPOINT (R117): a wrong number faults; when every ring of the job has reached it, all of them are ready. -/
def Device.checkpointOp (d : Device) (e : Nat) : Device :=
  match d.runner e, (d.engine e).pendingOp .checkpoint with
  | some w, some i =>
    let c := i.cmd.p1 % 2 ^ 32
    let x := d.job w.j
    if c ≠ x.ckpt + 1 then d.cmdFault w i.cmd.seq fcCkpt slotNone 0 false
    else
      let here (y : Issued) : Bool := y.started && y.op == .checkpoint && y.cmd.p1 % 2 ^ 32 == c
      if (d.fronts w.j).all fun p => match p.2 with
          | some y => here y
          | none => false
      then (d.fronts w.j).foldl (fun d p => match d.runner p.1, p.2 with
        | some w, some y => d.finish w y 0 none
        | _, _ => d) d
      else d
  | _, _ => d

/-- CHECKPOINT (R117). -/
def execCheckpoint (e : Fin 32) (s : State) : Out := s.on fun d => d.checkpointOp e

end Sys2Proof.Machine
end

