-- ==== Sys2Proof/Machine/XferCmds.lean ====
section
/-! DEFINITION. Dictionary transfers over the field network (R368 to R370, R376, R391), with the device as server and as
client. -/

namespace Sys2Proof.Machine

open Sys2Proof

/-! ### Frames -/

def cmdRead : Nat := 1
def cmdWrite : Nat := 2
def cmdInit : Nat := 3
def cmdSegment : Nat := 4
def cmdAbort : Nat := 5
def cmdNext : Nat := 6

/-- The transfer header (R368), with bit 4 of an authenticated transfer (R391). -/
def xferHead (cmd : Nat) (toggle auth : Bool) (ix sub : Nat) : List Byte :=
  leBytes 1 (cmd + 8 * b2n toggle + 16 * b2n auth) ++ leBytes 2 ix ++ leBytes 1 sub

/-- What a frame to a node carries beside the header, and beside the trailer of an authenticated transfer (R368, R391). -/
def Device.xferLimit (d : Device) (n : Nat) (auth : Bool) : Nat :=
  let p := (d.fgw.node n).port
  (portMedium p (d.fgw.port p).canMode).limit - (if auth then 8 else 0)

/-- A transfer frame to node entry `n`: a response or a request; one of an authenticated transfer ends in the trailer, and
nothing is sent on a key whose freshness has run out (R376, R377, R391). -/
def Device.sendXfer (d : Device) (n : Nat) (rsp auth : Bool) (b : List Byte) : Device :=
  let x := d.fgw.node n
  let func := if rsp then fnXferRsp else fnXferReq
  if !auth then d.handFrame x.port (d.ownFrame x.port func x.number 0 x.version b)
  else if d.keyWorn x then d
  else if 2 ^ 32 - 1 ≤ x.xferTx + 1 then d.wearKey x
  else
    let t := trailer (x.keySlot.getD 0xFF) (celetId func x.number 0) b (x.xferTx + 1)
    (d.modNode n fun x => { x with xferTx := x.xferTx + 1 }).handFrame x.port (d.ownFrame x.port func x.number 0 x.version (b ++ t))

/-- ABORT with a code (R370). -/
def Device.sendAbort (d : Device) (n : Nat) (rsp auth : Bool) (ix sub code : Nat) : Device :=
  d.sendXfer n rsp auth (xferHead cmdAbort false auth ix sub ++ leBytes 4 code)

/-- A transfer frame that the Celet core receives. -/
structure XferIn where
  node : Nat
  auth : Bool
  toggle : Bool
  cmd : Nat
  index : Nat
  sub : Nat
  data : List Byte
  deriving DecidableEq, Repr

/-- A frame for node 0 goes on with its data; one that claims to be authenticated must be so and be fresh (R377, R391). -/
def Device.xferIn (d : Device) (f : CFrame) (core : Device → XferIn → Device) : Device :=
  match d.nodeOf f with
  | none => d
  | some n =>
    let h := field f.payload 0 1
    let len := f.payload.length
    let make (auth : Bool) (b : List Byte) : XferIn := ⟨n, auth, bitOf h 3, h % 8, field f.payload 1 2, field f.payload 3 1, b⟩
    let x := d.fgw.node n
    if f.dst != 0 then d
    else if !bitOf h 4 then core d (make false (f.payload.drop 4))
    else
      let fr := field f.payload (len - 8) 4
      if decide (12 ≤ len) && f.authentic && x.keySlot.isSome && decide (0x11 ≤ x.version) && f.medium != .classic && freshOk fr x.xferF then
        core (d.modNode n fun x => { x with xferF := fr }) (make true ((f.payload.drop 4).take (len - 12)))
      else d.authFail n

/-- A CMD code of R368. -/
def cmdKnown (c : Nat) : Bool := decide (1 ≤ c) && decide (c ≤ 6)

/-- A request that the rules deliver to the Celet core; one with an unknown CMD is aborted (R370). -/
def Device.xferReq (d : Device) (f : CFrame) (core : Device → XferIn → Device) : Device :=
  d.received f fnXferReq fun d f => d.xferIn f fun d q =>
    if cmdKnown q.cmd then core d q else d.sendAbort q.node true q.auth q.index q.sub abUnknownCmd

/-! ### The device as server -/

def Device.segOf (d : Device) (n : Nat) : Nat := segmentOf (d.fgw.node n).port

/-- The transfer that a node has open here. -/
def Device.openXfer (d : Device) (n : Nat) : Option Xfer :=
  d.fgw.xfers.find? fun x => x.seg == d.segOf n && x.client == (d.fgw.node n).number

def Device.closeXfer (d : Device) (n : Nat) : Device :=
  d.modFgw fun g => { g with xfers := g.xfers.filter fun x => !(x.seg == d.segOf n && x.client == (d.fgw.node n).number) }

/-- The node's transfer, new or changed. -/
def Device.setXfer (d : Device) (n : Nat) (x : Xfer) : Device :=
  (d.closeXfer n).modFgw fun g => { g with xfers := g.xfers ++ [x] }

/-- A new request: with a transfer of the client still open both are aborted with BUSY (R370). -/
def Device.freshReq (d : Device) (q : XferIn) (f : Device → Device) : Device :=
  match d.openXfer q.node with
  | none => f d
  | some x => ((d.closeXfer q.node).sendAbort q.node true x.auth x.index x.sub abBusy).sendAbort q.node true q.auth q.index q.sub abBusy

/-- A field access is non-secure (R390). -/
def fieldPath (auth : Bool) : DPath := ⟨false, none, !auth, false⟩

/-- The result of a write: a confirmation or ABORT. -/
def Device.confirm (d : Device) (q : XferIn) (cmd code : Nat) : Device :=
  if code = 0 then d.sendXfer q.node true q.auth (xferHead cmd q.toggle q.auth q.index q.sub)
  else d.sendAbort q.node true q.auth q.index q.sub code

/-- READ (R368, R369): a value of at most the expedited limit is answered whole, a longer one by its size. -/
def Device.xferRead (d : Device) (q : XferIn) : Device :=
  d.freshReq q fun d =>
    let (d, c, v) := d.dictRead (fieldPath q.auth) q.index q.sub
    if c != 0 then d.sendAbort q.node true q.auth q.index q.sub c
    else if v.length ≤ d.xferLimit q.node q.auth then d.sendXfer q.node true q.auth (xferHead cmdRead false q.auth q.index q.sub ++ v)
    else
      (d.setXfer q.node ⟨d.segOf q.node, (d.fgw.node q.node).number, q.index, q.sub, false, v.length, v, 0, false, d.tn, q.auth⟩).sendXfer
        q.node true q.auth (xferHead cmdInit false q.auth q.index q.sub ++ leBytes 4 v.length)

/-- XFER_READ (R368). -/
def execXferRead (f : CFrame) (s : State) : Out := s.on fun d => d.xferReq f Device.xferRead

/-- WRITE expedited (R368). -/
def Device.xferWrite (d : Device) (q : XferIn) : Device :=
  d.freshReq q fun d =>
    let (d, c) := d.dictWrite (fieldPath q.auth) q.index q.sub q.data
    d.confirm q cmdWrite c

/-- XFER_WRITE (R368). -/
def execXferWrite (f : CFrame) (s : State) : Out := s.on fun d => d.xferReq f Device.xferWrite

/-- WRITE_INIT (R369): the total size follows the header. -/
def Device.xferInit (d : Device) (q : XferIn) : Device :=
  d.freshReq q fun d =>
    if q.data.length != 4 || decide (2 ^ 24 < leNat q.data) then d.sendAbort q.node true q.auth q.index q.sub abSize
    else
      (d.setXfer q.node ⟨d.segOf q.node, (d.fgw.node q.node).number, q.index, q.sub, true, leNat q.data, [], 0, false, d.tn, q.auth⟩).confirm q cmdInit 0

/-- XFER_WRITE_INIT (R369). -/
def execXferWriteInit (f : CFrame) (s : State) : Out := s.on fun d => d.xferReq f Device.xferInit

/-- SEGMENT (R369): the last one completes the write; it is authenticated when every frame was (R391). -/
def Device.xferSegment (d : Device) (q : XferIn) : Device :=
  match d.openXfer q.node with
  | none => d
  | some x =>
    if !x.write then d
    else if x.toggle != q.toggle then (d.closeXfer q.node).sendAbort q.node true q.auth x.index x.sub abToggle
    else
      let v := x.data ++ q.data
      let auth := x.auth && q.auth
      if x.size < v.length then (d.closeXfer q.node).sendAbort q.node true q.auth x.index x.sub abSize
      else if v.length = x.size then
        let (d, c) := (d.closeXfer q.node).dictWrite (fieldPath auth) x.index x.sub v
        d.confirm { q with index := x.index, sub := x.sub } cmdSegment c
      else
        (d.setXfer q.node { x with data := v, toggle := !x.toggle, lastTn := d.tn, auth := auth }).confirm
          { q with index := x.index, sub := x.sub } cmdSegment 0

/-- XFER_SEGMENT (R369). -/
def execXferSegment (f : CFrame) (s : State) : Out := s.on fun d => d.xferReq f Device.xferSegment

/-- READ_NEXT (R369): the next segment, with the toggle that the request names; the last ends the transfer. -/
def Device.xferNext (d : Device) (q : XferIn) : Device :=
  match d.openXfer q.node with
  | none => d
  | some x =>
    if x.write then d
    else if x.toggle != q.toggle then (d.closeXfer q.node).sendAbort q.node true q.auth x.index x.sub abToggle
    else
      let n := d.xferLimit q.node q.auth
      let part := (x.data.drop x.pos).take n
      let d := if x.size ≤ x.pos + n then d.closeXfer q.node
        else d.setXfer q.node { x with pos := x.pos + n, toggle := !x.toggle, lastTn := d.tn }
      d.sendXfer q.node true q.auth (xferHead cmdSegment x.toggle q.auth x.index x.sub ++ part)

/-- XFER_READ_NEXT (R369). -/
def execXferReadNext (f : CFrame) (s : State) : Out := s.on fun d => d.xferReq f Device.xferNext

/-! ### The device as client -/

def Device.clientOf (d : Device) (n : Nat) : Option ClientXfer :=
  d.fgw.clients.find? fun x => x.seg == d.segOf n && x.server == (d.fgw.node n).number

def Device.closeClient (d : Device) (n : Nat) : Device :=
  d.modFgw fun g => { g with clients := g.clients.filter fun x => !(x.seg == d.segOf n && x.server == (d.fgw.node n).number) }

def Device.setClient (d : Device) (n : Nat) (x : ClientXfer) : Device :=
  (d.closeClient n).modFgw fun g => { g with clients := g.clients ++ [x] }

/-- ABORT in either direction ends the transfer (R370); the value is unchanged. -/
def Device.xferAbort (d : Device) (q : XferIn) : Device :=
  let mine := (d.clientOf q.node).isSome
  let d := (d.closeXfer q.node).closeClient q.node
  if mine then d.note (.dict (leNat (q.data.take 4)) []) else d

/-- XFER_ABORT (R370). -/
def execXferAbort (f : CFrame) (s : State) : Out :=
  s.on fun d => d.received f (if f.func = fnXferRsp then fnXferRsp else fnXferReq) fun d f => d.xferIn f Device.xferAbort

/-- The segment of a write that begins at the client's position. -/
def Device.clientSegment (d : Device) (n : Nat) (x : ClientXfer) : Device :=
  (d.setClient n { x with lastTn := d.tn }).sendXfer n false false
    (xferHead cmdSegment x.toggle false x.index x.sub ++ (x.data.drop x.pos).take (d.xferLimit n false))

def Device.clientFails (d : Device) (n : Nat) (x : ClientXfer) (code : Nat) : Device :=
  ((d.closeClient n).sendAbort n false false x.index x.sub code).note (.dict code [])

/-- A response to a transfer in which the device is client (R368, R369). -/
def Device.xferRsp (d : Device) (q : XferIn) : Device :=
  match d.clientOf q.node with
  | none => d
  | some x =>
    let n := q.node
    let next (d : Device) (t : Bool) : Device := d.sendXfer n false false (xferHead cmdNext t false x.index x.sub)
    if q.cmd = cmdAbort then d.xferAbort q
    else if x.write then
      (if q.cmd = cmdWrite then (d.closeClient n).note (.dict 0 [])
       else if q.cmd = cmdInit then d.clientSegment n x
       else if q.cmd = cmdSegment then
         (if q.toggle != x.toggle then d.clientFails n x abToggle
          else
            let p := x.pos + d.xferLimit n false
            if x.size ≤ p then (d.closeClient n).note (.dict 0 []) else d.clientSegment n { x with pos := p, toggle := !x.toggle })
       else d.clientFails n x abUnknownCmd)
    else if q.cmd = cmdRead then (d.closeClient n).note (.dict 0 q.data)
    else if q.cmd = cmdInit then next (d.setClient n { x with size := leNat (q.data.take 4), lastTn := d.tn }) false
    else if q.cmd = cmdSegment then
      (if q.toggle != x.toggle then d.clientFails n x abToggle
       else
         let v := x.data ++ q.data
         if x.size < v.length then d.clientFails n x abSize
         else if v.length = x.size then (d.closeClient n).note (.dict 0 v)
         else next (d.setClient n { x with data := v, toggle := !x.toggle, lastTn := d.tn }) (!x.toggle))
    else d.clientFails n x abUnknownCmd

/-- XFER_RSP (R368). -/
def execXferRsp (f : CFrame) (s : State) : Out :=
  s.on fun d => d.received f fnXferRsp fun d f => d.xferIn f Device.xferRsp

/-- XFER_TIMEOUT (R369): 100 rounds of silence; `server` says whether the device serves the transfer of the node `client`, or
is itself the client of that node. -/
def Device.xferTimeout (d : Device) (seg client : Nat) (server : Bool) : Device :=
  match d.fgw.find seg client with
  | none => d
  | some n =>
    if server then (match d.openXfer n with
      | some x => if x.lastTn + 100000 ≤ d.tn then (d.closeXfer n).sendAbort n true x.auth x.index x.sub abTimeout else d
      | none => d)
    else (match d.clientOf n with
      | some x => if x.lastTn + 100000 ≤ d.tn then d.clientFails n x abTimeout else d
      | none => d)

def execXferTimeout (seg client : Nat) (server : Bool) (s : State) : Out := s.on fun d => d.xferTimeout seg client server

end Sys2Proof.Machine
end

