-- ==== Sys2Proof/Machine/Dispatch.lean ====
section
/-! DEFINITION. One arm per command: a direct call of its meaning. -/

namespace Sys2Proof.Machine

open Sys2Proof

def exec (i : Instr) (s : State) : Host.Outcome State Fault Refusal :=
  match i with
  | .registerWrite r => Sys2Proof.Machine.execRegisterWrite r s
  | .rcRead addr debug hwSet => Sys2Proof.Machine.execRcRead addr debug hwSet s
  | .busAccess r => Sys2Proof.Machine.execBusAccess r s
  | .wcbDrain e => Sys2Proof.Machine.execWcbDrain e s
  | .timeStart stamp => Sys2Proof.Machine.execTimeStart stamp s
  | .tempoBoundary env => Sys2Proof.Machine.execTempoBoundary env s
  | .roundBoundary env => Sys2Proof.Machine.execRoundBoundary env s
  | .seal b group => Sys2Proof.Machine.execSeal b group s
  | .withdraw b => Sys2Proof.Machine.execWithdraw b s
  | .revert b => Sys2Proof.Machine.execRevert b s
  | .moveLoaded b => Sys2Proof.Machine.execMoveLoaded b s
  | .gptpMasterLoss => Sys2Proof.Machine.execGptpMasterLoss s
  | .calSet => Sys2Proof.Machine.execCalSet s
  | .calendarTick => Sys2Proof.Machine.execCalendarTick s
  | .calendarRewrite => Sys2Proof.Machine.execCalendarRewrite s
  | .calDateRead => Sys2Proof.Machine.execCalDateRead s
  | .fieldCycleBoundary g => Sys2Proof.Machine.execFieldCycleBoundary g s
  | .frameBoundary p => Sys2Proof.Machine.execFrameBoundary p s
  | .checkpointBoundary j => Sys2Proof.Machine.execCheckpointBoundary j s
  | .commandStart e => Sys2Proof.Machine.execCommandStart e s
  | .commandCommit e => Sys2Proof.Machine.execCommandCommit e s
  | .commandFault fault also => Sys2Proof.Machine.execCommandFault fault also s
  | .atomicOverrun e => Sys2Proof.Machine.execAtomicOverrun e s
  | .waitTimeout e => Sys2Proof.Machine.execWaitTimeout e s
  | .mma e => Sys2Proof.Machine.execMma e s
  | .attn e => Sys2Proof.Machine.execAttn e s
  | .spmm e => Sys2Proof.Machine.execSpmm e s
  | .vprog e => Sys2Proof.Machine.execVprog e s
  | .cvt e => Sys2Proof.Machine.execCvt e s
  | .copy e => Sys2Proof.Machine.execCopy e s
  | .wait e => Sys2Proof.Machine.execWait e s
  | .signal e => Sys2Proof.Machine.execSignal e s
  | .publish e => Sys2Proof.Machine.execPublish e s
  | .fence e => Sys2Proof.Machine.execFence e s
  | .checkpoint e => Sys2Proof.Machine.execCheckpoint e s
  | .remote e => Sys2Proof.Machine.execRemote e s
  | .nop e => Sys2Proof.Machine.execNop e s
  | .gather e => Sys2Proof.Machine.execGather e s
  | .scatter e => Sys2Proof.Machine.execScatter e s
  | .segred e => Sys2Proof.Machine.execSegred e s
  | .sort e => Sys2Proof.Machine.execSort e s
  | .merge e => Sys2Proof.Machine.execMerge e s
  | .topk e => Sys2Proof.Machine.execTopk e s
  | .setop e => Sys2Proof.Machine.execSetop e s
  | .hashb e => Sys2Proof.Machine.execHashb e s
  | .hashp e => Sys2Proof.Machine.execHashp e s
  | .engineReleased e saveBad => Sys2Proof.Machine.execEngineReleased e saveBad s
  | .idleRelease j => Sys2Proof.Machine.execIdleRelease j s
  | .cameraFrameDone rx vc => Sys2Proof.Machine.execCameraFrameDone rx vc s
  | .trigClr j mask => Sys2Proof.Machine.execTrigClr j mask s
  | .jobCreate r => Sys2Proof.Machine.execJobCreate r s
  | .jobSuspend j => Sys2Proof.Machine.execJobSuspend j s
  | .jobResume j => Sys2Proof.Machine.execJobResume j s
  | .jobRestart j => Sys2Proof.Machine.execJobRestart j s
  | .jobDelete j => Sys2Proof.Machine.execJobDelete j s
  | .teardownComplete j => Sys2Proof.Machine.execTeardownComplete j s
  | .heldRequestIssue p => Sys2Proof.Machine.execHeldRequestIssue p s
  | .requestComplete p id ns => Sys2Proof.Machine.execRequestComplete p id ns s
  | .tagGrant die => Sys2Proof.Machine.execTagGrant die s
  | .lateReply die tag ns => Sys2Proof.Machine.execLateReply die tag ns s
  | .latch => Sys2Proof.Machine.execLatch s
  | .counterLowRead addr => Sys2Proof.Machine.execCounterLowRead addr s
  | .counterLowWrite addr v => Sys2Proof.Machine.execCounterLowWrite addr v s
  | .counterHighWrite addr v inc => Sys2Proof.Machine.execCounterHighWrite addr v inc s
  | .counterWrite64 addr v inc => Sys2Proof.Machine.execCounterWrite64 addr v inc s
  | .errLogClear die => Sys2Proof.Machine.execErrLogClear die s
  | .dieLinkReplay l ok => Sys2Proof.Machine.execDieLinkReplay l ok s
  | .dieLinkDown l => Sys2Proof.Machine.execDieLinkDown l s
  | .ringAdvance ring n => Sys2Proof.Machine.execRingAdvance ring n s
  | .ringPublish ring n => Sys2Proof.Machine.execRingPublish ring n s
  | .ringReset ring => Sys2Proof.Machine.execRingReset ring s
  | .ringSet ring => Sys2Proof.Machine.execRingSet ring s
  | .ringEnable ring cfg => Sys2Proof.Machine.execRingEnable ring cfg s
  | .ringDisable ring cfg => Sys2Proof.Machine.execRingDisable ring cfg s
  | .scrubRead h outcome => Sys2Proof.Machine.execScrubRead h outcome s
  | .softRepair h row correctable resource => Sys2Proof.Machine.execSoftRepair h row correctable resource s
  | .spareRowCopy row => Sys2Proof.Machine.execSpareRowCopy row s
  | .linkTraining port outcome => Sys2Proof.Machine.execLinkTraining port outcome s
  | .flitReceive port flit => Sys2Proof.Machine.execFlitReceive port flit s
  | .retryReq port seq => Sys2Proof.Machine.execRetryReq port seq s
  | .retryReqResend port => Sys2Proof.Machine.execRetryReqResend port s
  | .hello port h => Sys2Proof.Machine.execHello port h s
  | .handshake port h => Sys2Proof.Machine.execHandshake port h s
  | .handshakeTimeout port => Sys2Proof.Machine.execHandshakeTimeout port s
  | .attestationCheck port rep => Sys2Proof.Machine.execAttestationCheck port rep s
  | .rekey port => Sys2Proof.Machine.execRekey port s
  | .elect port m => Sys2Proof.Machine.execElect port m s
  | .electionEnd => Sys2Proof.Machine.execElectionEnd s
  | .join port m => Sys2Proof.Machine.execJoin port m s
  | .idAssign => Sys2Proof.Machine.execIdAssign s
  | .config c => Sys2Proof.Machine.execConfig c s
  | .configAck m => Sys2Proof.Machine.execConfigAck m s
  | .commit m => Sys2Proof.Machine.execCommit m s
  | .linkState port m => Sys2Proof.Machine.execLinkState port m s
  | .rdReq r => Sys2Proof.Machine.execRdReq r s
  | .rdData m => Sys2Proof.Machine.execRdData m s
  | .rdErr m => Sys2Proof.Machine.execRdErr m s
  | .remoteReadTimeout tag => Sys2Proof.Machine.execRemoteReadTimeout tag s
  | .wr m => Sys2Proof.Machine.execWr m s
  | .wrNack m => Sys2Proof.Machine.execWrNack m s
  | .putAck m => Sys2Proof.Machine.execPutAck m s
  | .putLost dev num => Sys2Proof.Machine.execPutLost dev num s
  | .tailAdv m => Sys2Proof.Machine.execTailAdv m s
  | .fabricSignal m => Sys2Proof.Machine.execFabricSignal m s
  | .ringQuery m => Sys2Proof.Machine.execRingQuery m s
  | .ringState m => Sys2Proof.Machine.execRingState m s
  | .headUpd m => Sys2Proof.Machine.execHeadUpd m s
  | .mgmt m => Sys2Proof.Machine.execMgmt m s
  | .time port stamp => Sys2Proof.Machine.execTime port stamp s
  | .heartbeat port => Sys2Proof.Machine.execHeartbeat port s
  | .linkDown port => Sys2Proof.Machine.execLinkDown port s
  | .partDecision => Sys2Proof.Machine.execPartDecision s
  | .releaseId id => Sys2Proof.Machine.execReleaseId id s
  | .brickFetch => Sys2Proof.Machine.execBrickFetch s
  | .fieldReset => Sys2Proof.Machine.execFieldReset s
  | .batchFetch err => Sys2Proof.Machine.execBatchFetch err s
  | .verdictRecord crcOk => Sys2Proof.Machine.execVerdictRecord crcOk s
  | .wavefrontStart => Sys2Proof.Machine.execWavefrontStart s
  | .wavefrontDone => Sys2Proof.Machine.execWavefrontDone s
  | .waveAbort => Sys2Proof.Machine.execWaveAbort s
  | .rayCycle => Sys2Proof.Machine.execRayCycle s
  | .rtuQuery bytes fromMce => Sys2Proof.Machine.execRtuQuery bytes fromMce s
  | .rtuAnswer tag => Sys2Proof.Machine.execRtuAnswer tag s
  | .renderPass cuts => Sys2Proof.Machine.execRenderPass cuts s
  | .passComplete => Sys2Proof.Machine.execPassComplete s
  | .pipeEnable p => Sys2Proof.Machine.execPipeEnable p s
  | .underflow p plane line x => Sys2Proof.Machine.execUnderflow p plane line x s
  | .regionCrcReport p k => Sys2Proof.Machine.execRegionCrcReport p k s
  | .mworldWrite hart w => Sys2Proof.Machine.execMworldWrite hart w s
  | .castle r => Sys2Proof.Machine.execCastle r s
  | .quiesceDone unit => Sys2Proof.Machine.execQuiesceDone unit s
  | .inval w => Sys2Proof.Machine.execInval w s
  | .invalDone => Sys2Proof.Machine.execInvalDone s
  | .instanceCreate inst w => Sys2Proof.Machine.execInstanceCreate inst w s
  | .instanceDelete inst => Sys2Proof.Machine.execInstanceDelete inst s
  | .doorbell inst ring count => Sys2Proof.Machine.execDoorbell inst ring count s
  | .ringViewAdvance inst ring count => Sys2Proof.Machine.execRingViewAdvance inst ring count s
  | .emulatedRead inst off => Sys2Proof.Machine.execEmulatedRead inst off s
  | .emulatedWrite inst off v => Sys2Proof.Machine.execEmulatedWrite inst off v s
  | .emuAnswer inst v => Sys2Proof.Machine.execEmuAnswer inst v s
  | .emuTimeout inst write => Sys2Proof.Machine.execEmuTimeout inst write s
  | .mailboxRead inst len => Sys2Proof.Machine.execMailboxRead inst len s
  | .mailboxWrite inst len => Sys2Proof.Machine.execMailboxWrite inst len s
  | .mailboxResponse inst => Sys2Proof.Machine.execMailboxResponse inst s
  | .firmwareCall hart r => Sys2Proof.Machine.execFirmwareCall hart r s
  | .instanceReset inst => Sys2Proof.Machine.execInstanceReset inst s
  | .tagForceRetire inst => Sys2Proof.Machine.execTagForceRetire inst s
  | .functionLevelReset fn => Sys2Proof.Machine.execFunctionLevelReset fn s
  | .dlogOvfClear inst => Sys2Proof.Machine.execDlogOvfClear inst s
  | .joinReq f => Sys2Proof.Machine.execJoinReq f s
  | .nodeHeartbeat f => Sys2Proof.Machine.execNodeHeartbeat f s
  | .nodeLost n => Sys2Proof.Machine.execNodeLost n s
  | .emcy f => Sys2Proof.Machine.execEmcy f s
  | .safety f => Sys2Proof.Machine.execSafety f s
  | .rxmap f => Sys2Proof.Machine.execRxmap f s
  | .gatedExpire port map => Sys2Proof.Machine.execGatedExpire port map s
  | .mapTimeout map => Sys2Proof.Machine.execMapTimeout map s
  | .xferRead f => Sys2Proof.Machine.execXferRead f s
  | .xferWrite f => Sys2Proof.Machine.execXferWrite f s
  | .xferWriteInit f => Sys2Proof.Machine.execXferWriteInit f s
  | .xferSegment f => Sys2Proof.Machine.execXferSegment f s
  | .xferReadNext f => Sys2Proof.Machine.execXferReadNext f s
  | .xferAbort f => Sys2Proof.Machine.execXferAbort f s
  | .xferRsp f => Sys2Proof.Machine.execXferRsp f s
  | .xferTimeout seg client server => Sys2Proof.Machine.execXferTimeout seg client server s
  | .busAlone port => Sys2Proof.Machine.execBusAlone port s
  | .probe port acked => Sys2Proof.Machine.execProbe port acked s
  | .t1sAlone port => Sys2Proof.Machine.execT1sAlone port s
  | .plcaFallback port => Sys2Proof.Machine.execPlcaFallback port s
  | .ethernetFrame f => Sys2Proof.Machine.execEthernetFrame f s
  | .ruleCreate bytes => Sys2Proof.Machine.execRuleCreate bytes s
  | .ruleDelete h => Sys2Proof.Machine.execRuleDelete h s
  | .nodeRemove => Sys2Proof.Machine.execNodeRemove s
  | .profileSwitch slot => Sys2Proof.Machine.execProfileSwitch slot s
  | .profileVerified => Sys2Proof.Machine.execProfileVerified s
  | .profileSave slot => Sys2Proof.Machine.execProfileSave slot s
  | .profileImport img => Sys2Proof.Machine.execProfileImport img s
  | .profileErase slot => Sys2Proof.Machine.execProfileErase slot s
  | .profileStoreDone => Sys2Proof.Machine.execProfileStoreDone s
  | .profileLoad => Sys2Proof.Machine.execProfileLoad s
  | .estop => Sys2Proof.Machine.execEstop s
  | .tempoLoss => Sys2Proof.Machine.execTempoLoss s
  | .arbiterMismatch => Sys2Proof.Machine.execArbiterMismatch s
  | .oscillatorFault => Sys2Proof.Machine.execOscillatorFault s
  | .supplyFault n overMax => Sys2Proof.Machine.execSupplyFault n overMax s
  | .tjReport sensor => Sys2Proof.Machine.execTjReport sensor s
  | .thermalTrip sensor => Sys2Proof.Machine.execThermalTrip sensor s
  | .arm r => Sys2Proof.Machine.execArm r s
  | .release r => Sys2Proof.Machine.execRelease r s
  | .done r => Sys2Proof.Machine.execDone r s
  | .ack r => Sys2Proof.Machine.execAck r s
  | .logAcknowledge e => Sys2Proof.Machine.execLogAcknowledge e s
  | .xcheck r => Sys2Proof.Machine.execXcheck r s
  | .crossCheckDone bad => Sys2Proof.Machine.execCrossCheckDone bad s
  | .flagFall t => Sys2Proof.Machine.execFlagFall t s
  | .taskClockExhausted t => Sys2Proof.Machine.execTaskClockExhausted t s
  | .pairMismatch p => Sys2Proof.Machine.execPairMismatch p s
  | .adjudicationDone p outcome => Sys2Proof.Machine.execAdjudicationDone p outcome s
  | .degradedExpiry p => Sys2Proof.Machine.execDegradedExpiry p s
  | .latentFaultTest c ok => Sys2Proof.Machine.execLatentFaultTest c ok s
  | .lfIntervalExceeded => Sys2Proof.Machine.execLfIntervalExceeded s
  | .engineSelfTest e ok => Sys2Proof.Machine.execEngineSelfTest e ok s
  | .uartLogDump => Sys2Proof.Machine.execUartLogDump s
  | .uartStatus => Sys2Proof.Machine.execUartStatus s
  | .sealLoad r => Sys2Proof.Machine.execSealLoad r s
  | .sealLoadDone r => Sys2Proof.Machine.execSealLoadDone r s
  | .regionRelease r => Sys2Proof.Machine.execRegionRelease r s
  | .attest r => Sys2Proof.Machine.execAttest r s
  | .attestNonce nonce => Sys2Proof.Machine.execAttestNonce nonce s
  | .ownerAdd r => Sys2Proof.Machine.execOwnerAdd r s
  | .ownerRevoke r => Sys2Proof.Machine.execOwnerRevoke r s
  | .rollbackAdvance r => Sys2Proof.Machine.execRollbackAdvance r s
  | .lifecycle r => Sys2Proof.Machine.execLifecycle r s
  | .keySlot r => Sys2Proof.Machine.execKeySlot r s
  | .zeroingDone b => Sys2Proof.Machine.execZeroingDone b s
  | .entropyHealthFail => Sys2Proof.Machine.execEntropyHealthFail s
  | .tamper => Sys2Proof.Machine.execTamper s
  | .secureBoot r => Sys2Proof.Machine.execSecureBoot r s
  | .challengeRead => Sys2Proof.Machine.execChallengeRead s
  | .debugUnlock w => Sys2Proof.Machine.execDebugUnlock w s
  | .unlockVerified r => Sys2Proof.Machine.execUnlockVerified r s
  | .debugClose => Sys2Proof.Machine.execDebugClose s
  | .powerOnReset straps lost => Sys2Proof.Machine.execPowerOnReset straps lost s
  | .arbiterValid => Sys2Proof.Machine.execArbiterValid s
  | .systemReset straps => Sys2Proof.Machine.execSystemReset straps s
  | .systemResetRequest straps => Sys2Proof.Machine.execSystemResetRequest straps s
  | .watchdogExpiry straps => Sys2Proof.Machine.execWatchdogExpiry straps s
  | .avsFailure rail => Sys2Proof.Machine.execAvsFailure rail s
  | .quadPowerOn q => Sys2Proof.Machine.execQuadPowerOn q s
  | .stackThrottle h temp => Sys2Proof.Machine.execStackThrottle h temp s
  | .crystalStop => Sys2Proof.Machine.execCrystalStop s
  | .keepAliveRequest => Sys2Proof.Machine.execKeepAliveRequest s
  | .wake => Sys2Proof.Machine.execWake s
  | .stackTrained h ok => Sys2Proof.Machine.execStackTrained h ok s
  | .readyForJobs => Sys2Proof.Machine.execReadyForJobs s
  | .debugRead w r => Sys2Proof.Machine.execDebugRead w r s
  | .debugWrite w data => Sys2Proof.Machine.execDebugWrite w data s
  | .framerReset => Sys2Proof.Machine.execFramerReset s
  | .debugAccessTimeout => Sys2Proof.Machine.execDebugAccessTimeout s
  | .debugWriteRefused => Sys2Proof.Machine.execDebugWriteRefused s
  | .dmiAccess w data outcome => Sys2Proof.Machine.execDmiAccess w data outcome s
  | .breakpointHit e => Sys2Proof.Machine.execBreakpointHit e s
  | .engineHalt j => Sys2Proof.Machine.execEngineHalt j s
  | .engineResume j => Sys2Proof.Machine.execEngineResume j s
  | .engineStep j n => Sys2Proof.Machine.execEngineStep j n s
  | .bypass => Sys2Proof.Machine.execBypass s
  | .idcode => Sys2Proof.Machine.execIdcode s
  | .samplePreload v => Sys2Proof.Machine.execSamplePreload v s
  | .extest => Sys2Proof.Machine.execExtest s
  | .extestPulse => Sys2Proof.Machine.execExtestPulse s
  | .extestTrain => Sys2Proof.Machine.execExtestTrain s
  | .clamp => Sys2Proof.Machine.execClamp s
  | .highz => Sys2Proof.Machine.execHighz s
  | .tapReset => Sys2Proof.Machine.execTapReset s
  | .commandIssue e => Sys2Proof.Machine.execCommandIssue e s
  | .safeAliveToggle => Sys2Proof.Machine.execSafeAliveToggle s
  | .estopRelease => Sys2Proof.Machine.execEstopRelease s
  | .supplyBackInWindow n => Sys2Proof.Machine.execSupplyBackInWindow n s
  | .gptpSync => Sys2Proof.Machine.execGptpSync s
  | .gateCycleStart port now => Sys2Proof.Machine.execGateCycleStart port now s
  | .beacon port => Sys2Proof.Machine.execBeacon port s
  | .busOff port => Sys2Proof.Machine.execBusOff port s
  | .busOffRecovery port => Sys2Proof.Machine.execBusOffRecovery port s
  | .pcieLinkDown => Sys2Proof.Machine.execPcieLinkDown s
  | .pcieLinkUp => Sys2Proof.Machine.execPcieLinkUp s
  | .entropySourceRestarted => Sys2Proof.Machine.execEntropySourceRestarted s

end Sys2Proof.Machine
end

