-- ==== Sys2Proof/Safety.lean ====
section
/-! DEFINITION. The terms of claims about a run: a command that completes, one that stops, and the conditions that claims
name. -/

namespace Sys2Proof.Machine

open Sys2Proof

/-- The command completes: it changes the device, in a way that satisfies `Q`, and leaves the rest of the queue. -/
def Runs (c : Instr) (s : State) (Q : Device → Prop) : Prop := ∃ d, exec c s = .next { s with dev := d } ∧ Q d

/-- No thermal trip holds the dies in reset (R460). -/
def State.live (s : State) : Prop := s.dev.pwr.held = false

/-- A command that acts while a thermal trip holds the other dies in reset (R36, R460, R463): those of the keep-alive domain,
and the tempo boundary, at which DT counts on. -/
def keepAliveCommand : Instr → Bool
  | .tempoBoundary _ | .calendarTick | .estop | .estopRelease | .tempoLoss | .arbiterMismatch | .oscillatorFault
  | .safeAliveToggle
  | .supplyFault _ _ | .supplyBackInWindow _ | .thermalTrip _ | .uartLogDump | .uartStatus | .tamper | .challengeRead
  | .debugUnlock _ | .unlockVerified _ | .debugClose | .powerOnReset _ _ | .arbiterValid | .wake | .debugRead _ _
  | .debugWrite _ _ | .framerReset | .debugAccessTimeout | .debugWriteRefused | .dmiAccess _ _ _ | .engineHalt _
  | .engineResume _ | .engineStep _ _ | .bypass | .idcode | .samplePreload _ | .extest | .extestPulse | .extestTrain
  | .clamp | .highz | .tapReset => true
  | _ => false

/-- Only the Arbiter and the counter of free values differ. -/
def OnlyArb (d e : Device) : Prop := e = { d with arb := e.arb, fresh := e.fresh }

/-- The SAFE reaction to a cause (R409): the safe state, SAFE_n low, the gate closed, an entry in the log, and nothing but
the Arbiter touched. -/
def SafeReaction (cause : Nat) (d e : Device) : Prop :=
  OnlyArb d e ∧ e.arb.safe = true ∧ e.arb.safeN = false ∧ e.arb.gateOpen = false
    ∧ (e.arb.entry d.arb.logNext).cause = cause ∧ (e.arb.entry d.arb.logNext).reaction = reactSafe
    ∧ e.arb.logNext = (d.arb.logNext + 1) % 64

/-- A thermal trip is in effect and no power-on reset waits: the dies are held, and the device is in the safe state with
the gate closed. -/
def Tripped (s : State) : Prop :=
  s.dev.pwr.held = true ∧ s.dev.arb.safe = true ∧ s.dev.arb.safeN = false ∧ s.dev.arb.gateOpen = false
    ∧ ∀ c ∈ s.pending, ∀ x b, c ≠ .powerOnReset x b

/-- The writes of a command's result to this device; those to another device travel as messages. -/
def ExecOut.local' (o : ExecOut) : List (Nat × List Byte) := o.writes.filter fun x => spaceOf x.1 != 4

/-- A byte string cut at 4 KiB boundaries. -/
def pageWrites (x : Nat × List Byte) : List (Nat × List Byte) :=
  (pagesOf x.1 x.2.length).map fun r => (r.1, (x.2.drop (r.1 - x.1)).take r.2)

/-- The package-local ranges that stores of whole pages go to, one after the other. -/
def Device.storedRanges (w : Runner) (seq : Nat) : Device → List (Nat × List Byte) → List (Nat × Nat)
  | _, [] => []
  | d, (u, bs) :: rest =>
    (match d.place w u with | some p => [(p, p + bs.length)] | none => [])
      ++ Device.storedRanges w seq (d.storePage w seq u bs) rest

/-- One engine's issued command is marked as carried out, and nothing else changes. -/
def CarriedOut (d f : Device) (e : Nat) (i : Issued) (st : NumStatus) (n : Option Nat) : Prop :=
  f = { d with eng := f.eng } ∧ (∀ k, k ≠ e → f.engine k = d.engine k) ∧
    f.engine e = { d.engine e with issued := (d.engine e).issued.map fun x =>
      if x.cmd.seq = i.cmd.seq then { x with done := true, st := st, produced := n } else x }

/-- A data opcode completes: the oldest started command of opcode `o` on an engine, whose remote reads are answered, which can
reach its operands now and whose sources and destinations pass the access checks, is marked as carried out with the status that its
computation gives; the bytes that it stores are those of its result, put where the engine's store path takes them, and every byte
outside the stored ranges stays as the access checks leave it. -/
def DataRuns (c : Fin 32 → Instr) (o : Op) (run : Issued → (Nat → Option View) → (Nat → Nat) → ExecRes) : Prop :=
  ∀ (s : State) (e : Fin 32) (w : Runner) (i : Issued) (d1 d2 : Device) (out : ExecOut),
    s.live → s.dev.runner e = some w → (s.dev.engine e).pendingOp o = some i → s.dev.fab.answered e i.cmd.seq = true →
    s.dev.mayRun w i = true →
    s.dev.checkSources w i = (d1, none) → run i (d1.views w i) (d1.read w i.fetched) = .ok out →
    d1.checkWrites w out.local' = (d2, none) →
    Runs (c e) s fun d =>
      let from' := d2.readTraffic w i
      let stored := out.local'.foldl (fun d x => d.storeBytes w i.cmd.seq x.1 x.2) from'
      (d.engine e).issued = (s.dev.engine e).issued.map (fun x =>
        if x.cmd.seq = i.cmd.seq then { x with done := true, st := out.st, produced := out.produced } else x)
      ∧ (∀ k, k ≠ e.val → d.engine k = s.dev.engine k)
      ∧ d.mem = stored.mem ∧ (d.engine e).wcb = (stored.engine e).wcb ∧ (d.engine e).stq = (stored.engine e).stq
      ∧ (∀ a, (∀ r ∈ Device.storedRanges w i.cmd.seq from' (out.local'.flatMap pageWrites), a < r.1 ∨ r.2 ≤ a) → d.byte a = d2.byte a)
      ∧ d = { s.dev with mem := d.mem, proc := d.proc, eng := d.eng, noc := d.noc, fab := d.fab, out := d.out, fresh := d.fresh }
      ∧ (out.writes.all (fun x => spaceOf x.1 != 4) = true → d.fab = s.dev.fab ∧ d.out = s.dev.out)

/-- What a fault of a command leaves (R126, R211, R212): the job in teardown with the code and the logical engine. -/
def JobFaulted (d : Device) (j code logical : Nat) : Prop :=
  (d.job j).st = .teardown ∧ (d.job j).faultCode = code ∧ (d.job j).faultLogical = logical

/-- The fault registers of an engine (R126). -/
def FaultRegs (g : Eng) (code slot seq addr : Nat) (atIssue : Bool) : Prop :=
  g.faultInfo = code + 2 ^ 8 * slot + 2 ^ 12 * b2n atIssue ∧ g.faultSeq = seq ∧ g.faultAddr = addr

/-- The commands of a received frame, JOIN_REQ apart, each with its function code (R362). -/
def fieldRows (f : CFrame) : List (Nat × Instr) :=
  [(fnHeartbeat, .nodeHeartbeat f), (fnEmcy, .emcy f), (fnSafety, .safety f), (fnRxmap, .rxmap f), (fnXferReq, .xferRead f),
   (fnXferReq, .xferWrite f), (fnXferReq, .xferWriteInit f), (fnXferReq, .xferSegment f), (fnXferReq, .xferReadNext f),
   (if f.func = fnXferRsp then fnXferRsp else fnXferReq, .xferAbort f), (fnXferRsp, .xferRsp f)]

end Sys2Proof.Machine
end

