-- ==== Sys2Proof/WellFormed.lean ====
section
/-! DEFINITION. Checks on commands: the operands a sender can give. A command that fails its check is one that nothing
outside the device can send (a port that does not exist, a field wider than its bits); its meaning is total all the same. -/

namespace Sys2Proof

open Sys2Proof.Machine

/-- The port exists on its die: 17 ports of a compute die, 16 of the hub (chapter 08). -/
def portWf (p : Port) : Bool := decide (p.port < (if p.die = .hub then 16 else 17))

/-- A register access is aligned to its width and writes no more bits than it has (R7, R8). -/
def regReqWf (r : RegReq) : Bool :=
  portWf r.master && r.addr % (if r.wide then 8 else 4) == 0 && decide (r.value < 2 ^ (if r.wide then 64 else 32))

/-- A bus request carries 1 to 64 bytes from a port whose requests do not come from frames or messages (R223). -/
def busReqWf (r : BusReq) : Bool :=
  portWf r.master && decide (0 < r.len) && decide (r.len ≤ 64) && (!r.write || r.data.length == r.len)
    && r.master != Port.debug && r.master != Port.toterlink

/-- Power, temperatures and delays as the sensors and the ports give them (R272, R456, R458). -/
def roundWf (env : RoundEnv) : Bool := env.temps.length == 48 && env.delays.length == 8

/-- A message carries its length in units of 16 bytes (R255). -/
def lenWf (m : FMsg) : Bool := decide (m.data.length ≤ 16 * m.len)

/-- A flit is 128 bytes (R243). -/
def flitWf (f : Flit) : Bool := f.length == 128

/-- An emulated word of an instance page (R350, R352). -/
def emuOffset (off : Nat) : Bool := decide (0x800 ≤ off) && decide (off < 0x1000) && off % 4 == 0

/-- A castling request names a castable unit and an owner's fields within their widths (R336, R345). -/
def castleWf (r : CastleReq) : Bool := decide (r.unit < 256) && decide (r.kind < 8) && decide (r.inst < 32) && decide (r.ctx < 64)

/-- The kinds of field ports (R359). -/
def canPort (p : Nat) : Bool := decide (p < 16)
def t1sPort (p : Nat) : Bool := decide (16 ≤ p) && decide (p < 24)
def tsnPort (p : Nat) : Bool := decide (24 ≤ p) && decide (p < 36)

/-- A slot that can be saved or erased (R398). -/
def slotWf (n : Nat) : Bool := decide (n < 4)

/-- A header begins with START (R469). -/
def headerWf (w : BitVec 72) : Bool := (DbgHeader.ofBits w.toNat).start

/-- A write data phase carries 1 to 1,024 words (R469). -/
def dbgDataWf (x : DbgData) : Bool := x.bytes.length % 4 == 0 && decide (0 < x.bytes.length) && decide (x.bytes.length ≤ 4096)

/-- A command that is well formed: the machine takes every command, and an ill-formed one is a request that no master can
make. -/
def Instr.wf : Instr → Bool
  | .registerWrite r => regReqWf r
  | .rcRead addr _ hwSet => addr % 4 == 0 && decide (hwSet < 2 ^ 32)
  | .busAccess r => busReqWf r
  | .roundBoundary env => roundWf env
  | .heldRequestIssue p => portWf p
  | .requestComplete p _ _ => portWf p
  | .counterLowRead addr => addr % 8 == 0
  | .counterLowWrite addr _ => addr % 8 == 0
  | .counterHighWrite addr _ _ => addr % 8 == 0
  | .counterWrite64 addr _ _ => addr % 8 == 0
  | .flitReceive _ f => flitWf f
  | .retryReq _ seq => decide (seq < 4096)
  | .rdData m => lenWf m
  | .remoteReadTimeout tag => decide (tag < 8192)
  | .wr m => lenWf m
  | .putLost dev _ => decide (dev < 32)
  | .releaseId id => decide (id < 32)
  | .rtuQuery bytes _ => bytes.length == 64
  | .underflow _ _ line x => decide (line < 2 ^ 13) && decide (x < 2 ^ 13)
  | .castle r => castleWf r
  | .quiesceDone unit => decide (unit < 256)
  | .doorbell _ ring count => decide (ring < 512) && decide (count < 2 ^ 24)
  | .ringViewAdvance _ ring count => decide (ring < 512) && decide (count < 2 ^ 24)
  | .emulatedRead _ off => emuOffset off
  | .emulatedWrite _ off v => emuOffset off && decide (v < 2 ^ 32)
  | .emuAnswer _ v => decide (v < 2 ^ 32)
  | .functionLevelReset fn => decide (fn < 32)
  | .nodeLost n => decide (n < 4096)
  | .gatedExpire port map => decide (port < 36) && decide (map < 2048)
  | .mapTimeout map => decide (map < 2048)
  | .busAlone port => canPort port
  | .probe port _ => canPort port
  | .t1sAlone port => t1sPort port
  | .plcaFallback port => t1sPort port
  | .ethernetFrame f => tsnPort f.port && f.bytes.length != 0
  | .profileSwitch slot => decide (slot < 4)
  | .profileSave slot => slotWf slot
  | .profileImport img => decide (img.length ≤ 2 ^ 20)
  | .profileErase slot => slotWf slot
  | .logAcknowledge e => decide (e < 64)
  | .attestNonce nonce => nonce.length == 48
  | .debugRead w _ => headerWf w
  | .debugWrite w data => headerWf w && dbgDataWf data && decide (data.hwSet < 2 ^ 32)
  | .dmiAccess w _ _ => headerWf w
  | .engineStep _ n => decide (1 ≤ n) && decide (n < 2 ^ 16)
  | .gateCycleStart port _ => tsnPort port
  | .beacon port => t1sPort port
  | .busOff port => canPort port
  | .busOffRecovery port => canPort port
  | .wcbDrain _ | .timeStart _ | .tempoBoundary _ | .seal _ _ | .withdraw _ | .revert _ | .moveLoaded _ | .gptpMasterLoss
  | .calSet | .calendarTick | .calendarRewrite | .calDateRead | .fieldCycleBoundary _ | .frameBoundary _
  | .checkpointBoundary _ | .commandStart _ | .commandCommit _ | .commandFault _ _ | .atomicOverrun _ | .waitTimeout _
  | .mma _ | .attn _ | .spmm _ | .vprog _ | .cvt _ | .copy _ | .wait _ | .signal _ | .publish _ | .fence _ | .checkpoint _
  | .remote _ | .nop _ | .gather _ | .scatter _ | .segred _ | .sort _ | .merge _ | .topk _ | .setop _ | .hashb _ | .hashp _
  | .engineReleased _ _ | .idleRelease _ | .cameraFrameDone _ _ | .trigClr _ _ | .jobCreate _ | .jobSuspend _ | .jobResume _
  | .jobRestart _ | .jobDelete _ | .teardownComplete _ | .tagGrant _ | .lateReply _ _ _ | .latch | .errLogClear _
  | .dieLinkReplay _ _ | .dieLinkDown _ | .ringAdvance _ _ | .ringPublish _ _ | .ringReset _ | .ringSet _ | .ringEnable _ _
  | .ringDisable _ _ | .scrubRead _ _ | .softRepair _ _ _ _ | .spareRowCopy _ | .linkTraining _ _
  | .retryReqResend _ | .hello _ _ | .handshake _ _ | .handshakeTimeout _ | .attestationCheck _ _ | .rekey _ | .elect _ _
  | .electionEnd | .join _ _ | .idAssign | .config _ | .configAck _ | .commit _ | .linkState _ _ | .rdReq _ | .rdErr _
  | .wrNack _ | .putAck _ | .tailAdv _ | .fabricSignal _ | .ringQuery _ | .ringState _ | .headUpd _ | .mgmt _ | .time _ _
  | .heartbeat _ | .linkDown _ | .partDecision | .brickFetch | .fieldReset | .batchFetch _ | .verdictRecord _
  | .wavefrontStart | .wavefrontDone | .waveAbort | .rayCycle | .rtuAnswer _ | .renderPass _ | .passComplete | .pipeEnable _
  | .regionCrcReport _ _ | .mworldWrite _ _ | .inval _ | .invalDone | .instanceCreate _ _ | .instanceDelete _
  | .emuTimeout _ _ | .mailboxRead _ _ | .mailboxWrite _ _ | .mailboxResponse _ | .firmwareCall _ _ | .instanceReset _
  | .tagForceRetire _ | .dlogOvfClear _ | .joinReq _ | .nodeHeartbeat _ | .emcy _ | .safety _ | .rxmap _ | .xferRead _
  | .xferWrite _ | .xferWriteInit _ | .xferSegment _ | .xferReadNext _ | .xferAbort _ | .xferRsp _ | .xferTimeout _ _ _
  | .ruleCreate _ | .ruleDelete _ | .nodeRemove | .profileVerified | .profileStoreDone | .profileLoad | .estop | .tempoLoss
  | .arbiterMismatch | .oscillatorFault | .supplyFault _ _ | .tjReport _ | .thermalTrip _ | .arm _ | .release _ | .done _
  | .ack _ | .xcheck _ | .crossCheckDone _ | .flagFall _ | .taskClockExhausted _ | .pairMismatch _ | .adjudicationDone _ _
  | .degradedExpiry _ | .latentFaultTest _ _ | .lfIntervalExceeded | .engineSelfTest _ _ | .uartLogDump | .uartStatus
  | .sealLoad _ | .sealLoadDone _ | .regionRelease _ | .attest _ | .ownerAdd _ | .ownerRevoke _ | .rollbackAdvance _
  | .lifecycle _ | .keySlot _ | .zeroingDone _ | .entropyHealthFail | .tamper | .secureBoot _ | .challengeRead
  | .debugUnlock _ | .unlockVerified _ | .debugClose | .powerOnReset _ _ | .arbiterValid | .systemReset _
  | .systemResetRequest _ | .watchdogExpiry _ | .avsFailure _ | .quadPowerOn _ | .stackThrottle _ _ | .crystalStop
  | .keepAliveRequest | .wake | .stackTrained _ _ | .readyForJobs | .framerReset | .debugAccessTimeout | .debugWriteRefused
  | .breakpointHit _ | .engineHalt _ | .engineResume _ | .bypass | .idcode | .samplePreload _ | .extest | .extestPulse
  | .extestTrain | .clamp | .highz | .tapReset | .commandIssue _ | .safeAliveToggle | .estopRelease | .supplyBackInWindow _
  | .gptpSync | .pcieLinkDown | .pcieLinkUp | .entropySourceRestarted => true

end Sys2Proof
end

