-- ==== Sys2Proof/Certificates/Slice0/Obligations.lean ====
section
/-! DEFINITION. The statements about the block, for the provers. -/

open Sys2Proof Sys2Proof.Machine

/-- A step takes the front command; an empty queue idles (log entry 2). -/
def Obligations.StepRunsFront : Prop :=
  (∀ (c : Instr) (rest : List Instr) (s : State), step { s with pending := c :: rest } = exec c { s with pending := rest }) ∧
  (∀ s : State, s.pending = [] → step s = .next s)

/-- No command touches the queue, and only SUPPLY_FAULT above the absolute maximum rating stops (R486). -/
def Obligations.QueueUntouched : Prop :=
  ∀ (c : Instr) (s : State),
    (∀ t, exec c s = .next t → t.pending = s.pending) ∧ (∀ r, exec c s ≠ .refused r) ∧
    (∀ f, exec c s = .fault f → ∃ n, c = .supplyFault n true)

/-- While a thermal trip holds the dies, a command outside the keep-alive domain changes nothing (R460). -/
def Obligations.TripHoldsDies : Prop :=
  ∀ (c : Instr) (s : State), s.dev.pwr.held = true → keepAliveCommand c = false → exec c s = .next s

/-- The trip, the safe state and the closed gate last until a power-on reset (R428, R460). -/
def Obligations.TrippedStays : Prop :=
  ∀ s t : State, Tripped s → step s = .next t → Tripped t

/-- THERMAL_TRIP (R428, R460). -/
def Obligations.TripEntered : Prop :=
  ∀ (s : State) (n : Fin 48), s.live → s.dev.arb.valid = true → (∀ c ∈ s.pending, ∀ x b, c ≠ .powerOnReset x b) →
    ∃ t, exec (.thermalTrip n) s = .next t ∧ Tripped t ∧ t.dev.arb.trip = true ∧ t.dev.mem = [] ∧ t.dev.jobs = []
      ∧ bitOf t.dev.pwr.resetCause 5 = true ∧ t.dev.cal = s.dev.cal ∧ t.dev.dbg.level = s.dev.dbg.level

/-- SAFE reactions (R407 to R409, R449, R452). -/
def Obligations.SafeCauses : Prop :=
  ∀ s : State, s.dev.arb.valid = true →
    (s.dev.arb.estop = false → Runs .estop s fun d => SafeReaction 0x01 s.dev d ∧ d.arb.estop = true) ∧
    (s.dev.tb.started = true → s.dev.arb.tempoLoss = false →
      Runs .tempoLoss s fun d => SafeReaction 0x04 s.dev d ∧ d.arb.tempoLoss = true ∧ d.arb.goodPulses = 0) ∧
    (Runs .arbiterMismatch s fun d => SafeReaction 0x03 s.dev d ∧ d.arb.arbFault = true) ∧
    (Runs .oscillatorFault s fun d => SafeReaction 0x05 s.dev d ∧ d.arb.arbFault = true) ∧
    (∀ n : Fin 11, n.val ∉ s.dev.arb.supplyOut →
      Runs (.supplyFault n false) s fun d => SafeReaction 0x06 s.dev d ∧ d.arb.supplyOut = n.val :: s.dev.arb.supplyOut)

/-- No behaviour is specified above an absolute maximum rating (R486). -/
def Obligations.AboveMaximum : Prop :=
  ∀ (s : State) (n : Fin 11), exec (.supplyFault n true) s = .fault .aboveAbsoluteMaximum

/-- ESTOP_RELEASE, SUPPLY_BACK_IN_WINDOW, SAFE_ALIVE_TOGGLE, UART_LOG_DUMP, UART_STATUS and CROSS_CHECK_DONE. -/
def Obligations.ArbiterSignals : Prop :=
  ∀ s : State,
    (Runs .estopRelease s fun d => d = { s.dev with arb := { s.dev.arb with estop := false } }) ∧
    (∀ n : Fin 11, Runs (.supplyBackInWindow n) s fun d =>
      d = { s.dev with arb := { s.dev.arb with supplyOut := s.dev.arb.supplyOut.filter fun x => x != n.val } }) ∧
    (s.dev.arb.valid = true → s.dev.arb.arbFault = false →
      Runs .safeAliveToggle s fun d => d = { s.dev with arb := { s.dev.arb with alive := !s.dev.arb.alive } }) ∧
    (Runs .uartLogDump s fun d =>
      d = s.dev.note (.uart ((List.range s.dev.arb.logCount).flatMap fun i => (s.dev.arb.oldest i).bytes))) ∧
    (Runs .uartStatus s fun d =>
      d = s.dev.note (.uart (leBytes 4 (s.dev.arb.status (s.dev.dict.num 0x5000 0x01))))) ∧
    (s.live → s.dev.arb.xcheck.isSome = true → ∀ bad : Bool, Runs (.crossCheckDone bad) s fun d =>
      d = { s.dev with arb := { s.dev.arb with xcheck := none },
                       mce := { s.dev.mce with fieldFault := s.dev.mce.fieldFault || bad } })

/-- ARM and RELEASE (R410, R412, R413). -/
def Obligations.ArmRelease : Prop :=
  ∀ (s : State) (r : ArbReq), s.live →
    (s.dev.mayArm r.sender = true → s.dev.arb.armAllowed = true →
      Runs (.arm r) s fun d => d = { s.dev with arb := { s.dev.arb with gateOpen := true } }) ∧
    (s.dev.mayArm r.sender = true → s.dev.arb.armAllowed = false → Runs (.arm r) s fun d => d = s.dev) ∧
    (s.dev.mayArm r.sender = true → s.dev.arb.releaseAllowed = true →
      Runs (.release r) s fun d =>
        d = { s.dev with arb := { s.dev.arb with safe := false, safeN := true, gateOpen := false, cause := 0, since := [] } }) ∧
    (s.dev.mayArm r.sender = true → s.dev.arb.releaseAllowed = false → Runs (.release r) s fun d => d = s.dev) ∧
    (s.dev.mayArm r.sender = false →
      let x := { s.dev with arb := { s.dev.arb with cmdRefused := min 255 (s.dev.arb.cmdRefused + 1) } }
      (Runs (.arm r) s fun d => d = x) ∧ (Runs (.release r) s fun d => d = x))

/-- What the gate needs (R410). -/
def Obligations.GateNeeds : Prop :=
  ∀ (s t : State) (r : ArbReq), exec (.arm r) s = .next t → s.dev.arb.gateOpen = false → t.dev.arb.gateOpen = true →
    s.dev.arb.safe = false ∧ s.dev.arb.profileOk = true ∧ s.dev.arb.recs.length = 16 ∧
    (∀ v ∈ s.dev.arb.recs, v.good = true ∧ (v.mode = 1 ∨ v.mode = 2 ∨ v.mode = 3)) ∧
    (∃ v ∈ s.dev.arb.recs, v.mode = 1 ∨ v.mode = 2)

/-- ACK, LOG_ACKNOWLEDGE, XCHECK and DONE (R413, R415, R426, R430). -/
def Obligations.ArbiterCommands : Prop :=
  ∀ (s : State) (r : ArbReq), s.live →
    ((s.dev.isPair r.sender || r.sender == .fwc) = true → r.arg < 64 → s.dev.arb.holds r.arg = true →
      Runs (.ack r) s fun d => d = { s.dev with arb := s.dev.arb.ack r.arg } ∧ (d.arb.entry r.arg).ack = true) ∧
    (∀ e, e < 64 → s.dev.arb.holds e = true → Runs (.logAcknowledge e) s fun d =>
      d = { s.dev with arb := s.dev.arb.ack e, out := .dict 0 [] :: s.dev.out } ∧ (d.arb.entry e).ack = true) ∧
    (s.dev.isPair r.sender = true → s.dev.arb.xcheck = none →
      Runs (.xcheck r) s fun d => d = { s.dev with arb := { s.dev.arb with xcheck := some 16 } }) ∧
    (s.dev.isPair r.sender = true → r.runs = true → r.arg < 128 → (s.dev.taskRec r.arg).kind = 2 →
      Runs (.done r) s fun d => d = { s.dev with arb := s.dev.arb.setTask r.arg ((s.dev.arb.task r.arg).complete false) })

/-- FLAG_FALL below LIMIT and TASK_CLOCK_EXHAUSTED (R416 to R418). -/
def Obligations.FlagFalls : Prop :=
  ∀ (s : State) (t : Fin 128), s.live →
    (s.dev.arb.valid = true → s.dev.taskLives (s.dev.taskRec t) = true →
      (s.dev.arb.task t).fallDue (s.dev.taskRec t) s.dev.tn s.dev.arb.tempoLoss = true →
      (s.dev.arb.task t).falls + 1 ≠ (s.dev.taskRec t).limit →
      Runs (.flagFall t) s fun d => OnlyArb s.dev d ∧ (d.arb.entry s.dev.arb.logNext).cause = 0x02
        ∧ (d.arb.entry s.dev.arb.logNext).reaction = reactReport ∧ (d.arb.task t).falls = (s.dev.arb.task t).falls + 1
        ∧ d.arb.safe = s.dev.arb.safe ∧ d.arb.gateOpen = s.dev.arb.gateOpen) ∧
    ((s.dev.taskRec t).kind = 1 → (s.dev.job (s.dev.taskRec t).id).st ≠ .free → 0 < (s.dev.taskRec t).budget →
      (s.dev.arb.task t).armed = true →
      (s.dev.arb.task t).clockHold = false →
      (s.dev.arb.task t).etime0 + (s.dev.taskRec t).budget ≤ (s.dev.job (s.dev.taskRec t).id).etime →
      Runs (.taskClockExhausted t) s fun d => (d.arb.task t).clockHold = true ∧ (d.job (s.dev.taskRec t).id).clockHold = true
        ∧ d.tb = s.dev.tb)

/-- PAIR_MISMATCH, ADJUDICATION_DONE and DEGRADED_EXPIRY (R421). -/
def Obligations.Pairs : Prop :=
  ∀ (s : State) (p : Fin 5), s.live → s.dev.arb.valid = true →
    ((s.dev.arb.pair p).st = .normal → Runs (.pairMismatch p) s fun d => OnlyArb s.dev d ∧ (d.arb.pair p).st = .adjudicating
      ∧ (d.arb.entry s.dev.arb.logNext).cause = 0x0A) ∧
    ((s.dev.arb.pair p).st = .adjudicating →
      (∀ o, o = .replicaA ∨ o = .replicaB → Runs (.adjudicationDone p o) s fun d => OnlyArb s.dev d
        ∧ (d.arb.pair p).st = .degraded ∧ (d.arb.pair p).degradedMin = s.dev.dict.num 0x5020 0x01 ∧ (d.arb.pair p).degradedAt = s.dev.tn
        ∧ (d.arb.entry s.dev.arb.logNext).cause = 0x0B) ∧
      (Runs (.adjudicationDone p .both) s fun d => SafeReaction 0x0D s.dev d ∧ (d.arb.pair p).st = .removed) ∧
      ((s.dev.arb.pair p).transients = [] → Runs (.adjudicationDone p .transient) s fun d => OnlyArb s.dev d
        ∧ (d.arb.pair p).st = .normal ∧ (d.arb.entry s.dev.arb.logNext).cause = 0x0C)) ∧
    ((s.dev.arb.pair p).st = .degraded →
      (s.dev.arb.tempoLoss = true ∨ (s.dev.arb.pair p).degradedAt + (s.dev.arb.pair p).degradedMin * minuteTempos ≤ s.dev.tn →
        Runs (.degradedExpiry p) s fun d => SafeReaction 0x0D s.dev d ∧ (d.arb.pair p).st = .removed) ∧
      (s.dev.arb.tempoLoss = false → s.dev.tn < (s.dev.arb.pair p).degradedAt + (s.dev.arb.pair p).degradedMin * minuteTempos →
        Runs (.degradedExpiry p) s fun d => d = s.dev))

/-- LATENT_FAULT_TEST, LF_INTERVAL_EXCEEDED, ENGINE_SELF_TEST and TJ_REPORT. -/
def Obligations.SelfTests : Prop :=
  ∀ s : State, s.live →
    (∀ c, Runs (.latentFaultTest c true) s fun d => d = s.dev) ∧
    (s.dev.arb.valid = true → s.dev.dict.num 0x5000 0x01 ≠ 1 →
      (∀ p, Runs (.latentFaultTest (.display p) false) s fun d => SafeReaction 0x0E s.dev d) ∧
      (∀ n, Runs (.latentFaultTest (.monitor n) false) s fun d => SafeReaction 0x0E s.dev d)) ∧
    (s.dev.arb.valid = true → s.dev.dict.num 0x5000 0x01 = 1 → 24 ≤ s.dev.operatingHours →
      (s.dev.pwr.lfLogged = false → Runs .lfIntervalExceeded s fun d => (d.arb.entry s.dev.arb.logNext).cause = 0x10
        ∧ d = { s.dev with arb := d.arb, pwr := { s.dev.pwr with lfLogged := true }, fresh := d.fresh }) ∧
      (s.dev.pwr.lfLogged = true → Runs .lfIntervalExceeded s fun d => d = s.dev)) ∧
    (∀ e : Fin 32, (s.dev.engine e).suspect = true → (s.dev.engine e).bound = none →
      Runs (.engineSelfTest e true) s fun d => (d.engine e).suspect = false ∧ d = { s.dev with eng := d.eng }) ∧
    (s.dev.arb.valid = true → ∀ n : Fin 48, n.val < 32 → Runs (.tjReport n) s fun d =>
      (d.arb.entry s.dev.arb.logNext).cause = 0x07
      ∧ (∀ q, q ∈ quadsOf (n.val / 16) → (d.pwr.quad q).thermCeil = 0)
      ∧ d = { s.dev with arb := d.arb, pwr := d.pwr, fresh := d.fresh })

/-- TIME_START (R36). -/
def Obligations.TimeStarts : Prop :=
  ∀ (s : State) (stamp : Option Nat), s.live →
    (s.dev.tb.started = false → s.dev.pwr.good = true →
      Runs (.timeStart stamp) s fun d => d.tb.started = true
        ∧ (∀ t, stamp = some t → s.dev.portWaits = true → s.dev.fab.king = false → d.tb.dt = t % 2 ^ 64)
        ∧ (stamp = none ∨ s.dev.portWaits = false ∨ s.dev.fab.king = true → d.tb.dt = 0)
        ∧ d = { s.dev with tb := d.tb, pwr := d.pwr, fgw := d.fgw, fresh := d.fresh }) ∧
    (s.dev.tb.started = true → Runs (.timeStart stamp) s fun d => d.tb = s.dev.tb)

/-- TEMPO_BOUNDARY and ROUND_BOUNDARY (R34 to R36). -/
def Obligations.TempoAdvances : Prop :=
  ∀ (s : State) (env : TempoEnv) (renv : RoundEnv),
    (s.live → s.dev.tb.started = true → s.dev.tb.roundDue = false →
      Runs (.tempoBoundary env) s fun d => d.tb.started = true ∧ d.tb.dt = (s.dev.tn + 1) * 1000 ∧ d.tn = s.dev.tn + 1
        ∧ d.tb.roundDue = ((s.dev.tn + 1) % 1000 == 0)) ∧
    (s.dev.pwr.held = true → s.dev.tb.started = true →
      Runs (.tempoBoundary env) s fun d => d.tn = s.dev.tn + 1 ∧ d = { s.dev with tb := d.tb, arb := d.arb }) ∧
    (s.live → s.dev.tb.roundDue = true →
      Runs (.roundBoundary renv) s fun d => d.tb.roundDue = false ∧ d.tb.dt = s.dev.tb.dt) ∧
    (s.live → s.dev.tb.started = false → Runs (.tempoBoundary env) s fun d => d = s.dev)

/-- DT never decreases and is never loaded once it has started (R34, R36). -/
def Obligations.DtNeverBack : Prop :=
  ∀ (c : Instr) (s t : State), s.dev.tb.started = true → (∀ x b, c ≠ .powerOnReset x b) → exec c s = .next t →
    t.dev.tb.started = true ∧ (t.dev.tb.dt = s.dev.tb.dt ∨ t.dev.tb.dt = (s.dev.tn + 1) * 1000)

/-- SEAL, MOVE_LOADED, WITHDRAW and REVERT (R39, R40, R42, R44). -/
def Obligations.SealedMoves : Prop :=
  ∀ (s : State) (b : BlockId), s.live →
    (∀ g : Fin 32, s.dev.sealAllowed b g = true → Runs (.seal b g) s fun d =>
      (d.blk b).st = .loading ∧ (d.blk b).stage = (s.dev.blk b).opn ∧ (d.blk b).target = (s.dev.blk b).moveAt
      ∧ (d.blk b).eff = (s.dev.blk b).eff ∧ (d.blk b).opn = (s.dev.blk b).opn ∧ (d.blk b).group = g.val
      ∧ ((s.dev.blk b).pending = true → (d.blk b).superseded = true)
      ∧ d = { s.dev with moves := d.moves, fgw := d.fgw, mce := d.mce, noc := d.noc, out := d.out }
      ∧ (b ≠ .mceModel → b ≠ .mceCore → d = { s.dev with moves := d.moves, fgw := d.fgw })) ∧
    (s.dev.waitingFor b = [] →
      (b.rgnSet = none → (s.dev.blk b).st = .loading → Runs (.moveLoaded b) s fun d =>
        d = { s.dev.setBlk b (d.blk b) with pwr := d.pwr, out := d.out } ∧ (b ≠ .cru → d = s.dev.setBlk b (d.blk b))
        ∧ (d.blk b).eff = (s.dev.blk b).eff ∧ (d.blk b).opn = (s.dev.blk b).opn
        ∧ (if s.dev.moveValid b then (d.blk b).st = .ready else (d.blk b).st = .idle ∧ (d.blk b).refused = true)) ∧
      (Runs (.withdraw b) s fun d => d = s.dev.setBlk b { s.dev.blk b with st := .idle, group := 0 }) ∧
      (Runs (.revert b) s fun d => (d.blk b).opn = (s.dev.blk b).eff ∧ (d.blk b).eff = (s.dev.blk b).eff
        ∧ (d.blk b).st = .idle ∧ d = { s.dev with moves := d.moves, fgw := d.fgw }))

/-- What a boundary does to a move (R40, R41). -/
def Obligations.MoveRules : Prop :=
  ∀ (d : Device) (b : BlockId), (d.blk b).group = 0 →
    (d.moveAct b = .apply ↔ (d.blk b).st = .ready ∧ (d.blk b).due d.tn = true) ∧
    (d.moveAct b = .miss ↔ (d.blk b).st = .loading ∧ (d.blk b).due d.tn = true) ∧
    ((d.blk b).due d.tn = true ↔ (d.blk b).target = 0 ∨ (d.blk b).target ≤ d.tn) ∧
    (∀ n, ((d.blk b).miss n).eff = (d.blk b).eff ∧ ((d.blk b).miss n).st = (d.blk b).st ∧ ((d.blk b).miss n).missed = true
      ∧ ((d.blk b).miss n).missedN = n % 2 ^ 32) ∧
    ((d.blk b).apply.eff = (d.blk b).stage ∧ (d.blk b).apply.st = .idle ∧ (d.blk b).apply.applied = true
      ∧ (d.blk b).apply.opn = (d.blk b).opn)

/-- CAL_DATE_READ (R61): the latched values outlive the ticks that follow. -/
def Obligations.CalDateLatches : Prop :=
  ∀ s : State, s.live →
    (Runs .calDateRead s fun d =>
      d = { s.dev with cal := { s.dev.cal with latch := d.cal.latch },
                       out := .read (tbBase + 0x80) s.dev.cal.now.dateWord.toNat :: s.dev.out }
      ∧ (tbReg 0x84).get d = s.dev.cal.now.timeWord.toNat ∧ (tbReg 0x88).get d = s.dev.cal.sub % 2 ^ 32
      ∧ (tbReg 0x84).get d.calTick = s.dev.cal.now.timeWord.toNat ∧ (tbReg 0x88).get d.calTick = s.dev.cal.sub % 2 ^ 32)

/-- CAL_SET and CALENDAR_TICK (R57, R58, R60). -/
def Obligations.CalendarRules : Prop :=
  (∀ s : State, s.live → Runs .calSet s fun d =>
    d = { s.dev with cal := d.cal } ∧ d.cal.now = s.dev.cal.now ∧ d.cal.sub = s.dev.cal.sub
    ∧ (if (DateTime.ofWords s.dev.cal.stagedDate s.dev.cal.stagedTime).valid
       then d.cal.pending = some (DateTime.ofWords s.dev.cal.stagedDate s.dev.cal.stagedTime) ∧ d.cal.err = s.dev.cal.err
       else d.cal.pending = s.dev.cal.pending ∧ d.cal.err = true)) ∧
  (∀ s : State, Runs .calendarTick s fun d =>
    (∀ c, s.dev.cal.pending = some c → d.cal.now = c ∧ d.cal.sub = 0 ∧ d.cal.pending = none ∧ d.cal.atEnd = false) ∧
    (s.dev.cal.pending = none → s.dev.cal.atEnd = true → d = s.dev) ∧
    (s.dev.cal.pending = none → s.dev.cal.atEnd = false → s.dev.cal.sub < 32767 →
      d = { s.dev with cal := { s.dev.cal with sub := s.dev.cal.sub + 1 } }) ∧
    (s.dev.cal.pending = none → s.dev.cal.atEnd = false → s.dev.cal.sub = 32767 → s.dev.cal.now ≠ DateTime.last →
      d = { s.dev with cal := { s.dev.cal with now := s.dev.cal.now.succ, sub := 0 } }) ∧
    (s.dev.cal.pending = none → s.dev.cal.atEnd = false → s.dev.cal.sub = 32767 → s.dev.cal.now = DateTime.last →
      d.cal.now = DateTime.last ∧ d.cal.sub = 0x7FFF ∧ d.cal.atEnd = true)) ∧
  (∀ y h m x : Nat, (⟨y, 2, 28, 23, 59, 59⟩ : DateTime).succ = (if isLeap y then ⟨y, 2, 29, 0, 0, 0⟩ else ⟨y, 3, 1, 0, 0, 0⟩)
    ∧ (m < 59 → (⟨y, 1, 1, h, m, 59⟩ : DateTime).succ = ⟨y, 1, 1, h, m + 1, 0⟩)
    ∧ (x < 59 → (⟨y, 12, 31, h, m, x⟩ : DateTime).succ = ⟨y, 12, 31, h, m, x + 1⟩)) ∧
  (isLeap 2000 = true ∧ isLeap 2400 = true ∧ isLeap 2100 = false ∧ isLeap 2300 = false)

/-- GPTP_MASTER_LOSS, GPTP_SYNC, CALENDAR_REWRITE and the offset (R51 to R55, R59). -/
def Obligations.ExternalTime : Prop :=
  (∀ s : State, s.live →
    (s.dev.tb.sync = .synced → Runs .gptpMasterLoss s fun d => d = { s.dev with tb := { s.dev.tb with sync := .holdover } }) ∧
    (s.dev.tb.sync = .none → Runs .gptpMasterLoss s fun d => d = s.dev) ∧
    (s.dev.tb.started = true → Runs .gptpSync s fun d => d = { s.dev with tb := { s.dev.tb with sync := .synced } }) ∧
    (let u := s.dev.utcView - (epoch2000 : Int) * 1000000000
     let c := DateTime.ofSeconds (u.toNat / 1000000000)
     s.dev.cal.sync = true → s.dev.tb.sync ≠ .none → 0 ≤ u → c.valid = true →
      Runs .calendarRewrite s fun d => d.cal.now = c ∧ d.cal.sub = u.toNat % 1000000000 * 32768 / 1000000000
        ∧ d = { s.dev with cal := d.cal })) ∧
  (∀ (t : TimeBase) (target : Int) (tn : Nat),
    ((target - t.offsetNow).natAbs ≤ 1000000 →
      (t.offsetMove target tn).1.offsetNow = t.offsetNow ∧ (t.offsetMove target tn).2 = false
      ∧ (target ≠ t.offsetNow → (t.offsetMove target tn).1.slewTo = some target)) ∧
    (1000000 < (target - t.offsetNow).natAbs →
      (t.offsetMove target tn).1.offsetNow = target ∧ (t.offsetMove target tn).1.stepSize = target - t.offsetNow
      ∧ (t.offsetMove target tn).1.stepTn = tn ∧ (t.offsetMove target tn).1.stepCount = (t.stepCount + 1) % 2 ^ 32
      ∧ (t.offsetMove target tn).1.slewTo = none ∧ (t.offsetMove target tn).2 = true))

/-- FIELD_CYCLE_BOUNDARY, FRAME_BOUNDARY and CHECKPOINT_BOUNDARY. -/
def Obligations.OtherBoundaries : Prop :=
  ∀ s : State, s.live →
    (∀ g : Fin 16, s.dev.cycleDue g = true → Runs (.fieldCycleBoundary g) s fun d =>
      (d.fgw.group g).cycles = ((s.dev.fgw.group g).cycles + 1) % 2 ^ 64 ∧ d.tb.dt = s.dev.tb.dt) ∧
    (∀ p : Fin 2, s.dev.frameDue p = true → Runs (.frameBoundary p) s fun d =>
      (d.gfx.pipe p).frame = ((s.dev.gfx.pipe p).frame + 1) % 2 ^ 64 ∧ d.tb.dt = s.dev.tb.dt) ∧
    (∀ j : Fin 64, s.dev.tb.started = true → (s.dev.job j).ckptOwed = true → (s.dev.job j).st = .running →
      (s.dev.job j).ckptAt ≤ s.dev.tn → Runs (.checkpointBoundary j) s fun d =>
      (d.job j).ckptOwed = false ∧ d.tb.dt = s.dev.tb.dt)

/-- ARBITER_VALID, STACK_TRAINED and READY_FOR_JOBS (R408, R466, R467). -/
def Obligations.BringUp : Prop :=
  ∀ s : State,
    (s.dev.pwr.good = true → s.dev.arb.valid = false → Runs .arbiterValid s fun d => d.arb.valid = true ∧ d.arb.safe = true
      ∧ d.arb.safeN = false ∧ d.arb.gateOpen = false ∧ d = { s.dev with arb := d.arb, pwr := d.pwr, fresh := d.fresh }) ∧
    (s.live → ∀ h : Fin 2, 2 ≤ s.dev.pwr.bringUp → s.dev.pwr.hs h ≠ .trained → s.dev.pwr.hs h ≠ .failed →
      (∀ x ∈ s.dev.sec.waiting, x.region.val / 64 ≠ h.val) →
      (Runs (.stackTrained h true) s fun d => d.pwr.hs h = .trained) ∧
      (s.dev.pwr.tries h = 2 → Runs (.stackTrained h false) s fun d => d.pwr.hs h = .failed ∧ d.mem = s.dev.mem)) ∧
    (s.live → s.dev.pwr.bringUp = 4 → s.dev.arb.xcheck = none →
      Runs .readyForJobs s fun d => d.pwr.bringUp = 5 ∧ d = { s.dev with pwr := d.pwr, fresh := d.fresh })

/-- POWER_ON_RESET, SYSTEM_RESET, SYSTEM_RESET_REQUEST and WATCHDOG_EXPIRY (R463). -/
def Obligations.Resets : Prop :=
  ∀ (s : State) (x : StrapSamples),
    (∀ b : SupplyLoss, Runs (.powerOnReset x b) s fun d => d.tb = TimeBase.init ∧ d.mem = [] ∧ d.jobs = [] ∧ d.eng = []
      ∧ d.dbg = Dbg.init ∧ d.arb.valid = false ∧ d.arb.safeN = false ∧ d.arb.gateOpen = false
      ∧ d.cal = (if b = .battery then Calendar.init else s.dev.cal)
      ∧ (∀ k, bitOf s.dev.sec.owners k = true → bitOf d.sec.owners k = true) ∧ d.sec.tamperCount = s.dev.sec.tamperCount
      ∧ d.dict.slots = s.dev.dict.slots ∧ d.pwr.straps = x.vote ∧ d.pwr.held = false
      ∧ (b = .none → d.arb.log = s.dev.arb.log ∧ d.arb.cycles = s.dev.arb.cycles)
      ∧ (b ≠ .none → d.arb.log = [] ∧ d.arb.cycles = 0)) ∧
    (s.live → s.dev.pwr.inSysReset = false →
      let after (cause : Nat) (pin : Bool) (d : Device) : Prop :=
        d.tb.dt = s.dev.tb.dt ∧ d.tb.started = s.dev.tb.started ∧ d.mem = [] ∧ d.jobs = [] ∧ d.rings = [] ∧ d.cal = s.dev.cal
        ∧ d.arb.log = s.dev.arb.log ∧ d.arb.gateOpen = false ∧ d.arb.safe = s.dev.arb.safe ∧ d.dbg.level = s.dev.dbg.level
        ∧ d.pwr.resetCause = Nat.lor s.dev.pwr.resetCause cause ∧ d.pwr.sysPinLow = pin ∧ d.pwr.inSysReset = true
      (Runs (.systemReset x) s fun d => after causeSysPin true d) ∧
      (Runs (.systemResetRequest x) s fun d => after causeRequest false d) ∧
      (Runs (.watchdogExpiry x) s fun d => after causeWatchdog false d))

/-- AVS_FAILURE, QUAD_POWER_ON, STACK_THROTTLE, CRYSTAL_STOP, KEEP_ALIVE_REQUEST and WAKE. -/
def Obligations.PowerEvents : Prop :=
  ∀ s : State,
    (s.live → (∀ rail : Fin 3, Runs (.avsFailure rail) s fun d => d.pwr.avsErr = true
        ∧ (rail.val < 2 → ∀ q ∈ quadsOf rail.val, (d.pwr.quad q).avsHold = true) ∧ d = { s.dev with pwr := d.pwr }) ∧
      (∀ q : Fin 8, (s.dev.pwr.quad q).powering = true → Runs (.quadPowerOn q) s fun d =>
        (d.pwr.quad q).powered = true ∧ (d.pwr.quad q).powering = false
        ∧ (∀ a, opSlabBase (4 * q.val) ≤ a → a < opSlabBase (4 * q.val + 4) → d.byte a = 0)
        ∧ (∀ a, a < opSlabBase (4 * q.val) ∨ opSlabBase (4 * q.val + 4) ≤ a → d.byte a = s.dev.byte a)) ∧
      (∀ (h : Fin 2) (t : Int), 1050 ≤ t → Runs (.stackThrottle h t) s fun d =>
        d.pwr.hsLimit h = 3 ∧ d.pwr.hsHeld h = true ∧ d = { s.dev with pwr := d.pwr }) ∧
      (Runs .crystalStop s fun d => d = { s.dev with cal := { s.dev.cal with sync := false },
                                                     pwr := { s.dev.pwr with crystalStopped := true } }) ∧
      (Runs .keepAliveRequest s fun d => d.pwr.supplyEn = false ∧ d.pwr.keepAlive = true
        ∧ (∀ p : Nat, p < 36 → (d.fgw.port p).st = .off) ∧ (∀ p : Nat, p < 2 → (d.gfx.pipe p).enable = false))) ∧
    (s.dev.pwr.keepAlive = true → Runs .wake s fun d =>
      d = { s.dev with pwr := { s.dev.pwr with supplyEn := true, wakeKept := true } })

/-- MMA, ATTN, SPMM, VPROG, CVT, COPY, REMOTE, GATHER, SCATTER, SEGRED, SORT, MERGE, TOPK, SETOP, HASHB and HASHP. -/
def Obligations.DataOps : Prop :=
  DataRuns .mma .mma (fun i v _ => runMma i.cmd (intPath i.ops) v) ∧
  DataRuns .attn .attn (fun i v _ => runAttn i.cmd (fmt2 i.ops 2 1 fun w x => pairPath w x == some true) v) ∧
  DataRuns .spmm .spmm (fun i v _ => runSpmm i.cmd (intPath i.ops) v) ∧
  DataRuns .vprog .vprog (fun i v rd => runVprog i.cmd (inSpace 3 0) rd v) ∧
  DataRuns .cvt .cvt (fun i v _ => runCvt i.cmd v) ∧
  DataRuns .copy .copy (fun _ v _ => runCopy v) ∧
  DataRuns .remote .remote (fun _ v _ => runCopy v) ∧
  DataRuns .gather .gather (fun i v _ => runGather i.cmd v) ∧
  DataRuns .scatter .scatter (fun i v _ => runScatter i.cmd v) ∧
  DataRuns .segred .segred (fun i v _ => runSegred i.cmd v) ∧
  DataRuns .sort .sort (fun i v _ => runSort i.cmd v) ∧
  DataRuns .merge .merge (fun i v _ => runMerge i.cmd v) ∧
  DataRuns .topk .topk (fun i v _ => runTopk i.cmd v) ∧
  DataRuns .setop .setop (fun i v _ => runSetop i.cmd v) ∧
  DataRuns .hashb .hashb (fun i v _ => runHashb i.cmd v) ∧
  DataRuns .hashp .hashp (fun i v _ => runHashp i.cmd v)

/-- WAIT, SIGNAL, NOP, PUBLISH, FENCE and CHECKPOINT (R113 to R118). -/
def Obligations.FrontEnd : Prop :=
  ∀ (s : State) (e : Fin 32) (w : Runner) (i : Issued), s.live → s.dev.runner e = some w →
    ((s.dev.engine e).pendingOp .wait = some i →
      (s.dev.waitHolds w i = true → Runs (.wait e) s fun d => CarriedOut s.dev d e i 0 none) ∧
      (s.dev.waitHolds w i = false → Runs (.wait e) s fun d => d = s.dev)) ∧
    ((s.dev.engine e).pendingOp .signal = some i → Runs (.signal e) s fun d => CarriedOut s.dev d e i 0 none) ∧
    ((s.dev.engine e).pendingOp .nop = some i → Runs (.nop e) s fun d => CarriedOut s.dev d e i 0 none) ∧
    ((s.dev.engine e).pendingOp .publish = some i →
      (s.dev.ring (i.cmd.p1 % 512)).enable = true →
      bits i.cmd.p1 31 16 ≤ (s.dev.ring (i.cmd.p1 % 512)).free →
      Runs (.publish e) s fun d => CarriedOut s.dev d e i 0 none) ∧
    ((s.dev.engine e).pendingOp .fence = some i →
      (bitOf i.cmd.p1 0 = true → i.ring ∉ s.dev.fab.badPutRings ∧ s.dev.fab.openPuts i.ring = false) →
      Runs (.fence e) s fun d => CarriedOut s.dev d e i 0 none) ∧
    ((s.dev.engine e).pendingOp .checkpoint = some i → i.cmd.p1 % 2 ^ 32 = (s.dev.job w.j).ckpt + 1 →
      (∀ p ∈ s.dev.fronts w.j, (s.dev.runner p.1).isSome = true ∧ ∃ y, p.2 = some y ∧ y.started = true ∧ y.op = .checkpoint
        ∧ y.cmd.p1 % 2 ^ 32 = i.cmd.p1 % 2 ^ 32) →
      Runs (.checkpoint e) s fun d => d = { s.dev with eng := d.eng } ∧
        (∀ p ∈ s.dev.fronts w.j, ((d.engine p.1).issued.head?.map Issued.done) = some true) ∧
        (∀ k, k ∉ (s.dev.fronts w.j).map Prod.fst → d.engine k = s.dev.engine k))

/-- COMMAND_ISSUE, BREAKPOINT_HIT and COMMAND_START (R93 to R95, R477). -/
def Obligations.IssueStart : Prop :=
  ∀ (s : State) (e : Fin 32), s.live →
    (∀ w n c, s.dev.nextCommand e = some (w, n, c) →
      let expected := (tget doneDef (s.dev.job w.j).doneSeq n + (s.dev.engine e).issued.length + 1) % 2 ^ 32
      (∀ a, s.dev.fetchRefused w n = some a → (s.dev.job w.j).release ≠ .delete → Runs (.commandIssue e) s fun d =>
        JobFaulted d w.j fcWorld w.l ∧ FaultRegs (d.engine e) fcWorld slotNone expected a true) ∧
      (s.dev.fetchRefused w n = none → (s.dev.engine e).step.isSome = true ∨ s.dev.dbg.hits w.j w.l c.seq = none →
        (∀ o ops, s.dev.issueCheck w.j c expected = .ok (o, ops) → Runs (.commandIssue e) s fun d =>
          d = { s.dev with eng := d.eng } ∧ (∀ k, k ≠ e.val → d.engine k = s.dev.engine k)
          ∧ (d.engine e).issueSeq = c.seq ∧ ∃ i : Issued, (d.engine e).issued = (s.dev.engine e).issued ++ [i]
          ∧ i.cmd = c ∧ i.op = o ∧ i.ops = ops ∧ i.ring = n ∧ i.started = false ∧ i.done = false) ∧
        (∀ code slot, s.dev.issueCheck w.j c expected = .error (code, slot) → (s.dev.job w.j).release ≠ .delete →
          Runs (.commandIssue e) s fun d => JobFaulted d w.j code w.l ∧ FaultRegs (d.engine e) code slot c.seq 0 true)) ∧
      (∀ b, (s.dev.engine e).step = none → s.dev.dbg.hits w.j w.l c.seq = some b → Runs (.breakpointHit e) s fun d =>
        d.dbg = { s.dev.dbg with hit := w.j + 64 * w.l + 2 ^ 31 } ∧ d = { s.dev with eng := d.eng, dbg := d.dbg }
        ∧ (bitOf (s.dev.dbg.bpWord b) 12 = false →
            d.engine e = (s.dev.engine e).halt ∧ ∀ k, k ≠ e.val → d.engine k = s.dev.engine k))) ∧
    (∀ w k i, s.dev.runner e = some w → (s.dev.engine e).issued.findIdx? (fun i => !i.started) = some k →
      (s.dev.engine e).issued[k]? = some i → (s.dev.job w.j).st = .running → s.dev.mayStart (s.dev.engine e) k i = true →
      (∀ x ∈ i.ops, s.dev.isRemote x.t = false) → Runs (.commandStart e) s fun d =>
        d = { s.dev with eng := d.eng, fresh := d.fresh } ∧ (∀ k, k ≠ e.val → d.engine k = s.dev.engine k)
        ∧ (d.engine e).issued = (s.dev.engine e).issued.map (fun x =>
            if x.cmd.seq = i.cmd.seq then { x with started := true, startTn := s.dev.tn, startDt := s.dev.stamp.1,
                                                   plain := s.dev.stamp.2.plainRanges w i.dests } else x)) ∧
    (∀ w k i, s.dev.runner e = some w → (s.dev.engine e).issued.findIdx? (fun i => !i.started) = some k →
      (s.dev.engine e).issued[k]? = some i → (s.dev.job w.j).st = .running → s.dev.mayStart (s.dev.engine e) k i = true →
      (∀ x ∈ i.ops, s.dev.isRemote x.t = true → s.dev.unreachable (x.t.addr / 2 ^ 40) = false) →
      (s.dev.remoteRing i = none → Runs (.commandStart e) s fun d => d = s.dev.begin w i) ∧
      (∀ dev ring n, s.dev.remoteRing i = some (dev, ring, n) → findProxy s.dev.fab.proxies dev ring = none →
        Runs (.commandStart e) s fun d => d = s.dev.askProxy dev ring w.world))

/-- COMMAND_COMMIT and WCB_DRAIN (R119, R174). -/
def Obligations.CommitDrain : Prop :=
  ∀ (s : State) (e : Fin 32), s.live →
    (∀ w i rest, s.dev.runner e = some w → (s.dev.engine e).issued = i :: rest → i.started = true → i.done = true →
      s.dev.ordered e i = true → (i.cmd.cr = true → s.dev.recordRefused w = none) → i.op ≠ .checkpoint →
      (i.op = .wait → i.cmd.p1 % 4 = 0 → s.dev.waitHolds w i = true) →
      (i.op = .publish → (s.dev.ring (i.cmd.p1 % 512)).publish (bits i.cmd.p1 31 16) ≠ none) →
      Runs (.commandCommit e) s fun d =>
        let plain (l : List Issued) : List Issued := l.map fun x => { x with clash := false }
        plain (d.engine e).issued = plain (rest.filter fun x => x.cmd.seq != i.cmd.seq)
        ∧ (∀ k, k ≠ e.val → plain (d.engine k).issued = plain (s.dev.engine k).issued)
        ∧ (i.clash = false → (∀ p ∈ s.dev.published i, ∀ k, k < 32 → k ≠ e.val → (s.dev.engine k).produces p.1 = false) →
            (d.engine e).issued = rest.filter (fun x => x.cmd.seq != i.cmd.seq)
            ∧ ∀ k, k ≠ e.val → (d.engine k).issued = (s.dev.engine k).issued)
        ∧ tget doneDef (d.job w.j).doneSeq i.ring = i.cmd.seq
        ∧ ((s.dev.ring i.ring).enable = true → 1 ≤ (s.dev.ring i.ring).fill → (∀ p ∈ i.ins, p.1 ≠ i.ring) →
            (∀ p ∈ s.dev.published i, p.1 ≠ i.ring) →
            (d.ring i.ring).head = (s.dev.ring i.ring).head.move (s.dev.ring i.ring).count 1)
        ∧ d.tb = s.dev.tb ∧ d.arb = s.dev.arb ∧ d.pwr = s.dev.pwr ∧ d.fgw = s.dev.fgw ∧ d.moves = s.dev.moves) ∧
    (∀ x rest, (s.dev.engine e).wcb = x :: rest →
      let may := s.dev.mayIssue (Port.engine e) && s.dev.reaches (Port.engine e).die (x.line * 64)
      (may = false → Runs (.wcbDrain e) s fun d => d = s.dev) ∧
      (may = true → Runs (.wcbDrain e) s fun d =>
        (∀ a, d.byte a = (x.byte a).getD (s.dev.byte a))
        ∧ d = { s.dev with mem := d.mem, eng := d.eng, noc := d.noc, fresh := d.fresh }
        ∧ (∀ k, k ≠ e.val → d.engine k = s.dev.engine k) ∧ (d.engine e).issued = (s.dev.engine e).issued
        ∧ ((s.dev.engine e).stq = [] → (d.engine e).wcb = rest)))

/-- COMMAND_FAULT, ATOMIC_OVERRUN, WAIT_TIMEOUT, and the faults of PUBLISH, FENCE and CHECKPOINT (R126, R211). -/
def Obligations.CommandFaults : Prop :=
  ∀ (s : State) (e : Fin 32) (w : Runner) (i : Issued), s.live → s.dev.runner e = some w → (s.dev.job w.j).st = .running →
    (s.dev.job w.j).release ≠ .delete →
    (∀ f : CmdFault, f.engine = e → (s.dev.engine e).issued[f.place]? = some i → i.started = true → i.done = false →
      faultAllowed i.op f.code = true →
      (Runs (.commandFault f []) s fun d => JobFaulted d w.j f.code w.l
        ∧ FaultRegs (d.engine e) f.code (f.slot % 16) i.cmd.seq f.addr false) ∧
      (∀ also : List CmdFault, Runs (.commandFault f also) s fun d => ∃ x ∈ (f :: also).filterMap s.dev.faultOf,
        x.w.j = w.j ∧ JobFaulted d w.j x.code x.w.l
        ∧ ∀ y ∈ (f :: also).filterMap s.dev.faultOf, y.w.j = w.j → x.w.l ≤ y.w.l)) ∧
    ((s.dev.engine e).issued.find? (fun i => i.started && i.cmd.atomic && decide (i.startTn + 8 ≤ s.dev.tn)) = some i →
      Runs (.atomicOverrun e) s fun d => JobFaulted d w.j fcAtomicOverrun w.l
        ∧ FaultRegs (d.engine e) fcAtomicOverrun slotNone i.cmd.seq 0 false) ∧
    ((s.dev.engine e).issued.find? (fun i => i.started && !i.done && i.op == .wait) = some i → i.cmd.p2 % 2 ^ 32 ≠ 0 →
      i.startTn + i.cmd.p2 % 2 ^ 32 ≤ s.dev.tn → s.dev.waitHolds w i = false →
      Runs (.waitTimeout e) s fun d => JobFaulted d w.j fcWaitTimeout w.l
        ∧ FaultRegs (d.engine e) fcWaitTimeout slotNone i.cmd.seq 0 false) ∧
    ((s.dev.engine e).pendingOp .publish = some i → (s.dev.ring (i.cmd.p1 % 512)).free < bits i.cmd.p1 31 16 →
      Runs (.publish e) s fun d => JobFaulted d w.j fcRing w.l ∧ FaultRegs (d.engine e) fcRing slotNone i.cmd.seq 0 false) ∧
    ((s.dev.engine e).pendingOp .fence = some i → bitOf i.cmd.p1 0 = true → i.ring ∈ s.dev.fab.badPutRings →
      Runs (.fence e) s fun d => JobFaulted d w.j fcRemoteFail w.l) ∧
    ((s.dev.engine e).pendingOp .checkpoint = some i → i.cmd.p1 % 2 ^ 32 ≠ (s.dev.job w.j).ckpt + 1 →
      Runs (.checkpoint e) s fun d => JobFaulted d w.j fcCkpt w.l)

/-- JOB_CREATE, JOB_SUSPEND, JOB_RESUME, JOB_RESTART and JOB_DELETE (R188, R189, R213 to R215). -/
def Obligations.JobControl : Prop :=
  (∀ (s : State) (r : JobReq), s.live → s.dev.pwr.bringUp = 5 → (∃ k : Fin 64, (s.dev.job k).taken = false) →
    let x := JobRec.ofBytes (s.dev.bytes r.addr 192)
    let y : Job := { Job.init with rc := x }
    let why := s.dev.createReason r.job r.addr r.secure x
    (why = 0 → Runs (.jobCreate r) s fun d =>
      (d.job r.job).nextSt = some .ready ∧ (d.job r.job).st = .free ∧ (d.job r.job).rc = x ∧ (d.job r.job).recAddr = r.addr
      ∧ (∀ n ∈ y.cmdRings ++ y.complRings, (d.ring n).jobOwn = true ∧ (d.ring n).job = r.job)
      ∧ (∀ n ∈ y.cmdRings, tget rptrDef (d.job r.job).openings n = (s.dev.ring n).head
          ∧ tget doneDef (d.job r.job).doneSeq n = (x.openSeq + 2 ^ 32 - 1) % 2 ^ 32)
      ∧ (∀ k, k ≠ r.job.val → d.job k = s.dev.job k) ∧ d.out = .dict 0 [] :: s.dev.out
      ∧ d = { s.dev with jobs := d.jobs, rings := d.rings, fab := d.fab, scrambles := d.scrambles, fresh := d.fresh, out := d.out }) ∧
    (why ≠ 0 → Runs (.jobCreate r) s fun d =>
      d = (s.dev.setJob r.job { s.dev.job r.job with createReason := why }).note (.dict abState []))) ∧
  (∀ (s : State) (r : JobReq), s.live →
    (s.dev.pwr.bringUp ≠ 5 → Runs (.jobCreate r) s fun d => d = s.dev.note (.dict abState [])) ∧
    (s.dev.pwr.bringUp = 5 → (∀ k, k < 64 → (s.dev.job k).taken = true) → Runs (.jobCreate r) s fun d =>
      d = (s.dev.exhausted 0x03).note (.dict abResource []))) ∧
  (∀ (s : State) (j : Fin 64), s.live →
    ((s.dev.job j).st = .running → Runs (.jobSuspend j) s fun d =>
      (d.job j).st = .takingBack ∧ (d.job j).hold = true ∧ (d.job j).release = .suspend ∧ (d.job j).held = (s.dev.job j).held
      ∧ (∀ e ∈ (s.dev.job j).held, (d.engine e).leaving = true) ∧ (∀ k, k ≠ j.val → d.job k = s.dev.job k)
      ∧ d.out = .dict 0 [] :: s.dev.out ∧ d.rings = s.dev.rings ∧ d.mem = s.dev.mem ∧ d.tb = s.dev.tb) ∧
    ((s.dev.job j).st ≠ .running → (s.dev.job j).st ≠ .free → (s.dev.job j).st ≠ .failed → Runs (.jobSuspend j) s fun d =>
      d = (s.dev.setJob j { s.dev.job j with hold := true }).note (.dict 0 [])) ∧
    ((s.dev.job j).st = .free ∨ (s.dev.job j).st = .failed → Runs (.jobSuspend j) s fun d => d = s.dev.note (.dict abState [])) ∧
    ((s.dev.job j).hold = true → Runs (.jobResume j) s fun d =>
      d = (s.dev.setJob j { s.dev.job j with hold := false }).note (.dict 0 [])) ∧
    ((s.dev.job j).hold = false → Runs (.jobResume j) s fun d => d = s.dev.note (.dict abState [])) ∧
    ((s.dev.job j).st ≠ .failed → Runs (.jobRestart j) s fun d => d = s.dev.note (.dict abState [])) ∧
    ((s.dev.job j).taken = false → Runs (.jobDelete j) s fun d => d = s.dev.note (.dict abState [])) ∧
    ((s.dev.job j).st = .failed → (s.dev.job j).nextSt = none → (s.dev.job j).release ≠ .delete → s.dev.openingsHeld j = true →
      Runs (.jobRestart j) s fun d =>
      (d.job j).nextSt = some .ready ∧ (d.job j).faults = [] ∧ (d.job j).restarts = ((s.dev.job j).restarts + 1) % 2 ^ 32
      ∧ (d.job j).ckpt = 0 ∧ (d.job j).stale = 0 ∧ (d.job j).st = .failed
      ∧ (∀ n ∈ (s.dev.job j).cmdRings, (d.ring n).head = tget rptrDef (s.dev.job j).openings n
          ∧ tget doneDef (d.job j).doneSeq n = ((s.dev.job j).rc.openSeq + 2 ^ 32 - 1) % 2 ^ 32)
      ∧ d.mem = s.dev.mem ∧ d.eng = s.dev.eng ∧ d.tb = s.dev.tb) ∧
    ((s.dev.job j).st ≠ .free → Runs (.jobDelete j) s fun d =>
      (d.job j).release = .delete ∧ (d.job j).nextSt = none
      ∧ (∀ n, (s.dev.ring n).jobOwn = true → (s.dev.ring n).job = j → (d.ring n).jobOwn = false)
      ∧ (∀ e ∈ (s.dev.job j).held, (d.engine e).issued = [] ∧ (d.engine e).leaving = true)
      ∧ (∀ k, k ≠ j.val → d.job k = s.dev.job k) ∧ d.tb = s.dev.tb ∧ d.mem = s.dev.mem))

/-- ENGINE_RELEASED, TEARDOWN_COMPLETE, IDLE_RELEASE, CAMERA_FRAME_DONE and TRIG_CLR (R196, R206 to R210, R213, R214). -/
def Obligations.ReleaseTriggers : Prop :=
  ∀ (s : State), s.live →
    (∀ (e : Fin 32) (bad : Option Nat) (j l : Nat), (s.dev.engine e).bound = some (j, l) → (s.dev.engine e).leaving = true →
      (s.dev.engine e).issued = [] →
      let n := (s.dev.job j).rc.saveRows * 512
      let area := (s.dev.job j).rc.saveArea + l * n
      let gone (d : Device) : Prop := (d.engine e).bound = none ∧ (d.engine e).leaving = false
        ∧ (d.job j).held = (s.dev.job j).held.filter (fun k => k != e.val)
        ∧ (∀ a, opSlabBase e ≤ a → a < opSlabBase e + 0x40_0000 → d.byte a = 0)
        ∧ (∀ k, k ≠ e.val → d.engine k = s.dev.engine k) ∧ (∀ k, k ≠ j → d.job k = s.dev.job k)
        ∧ d = { s.dev with mem := d.mem, scrambles := d.scrambles, eng := d.eng, jobs := d.jobs }
      ((s.dev.job j).release ≠ .suspend ∨ (s.dev.engine e).noSave = true ∨ (s.dev.job j).rc.saveRows = 0 →
        Runs (.engineReleased e bad) s fun d => gone d
        ∧ (∀ a, a < opSlabBase e ∨ opSlabBase e + 0x40_0000 ≤ a → d.byte a = s.dev.byte a)) ∧
      ((s.dev.job j).release = .suspend → (s.dev.engine e).noSave = false → 0 < (s.dev.job j).rc.saveRows →
        (area + n ≤ opSlabBase 0 → s.dev.saveRefused j e l true = none → Runs (.engineReleased e none) s fun d => gone d
          ∧ (∀ k, k < n → d.byte (area + k) = s.dev.byte (opSlabBase e + k))
          ∧ (∀ a, a < opSlabBase e ∨ opSlabBase e + 0x40_0000 ≤ a → a < area ∨ area + n ≤ a → d.byte a = s.dev.byte a)) ∧
        (∀ a, (s.dev.job j).st = .takingBack → Runs (.engineReleased e (some a)) s fun d => JobFaulted d j 0x82 l
          ∧ (d.engine e).bound = none ∧ ∀ a, opSlabBase e ≤ a → a < opSlabBase e + 0x40_0000 → d.byte a = 0))) ∧
    (∀ j : Fin 64, (s.dev.job j).st = .teardown → (s.dev.job j).release = .teardown → (s.dev.job j).held = [] →
      (s.dev.job j).nextSt = none →
      ((s.dev.job j).autoRestart = false ∨ (s.dev.job j).faultCode = 0x83 → Runs (.teardownComplete j) s fun d =>
        d = s.dev.setJob j { s.dev.job j with nextSt := some .failed, faultReason := 1, release := .none }) ∧
      ((s.dev.job j).autoRestart = true → (s.dev.job j).faultCode ≠ 0x83 → (s.dev.job j).parks ((s.dev.job j).faults.headD s.dev.tn) = true →
        Runs (.teardownComplete j) s fun d =>
          d = s.dev.setJob j { s.dev.job j with nextSt := some .failed, faultReason := 2, release := .none }) ∧
      ((s.dev.job j).autoRestart = true → (s.dev.job j).faultCode ≠ 0x83 → (s.dev.job j).parks ((s.dev.job j).faults.headD s.dev.tn) = false →
        s.dev.openingsHeld j = true → Runs (.teardownComplete j) s fun d => (d.job j).nextSt = some .ready
          ∧ (d.job j).faultReason = 0 ∧ (d.job j).restarts = ((s.dev.job j).restarts + 1) % 2 ^ 32
          ∧ ∀ n ∈ (s.dev.job j).cmdRings, (d.ring n).head = tget rptrDef (s.dev.job j).openings n)) ∧
    (∀ (j : Fin 64) (t : Nat), (s.dev.job j).idleSince = some t → s.dev.idleNow j = true → s.dev.jobHalted j = false →
      t + 100 ≤ s.dev.tn → Runs (.idleRelease j) s fun d =>
        (d.job j).st = .takingBack ∧ (d.job j).release = .suspend ∧ (d.job j).dormant = true
        ∧ (∀ e ∈ (s.dev.job j).held, (d.engine e).leaving = true) ∧ (∀ k, k ≠ j.val → d.job k = s.dev.job k)) ∧
    (∀ (rx : Fin 4) (vc : Fin 16), (s.dev.proc.watEntry (0x20 + rx)).moving = true → Runs (.cameraFrameDone rx vc) s fun d => d = s.dev) ∧
    (∀ (rx : Fin 4) (vc : Fin 16), (s.dev.proc.watEntry (0x20 + rx)).moving = false → Runs (.cameraFrameDone rx vc) s fun d =>
      d = { s.dev with jobs := d.jobs, out := .stamp (.camera rx vc) s.dev.stamp.1 :: s.dev.out, fresh := s.dev.fresh + 1 }
      ∧ ∀ (j t : Nat), t < 4 → (s.dev.job j).st ≠ .free → t < (s.dev.job j).trig.length →
        let w := (s.dev.job j).rc.trigCfg.getD t 0
        (d.job j).trig.getD t 0 = if w % 8 = 2 ∧ bits w 9 8 = rx ∧ bits w 13 10 = vc
          then min 255 ((s.dev.job j).trig.getD t 0 + 1) else (s.dev.job j).trig.getD t 0) ∧
    (∀ (j : Fin 64) (mask : Fin 16), Runs (.trigClr j mask) s fun d =>
      let new := (List.range 4).map fun t => if bitOf mask t then 0 else (s.dev.job j).trig.getD t 0
      d = s.dev.setJob j { s.dev.job j with trig := new })

/-- RING_ADVANCE, RING_PUBLISH, RING_RESET, RING_SET, RING_ENABLE and RING_DISABLE (R165 to R170, R496). -/
def Obligations.RingMoves : Prop :=
  ∀ (s : State) (r : Fin 512), s.live →
    let g := s.dev.ring r
    let only (d : Device) : Prop := d = { s.dev with rings := d.rings, jobs := d.jobs, fab := d.fab, out := d.out, fresh := d.fresh }
      ∧ ∀ k, k ≠ r.val → d.ring k = s.dev.ring k
    let alone : Prop := ∀ e, e < 32 → (s.dev.engine e).produces r = false
    (∀ n : BitVec 24, Runs (.ringAdvance r n) s fun d => only d ∧
      d.ring r = if g.enable = true ∧ n.toNat ≤ g.fill then { g with head := g.head.move g.count n.toNat } else { g with err := true }) ∧
    (∀ n : BitVec 24, Runs (.ringPublish r n) s fun d => (alone → only d) ∧
      only { d with eng := s.dev.eng, scrambles := s.dev.scrambles } ∧
      d.ring r = if g.enable = true ∧ n.toNat ≤ g.free then { g with tail := g.tail.move g.count n.toNat } else { g with err := true }) ∧
    (Runs (.ringReset r) s fun d => only d ∧
      d.ring r = if g.enable = true ∧ s.dev.ringNamed r = false then { g with head := g.tail } else { g with err := true }) ∧
    (Runs (.ringSet r) s fun d => only d ∧
      d.ring r = if g.enable = true ∧ s.dev.ringNamed r = false ∧ g.setHead % 2 ^ 24 < g.count ∧ g.setTail % 2 ^ 24 < g.count
        then { g with head := .ofWord g.setHead, tail := .ofWord g.setTail } else { g with err := true }) ∧
    (∀ cfg : Word, g.enable = false → bitOf cfg.toNat 15 = true → Runs (.ringEnable r cfg) s fun d => only d ∧
      d.ring r = (if (g.withCfg cfg.toNat).geometryOk (r / 256)
        then { g.withCfg cfg.toNat with head := .zero, tail := .zero }
        else { g.withCfg cfg.toNat with enable := false, err := true })) ∧
    (∀ cfg : Word, g.enable = true → Runs (.ringEnable r cfg) s fun d => d.ring r = { g with err := true }
      ∧ only { d with dict := s.dev.dict }
      ∧ (bitOf cfg.toNat 15 = true → s.dev.ringsFull r = true → (d.dict.log.head?.map Event.code) = some evExhaustion)) ∧
    (∀ cfg : Word, g.enable = true → Runs (.ringDisable r cfg) s fun d => only { d with dict := s.dev.dict } ∧
      d.ring r = if g.withCfg cfg.toNat = { g with enable := false } ∧ g.jobOwn = false ∧ s.dev.ringNamed r = false
        then { g with enable := false } else { g with err := true })

/-- SCRUB_READ, SOFT_REPAIR and SPARE_ROW_COPY (R177 to R181). -/
def Obligations.ScrubRepair : Prop :=
  ∀ (s : State), s.live →
    (∀ (h : Fin 2) (o : EccOutcome),
      let pos := if h = 0 then s.dev.stk.scrubPos0 else s.dev.stk.scrubPos1
      let last := if h = 0 then s.dev.stk.scrubTn0 else s.dev.stk.scrubTn1
      let corr (d : Device) : Nat := if h = 0 then d.stk.corr0 else d.stk.corr1
      let uncorr (d : Device) : Nat := if h = 0 then d.stk.uncorr0 else d.stk.uncorr1
      (s.dev.tb.started = true → s.dev.pwr.hs h = .trained → last + s.dev.scrubInterval ≤ s.dev.tn →
        Runs (.scrubRead h o) s fun d =>
          (if h = 0 then d.stk.scrubPos0 else d.stk.scrubPos1) = (if pos + 1 = burstCount then 0 else pos + 1)
          ∧ (if h = 0 then d.stk.scrubTn0 else d.stk.scrubTn1) = s.dev.tn
          ∧ corr d = (if o = .corrected then (corr s.dev + 1) % 2 ^ 64 else corr s.dev)
          ∧ uncorr d = (if o = .uncorrectable ∨ o = .tagMismatch then (uncorr s.dev + 1) % 2 ^ 64 else uncorr s.dev)
          ∧ (d.noc.counter (stackBase h + 0x2000 + 8 * classMG)).val
              = ((s.dev.noc.counter (stackBase h + 0x2000 + 8 * classMG)).val + 64) % 2 ^ 64
          ∧ d = { s.dev with stk := d.stk, dict := d.dict, noc := d.noc, fresh := d.fresh, out := d.out }) ∧
      (s.dev.tn < last + s.dev.scrubInterval → Runs (.scrubRead h o) s fun d => d = s.dev)) ∧
    (∀ (h : Fin 2) (row : Nat) (ok res : Bool), s.dev.needsRepair h row = true → s.dev.pwr.hs h = .trained →
      Runs (.softRepair h row ok res) s fun d =>
        d.needsRepair h row = false ∧ d.mem = s.dev.mem
        ∧ (res = true → d.stk.repairs = ⟨h, row⟩ :: s.dev.stk.repairs ∧ d.stk.retiredPages = s.dev.stk.retiredPages
            ∧ (ok = true → d.scrambles = s.dev.scrambles)
            ∧ (∀ a, (∀ o ∈ stackRowBlocks h row, a < h * stackSize + o ∨ h * stackSize + o + 256 ≤ a) → d.byte a = s.dev.byte a))
        ∧ (res = false → (∀ p ∈ stackRowPages h row, h * stackSize / 4096 + p ∈ d.stk.retiredPages) ∧ d.stk.repairs = s.dev.stk.repairs
            ∧ d.scrambles = s.dev.scrambles)) ∧
    (∀ row : RowId, Runs (.spareRowCopy row) s fun d =>
      let new := s.dev.stk.remaps.map fun m => if m.row = row ∧ m.bad = false then { m with copied := true } else m
      d = { s.dev with stk := { s.dev.stk with remaps := new } })

/-- LATCH, COUNTER_LOW_READ, COUNTER_LOW_WRITE, COUNTER_HIGH_WRITE, COUNTER_WRITE_64 and ERR_LOG_CLEAR (R236 to R240). -/
def Obligations.LiveCounters : Prop :=
  (∀ (s : State), s.live → Runs .latch s fun d =>
    (∀ a, (d.noc.counter a).snap = (s.dev.noc.counter a).val ∧ (d.noc.counter a).val = (s.dev.noc.counter a).val)
    ∧ d.noc.snapTn = s.dev.tn % 2 ^ 63 + 2 ^ 63
    ∧ d = { s.dev with noc := { s.dev.noc with counters := d.noc.counters, snapTn := d.noc.snapTn } }) ∧
  (∀ (s : State) (p : Port) (k : Nat), s.live → p.port < portCount p.die → k < 9 →
    let a := portBase p + 0x40 + 8 * k
    let c := s.dev.noc.counter a
    let only (d : Device) : Prop := d = { s.dev with noc := { s.dev.noc with counters := d.noc.counters } }
      ∧ ∀ b, b ≠ a → d.noc.counter b = s.dev.noc.counter b
    (Runs (.counterLowRead a) s fun d => d.out = .read a (c.val % 2 ^ 32) :: s.dev.out
      ∧ (tget (fun _ => (0 : Word)) d.holds a).toNat = c.val / 2 ^ 32 % 2 ^ 32
      ∧ d = { s.dev with holds := d.holds, out := d.out }) ∧
    (∀ v : Word, Runs (.counterLowWrite a v) s fun d => only d ∧ d.noc.counter a = { c with staged := some v }) ∧
    (∀ (v : Word) (inc : Bool), Runs (.counterHighWrite a v inc) s fun d => only d
      ∧ (d.noc.counter a).staged = none ∧ (d.noc.counter a).lost = (c.lost || inc) ∧ (d.noc.counter a).snap = c.snap
      ∧ (d.noc.counter a).val = v.toNat * 2 ^ 32 + (match c.staged with | some l => l.toNat | none => c.val % 2 ^ 32)) ∧
    (∀ (v : DWord) (inc : Bool), Runs (.counterWrite64 a v inc) s fun d => only d
      ∧ d.noc.counter a = { c with val := v.toNat, staged := none, lost := c.lost || inc }) ∧
    (∀ n : Nat, ((s.dev.count a n).noc.counter a).val = (c.val + n) % 2 ^ 64
      ∧ (((s.dev.count a n).noc.counter a).ovf = true ↔ c.ovf = true ∨ 2 ^ 64 ≤ c.val + n)
      ∧ (s.dev.count a n).tb = s.dev.tb)) ∧
  (∀ (s : State) (die : Die), s.live → Runs (.errLogClear die) s fun d =>
    d = { s.dev with noc := d.noc } ∧ (d.noc.err die).valid = false ∧ (d.noc.err die).count = 0
    ∧ ∀ k, k ≠ die → d.noc.err k = s.dev.noc.err k)

/-- BUS_ACCESS, REQUEST_COMPLETE, LATE_REPLY, HELD_REQUEST_ISSUE, TAG_GRANT, DIE_LINK_REPLAY and DIE_LINK_DOWN. -/
def Obligations.Requests : Prop :=
  ∀ (s : State), s.live →
    (∀ r : BusReq, r.master ≠ Port.debug → r.master ≠ Port.toterlink → r.master.port < portCount r.master.die →
      1 ≤ r.len → r.len ≤ 64 →
      (s.dev.mayIssue r.master = false → Runs (.busAccess r) s fun d =>
        d = s.dev.modPort r.master fun p => { p with held := p.held ++ [r] }) ∧
      (∀ a : Nat, r.write = true → s.dev.mayIssue r.master = true → (s.dev.noc.port r.master).held = [] →
        s.dev.ctxOf r.master r.ctx (s.dev.who r).inst = none → s.dev.localOf r.global r.addr = some a →
        placeOf a = .sram → r.addr / 4096 = (r.addr + r.len - 1) / 4096 →
        let entered (resp : BusResp) (d : Device) : Prop :=
          ∃ x, (d.noc.port r.master).inflight = (s.dev.noc.port r.master).inflight.map (fun i =>
                if i.id = x.id then { i with resp := i.resp.join resp } else i) ++ [x]
              ∧ x.id = (s.dev.noc.port r.master).nextId + 1 ∧ x.resp = resp ∧ x.bytes = r.len ∧ x.level = s.dev.nextLevel r.master
        (s.dev.reaches r.master.die a = true → s.dev.sramWorld a = (s.dev.who r).secure → r.data.length = r.len →
          Runs (.busAccess r) s fun d =>
            (∀ k, k < r.len → d.byte (a + k) = r.data.getD k 0)
            ∧ (∀ b, b < a ∨ a + r.len ≤ b → d.byte b = s.dev.byte b)
            ∧ entered .ok d ∧ d = { s.dev with mem := d.mem, noc := d.noc }) ∧
        (s.dev.reaches r.master.die a = true → s.dev.sramWorld a ≠ (s.dev.who r).secure →
          Runs (.busAccess r) s fun d => entered .error d ∧ d = { s.dev with noc := d.noc }) ∧
        (s.dev.reaches r.master.die a = false → Runs (.busAccess r) s fun d => entered .lost d ∧ d = { s.dev with noc := d.noc }))) ∧
    (∀ (p : Port) (id ns : Nat) (i : Inflight), p ≠ Port.debug → p.port < portCount p.die →
      (s.dev.noc.port p).inflight.find? (fun i => i.id == id && !i.orphan) = some i → s.dev.awaitsRemote p id = false →
      s.dev.awaitsEmu p id = false → i.resp ≠ .lost → s.dev.stale i = false → Runs (.requestComplete p id ns) s fun d =>
        d.out = .bus p id i.resp :: s.dev.out
        ∧ (d.noc.port p).inflight = (s.dev.noc.port p).inflight.filter (fun x => x.id != i.id)
        ∧ (d.noc.port p).acc = (s.dev.noc.port p).acc - (s.dev.noc.port p).acc / 64 + ns
        ∧ (let c := byteCounter p i.write (levelClass i.level)
           (d.noc.counter c).val = ((s.dev.noc.counter c).val + i.bytes) % 2 ^ 64)
        ∧ (∀ t, i.tag = some t → t ∉ (d.noc.pool p.die).used)
        ∧ d = { s.dev with noc := d.noc, out := d.out }) ∧
    (∀ (die : Die) (tag ns p : Nat) (i : Inflight),
      (List.range (portCount die)).findSome? (fun p => ((s.dev.noc.port ⟨die, p⟩).inflight.find? fun i =>
        i.orphan && i.tag == some tag).map fun i => (p, i)) = some (p, i) →
      Runs (.lateReply die tag ns) s fun d => tag ∉ (d.noc.pool die).used ∧ d.out = s.dev.out
        ∧ (d.noc.port ⟨die, p⟩).inflight = (s.dev.noc.port ⟨die, p⟩).inflight.filter (fun x => x.id != i.id)
        ∧ d = { s.dev with noc := d.noc, proc := d.proc }) ∧
    (∀ (p : Port) (r : BusReq) (rest : List BusReq), (s.dev.noc.port p).held = r :: rest →
      (s.dev.mayIssue p = false → Runs (.heldRequestIssue p) s fun d => d = s.dev) ∧
      (s.dev.mayIssue p = true → Runs (.heldRequestIssue p) s fun d =>
        d = ((if rest = [] then s.dev.countHeld p else s.dev).modPort p fun x => { x with held := rest }).launch r)) ∧
    (∀ (die : Die) (p t : Nat) (r : BusReq) (rest : List BusReq), s.dev.nextWaiting die = some p →
      s.dev.poolTag die = some t → (s.dev.noc.port ⟨die, p⟩).stalled = r :: rest →
      let x := ((s.dev.modPort ⟨die, p⟩ fun s => { s with stalled := rest }).modPool die fun q => { q with lastPort := p }).issueBus r (some t)
      Runs (.tagGrant die) s fun d => d = if die = .hub then x.remoteGrant else x) ∧
    (∀ l : Fin 3, (s.dev.dieLink l).down = false →
      let down (n : Nat) (d : Device) : Prop := (d.dieLink l).down = true ∧ (d.dieLink l).replays = n
        ∧ ∃ x, x = { s.dev with noc := d.noc } ∧ SafeReaction 0x09 x d
      (Runs (.dieLinkReplay l true) s fun d =>
        d = s.dev.setLink l { s.dev.dieLink l with replays := ((s.dev.dieLink l).replays + 1) % 2 ^ 32, row := 0 }) ∧
      ((s.dev.dieLink l).row + 1 < 16 → Runs (.dieLinkReplay l false) s fun d =>
        d = s.dev.setLink l { s.dev.dieLink l with replays := ((s.dev.dieLink l).replays + 1) % 2 ^ 32, row := (s.dev.dieLink l).row + 1 }) ∧
      (s.dev.arb.valid = true → 16 ≤ (s.dev.dieLink l).row + 1 →
        Runs (.dieLinkReplay l false) s (down (((s.dev.dieLink l).replays + 1) % 2 ^ 32))) ∧
      (s.dev.arb.valid = true → Runs (.dieLinkDown l) s (down (s.dev.dieLink l).replays)))

/-- REGISTER_WRITE (R8 to R11, R25). -/
def Obligations.RegisterWrites : Prop :=
  (∀ (s : State) (r : RegReq), s.live → r.master ≠ Port.debug → r.master ≠ Port.toterlink → placeOf r.addr = .regs →
    r.wide = false →
    (s.dev.reaches r.master.die r.addr = false → Runs (.registerWrite r) s fun d => d = s.dev) ∧
    (s.dev.reaches r.master.die r.addr = true → r.addr % 4 ≠ 0 → Runs (.registerWrite r) s fun d => d = s.dev.note (.bus r.master 0 .error)) ∧
    (s.dev.reaches r.master.die r.addr = true → r.addr % 4 = 0 →
      (regOf s.dev (s.dev.regWho r) true r.addr = none → Runs (.registerWrite r) s fun d =>
        d = s.dev.note (.bus r.master 0 .error)) ∧
      (∀ g, regOf s.dev (s.dev.regWho r) true r.addr = some g → Runs (.registerWrite r) s fun d =>
        d = (g.put s.dev (r.value % 2 ^ 32) r.hwSet).note (.bus r.master 0 .ok)))) ∧
  (∀ (b : Bool) (v hw i : Nat), bitOf v i = true → w1c b v hw i = bitOf hw i) ∧
  (∀ (d : Device) (b : BlockId) (a mask v hw : Nat),
    ((Reg.sw b a mask).put d v hw).sw b a = d.sw b a
    ∧ ((Reg.sw b a mask).put d v hw).swOpen b a = Nat.land v mask % 2 ^ 32
    ∧ (∀ k, k ≠ b → b.key ≠ k.key → ((Reg.sw b a mask).put d v hw).blk k = d.blk k)) ∧
  (∀ (d : Device) (w : Who) (a : Nat), mirrorBase ≤ a → a < mirrorBase + 0x100_0000 → regOf d w true a = none) ∧
  (∀ (d : Device) (v hw : Nat), Reg.hole.get d = 0 ∧ Reg.hole.put d v hw = d)

/-- RC_READ (R12, with R10 and R11 beside it). -/
def Obligations.DebugReadKeeps : Prop :=
  ∀ (s : State) (a hw : Nat), s.live →
    let v := (tget (fun _ => (0 : Word)) s.dev.rcs a).toNat
    (Runs (.rcRead a true hw) s fun d => d.out = .read a v :: s.dev.out
      ∧ (tget (fun _ => (0 : Word)) d.rcs a).toNat = Nat.lor v hw % 2 ^ 32
      ∧ (∀ b, b ≠ a → tget (fun _ => (0 : Word)) d.rcs b = tget (fun _ => (0 : Word)) s.dev.rcs b)
      ∧ d = { s.dev with rcs := d.rcs, out := d.out }) ∧
    (Runs (.rcRead a true 0) s fun d => (tget (fun _ => (0 : Word)) d.rcs a).toNat = v) ∧
    (Runs (.rcRead a false hw) s fun d => d.out = .read a v :: s.dev.out
      ∧ (tget (fun _ => (0 : Word)) d.rcs a).toNat = hw % 2 ^ 32 ∧ d = { s.dev with rcs := d.rcs, out := d.out })

/-- LINK_TRAINING, HELLO, HANDSHAKE, HANDSHAKE_TIMEOUT, ATTESTATION_CHECK, REKEY, FLIT_RECEIVE, RETRY_REQ, RETRY_REQ_RESEND, HEARTBEAT,
LINK_DOWN, TIME and LINK_STATE. -/
def Obligations.FabricLinks : Prop :=
  ∀ (s : State) (p : Fin 8), s.live →
    let x := s.dev.fab.port p
    let refused (reason : Nat) (d : Device) : Prop := (d.fab.port p).st = .refused ∧ (d.fab.port p).refuse = reason
    let frame (d : Device) : Prop := d = { s.dev with fab := d.fab, out := d.out, fresh := d.fresh }
    (s.dev.linkEnabled p = true → x.st = .off ∨ x.st = .training →
      (x.tried = false →
        (Runs (.linkTraining p .x8) s fun d => d = s.dev.modLink p fun x => x.reset .hello) ∧
        (∀ high : Bool, s.dev.fab.version ≠ 1 → Runs (.linkTraining p (.x4 high)) s fun d =>
          d = s.dev.modLink p fun x => { x.reset .hello with x4 := true, x4High := high }) ∧
        (∀ high : Bool, s.dev.fab.version = 1 → Runs (.linkTraining p (.x4 high)) s fun d =>
          d = s.dev.modLink p fun x => { x.reset .training with tried := true }) ∧
        (Runs (.linkTraining p .none) s fun d => d = s.dev.modLink p fun x => { x.reset .training with tried := true })) ∧
      (∀ o : TrainOutcome, x.tried = true → Runs (.linkTraining p o) s fun d => d = s.dev)) ∧
    (∀ h : Hello, x.st = .hello →
      let v := min 2 h.vmax
      let fv := s.dev.fab.version
      (max 1 h.vmin ≤ v → (fv = 0 ∨ h.vmin ≤ fv ∧ fv ≤ h.vmax) →
        (h.profileHash = s.dev.profileHash → (v ≠ 1 ∨ x.x4 = false) → Runs (.hello p h) s fun d =>
          (d.fab.port p).st = .handshake ∧ (d.fab.port p).version = v ∧ (d.fab.port p).peerSerial = h.serial
          ∧ (d.fab.port p).hsAt = s.dev.tn ∧ frame d
          ∧ d.out = .share p (Config.linkShare (Config.random s.dev.fresh)) (leBytes 48 (Config.random s.dev.fresh)) :: s.dev.out) ∧
        (h.profileHash ≠ s.dev.profileHash → Runs (.hello p h) s fun d => refused 2 d ∧ d = { s.dev with fab := d.fab })) ∧
      (v < max 1 h.vmin ∨ fv ≠ 0 ∧ (fv < h.vmin ∨ h.vmax < fv) → Runs (.hello p h) s fun d =>
        refused 1 d ∧ d = { s.dev with fab := d.fab })) ∧
    (∀ m : HandshakeMsg, x.st = .handshake →
      (m.signed = true → Runs (.handshake p m) s fun d => (d.fab.port p).st = .attesting ∧ (d.fab.port p).keyed = true ∧ frame d) ∧
      (m.signed = false → Runs (.handshake p m) s fun d => refused 3 d ∧ frame d)) ∧
    (∀ m : HandshakeMsg, x.st = .active →
      (m.signed = true → Runs (.handshake p m) s fun d => (d.fab.port p).st = .active ∧ (d.fab.port p).rekeyAt = 0
        ∧ (d.fab.port p).keyed = true ∧ frame d) ∧
      (m.signed = false → Runs (.handshake p m) s fun d => refused 3 d ∧ frame d)) ∧
    (x.st = .handshake ∨ x.st = .active ∧ x.rekeyAt ≠ 0 →
      (x.hsAt + 20000 ≤ s.dev.tn → Runs (.handshakeTimeout p) s (refused 3)) ∧
      (s.dev.tn < x.hsAt + 20000 → Runs (.handshakeTimeout p) s fun d => d = s.dev)) ∧
    (∀ r : PartnerReport, x.st = .attesting →
      (r.signed = true → r.fresh = true → s.dev.policyMet r = true → r.accepts = true → Runs (.attestationCheck p r) s fun d =>
        (d.fab.port p).st = .active ∧ frame d) ∧
      (r.signed = false ∨ r.fresh = false ∨ s.dev.policyMet r = false ∨ r.accepts = false → Runs (.attestationCheck p r) s fun d =>
        refused 4 d ∧ d.out = .integrity x.peerSerial :: s.dev.out)) ∧
    (x.st = .active → (x.hsAt + 60000000 ≤ s.dev.tn ∨ 2 ^ 32 ≤ x.txBlocks + 1000000) → Runs (.rekey p) s fun d =>
      (d.fab.port p).rekeyAt = s.dev.tn + 1 ∧ (d.fab.port p).hsAt = s.dev.tn ∧ (d.fab.port p).st = .active
      ∧ frame d) ∧
    (x.st ≠ .off → x.st ≠ .training → x.st ≠ .refused →
      let gap : Device := if x.gap then s.dev else (s.dev.modLink p fun x => { x with gap := true }).note (.retryReq p x.rxSeq)
      (∀ f : Flit, f.good = false → Runs (.flitReceive p f) s fun d => d = gap) ∧
      (∀ f : Flit, f.good = true → f.head.type = 1 ∨ f.head.type = 2 → f.head.seq ≠ x.rxSeq → Runs (.flitReceive p f) s fun d =>
        d = gap.settle p) ∧
      (∀ f : Flit, f.good = true → f.head.type = 1 ∨ f.head.type = 2 → f.head.seq = x.rxSeq → Runs (.flitReceive p f) s fun d =>
        d = ((s.dev.takeHeader p f.head).acceptFlit p f.head f.payload).settle p
        ∧ (f.head.type = 2 → x.rxKey = none → x.rxNext = none →
            (d.fab.port p).rxSeq = (x.rxSeq + 1) % 4096 ∧ (d.fab.port p).gap = false)) ∧
      (∀ f : Flit, f.good = true → f.head.type ≠ 1 → f.head.type ≠ 2 → x.gap = true → Runs (.flitReceive p f) s fun d =>
        d = s.dev.settle p) ∧
      (∀ seq : Nat, Runs (.retryReq p seq) s fun d => (d.fab.port p).replays = (x.replays + 1) % 2 ^ 64
        ∧ d.out = .resend p ((x.kept.dropWhile fun k => k.seq != seq % 4096).map KeptFlit.bytes) :: s.dev.out
        ∧ (d.fab.port p).kept = x.kept ∧ d = { s.dev with fab := d.fab, out := d.out }) ∧
      (Runs (.linkDown p) s fun d => (d.fab.port p).st = .training ∧ (d.fab.port p).queue = [] ∧ (d.fab.port p).kept = []
        ∧ (d.fab.port p).downs = (x.downs + b2n (x.st == .active)) % 2 ^ 32 ∧ frame d)) ∧
    (x.gap = true → Runs (.retryReqResend p) s fun d => d = s.dev.note (.retryReq p x.rxSeq)) ∧
    (x.gap = false → Runs (.retryReqResend p) s fun d => d = s.dev) ∧
    (x.st = .active → Runs (.heartbeat p) s fun d => d = s.dev.modLink p fun x => { x with hbSeen := true }) ∧
    (∀ stamp : Nat, x.st ≠ .off →
      (s.dev.tb.started = false → s.dev.pwr.good = true → s.dev.portWaits = true → s.dev.fab.king = false →
        Runs (.time p stamp) s fun d => d.tb.started = true ∧ d.tb.dt = stamp % 2 ^ 64) ∧
      (s.dev.tb.started = true → Runs (.time p stamp) s fun d =>
        d = { s.dev with tb := { s.dev.tb with fabricPpm := d.tb.fabricPpm, inStep := d.tb.inStep }, fresh := d.fresh }
        ∧ d.tb.fabricPpm.natAbs ≤ max 200 s.dev.tb.fabricPpm.natAbs)) ∧
    (∀ m : FMsg, x.st = .active →
      let up := m.arg % 2 == 1
      let ls := linksAfter s.dev.fab.links m.linkOf up
      (ls ≠ s.dev.fab.links → (up = false ∨ m.linkOf.flip ∉ s.dev.fab.links) → Runs (.linkState p m) s fun d =>
        d.fab.links = ls ∧ frame d) ∧
      (ls = s.dev.fab.links ∨ up = true ∧ m.linkOf.flip ∈ s.dev.fab.links → Runs (.linkState p m) s fun d => d = s.dev))

/-- ELECT, ELECTION_END, JOIN, ID_ASSIGN, CONFIG, CONFIG_ACK, COMMIT, PART_DECISION and RELEASE_ID. -/
def Obligations.Membership : Prop :=
  (∀ s : State, s.live →
    let f := s.dev.fab
    (∀ (p : Fin 8) (m : FMsg),
      let c := field m.data 0 8
      (f.st = .discovering → f.electing = true → better (s.dev.dict.num 0x2100 2) c f.candidate = true → Runs (.elect p m) s fun d =>
        d = { s.dev with fab := { f with candidate := c, parent := some p.val, stable := 0 } }) ∧
      (better (s.dev.dict.num 0x2100 2) c f.candidate = false → Runs (.elect p m) s fun d => d = s.dev) ∧
      (s.dev.linkActive p = true →
        (f.king = true → Runs (.join p m) s fun d =>
          d = { s.dev with fab := { f with joins := (f.joins.filter fun x => x.serial != (Hello.ofBytes m.data).serial) ++ [Hello.ofBytes m.data] } }) ∧
        (∀ q, f.king = false → f.parent = some q → Runs (.join p m) s fun d => d = s.dev.tx q m))) ∧
    (f.electing = true → 64 ≤ f.stable →
      (f.candidate = ownSerial → Runs .electionEnd s fun d =>
        d = { s.dev with fab := { f with electing := false, electedAt := s.dev.tn, king := true, kingSerial := ownSerial } }) ∧
      (∀ q, f.candidate ≠ ownSerial → f.parent = some q → Runs .electionEnd s fun d => d.fab.electing = false
        ∧ d.fab.kingSerial = f.candidate ∧ d.fab.king = f.king ∧ d = { s.dev with fab := d.fab, out := d.out, fresh := d.fresh })) ∧
    (f.stable < 64 → Runs .electionEnd s fun d => d = s.dev) ∧
    (f.king = true → f.electing = false → f.electedAt + 16 ≤ s.dev.tn → ((f.stableConfig = none ∧ f.pending = none) ∨ f.joins ≠ []) →
      Runs .idAssign s fun d => d.fab.joins = [] ∧ d.tb = s.dev.tb ∧ d.mem = s.dev.mem ∧ ∃ c : FabConfig,
        (d.fab.pending = some c ∨ d.fab.pending = none ∧ d.fab.stableConfig = some c ∧ c ∈ d.fab.dueConfigs)
        ∧ c.applyTn = (s.dev.tn / 1000 + 1) * 1000 ∧ c.membership = true
        ∧ c.gen = (max f.cfgGen ((f.pending.map FabConfig.gen).getD 0) + 1) % 2 ^ 32) ∧
    (∀ c : FabConfig,
      (f.king = false → f.st ≠ .alone → f.newer c = true → Runs (.config c) s fun d => d.fab.pending = some c
        ∧ d.fab.config = f.config ∧ d.fab.stableConfig = f.stableConfig
        ∧ d = { s.dev with fab := d.fab, out := d.out, fresh := d.fresh }) ∧
      (f.king = true ∨ f.st = .alone ∨ f.newer c = false → Runs (.config c) s fun d => d = s.dev)) ∧
    (∀ m : FMsg, f.king = false → Runs (.configAck m) s fun d => d = s.dev.toKing m.dst m) ∧
    (∀ (c : FabConfig) (m : FMsg), f.pending = some c →
      (f.king = true → m.arg = c.gen % 2 ^ 16 →
        let acks := if f.acks.contains m.src then f.acks else m.src :: f.acks
        ((∀ i ∈ c.activeIds, i ∈ f.part → i ∈ acks) → Runs (.configAck m) s fun d => d.fab.acks = acks ∧ d.fab.pending = none
          ∧ d.fab.stableConfig = some c ∧ d.fab.cfgGen = c.gen ∧ c ∈ d.fab.dueConfigs
          ∧ d = { s.dev with fab := d.fab, out := d.out, fresh := d.fresh }) ∧
        ((∃ i ∈ c.activeIds, i ∈ f.part ∧ i ∉ acks) → Runs (.configAck m) s fun d =>
          d = { s.dev with fab := { f with acks := acks } })) ∧
      (c.gen = m.addr % 2 ^ 32 → Runs (.commit m) s fun d => d = { s.dev with fab := f.commit c }) ∧
      (c.gen ≠ m.addr % 2 ^ 32 → Runs (.commit m) s fun d => d = s.dev)) ∧
    (∀ (c : FabConfig) (me : Nat), f.stableConfig = some c → f.id = some me →
      ((∀ g ∈ c :: f.pending.toList, partPass g f.part = true) → s.dev.othersPass me f.part = true →
        Runs .partDecision s fun d => d.fab.resignDue = false
        ∧ d.tb = s.dev.tb ∧ d.jobs = s.dev.jobs ∧ (c.king ∈ f.part → (d.fab.king = true ↔ me = c.king))) ∧
      ((∃ g ∈ c :: f.pending.toList, partPass g f.part = false) ∨ s.dev.othersPass me f.part = false →
        Runs .partDecision s fun d =>
          d = { s.dev with fab := { f with resignDue := f.st != .resigned }, fresh := s.dev.fresh + 1 })) ∧
    (∀ id : Nat, id < 32 →
      (f.king = true → (∃ m ∈ f.known, m.id = id ∧ m.active = false) → Runs (.releaseId id) s fun d => id ∈ d.fab.releases
        ∧ d.out = .dict 0 [] :: s.dev.out ∧ d = { s.dev with fab := { f with releases := d.fab.releases }, out := d.out }) ∧
      ((f.king = false ∨ ∀ m ∈ f.known, m.id = id → m.active = true) → Runs (.releaseId id) s fun d =>
        d = s.dev.note (.dict abState [])))) ∧
  (∀ (known : List Member) (batch : List Hello), (known.map Member.id).Nodup →
    ((assignIds known batch).1.map Member.id).Nodup ∧
    (∀ m ∈ known, ∃ n ∈ (assignIds known batch).1, n.serial = m.serial ∧ n.id = m.id))

/-- RD_REQ, RD_DATA, RD_ERR, REMOTE_READ_TIMEOUT, WR, WR_NACK, PUT_ACK and PUT_LOST (R264 to R268). -/
def Obligations.RemoteAccess : Prop :=
  ∀ (s : State) (m : FMsg), s.live →
    (s.dev.isOwn m.dst = false → (∀ o : EccOutcome, Runs (.rdReq ⟨m, o⟩) s fun d => d = s.dev.forward m) ∧ (Runs (.rdData m) s fun d => d = s.dev.forward m)
      ∧ (Runs (.rdErr m) s fun d => d = s.dev.forward m) ∧ (Runs (.wr m) s fun d => d = s.dev.forward m)
      ∧ (Runs (.wrNack m) s fun d => d = s.dev.forward m) ∧ (Runs (.putAck m) s fun d => d = s.dev.forward m)) ∧
    (s.dev.isOwn m.dst = true →
      (let a := m.addr % 2 ^ 40
       let n := 16 * m.len
       let takes := s.dev.takesFrom m.src && m.fits s.dev.fab.maxData
       (takes = true → s.dev.reaches .hub a = true → s.dev.remoteAllowed m.world false a n = true →
          Runs (.rdReq ⟨m, .clean⟩) s fun d => d = (s.dev.served Port.toterlink false a n).send { FMsg.plain .rdData s.dev.ownId m.src with
            level := m.level, tag := m.tag, gen := m.gen, addr := m.addr, len := m.len, data := s.dev.bytes a n } noRing) ∧
       (∀ o : EccOutcome,
         (takes = false → Runs (.rdReq ⟨m, o⟩) s fun d => d = s.dev.free16.2.sendErr m s.dev.free16.1) ∧
         (takes = true → s.dev.reaches .hub a = true → s.dev.remoteAllowed m.world false a n = false → Runs (.rdReq ⟨m, o⟩) s fun d =>
            d = (s.dev.logRemote m.world false a n).free16.2.sendErr m (s.dev.logRemote m.world false a n).free16.1) ∧
         (takes = true → s.dev.reaches .hub a = false → Runs (.rdReq ⟨m, o⟩) s fun d => d = s.dev))) ∧
      (s.dev.takesFrom m.src = false → (Runs (.rdData m) s fun d => d = s.dev) ∧ (Runs (.rdErr m) s fun d => d = s.dev)
        ∧ (Runs (.wrNack m) s fun d => d = s.dev) ∧ (Runs (.putAck m) s fun d => d = s.dev)) ∧
      (s.dev.takesFrom m.src = true → ∀ (r : RTag) (q : Port) (id : Nat), s.dev.fab.tag m.tag = some r → r.gen = m.gen → r.dst = m.src → r.orphan = false →
        r.origin = .bus q id → s.dev.fab.stalled = [] →
        (Runs (.rdData m) s fun d => d.fab.tag m.tag = none
          ∧ (d.noc.port q).inflight = (s.dev.noc.port q).inflight.map (fun i => if i.id = id then i.fill r.addr m.data else i)
          ∧ d = { s.dev with fab := d.fab, noc := d.noc }) ∧
        (m.tag ≠ queryTag → Runs (.rdErr m) s fun d => d.fab.tag m.tag = none
          ∧ (d.noc.port q).inflight = (s.dev.noc.port q).inflight.map (fun i => if i.id = id then { i with resp := .error } else i)
          ∧ (tget bridgeErrDef d.fab.errLog s.dev.fab.errNext).kind = 3
          ∧ (tget bridgeErrDef d.fab.errLog s.dev.fab.errNext).reason = m.arg
          ∧ d = { s.dev with fab := d.fab, noc := d.noc, out := .irqBridge :: s.dev.out, fresh := s.dev.fresh + 1 })) ∧
      (s.dev.takesFrom m.src = true → ∀ (r : RTag) (e q : Nat), s.dev.fab.tag m.tag = some r → r.gen = m.gen → r.dst = m.src → r.orphan = false →
        r.origin = .engine e q → r.instGen = (s.dev.proc.inst r.inst).gen → s.dev.fab.stalled = [] → Runs (.rdData m) s fun d =>
          d.engine e = (s.dev.engine e).modIssued q (fun i => { i with fetched := mwrite i.fetched r.addr m.data })
          ∧ d.fab.tag m.tag = none ∧ (∀ k, k ≠ e → d.engine k = s.dev.engine k) ∧ d = { s.dev with fab := d.fab, eng := d.eng }) ∧
      (s.dev.takesFrom m.src = true → (∀ r, s.dev.fab.tag m.tag = some r → r.gen ≠ m.gen ∨ r.dst ≠ m.src) → Runs (.rdData m) s fun d =>
        d = { s.dev with fab := { s.dev.fab with late := min (2 ^ 32 - 1) (s.dev.fab.late + 1) } }) ∧
      (let a := m.addr % 2 ^ 40
       let n := 16 * m.len
       let takes := s.dev.takesFrom m.src && m.fits s.dev.fab.maxData
       (takes = true → s.dev.reaches .hub a = true → s.dev.remoteAllowed m.world true a n = true → Runs (.wr m) s fun d =>
          (∀ k, k < n → d.byte (a + k) = (m.written (s.dev.bytes a n)).getD k 0)
          ∧ (∀ b, b < a ∨ a + n ≤ b → d.byte b = s.dev.byte b)
          ∧ tget natDef d.fab.landed m.src = (tget natDef s.dev.fab.landed m.src + 1) % 2 ^ 16
          ∧ d = { s.dev with mem := d.mem, noc := d.noc, fab := d.fab, out := d.out, fresh := d.fresh }) ∧
       (takes = false ∨ s.dev.reaches .hub a = true ∧ s.dev.remoteAllowed m.world true a n = false → Runs (.wr m) s fun d =>
          d = { s.dev with noc := d.noc, fab := d.fab, out := d.out, fresh := d.fresh } ∧ d.fab.landed = s.dev.fab.landed) ∧
       (takes = true → s.dev.reaches .hub a = false → Runs (.wr m) s fun d => d = s.dev)) ∧
      (s.dev.takesFrom m.src = true → ∀ q : Put, (s.dev.fab.putDst m.src).unacked.find? (fun q => q.num == m.tag) = some q → s.dev.fab.waiting = [] →
        Runs (.wrNack m) s fun d => (d.fab.putDst m.src).unacked = (s.dev.fab.putDst m.src).unacked.filter (fun q => q.num != m.tag)
          ∧ (q.ring ≠ noRing → q.ring ∈ d.fab.badPutRings)
          ∧ (tget bridgeErrDef d.fab.errLog s.dev.fab.errNext).kind = (if q.tail then 7 else 1)
          ∧ d = { s.dev with fab := d.fab, out := d.out, fresh := d.fresh }) ∧
      (s.dev.takesFrom m.src = true → s.dev.fab.waiting = [] → Runs (.putAck m) s fun d =>
        d.fab.putDst m.src = { s.dev.fab.putDst m.src with
                               unacked := (s.dev.fab.putDst m.src).unacked.drop ((m.arg + 2 ^ 16 - (s.dev.fab.putDst m.src).acked) % 2 ^ 16),
                               acked := m.arg % 2 ^ 16 }
        ∧ d = { s.dev with fab := d.fab })) ∧
    (∀ (t : Nat) (r : RTag), s.dev.fab.tag t = some r →
      (s.dev.tn < r.sentTn + 64 → Runs (.remoteReadTimeout t) s fun d => d = s.dev) ∧
      (r.sentTn + 64 ≤ s.dev.tn → s.dev.fab.stalled = [] →
        (r.orphan = true → Runs (.remoteReadTimeout t) s fun d => d = { s.dev with fab := s.dev.fab.freeRTag t }) ∧
        (∀ q id, r.orphan = false → r.origin = .bus q id → Runs (.remoteReadTimeout t) s fun d => d.fab.tag t = none
          ∧ (d.noc.port q).inflight = (s.dev.noc.port q).inflight.map (fun i => if i.id = id then { i with resp := .error } else i)
          ∧ (tget bridgeErrDef d.fab.errLog s.dev.fab.errNext).kind = 4))) ∧
    (∀ (dev num : Nat) (q : Put), (s.dev.fab.putDst dev).unacked.find? (fun q => q.num == num) = some q →
      (s.dev.tn < q.sentTn + 64 → Runs (.putLost dev num) s fun d => d = s.dev) ∧
      (q.sentTn + 64 ≤ s.dev.tn → s.dev.fab.waiting = [] → Runs (.putLost dev num) s fun d =>
        (d.fab.putDst dev).unacked = (s.dev.fab.putDst dev).unacked.filter (fun q => q.num != num)
        ∧ (q.ring ≠ noRing → q.ring ∈ d.fab.badPutRings)
        ∧ (tget bridgeErrDef d.fab.errLog s.dev.fab.errNext).kind = 2))

/-- TAIL_ADV, FABRIC_SIGNAL, RING_QUERY, RING_STATE, HEAD_UPD and MGMT. -/
def Obligations.RemoteRings : Prop :=
  ∀ (s : State) (m : FMsg), s.live →
    (s.dev.isOwn m.dst = false → (Runs (.tailAdv m) s fun d => d = s.dev.forward m) ∧ (Runs (.fabricSignal m) s fun d => d = s.dev.forward m)
      ∧ (Runs (.ringQuery m) s fun d => d = s.dev.forward m) ∧ (Runs (.ringState m) s fun d => d = s.dev.forward m)
      ∧ (Runs (.headUpd m) s fun d => d = s.dev.forward m)) ∧
    (s.dev.isOwn m.dst = true →
      (let n := m.addr % 512
       let g := s.dev.ring n
       (s.dev.takesFrom m.src = true → s.dev.bound n m.src = true → g.enable = true → m.arg ≤ g.free → Runs (.tailAdv m) s fun d =>
          d.ring n = { g with tail := g.tail.move g.count m.arg } ∧ (∀ k, k ≠ n → d.ring k = s.dev.ring k)
          ∧ tget natDef d.fab.landed m.src = (tget natDef s.dev.fab.landed m.src + 1) % 2 ^ 16 ∧ d.mem = s.dev.mem) ∧
       (s.dev.takesFrom m.src = false ∨ s.dev.bound n m.src = false ∨ g.enable = false ∨ g.free < m.arg →
          Runs (.tailAdv m) s fun d => d = { s.dev with fab := d.fab, out := d.out, fresh := d.fresh }
            ∧ d.fab.landed = s.dev.fab.landed) ∧
       (s.dev.takesFrom m.src = true → s.dev.bound n m.src = true → Runs (.ringQuery m) s fun d =>
          d = s.dev.send { FMsg.plain .ringState s.dev.ownId m.src with
            addr := m.addr, len := 2,
            data := leBytes 8 g.head.word ++ leBytes 8 g.tail.word ++ leBytes 4 g.count ++ leBytes 4 g.entrySize ++ zeros 8 } noRing)) ∧
      (s.dev.takesFrom m.src = true → Runs (.fabricSignal m) s fun d => d = s.dev.triggerBy (trigNames 4 15 8 (m.arg % 256))
        ∧ d = { s.dev with jobs := d.jobs }) ∧
      (s.dev.takesFrom m.src = false → Runs (.fabricSignal m) s fun d => d = s.dev) ∧
      (s.dev.takesFrom m.src = false → (Runs (.ringState m) s fun d => d = s.dev) ∧ (Runs (.headUpd m) s fun d => d = s.dev)) ∧
      (s.dev.takesFrom m.src = true → ∀ q ∈ s.dev.fab.proxies, q.dev = m.src → q.ring = m.addr % 512 →
        (q.known = false → Runs (.ringState m) s fun d => d = { s.dev with fab := { s.dev.fab with proxies := d.fab.proxies } }
          ∧ ∃ r ∈ d.fab.proxies, r.dev = q.dev ∧ r.ring = q.ring ∧ r.known = true ∧ r.head = .ofWord (field m.data 0 8)
            ∧ r.tail = .ofWord (field m.data 8 8) ∧ r.count = field m.data 16 4 ∧ r.esize = field m.data 20 4) ∧
        (Runs (.headUpd m) s fun d => d = { s.dev with fab := { s.dev.fab with proxies := d.fab.proxies } }
          ∧ { q with head := RPtr.ofWord (field m.data 0 8) } ∈ d.fab.proxies))) ∧
    (s.dev.fab.id ≠ some m.dst → Runs (.mgmt m) s fun d => d = s.dev.forward m) ∧
    (s.dev.fab.id = some m.dst →
      (field m.data 0 2 = 1 → Runs (.mgmt m) s fun d =>
        let x := s.dev.partRead ⟨m.world, none, false, !s.dev.takesFrom m.src⟩ (PartReq.ofBytes m.data mgmtMax) mgmtMax
        let b := (m.data.drop 12).take 4 ++ leBytes 4 x.2.1 ++ leBytes 2 x.2.2.length ++ zeros 6 ++ x.2.2
        d = x.1.send { FMsg.plain .mgmt m.dst m.src with world := m.world, len := units b.length, data := b } noRing) ∧
      (field m.data 0 2 ≠ 1 → field m.data 0 2 ≠ 2 → Runs (.mgmt m) s fun d => d = s.dev.note (.notice m.src m.data)))

/-- BRICK_FETCH, FIELD_RESET, BATCH_FETCH, VERDICT_RECORD, WAVEFRONT_START, WAVEFRONT_DONE, WAVE_ABORT and RAY_CYCLE. -/
def Obligations.MotionChecks : Prop :=
  ∀ s : State, s.live →
    let m := s.dev.mce
    (∀ n, s.dev.bricksValid = true → s.dev.ringReg (s.dev.mceSw 0x70) = some n → (s.dev.ring n).entrySize = 1088 →
      m.bricks.length < (s.dev.ring n).fill →
      let a := (s.dev.ring n).entryAddr (s.dev.ring n).head m.bricks.length
      (s.dev.reaches .hub a = true → Runs .brickFetch s fun d => ∃ b : Brick,
        d.mce = { m with bricks := m.bricks ++ [b] } ∧ b.ring = n ∧ b.fetchedAt = s.dev.tn
        ∧ b.total = ((s.dev.ring n).head.total + m.bricks.length) % 2 ^ 32
        ∧ (s.dev.hubMay .hub true false a 1088 = true → b = .ofEntry (s.dev.bytes a 1088) true s.dev.tn n b.total ∧ d.out = s.dev.out)
        ∧ (s.dev.hubMay .hub true false a 1088 = false → b.good = false ∧ d.out = .irqNoc 2 :: s.dev.out)
        ∧ d = { s.dev with mce := d.mce, noc := d.noc, out := d.out, fresh := d.fresh }) ∧
      (s.dev.reaches .hub a = false → Runs .brickFetch s fun d => d = s.dev)) ∧
    (Runs .fieldReset s fun d => d = { s.dev with mce := { m with resetDue := true } }) ∧
    (∀ b : BatchSel, m.sel = some b →
      let frame (d : Device) : Prop := d = { s.dev with mce := d.mce, noc := d.noc, out := d.out, fresh := d.fresh }
      let refused (code : Nat) (d : Device) : Prop := d.mce.sel = none ∧ d.mce.taken = m.taken ∧ d.mce.batchErr % 256 = code ∧ frame d
      (s.dev.reaches .hub b.addr = false → ∀ err : Bool, Runs (.batchFetch err) s fun d => d = s.dev) ∧
      (s.dev.reaches .hub b.addr = true →
        (65536 < b.len → ∀ err : Bool, Runs (.batchFetch err) s (refused 2)) ∧
        (b.len ≤ 65536 → Runs (.batchFetch true) s (refused 8)) ∧
        (b.len ≤ 65536 → s.dev.batchMay b.addr b.len = false → Runs (.batchFetch false) s fun d => refused 8 d
          ∧ d.out = .irqNoc 2 :: s.dev.out) ∧
        (∀ md, b.len ≤ 65536 → s.dev.batchMay b.addr b.len = true → m.model = some md →
          let bytes := s.dev.bytes b.addr b.len
          let code := batchCode md bytes b.len s.dev.tn m.planA
          let via := (s.dev.served Port.mce false b.addr b.len).noc
          (code = 0 → Runs (.batchFetch false) s fun d =>
            d.mce = { m with sel := none, taken := m.taken ++ [⟨bytes, b.repair, s.dev.tn, 0⟩] }
            ∧ (d.noc.counter (mceBase + 0x160)).val = ((via.counter (mceBase + 0x160)).val + 1) % 2 ^ 64 ∧ frame d) ∧
          (code ≠ 0 → Runs (.batchFetch false) s fun d =>
            d.mce = { m with sel := none, batchErr := code + 256 * (batchSeq bytes % 2 ^ 24) }
            ∧ (d.noc.counter (mceBase + 0x168)).val = ((via.counter (mceBase + 0x168)).val + 1) % 2 ^ 64 ∧ frame d)))) ∧
    (∀ (r : Verdict) (ok : Bool), m.out = some r → Runs (.verdictRecord ok) s fun d => d.mce.out = none ∧ d.mce.last = r.bytes
      ∧ d.arb.recs = (⟨ok, r.mode⟩ :: s.dev.arb.recs).take 16 ∧ d.arb.safe = s.dev.arb.safe ∧ d.arb.gateOpen = s.dev.arb.gateOpen
      ∧ (if ok then d.fgw = { s.dev.fgw with verdict := some ⟨r.tn, r.mode, r.batch, r.feasible, r.degraded⟩ } else d.fgw = s.dev.fgw)
      ∧ d.tb = s.dev.tb ∧ d.moves = s.dev.moves) ∧
    (m.enable = true → m.wave = none → s.dev.mceSw 0x8C % 2 ^ 10 ≤ m.nofeas → Runs .wavefrontStart s fun d =>
      ∃ w, d.mce = { m with wave := some w } ∧ w.epoch = m.epoch ∧ w.startTn = s.dev.tn
      ∧ d = { s.dev with mce := d.mce, fresh := d.fresh }) ∧
    (m.nofeas < s.dev.mceSw 0x8C % 2 ^ 10 → Runs .wavefrontStart s fun d => d = s.dev) ∧
    (∀ w, m.wave = some w → Runs .wavefrontDone s fun d => d.mce.wave = none ∧ (∃ path, d.mce.waveResult = waveBytes s.dev.tn w.epoch m.epoch path)
      ∧ (m.out = none → d.mce.waveDone = true) ∧ (∀ r, m.out = some r → d.mce.out = some { r with waveDone := true, waveRunning := false })
      ∧ d = { s.dev with mce := d.mce }) ∧
    (Runs .waveAbort s fun d => d = { s.dev with mce := { m with wave := none } }) ∧
    (∀ md b r, m.rayDue = true → m.model = some md → s.dev.liveBatch = some b → m.out = some r → r.mode = modeRayPending →
      Runs .rayCycle s fun d => d.mce.rayDue = false ∧ (∃ v, d.mce.out = some v ∧ v.mode = modeRay ∧ v.tn = r.tn ∧ v.batch = r.batch)
        ∧ d = { s.dev with mce := d.mce, fresh := d.fresh }) ∧
    (m.rayDue = false → Runs .rayCycle s fun d => d = s.dev)

/-- RENDER_PASS, PASS_COMPLETE, RTU_QUERY, RTU_ANSWER, PIPE_ENABLE, UNDERFLOW and REGION_CRC_REPORT. -/
def Obligations.GraphicsDisplay : Prop :=
  ∀ s : State, s.live →
    (∀ n, s.dev.gfx.pass = none → (s.dev.proc.watEntry gpxUnit).moving = false →
      s.dev.ringReg (s.dev.reg (gpxBase + 8)) = some n → 1 ≤ (s.dev.ring n).fill →
      let g := s.dev.ring n
      let p := Pass.ofBytes (s.dev.bytes (g.entryAddr g.head 0) 128)
      let code := p.code (s.dev.reg (gpxBase + 0x28)) s.dev.passAddrOk
      (code = 0 → ∀ cuts : List Nat, Runs (.renderPass cuts) s fun d => d.gfx.pass = some (p, cuts.length)
        ∧ d.gfx.partials = cuts.length
        ∧ (∃ load, d.gfx.rows = p.rows s.dev.fresh (Config.primCount s.dev.fresh) load fun c => c.store)
        ∧ (d.ring n).head = g.head.move g.count 1 ∧ d.gfx.pipes = s.dev.gfx.pipes ∧ d.eng = s.dev.eng ∧ d.tb = s.dev.tb
        ∧ (cuts = [] → d.mem = s.dev.mem ∧ d.scrambles = s.dev.scrambles)) ∧
      (code ≠ 0 → ∀ cuts : List Nat, Runs (.renderPass cuts) s fun d => d.gfx = s.dev.gfx ∧ d.tb = s.dev.tb ∧ d.eng = s.dev.eng
        ∧ (s.dev.ringReg (s.dev.reg (gpxBase + 0xC)) = none → (d.ring n).head = g.head.move g.count 1 ∧ d.mem = s.dev.mem))) ∧
    (∀ p k, s.dev.gfx.pass = some (p, k) → Runs .passComplete s fun d =>
      d.gfx = { s.dev.gfx with pass := none, rows := [], partials := 0 } ∧ d.tb = s.dev.tb ∧ d.eng = s.dev.eng) ∧
    (∀ (bs : List Byte) (fromMce : Bool),
      (fromMce = false ∨ s.dev.sweepOf (field bs 48 2) = none → Runs (.rtuQuery bs fromMce) s fun d =>
        let q := RtuQuery.ofBytes bs fromMce (s.dev.meshBad (queryMesh bs) fromMce) (tget posesDef s.dev.gfx.poses (queryPose bs))
        d.gfx = { s.dev.gfx with queries := s.dev.gfx.queries ++ [q] } ∧ d = { s.dev with gfx := d.gfx, mce := d.mce }
        ∧ (fromMce = false → d.mce = s.dev.mce)) ∧
      (∀ md b c i k, s.dev.sweepOf (field bs 48 2) = some (md, b, c, i, k) → Runs (.rtuQuery bs true) s fun d =>
        let v := s.dev.sweepQuery md b c i k bs
        let q := RtuQuery.ofBytes v.1 true (s.dev.meshBad (queryMesh v.1) true) v.2
        d.gfx = { s.dev.gfx with poses := tput posesDef s.dev.gfx.poses (queryPose bs) v.2, queries := s.dev.gfx.queries ++ [q] }
        ∧ tget sweepDef d.mce.sweeps q.tag = .taken ∧ d = { s.dev with gfx := d.gfx, mce := d.mce })) ∧
    (∀ (tag : Nat) (q : RtuQuery), s.dev.gfx.queries.find? (fun q => q.tag == tag) = some q → Runs (.rtuAnswer tag) s fun d =>
      d.gfx = { s.dev.gfx with queries := s.dev.gfx.queries.erase q }
      ∧ (∃ pass dist, d.out = .rtu tag pass dist :: s.dev.out ∧ (q.bad = true → pass = false ∧ dist = negInf32)
          ∧ (dist = negInf32 ∨ fLt (of32 dist) (of32 q.thresh) = true))
      ∧ d = { s.dev with gfx := d.gfx, mce := d.mce, out := d.out, fresh := s.dev.fresh + 1 }) ∧
    (∀ p : Fin 2,
      let x := s.dev.gfx.pipe p
      (x.enable = false → s.dev.pipeTimingOk p = true → Runs (.pipeEnable p) s fun d =>
        d = { s.dev with gfx := s.dev.gfx.setPipe p { x with enable := true, frameTn := none } }) ∧
      (x.enable = false → s.dev.pipeTimingOk p = false → Runs (.pipeEnable p) s fun d =>
        d = { s.dev with gfx := s.dev.gfx.setPipe p { x with timingErr := true } }) ∧
      (x.enable = true → Runs (.pipeEnable p) s fun d => d = s.dev) ∧
      (∀ (plane : Fin 4) (line col : Nat), x.enable = true → x.frameTn ≠ none → plane.val < 3 → Runs (.underflow p plane line col) s fun d =>
        d.gfx = s.dev.gfx.setPipe p { x with underflow := true, late := ⟨plane, line, col⟩ :: x.late }
        ∧ (d.noc.counter (pipeBase p + 0x48)).val
            = ((s.dev.noc.counter (pipeBase p + 0x48)).val + b2n (!x.late.any fun l => l.line == line)) % 2 ^ 64
        ∧ d = { s.dev with gfx := d.gfx, noc := d.noc }) ∧
      (∀ k : Fin 16, x.enable = true → x.frameTn ≠ none → s.dev.regionOn p k = true → k.val ∉ x.reported →
        Runs (.regionCrcReport p k) s fun d =>
          (bitOf (d.gfx.pipe p).mismatch k = !(s.dev.regionValue p k).2)
          ∧ (∀ j : Nat, j ≠ k.val → bitOf (d.gfx.pipe p).mismatch j = bitOf x.mismatch j)
          ∧ tget zeroDef (d.gfx.pipe p).last k = (s.dev.regionValue p k).1 ∧ (d.gfx.pipe p).reported = k.val :: x.reported
          ∧ d = { s.dev with gfx := d.gfx, arb := d.arb } ∧ d.arb.safe = s.dev.arb.safe ∧ d.arb.gateOpen = s.dev.arb.gateOpen))

/-- MWORLD_WRITE, CASTLE, QUIESCE_DONE, INVAL, INVAL_DONE, PCIE_LINK_DOWN, PCIE_LINK_UP and DLOG_OVF_CLEAR. -/
def Obligations.WorldCommands : Prop :=
  ∀ s : State, s.live →
    let p := s.dev.proc
    (∀ (h : Fin 16) (w : Bool),
      (((s.dev.dbg.module 0).hart h).halted = false → Runs (.mworldWrite h w) s fun d => (d.proc.hart h).mworld = w
        ∧ ((p.hart h).mworld ≠ w → (d.proc.hart h).predictors = false)
        ∧ ((p.hart h).mworld = w → (d.proc.hart h).predictors = (p.hart h).predictors)
        ∧ (∀ k, k ≠ h.val → d.proc.hart k = p.hart k)
        ∧ d = { s.dev with proc := { p with harts := d.proc.harts }, dbg := { s.dev.dbg with modules := d.dbg.modules } }) ∧
      (((s.dev.dbg.module 0).hart h).halted = true → Runs (.mworldWrite h w) s fun d => d = s.dev)) ∧
    (∀ r : CastleReq,
      (s.dev.castleReason r = 0 → Runs (.castle r) s fun d =>
        d.proc.castling r.unit = some ⟨r.world, r.kind, r.vmid, r.inst, r.ctx, r.secure, false⟩
        ∧ d.proc.watEntry r.unit = { p.watEntry r.unit with moving := true }
        ∧ (∀ k, k ≠ r.unit → d.proc.watEntry k = p.watEntry k)
        ∧ d = { s.dev with proc := { p with castlings := d.proc.castlings, wat := d.proc.wat }, sec := s.dev.sec.takeUp r.secure 0x01 }) ∧
      (s.dev.castleReason r ≠ 0 → Runs (.castle r) s fun d =>
        d = { s.dev with proc := { p with castleResult := some (r.unit, s.dev.castleReason r) },
                         sec := s.dev.sec.takeUp r.secure 0x01,
                         out := .castle r.unit (s.dev.castleReason r) :: s.dev.out })) ∧
    (∀ (u : Nat) (c : Castling), p.castling u = some c → c.resetDone = false → Runs (.quiesceDone u) s fun d =>
      d.proc.castling u = some { c with resetDone := true } ∧ d.proc.wat = p.wat ∧ d.proc.insts = p.insts ∧ d.tb = s.dev.tb
      ∧ d.jobs = s.dev.jobs
      ∧ (let lo := sramBase + (u - 0x80) * 0x1_0000
         (0x80 ≤ u → (∀ a, lo ≤ a → a < lo + 0x1_0000 → d.byte a = 0) ∧ (∀ a, a < lo ∨ lo + 0x1_0000 ≤ a → d.byte a = s.dev.byte a))
         ∧ (u < 0x80 → d.mem = s.dev.mem ∧ d.scrambles = s.dev.scrambles))) ∧
    (∀ w : DWord,
      let i : Inval := ⟨w.toNat, p.invalAddr⟩
      (p.invalBusy = none → Runs (.inval w) s fun d =>
        d = { s.dev with proc := { p with tlb := p.tlb.filter fun x => !i.hits x, invalBusy := some i, invalDone := false } }) ∧
      (p.invalBusy ≠ none → Runs (.inval w) s fun d => d = { s.dev with proc := { p with invalHeld := p.invalHeld ++ [i] } })) ∧
    (p.invalBusy ≠ none → p.invalHeld = [] → Runs .invalDone s fun d =>
      d = { s.dev with proc := { p with invalBusy := none, invalDone := true } }) ∧
    (∀ i rest, p.invalBusy ≠ none → p.invalHeld = i :: rest → Runs .invalDone s fun d =>
      d = { s.dev with proc := { p with tlb := p.tlb.filter fun x => !i.hits x, invalHeld := rest, invalBusy := some i, invalDone := false } }) ∧
    (Runs .pcieLinkDown s fun d => d = { s.dev with proc := { p with pcieUp := false } }) ∧
    (Runs .pcieLinkUp s fun d => d = { s.dev with proc := { p with pcieUp := true } }) ∧
    (∀ i : Fin 32, Runs (.dlogOvfClear i) s fun d =>
      d.proc.dlog i = { p.dlog i with head := (p.dlog i).tail, ovf := false, filter := [] }
      ∧ (∀ k, k ≠ i.val → d.proc.dlog k = p.dlog k) ∧ d = { s.dev with proc := { p with dlogs := d.proc.dlogs } })

/-- INSTANCE_CREATE, INSTANCE_DELETE, INSTANCE_RESET, TAG_FORCE_RETIRE, FUNCTION_LEVEL_RESET, DOORBELL and RING_VIEW_ADVANCE. -/
def Obligations.Instances : Prop :=
  ∀ (s : State) (i : Fin 32), s.live →
    let x := s.dev.proc.inst i
    (∀ w : Word, i.val ≠ 0 → w ≠ 0 → x.active = false → w.toNat % 4 ≠ 3 → bits w.toNat 7 3 = 0 → Runs (.instanceCreate i w) s fun d =>
      (d.proc.inst i).active = true ∧ (d.proc.inst i).binding = .ofCode (w.toNat % 4) ∧ (d.proc.inst i).world = bitOf w.toNat 2
      ∧ (d.proc.inst i).gen = x.gen ∧ (d.proc.inst i).resetting = false ∧ (∀ k, k ≠ i.val → d.proc.inst k = s.dev.proc.inst k)
      ∧ d = { s.dev with proc := { s.dev.proc with insts := d.proc.insts }, out := .dict 0 [] :: s.dev.out }) ∧
    (i.val = 0 → ∀ w, Runs (.instanceCreate i w) s fun d => d = s.dev.note (.dict abReadOnly [])) ∧
    (i.val ≠ 0 → x.active = false → Runs (.instanceDelete i) s fun d => d = s.dev.note (.dict 0 [])) ∧
    (i.val ≠ 0 → x.active = true → x.resetting = false → Runs (.instanceDelete i) s fun d =>
      ((d.proc.inst i).active = false ∨ (d.proc.inst i).resetting = true ∧ (d.proc.inst i).deleting = true)
      ∧ d.out.head? = some (.dict 0 [])) ∧
    (x.active = true → x.resetting = false → Runs (.instanceReset i) s fun d =>
      ((d.proc.inst i).resetting = true ∧ (d.proc.inst i).gen = x.gen
        ∨ (d.proc.inst i).resetting = false ∧ (d.proc.inst i).gen = (x.gen + 1) % 256)
      ∧ (d.proc.inst i).emuReads = [] ∧ (d.proc.inst i).emuWrites = []
      ∧ (∀ n, n < 512 → (s.dev.ring n).inst = i → (s.dev.ring n).enable = true → (d.ring n).head = (d.ring n).tail
          ∧ (d.ring n).tail = (s.dev.ring n).tail ∧ (d.ring n).enable = true ∧ (d.ring n).count = (s.dev.ring n).count)
      ∧ (∀ j, j < 64 → (s.dev.job j).st ≠ .free → (s.dev.job j).rc.inst = i → (d.job j).release = .delete)
      ∧ (∀ k, k ≠ i.val → d.proc.inst k = s.dev.proc.inst k) ∧ d.tb = s.dev.tb ∧ d.arb = s.dev.arb) ∧
    (x.resetting = true → Runs (.tagForceRetire i) s fun d => (d.proc.inst i).resetting = false
      ∧ (d.proc.inst i).gen = (x.gen + 1) % 256 ∧ (∀ a, instPage i + 0x1000 ≤ a → a < instPage i + 0x2000 → d.byte a = 0)
      ∧ (x.deleting = true → (d.proc.inst i).active = false) ∧ d.tb = s.dev.tb ∧ d.jobs = s.dev.jobs ∧ d.rings = s.dev.rings) ∧
    (x.resetting = false → Runs (.tagForceRetire i) s fun d => d = s.dev) ∧
    (s.dev.proc.endpoint = true →
      (i.val ≠ 0 → x.binding = .pcie → Runs (.functionLevelReset i) s fun d => d = s.dev.instReset i) ∧
      (i.val ≠ 0 → x.binding ≠ .pcie → Runs (.functionLevelReset i) s fun d => d = s.dev) ∧
      (Runs (.functionLevelReset 0) s fun d => d.proc.vfEnable = false
        ∧ ∀ k, k < 32 → (s.dev.proc.inst k).binding = .pcie → (s.dev.proc.inst k).active = true →
          (s.dev.proc.inst k).resetting = false →
          (d.proc.inst k).resetting = true ∨ (d.proc.inst k).gen = ((s.dev.proc.inst k).gen + 1) % 256)) ∧
    (∀ n c : Nat,
      let r := s.dev.ring n
      let err (d : Device) : Prop := d = { s.dev with proc := s.dev.proc.setInst i { x with dbErr := true } }
      (x.resetting = true → (Runs (.doorbell i n c) s fun d => d = s.dev)) ∧
      (x.resetting = false →
        (s.dev.viewServes i n = true → c % 2 ^ 24 ≤ r.free → Runs (.doorbell i n c) s fun d =>
          d.ring n = { r with tail := r.tail.move r.count (c % 2 ^ 24) } ∧ (∀ k, k ≠ n → d.ring k = s.dev.ring k)
          ∧ d = { s.dev with rings := d.rings, jobs := d.jobs }) ∧
        (s.dev.viewServes i n = false ∨ r.free < c % 2 ^ 24 → Runs (.doorbell i n c) s err) ∧
        (s.dev.viewServes i n = true → c % 2 ^ 24 ≤ r.fill → Runs (.ringViewAdvance i n c) s fun d =>
          d.ring n = { r with head := r.head.move r.count (c % 2 ^ 24) } ∧ (∀ k, k ≠ n → d.ring k = s.dev.ring k)
          ∧ d = { s.dev with rings := d.rings, jobs := d.jobs, fab := d.fab, out := d.out, fresh := d.fresh }) ∧
        (s.dev.viewServes i n = false ∨ r.fill < c % 2 ^ 24 → s.dev.fab.headDue = [] → Runs (.ringViewAdvance i n c) s err)))

/-- EMULATED_READ, EMULATED_WRITE, EMU_ANSWER, EMU_TIMEOUT, MAILBOX_READ, MAILBOX_WRITE, MAILBOX_RESPONSE and FIRMWARE_CALL. -/
def Obligations.EmulationMailbox : Prop :=
  ∀ (s : State) (i : Fin 32), s.live →
    let x := s.dev.proc.inst i
    let inst (y : Inst) (d : Device) : Prop := d = { s.dev with proc := s.dev.proc.setInst i y }
    (∀ off : Nat,
      (x.resetting = false → Runs (.emulatedRead i off) s (inst { x with emuReads := x.emuReads ++ [⟨off % 2 ^ 12, x.emuWrites.length + x.emuHeld.length, none⟩] })) ∧
      (x.resetting = true → Runs (.emulatedRead i off) s fun d => d = s.dev.note (.inst i (2 ^ 32 - 1))) ∧
      (∀ v : Nat,
        (x.emuWrites.length < 32 → x.emuHeld = [] →
          Runs (.emulatedWrite i off v) s (inst { x with emuWrites := x.emuWrites ++ [(off % 2 ^ 12, v % 2 ^ 32)] })) ∧
        (32 ≤ x.emuWrites.length ∨ x.emuHeld ≠ [] →
          Runs (.emulatedWrite i off v) s (inst { x with emuHeld := x.emuHeld ++ [(off % 2 ^ 12, v % 2 ^ 32)] })))) ∧
    (∀ v : Nat,
      let done (n : Nat) (rs : List EmuRead) : Inst :=
        let left := (x.emuWrites ++ x.emuHeld).drop n
        { x with emuReads := rs.map fun r => { r with ahead := r.ahead - n }, emuWrites := left.take 32, emuHeld := left.drop 32 }
      (∀ (q : EmuRead) rest, x.emuReads = q :: rest → q.who = none → Runs (.emuAnswer i v) s fun d =>
        d = { s.dev with proc := s.dev.proc.setInst i (done q.ahead rest), out := .inst i (v % 2 ^ 32) :: s.dev.out }) ∧
      (∀ (q : EmuRead) port id rest, x.emuReads = q :: rest → q.who = some (port, id) → Runs (.emuAnswer i v) s fun d =>
        (d.noc.port port).inflight = (s.dev.noc.port port).inflight.map (fun r => if r.id = id then r.more (v % 2 ^ 32) else r)
        ∧ d = { s.dev with proc := s.dev.proc.setInst i (done q.ahead rest), noc := d.noc }) ∧
      (x.emuReads = [] → Runs (.emuAnswer i v) s (inst (done 1 [])))) ∧
    (∀ (q : EmuRead) rest, x.emuReads = q :: rest → q.who = none → Runs (.emuTimeout i false) s fun d => (d.proc.inst i).emuReads = rest
      ∧ (d.proc.inst i).emuTimeout = true ∧ (d.proc.inst i).emuErr = q.off
      ∧ (d.proc.inst i).emuTimeouts = (x.emuTimeouts + 1) % 2 ^ 32 ∧ d.out = .inst i (2 ^ 32 - 1) :: s.dev.out) ∧
    (∀ w rest, x.emuHeld = w :: rest → Runs (.emuTimeout i true) s fun d => (d.proc.inst i).emuHeld = rest
      ∧ (d.proc.inst i).emuTimeout = true ∧ (d.proc.inst i).emuErr = w.1 ∧ (d.proc.inst i).emuWrites = x.emuWrites ∧ d.out = s.dev.out) ∧
    (x.active = true → x.resetting = false → ∀ len : Nat,
      (x.mboxBusy = true → (Runs (.mailboxRead i len) s (inst { x with mboxOverrun := true })) ∧
        (Runs (.mailboxWrite i len) s (inst { x with mboxOverrun := true }))) ∧
      (x.mboxBusy = false →
        let b := s.dev.bytes (instPage i + 0x1000) 2048
        let r := PartReq.ofBytes b mboxMax
        let e := s.dev.modInst i fun x => { x with mboxBusy := true, mboxLen := len }
        (Runs (.mailboxRead i len) s fun d =>
          (d.proc.inst i).answer = some ⟨(b.drop 12).take 4, (e.partRead (s.dev.mboxPath i) r mboxMax).2.1, (e.partRead (s.dev.mboxPath i) r mboxMax).2.2⟩
          ∧ d.mem = s.dev.mem) ∧
        (Runs (.mailboxWrite i len) s fun d => ∃ c, (d.proc.inst i).answer = some ⟨(b.drop 12).take 4, c, []⟩
          ∧ ((r.take x.staged).2.2 = none → c = (r.take x.staged).2.1 ∧ (d.proc.inst i).mboxBusy = true
              ∧ (d.proc.inst i).staged = (r.take x.staged).1 ∧ d = { s.dev with proc := s.dev.proc.setInst i (d.proc.inst i) })))) ∧
    (∀ a : MboxAnswer, x.answer = some a → Runs (.mailboxResponse i) s fun d =>
      let b := a.tag ++ leBytes 4 a.abort ++ leBytes 2 a.data.length ++ zeros 6 ++ a.data
      let y := { x with mboxBusy := false, mboxDone := true, answer := none }
      (x.binding = .pcie → d.msixOpen i 1 = true → d.proc.inst i = y ∧ d.out = .irqInst i 1 :: s.dev.out)
      ∧ (x.binding = .pcie → d.msixOpen i 1 = false →
          d.proc.inst i = { y with msixPending := if x.msixPending.contains 1 then x.msixPending else x.msixPending ++ [1] }
          ∧ d.out = s.dev.out)
      ∧ (x.binding ≠ .pcie → d.proc.inst i = y) ∧ (∀ k, k < b.length → d.byte (instPage i + 0x1800 + k) = b.getD k 0)
      ∧ (∀ c, c < instPage i + 0x1800 ∨ instPage i + 0x1800 + b.length ≤ c → d.byte c = s.dev.byte c)
      ∧ d = { s.dev with mem := d.mem, proc := d.proc, fab := d.fab, out := d.out, fresh := d.fresh }
      ∧ (x.binding ≠ .fabric → d.fab = s.dev.fab ∧ d.fresh = s.dev.fresh)) ∧
    (∀ (h : Fin 16) (r : DictReq),
      let p := DPath.plain (s.dev.proc.hart h).mworld
      let quiet (d : Device) : Prop := d = { s.dev with proc := { s.dev.proc with harts := d.proc.harts }, out := d.out }
      (r.write = true → s.dev.writeCheck p r.index r.sub r.data ≠ 0 → Runs (.firmwareCall h r) s fun d =>
        quiet d ∧ d.out = .dict (s.dev.writeCheck p r.index r.sub r.data) [] :: s.dev.out) ∧
      (r.write = false → s.dev.readCheck p r.index r.sub ≠ 0 → Runs (.firmwareCall h r) s fun d =>
        quiet d ∧ d.out = .dict (s.dev.readCheck p r.index r.sub) [] :: s.dev.out) ∧
      (r.write = false → s.dev.readCheck p r.index r.sub = 0 → ¬(r.index = 0x2300 ∧ r.sub = 2) → Runs (.firmwareCall h r) s fun d =>
        quiet d ∧ d.out = .dict 0 (s.dev.dictVal r.index r.sub) :: s.dev.out))

/-- Every received frame but JOIN_REQ (R363, R378, R379, R381). -/
def Obligations.FieldIngress : Prop :=
  ∀ (s : State) (f0 : CFrame), s.live → ∀ row ∈ fieldRows f0,
    let f := { f0 with func := row.1 }
    let c := row.2
    let p := s.dev.fgw.port f.port
    let rx := (s.dev.stampEvent (.ingress f.port)).count (fportBase f.port + 0x10) 1
    let e := if p.st = .alone then rx.modFport f.port fun x => { x with st := .active } else rx
    (p.st = .off ∨ p.st = .busOff ∨ s.dev.portShut f.port = true → Runs c s fun d => d = s.dev) ∧
    (p.st ≠ .off → p.st ≠ .busOff → s.dev.portShut f.port = false →
      (s.dev.frameFits f = false → Runs c s fun d => d = e.count fgwRuleDrops 1) ∧
      (s.dev.frameFits f = true →
        (firstRule s.dev.fgw.rules f = none → Runs c s fun d => d = e.count fgwRuleDrops 1) ∧
        (∀ r, firstRule s.dev.fgw.rules f = some r →
          (r.act = .drop → Runs c s fun d => d = e.count fgwRuleDrops 1) ∧
          (∀ n, s.dev.nodeOf f = some n →
            let x := s.dev.fgw.node n
            (x.rate = 0 ∨ f.func = fnHeartbeat → r.act = .deliver → s.dev.ingress f = (e, true)) ∧
            (x.rate ≠ 0 → f.func ≠ fnHeartbeat → r.act ≠ .drop →
              (0 < x.tokens → r.act = .deliver → s.dev.ingress f = (e.modNode n fun x => { x with tokens := x.tokens - 1 }, true)) ∧
              (x.tokens = 0 → Runs c s fun d => (d.fgw.node n).rateDrops = (x.rateDrops + 1) % 2 ^ 32
                ∧ (∀ k, k ≠ n → d.fgw.node k = s.dev.fgw.node k) ∧ d = { s.dev with fgw := d.fgw, noc := d.noc, out := d.out, fresh := d.fresh }
                ∧ d.fgw = { s.dev.fgw with nodes := d.fgw.nodes, ports := d.fgw.ports })) ∧
            (x.rate = 0 → r.act = .forward →
              let m := portMedium r.arg (s.dev.fgw.port r.arg).canMode
              (m.limit < f.payload.length → Runs c s fun d => d = e.count fgwRuleDrops 1) ∧
              (f.payload.length ≤ m.limit → (s.dev.fgw.port r.arg).st = .active → s.dev.portShut r.arg = false → Runs c s fun d =>
                d.out = .frame r.arg { f with port := r.arg, medium := m, version := s.dev.forwardVersion f r.arg } :: e.out
                ∧ d = { s.dev with fgw := e.fgw, noc := d.noc, out := d.out, fresh := e.fresh })) ∧
            (x.rate = 0 → r.act = .ring → Runs c s fun d =>
              let b := leBytes 4 (celetId f.func f.dst f.src) ++ leBytes 2 f.payload.length ++ zeros 2 ++ f.payload
              d = (e.hubPublish Port.fgw true (r.arg % 512) b).getD (e.count fgwRuleDrops 1))))))

/-- JOIN_REQ, NODE_HEARTBEAT, NODE_LOST, EMCY and NODE_REMOVE. -/
def Obligations.NodeTable : Prop :=
  ∀ (s : State) (f0 : CFrame), s.live →
    (let f := { f0 with func := fnJoinReq }
     let seg := segmentOf f.port
     let serial := field f.payload 0 4
     let vendor := field f.payload 4 2
     let told (e d : Device) (result : Nat) : Prop := (e.fgw.port f.port).sends = true → e.portShut f.port = false → ∃ fr rest b, d.out = .frame f.port fr :: rest
       ∧ fr.func = fnJoinRsp ∧ fr.payload = f.payload.take 4 ++ leBytes 1 result ++ b
     let refused (e : Device) (result : Nat) : Prop := Runs (.joinReq f0) s fun d => told e d result ∧ d.fgw = e.fgw ∧ d.tb = e.tb
     (∀ e, s.dev.ingress f = (e, true) → f.dst ≠ 0 → Runs (.joinReq f0) s fun d => d = e) ∧
     (∀ e, s.dev.ingress f = (e, true) → f.dst = 0 →
       (chooseVersion (field f.payload 6 1) (field f.payload 7 1) f.medium = none → refused e 1) ∧
       (∀ v, chooseVersion (field f.payload 6 1) (field f.payload 7 1) f.medium = some v →
         (e.serialTaken seg serial vendor = true → refused e 4) ∧
         (e.serialTaken seg serial vendor = false →
           (∀ n, e.fgw.findSerial seg serial vendor = some n → (e.fgw.node n).st ≠ .removed → Runs (.joinReq f0) s fun d =>
             d.fgw.node n = { e.fgw.node n with st := .active, version := v, port := f.port, lastHb := (d.fgw.node n).lastHb }
             ∧ (∀ k, k ≠ n → d.fgw.node k = e.fgw.node k) ∧ told e d 0
             ∧ d = { e with fgw := { e.fgw with nodes := d.fgw.nodes }, noc := d.noc, out := d.out, fresh := d.fresh }) ∧
           (e.fgw.findSerial seg serial vendor = none →
             (e.fgw.freeEntry = none → refused e 2) ∧
             (∀ n num, e.fgw.freeEntry = some n →
               (1 ≤ f.src ∧ f.src ≤ 0xFFE ∧ e.fgw.find seg f.src = none ∧ num = f.src
                 ∨ ¬(1 ≤ f.src ∧ f.src ≤ 0xFFE ∧ e.fgw.find seg f.src = none) ∧ e.fgw.freeNumber seg = some num) →
               Runs (.joinReq f0) s fun d =>
                 let x := d.fgw.node n
                 x.serial = serial ∧ x.vendor = vendor ∧ x.version = v ∧ x.st = .active ∧ x.port = f.port ∧ x.number = num
                 ∧ x.tokens = 4 * x.rate ∧ x.authFail = 0 ∧ x.rateDrops = 0
                 ∧ (∀ k, k ≠ n → d.fgw.node k = e.fgw.node k) ∧ told e d 0
                 ∧ d = { e with fgw := { e.fgw with nodes := d.fgw.nodes }, noc := d.noc, out := d.out, fresh := d.fresh }))))) ∧
     (∀ e, s.dev.ingress f = (e, false) → (s.dev.fgw.port f.port).st = .active ∨ (s.dev.fgw.port f.port).st = .alone →
       s.dev.portShut f.port = false → s.dev.frameFits f = true → refused e 3)) ∧
    (let f := { f0 with func := fnHeartbeat }
     ∀ e n, s.dev.ingress f = (e, true) → e.nodeOf f = some n →
      (f.dst ≠ 0 → Runs (.nodeHeartbeat f0) s fun d => d = e) ∧
      (f.dst = 0 → Runs (.nodeHeartbeat f0) s fun d =>
       d.fgw.node n = { e.fgw.node n with st := if (e.fgw.node n).st = .lost then .active else (e.fgw.node n).st,
                                          lastHb := (d.fgw.node n).lastHb }
       ∧ (e.tb.started = true → (d.fgw.node n).lastHb / 1000 = e.tn)
       ∧ (∀ k, k ≠ n → d.fgw.node k = e.fgw.node k)
       ∧ d = { e with fgw := { e.fgw with nodes := d.fgw.nodes }, fresh := d.fresh })) ∧
    (∀ n : Nat, let x := s.dev.fgw.node n
      (x.st = .active → x.lastHb + 3 * s.dev.hbTempos n * 1000 ≤ s.dev.tb.dt → Runs (.nodeLost n) s fun d =>
        d.fgw = (s.dev.fgw.setNode n { x with st := .lost }) ∧ d = { s.dev with fgw := d.fgw, noc := d.noc, out := d.out, fresh := d.fresh }
        ∧ (∀ p, p < 32 → (s.dev.fgw.port p).st = .active → s.dev.portShut p = false → ∃ fr, .frame p fr ∈ d.out ∧ fr.func = fnEmcy ∧ fr.src = 0)) ∧
      (x.st ≠ .active ∨ s.dev.tb.dt < x.lastHb + 3 * s.dev.hbTempos n * 1000 → Runs (.nodeLost n) s fun d => d = s.dev)) ∧
    (let f := { f0 with func := fnEmcy }
     ∀ e n, s.dev.ingress f = (e, true) → e.nodeOf f = some n →
      (((e.fgw.node n).emcyTn = none ∨ ∃ t, (e.fgw.node n).emcyTn = some t ∧ t + 10000 ≤ e.tn) → Runs (.emcy f0) s fun d =>
        d = (e.modNode n fun x => { x with emcyTn := some e.tn }).note (.deliver f)) ∧
      (∀ t, (e.fgw.node n).emcyTn = some t → e.tn < t + 10000 → Runs (.emcy f0) s fun d =>
        d = (e.modNode n fun x => { x with rateDrops := (x.rateDrops + 1) % 2 ^ 32 }).count fgwRateDrops 1 ∧ d.out = e.out)) ∧
    (s.dev.dict.errSample = 0 → s.dev.errorReg ≠ 0 →
      s.dev.errorSample.dict.errSample = s.dev.errorReg ∧
      (∀ p, p < 32 → (s.dev.fgw.port p).st = .active → s.dev.portShut p = false → ∃ fr, .frame p fr ∈ s.dev.errorSample.out
        ∧ fr.func = fnEmcy ∧ fr.src = 0 ∧ fr.dst = 0xFFF
        ∧ fr.payload = leBytes 2 0x1001 ++ leBytes 1 s.dev.errorReg ++ leBytes 4 s.dev.tn ++ zeros 1)) ∧
    (s.dev.dict.errSample ≠ 0 ∨ s.dev.errorReg = 0 → s.dev.errorSample.out = s.dev.out) ∧
    (let n := s.dev.fgw.selected
     ((s.dev.fgw.node n).st ≠ .free → Runs .nodeRemove s fun d =>
       d = (s.dev.modNode n fun x => { x with st := .removed }).note (.dict 0 [])) ∧
     ((s.dev.fgw.node n).st = .free → Runs .nodeRemove s fun d => d = s.dev.note (.dict abState [])))

/-- RXMAP, SAFETY, MAP_TIMEOUT and GATED_EXPIRE. -/
def Obligations.Maps : Prop :=
  ∀ (s : State) (f0 : CFrame), s.live →
    (∀ row ∈ [(fnRxmap, MapDir.rx, Instr.rxmap f0), (fnSafety, MapDir.safetyIn, Instr.safety f0)],
      let f := { f0 with func := row.1 }
      ∀ e c n, s.dev.ingress f = (e, true) → e.mapCfg f.dst = some c → e.nodeOf f = some n →
        let auth := c.auth || row.2.1 == .safetyIn
        let m := e.fgw.map f.dst
        let data := f.payload.take c.len
        let fr := field f.payload c.len 4
        (e.mapUsed c = false ∨ c.dir ≠ row.2.1 ∨ c.node ≠ n ∨ f.payload.length ≠ c.len + (if auth then 8 else 0) →
          Runs row.2.2 s fun d => d = e.count fgwRuleDrops 1) ∧
        (e.mapUsed c = true → c.dir = row.2.1 → c.node = n → f.payload.length = c.len + (if auth then 8 else 0) →
          (auth = false → Runs row.2.2 s fun d =>
            d = { e with fgw := e.fgw.setMap f.dst { m with got := some data, overwritten := (m.overwritten + b2n m.got.isSome) % 2 ^ 32 } }) ∧
          (auth = true → f.authentic = true → (e.fgw.node n).keySlot ≠ none → m.fRx < fr → fr ≤ m.fRx + 1000 → Runs row.2.2 s fun d =>
            d.fgw.map f.dst = { m with got := some data, fRx := fr, overwritten := (m.overwritten + b2n m.got.isSome) % 2 ^ 32 }
            ∧ (∀ k, k ≠ f.dst → d.fgw.map k = e.fgw.map k) ∧ d = { e with fgw := { e.fgw with maps := d.fgw.maps } }) ∧
          (auth = true → f.authentic = false ∨ (e.fgw.node n).keySlot = none ∨ fr ≤ m.fRx ∨ m.fRx + 1000 < fr → Runs row.2.2 s fun d =>
            (d.fgw.node n).authFail = ((e.fgw.node n).authFail + 1) % 2 ^ 32 ∧ d.fgw.maps = e.fgw.maps
            ∧ d = { e with fgw := { e.fgw with nodes := d.fgw.nodes }, noc := d.noc }))) ∧
    (∀ (m : Nat) (c : MapCfg), s.dev.mapCfg m = some c →
      let x := s.dev.fgw.map m
      (c.dir = .rx ∨ c.dir = .safetyIn → 0 < c.timeout → c.timeout ≤ x.silent → x.stale = false → Runs (.mapTimeout m) s fun d =>
        d.fgw = s.dev.fgw.setMap m { x with stale := true }
        ∧ (∀ p, p < 32 → (s.dev.fgw.port p).st = .active → s.dev.portShut p = false → ∃ fr, .frame p fr ∈ d.out ∧ fr.func = fnEmcy)
        ∧ (s.dev.reaches Port.fgw.die (c.buffer + 8) = true → s.dev.hubMay Port.fgw.group true true (c.buffer + 8) 8 = true →
            (∀ k, k < 8 → d.byte (c.buffer + 8 + k) = (leBytes 8 1).getD k 0)
            ∧ (∀ a, a < c.buffer + 8 ∨ c.buffer + 16 ≤ a → d.byte a = s.dev.byte a))) ∧
      (c.timeout = 0 ∨ x.silent < c.timeout ∨ x.stale = true → Runs (.mapTimeout m) s fun d => d = s.dev)) ∧
    (∀ (p m : Nat) (q : QFrame), q ∈ (s.dev.fgw.port p).queue → q.map = m → q.checkTn + s.dev.fgwFresh ≤ s.dev.tn →
      Runs (.gatedExpire p m) s fun d =>
        q ∉ (d.fgw.port p).queue ∧ (∀ r ∈ (s.dev.fgw.port p).queue, r.map ≠ m → r ∈ (d.fgw.port p).queue)
        ∧ (∀ k, k ≠ p → d.fgw.port k = s.dev.fgw.port k)
        ∧ d = { s.dev with fgw := { s.dev.fgw with ports := d.fgw.ports }, noc := d.noc }
        ∧ d.noc = s.dev.noc.count fgwGatedExpired ((s.dev.fgw.port p).queue.length - (d.fgw.port p).queue.length))

/-- BUS_ALONE, PROBE, BUS_OFF, BUS_OFF_RECOVERY, T1S_ALONE, PLCA_FALLBACK, BEACON, GATE_CYCLE_START, ETHERNET_FRAME, RULE_CREATE and
RULE_DELETE. -/
def Obligations.FieldPorts : Prop :=
  ∀ s : State, s.live →
    (∀ p : Nat,
      let x := s.dev.fgw.port p
      let port (y : FPort) (d : Device) : Prop := d = { s.dev with fgw := s.dev.fgw.setPort p y }
      (p < 16 → x.st = .active → Runs (.busAlone p) s fun d =>
        (d.fgw.port p).st = .alone ∧ (d.fgw.port p).busAlone = true ∧ (d.fgw.port p).errPassive = true ∧ (d.fgw.port p).queue = []
        ∧ (d.fgw.port p).tec = (if x.tec < 128 then 128 + x.tec % 8 else x.tec) ∧ port (d.fgw.port p) d) ∧
      (∀ acked : Bool, x.st = .alone → x.probeTn + 100000 ≤ s.dev.tn → Runs (.probe p acked) s fun d =>
        d.fgw.port p = { x with probeTn := s.dev.tn, st := if acked then .active else .alone }
        ∧ (∃ fr, d.out = .frame p fr :: s.dev.out ∧ fr.func = fnProbe ∧ fr.payload = [])
        ∧ d = { s.dev with fgw := s.dev.fgw.setPort p (d.fgw.port p), noc := s.dev.noc.count (fportBase p + 0x18) 1, out := d.out }) ∧
      (∀ acked : Bool, x.st ≠ .alone ∨ s.dev.tn < x.probeTn + 100000 → Runs (.probe p acked) s fun d => d = s.dev) ∧
      (p < 16 → x.st ≠ .off → Runs (.busOff p) s fun d => d.fgw.port p = { x with st := .busOff, tec := (d.fgw.port p).tec }
        ∧ d = { s.dev with fgw := s.dev.fgw.setPort p (d.fgw.port p), fresh := d.fresh }) ∧
      (x.st = .busOff → Runs (.busOffRecovery p) s (port { x with st := .active, tec := 0, recErr := 0, errPassive := false })) ∧
      (16 ≤ p → p ≤ 23 → (Runs (.t1sAlone p) s (port { x with busAlone := true })) ∧
        (x.plcaId ≠ 0 → (Runs (.plcaFallback p) s (port { x with plca := false })) ∧ (Runs (.beacon p) s (port { x with plca := true }))) ∧
        (x.plcaId = 0 → (Runs (.plcaFallback p) s fun d => d = s.dev) ∧ (Runs (.beacon p) s fun d => d = s.dev))) ∧
      (∀ (l : GateList) (now : Nat), x.gatesPending = some l →
        (l.base ≤ now → l.ok = true → Runs (.gateCycleStart p now) s (port { x with gates := some l, gatesPending := none })) ∧
        (now < l.base ∨ l.ok = false → Runs (.gateCycleStart p now) s fun d => d = s.dev)) ∧
      (∀ now, x.gatesPending = none → Runs (.gateCycleStart p now) s fun d => d = s.dev)) ∧
    (∀ f : EtherFrame,
      (2000 < f.bytes.length ∨ s.dev.portShut f.port = true → Runs (.ethernetFrame f) s fun d => d = s.dev) ∧
      (24 ≤ f.port → f.port < 36 → f.bytes.length ≤ 2000 → s.dev.portShut f.port = false → Runs (.ethernetFrame f) s fun d =>
        let g := s.dev.fgw.learn f
        let known := g.macs.find? fun m => m.1 == f.dst && m.2.1 == f.vlan
        let sent (ps : List Nat) : Prop := ∃ ts : List Nat, ts.length = ps.length ∧
          d.out = .ether ps f.bytes :: (((ps.zip ts).map fun x => .stamp (.egress x.1) x.2).reverse
            ++ .stamp (.ingress f.port) s.dev.stamp.1 :: s.dev.out)
        (bitOf f.dst 40 = true ∨ known = none → sent (switchPorts.filter (fun p => p != f.port && !s.dev.portShut p))) ∧
        (∀ m, bitOf f.dst 40 = false → known = some m → m.2.2 ≠ f.port → s.dev.portShut m.2.2 = false → sent [m.2.2]) ∧
        (∀ m, bitOf f.dst 40 = false → known = some m → m.2.2 = f.port →
          d.out = .stamp (.ingress f.port) s.dev.stamp.1 :: s.dev.out) ∧
        d = { s.dev with fgw := { s.dev.fgw with macs := g.macs }, out := d.out, fresh := d.fresh })) ∧
    (∀ b : List Byte,
      let g := s.dev.fgw
      (∀ r, b.length = 16 → g.rulesOpen.length < 8192 → Rule.ofBytes b g.nextHandle g.nextOrder = some r → Runs (.ruleCreate b) s fun d =>
        let fgw := { g with rulesOpen := g.rulesOpen ++ [r], nextHandle := (g.nextHandle + 1) % 2 ^ 16, nextOrder := g.nextOrder + 1 }
        d = { s.dev with fgw := fgw, out := .dict 0 [] :: s.dev.out } ∧ d.fgw.rules = g.rules) ∧
      (b.length ≠ 16 → Runs (.ruleCreate b) s fun d => d = s.dev.note (.dict abType [])) ∧
      (b.length = 16 → 8192 ≤ g.rulesOpen.length → Runs (.ruleCreate b) s fun d => d.fgw = g ∧ d.out = .dict abResource [] :: s.dev.out
        ∧ d = { s.dev with dict := d.dict, out := d.out, fresh := d.fresh }) ∧
      (b.length = 16 → g.rulesOpen.length < 8192 → Rule.ofBytes b g.nextHandle g.nextOrder = none → Runs (.ruleCreate b) s fun d =>
        d = s.dev.note (.dict abRange []))) ∧
    (∀ h : Nat,
      ((s.dev.fgw.rulesOpen.any fun r => r.handle == h) = true → Runs (.ruleDelete h) s fun d =>
        let fgw := { s.dev.fgw with rulesOpen := s.dev.fgw.rulesOpen.filter fun r => r.handle != h }
        d = { s.dev with fgw := fgw, out := .dict 0 [] :: s.dev.out }) ∧
      ((s.dev.fgw.rulesOpen.any fun r => r.handle == h) = false → Runs (.ruleDelete h) s fun d => d = s.dev.note (.dict abRange [])))

/-- XFER_READ, XFER_WRITE, XFER_WRITE_INIT, XFER_SEGMENT, XFER_READ_NEXT, XFER_ABORT, XFER_RSP and XFER_TIMEOUT. -/
def Obligations.Transfers : Prop :=
  ∀ (s : State) (f0 : CFrame), s.live →
    (let f := { f0 with func := fnXferReq }
     let h := field f.payload 0 1
     let ix := field f.payload 1 2
     let sub := field f.payload 3 1
     let data := f.payload.drop 4
     let t := bitOf h 3
     let path := fieldPath false
     ∀ e n, s.dev.ingress f = (e, true) → e.nodeOf f = some n → f.dst = 0 →
      (bitOf h 4 = true → f.authentic = false →
        ∀ c ∈ [Instr.xferRead f0, .xferWrite f0, .xferWriteInit f0, .xferSegment f0, .xferReadNext f0], Runs c s fun d => d = e.authFail n) ∧
      (bitOf h 4 = false → cmdKnown (h % 8) = false →
        ∀ c ∈ [Instr.xferRead f0, .xferWrite f0, .xferWriteInit f0, .xferSegment f0, .xferReadNext f0], Runs c s fun d =>
          d = e.sendAbort n true false ix sub abUnknownCmd) ∧
      (bitOf h 4 = false → cmdKnown (h % 8) = true →
        (e.openXfer n = none →
          (e.readCheck path ix sub = 0 → ¬(ix = 0x2300 ∧ sub = 2) →
            ((e.dictVal ix sub).length ≤ e.xferLimit n false → Runs (.xferRead f0) s fun d =>
              d = e.sendXfer n true false (xferHead cmdRead false false ix sub ++ e.dictVal ix sub)) ∧
            (e.xferLimit n false < (e.dictVal ix sub).length → Runs (.xferRead f0) s fun d => ∃ x, d.openXfer n = some x ∧ x.write = false
              ∧ x.data = e.dictVal ix sub ∧ x.pos = 0 ∧ x.toggle = false ∧ d.dict = e.dict ∧ d.mem = e.mem)) ∧
          (e.readCheck path ix sub ≠ 0 → Runs (.xferRead f0) s fun d => d = e.sendAbort n true false ix sub (e.readCheck path ix sub)) ∧
          (Runs (.xferWrite f0) s fun d => let r := e.dictWrite path ix sub data
            (r.2 = 0 → d = r.1.sendXfer n true false (xferHead cmdWrite t false ix sub)) ∧
            (r.2 ≠ 0 → d = r.1.sendAbort n true false ix sub r.2)) ∧
          (data.length = 4 → leNat data ≤ 2 ^ 24 → Runs (.xferWriteInit f0) s fun d => ∃ x, d.openXfer n = some x ∧ x.write = true
            ∧ x.size = leNat data ∧ x.data = [] ∧ x.toggle = false ∧ d.dict = e.dict) ∧
          (data.length ≠ 4 ∨ 2 ^ 24 < leNat data → Runs (.xferWriteInit f0) s fun d => d = e.sendAbort n true false ix sub abSize)) ∧
        (∀ x, e.openXfer n = some x →
          let ends (code : Nat) (d : Device) : Prop := d = (e.closeXfer n).sendAbort n true false x.index x.sub code ∧ d.dict = e.dict
          (∀ c ∈ [Instr.xferRead f0, .xferWrite f0, .xferWriteInit f0], Runs c s fun d => d.openXfer n = none ∧ d.dict = e.dict) ∧
          (x.write = true → x.toggle ≠ t → Runs (.xferSegment f0) s (ends abToggle)) ∧
          (x.write = true → x.toggle = t → x.size < (x.data ++ data).length → Runs (.xferSegment f0) s (ends abSize)) ∧
          (x.write = true → x.toggle = t → (x.data ++ data).length < x.size → Runs (.xferSegment f0) s fun d =>
            d.openXfer n = some { x with data := x.data ++ data, toggle := !x.toggle, lastTn := e.tn, auth := false } ∧ d.dict = e.dict) ∧
          (x.write = true → x.toggle = t → (x.data ++ data).length = x.size → Runs (.xferSegment f0) s fun d =>
            let r := (e.closeXfer n).dictWrite path x.index x.sub (x.data ++ data)
            (r.2 = 0 → d = r.1.sendXfer n true false (xferHead cmdSegment t false x.index x.sub)) ∧
            (r.2 ≠ 0 → d = r.1.sendAbort n true false x.index x.sub r.2)) ∧
          (x.write = false → x.toggle ≠ t → Runs (.xferReadNext f0) s (ends abToggle)) ∧
          (x.write = false → x.toggle = t →
            let k := e.xferLimit n false
            let b := xferHead cmdSegment t false x.index x.sub ++ (x.data.drop x.pos).take k
            (x.size ≤ x.pos + k → Runs (.xferReadNext f0) s fun d => d = (e.closeXfer n).sendXfer n true false b) ∧
            (x.pos + k < x.size → Runs (.xferReadNext f0) s fun d =>
              d = (e.setXfer n { x with pos := x.pos + k, toggle := !x.toggle, lastTn := e.tn }).sendXfer n true false b)) ∧
          (f0.func ≠ fnXferRsp → e.clientOf n = none → Runs (.xferAbort f0) s fun d => d.openXfer n = none ∧ d.dict = e.dict ∧ d.out = e.out)))) ∧
    (let f := { f0 with func := fnXferRsp }
     let h := field f.payload 0 1
     ∀ e n x, s.dev.ingress f = (e, true) → e.nodeOf f = some n → f.dst = 0 → bitOf h 4 = false → e.clientOf n = some x →
      (h % 8 = cmdRead → x.write = false → Runs (.xferRsp f0) s fun d => d = (e.closeClient n).note (.dict 0 (f.payload.drop 4))) ∧
      (h % 8 = cmdWrite → x.write = true → Runs (.xferRsp f0) s fun d => d = (e.closeClient n).note (.dict 0 [])) ∧
      (h % 8 = cmdAbort → Runs (.xferRsp f0) s fun d => d.clientOf n = none ∧ d.out.head? = some (.dict (leNat ((f.payload.drop 4).take 4)) []))) ∧
    (∀ seg client n, s.dev.fgw.find seg client = some n → ∀ x, s.dev.openXfer n = some x →
      (x.lastTn + 100000 ≤ s.dev.tn → Runs (.xferTimeout seg client true) s fun d =>
        d = (s.dev.closeXfer n).sendAbort n true x.auth x.index x.sub abTimeout ∧ d.dict = s.dev.dict) ∧
      (s.dev.tn < x.lastTn + 100000 → Runs (.xferTimeout seg client true) s fun d => d = s.dev)) ∧
    (∀ seg client n, s.dev.fgw.find seg client = some n → ∀ x, s.dev.clientOf n = some x →
      (x.lastTn + 100000 ≤ s.dev.tn → Runs (.xferTimeout seg client false) s fun d =>
        d.clientOf n = none ∧ d.out.head? = some (.dict abTimeout []) ∧ d.dict = s.dev.dict) ∧
      (s.dev.tn < x.lastTn + 100000 → Runs (.xferTimeout seg client false) s fun d => d = s.dev))

/-- PROFILE_SWITCH, PROFILE_VERIFIED, PROFILE_SAVE, PROFILE_IMPORT, PROFILE_ERASE, PROFILE_STORE_DONE and PROFILE_LOAD. -/
def Obligations.Profiles : Prop :=
  ∀ s : State, s.live →
    let x := s.dev.dict
    let answers (c : Instr) (y : Dict) (code : Nat) : Prop :=
      Runs c s fun d => d = { s.dev with dict := y, out := .dict code [] :: s.dev.out }
    let stores (c : Instr) (n : Nat) (img : List Byte) : Prop :=
      (x.store = none → x.switchTo ≠ some n → answers c { x with store := some ⟨n, img⟩ } 0) ∧
      (x.store ≠ none ∨ x.switchTo = some n → answers c x abState)
    (∀ n : Nat,
      (3 < n ∨ x.active = some n → answers (.profileSwitch n) x abRange) ∧
      (n ≤ 3 → x.active ≠ some n →
        let st := if x.switchTo.isSome then .superseded else .verifying
        answers (.profileSwitch n) { x with seq := x.seq + 1, switchSeq := x.seq + 1, switchTo := some n, switchSt := st } 0) ∧
      (n ≤ 3 → stores (.profileSave n) n (s.dev.saveImage n)) ∧ (3 < n → answers (.profileSave n) x abRange) ∧
      (n ≤ 3 → stores (.profileErase n) n []) ∧ (3 < n → answers (.profileErase n) x abRange)) ∧
    (∀ img : List Byte,
      (img.length ≤ 2 ^ 20 → s.dev.imageReason img = 0 → stores (.profileImport img) (field img 6 1) img) ∧
      (img.length ≤ 2 ^ 20 → s.dev.imageReason img ≠ 0 → answers (.profileImport img) x abRange) ∧
      (2 ^ 20 < img.length → answers (.profileImport img) x abType)) ∧
    (∀ n, x.switchTo = some n → x.switchSt ≠ .ready →
      (s.dev.switchReason n = 0 → Runs .profileVerified s fun d =>
        d.dict.switchSt = .ready ∧ d.dict.switchTo = some n ∧ n ∈ d.dict.verified
        ∧ (s.dev.tb.started = true → s.dev.tn + 2 ≤ d.dict.readyTn ∧ d.dict.readyTn ≤ s.dev.tn + 3)
        ∧ d.dict.vals = x.vals ∧ d = { s.dev with dict := d.dict, fresh := d.fresh }) ∧
      (s.dev.switchReason n ≠ 0 → Runs .profileVerified s fun d =>
        d.dict.switchSt = .refused ∧ d.dict.switchReason = s.dev.switchReason n ∧ d.dict.switchTo = none ∧ d.dict.active = x.active
        ∧ (d.dict.log.head?.map Event.code) = some evProfileRefused ∧ d.dict.vals = x.vals
        ∧ d = { s.dev with dict := d.dict, fresh := d.fresh })) ∧
    (x.switchTo = none ∨ x.switchSt = .ready → Runs .profileVerified s fun d => d = s.dev) ∧
    (∀ o, x.store = some o → Runs .profileStoreDone s fun d =>
      d.dict.slot o.slot = o.image ∧ (∀ k, k ≠ o.slot → d.dict.slot k = x.slot k) ∧ d.dict.store = none
      ∧ d = { s.dev with dict := { x with store := none, slots := d.dict.slots, verified := d.dict.verified } }) ∧
    (x.store = none → Runs .profileStoreDone s fun d => d = s.dev) ∧
    (s.dev.pwr.profileTried = true ∨ s.dev.pwr.bringUp < 2 → Runs .profileLoad s fun d => d = s.dev) ∧
    (s.dev.pwr.profileTried = false → 2 ≤ s.dev.pwr.bringUp →
      let e := { s.dev with pwr := { s.dev.pwr with profileTried := true } }
      (∀ rs, s.dev.imageReason (x.slot x.profileSel) = 0 → x.slotRecords x.profileSel = some rs → Runs .profileLoad s fun d =>
        d = ((e.takeValues persistent (profileValue rs) false).profileIn x.profileSel).fieldReady
        ∧ d.dict.active = some x.profileSel ∧ d.arb.profileOk = true ∧ d.sec.profileDigest = sha48 (x.slot x.profileSel)) ∧
      (s.dev.imageReason (x.slot x.profileSel) ≠ 0 → Runs .profileLoad s fun d =>
        (d.dict.log.head?.map Event.code) = some evProfileNotLoaded ∧ d.arb.gateOpen = false
        ∧ (d.arb.entry s.dev.arb.logNext).cause = 0x0F ∧ (d.arb.entry s.dev.arb.logNext).reaction = reactGate))

/-- OWNER_ADD, OWNER_REVOKE, ROLLBACK_ADVANCE, LIFECYCLE, KEY_SLOT, ATTEST, ATTEST_NONCE, ENTROPY_HEALTH_FAIL and
ENTROPY_SOURCE_RESTARTED. -/
def Obligations.SecCommands : Prop :=
  (∀ (s : State) (r : SecReq), s.live →
    let x := s.dev.sec
    let up (c : Nat) : Sec := x.takeUp true c
    let frame (d : Device) : Prop := d = { s.dev with sec := d.sec, out := d.out, fresh := d.fresh }
    let done (y : Sec) (code : Nat) (d : Device) : Prop :=
      d.sec = { y with secure := ⟨y.runs, code, d.sec.secure.tag, y.secure.started⟩ } ∧ d.out = .sec code :: s.dev.out ∧ frame d
    (s.dev.secLive = false → ∀ c ∈ [Instr.ownerAdd r, .ownerRevoke r, .rollbackAdvance r, .lifecycle r, .keySlot r, .regionRelease r, .attest r],
      Runs c s fun d => d = s.dev) ∧
    (s.dev.secLive = true → r.secure = false →
      ∀ c ∈ [Instr.ownerAdd r, .ownerRevoke r, .rollbackAdvance r, .lifecycle r, .keySlot r, .regionRelease r],
        Runs c s fun d => d.sec = { x with nonSecure := ⟨false, secNotAllowed, d.sec.nonSecure.tag, x.nonSecure.started⟩ } ∧ frame d) ∧
    (s.dev.secLive = true → r.secure = true →
      (r.arg < 4 → bitOf x.owners r.arg = false →
        (x.lifecycle = .owned → x.owners = 0 ∨ x.signed r.sig = true → r.sig.otpOk = true →
          Runs (.ownerAdd r) s fun d => done ((up 0x30).setOwner r.arg (Config.sha384 r.bytes)) secDone d
            ∧ bitOf d.sec.owners r.arg = true ∧ tget hashDef d.sec.ownerHash r.arg = Config.sha384 r.bytes) ∧
        (x.lifecycle ≠ .owned ∨ x.owners ≠ 0 ∧ x.signed r.sig = false → Runs (.ownerAdd r) s (done (up 0x30) secSignature))) ∧
      (r.arg < 4 → x.signed r.sig = true → r.sig.owner ≠ r.arg → bitOf x.owners r.arg = true → bitOf x.revoked r.arg = false →
        r.sig.otpOk = true → Runs (.ownerRevoke r) s (done { up 0x31 with revoked := x.revoked + 2 ^ r.arg } secDone)) ∧
      (r.arg < 4 → x.signed r.sig = false ∨ r.sig.owner = r.arg → Runs (.ownerRevoke r) s (done (up 0x31) secSignature)) ∧
      (r.arg ≤ 64 → x.signed r.sig = true →
        (x.step < r.arg → r.sig.otpOk = true → Runs (.rollbackAdvance r) s (done { up 0x32 with step := r.arg } secDone)) ∧
        (r.arg ≤ x.step → Runs (.rollbackAdvance r) s (done (up 0x32) secRollback))) ∧
      (∀ l, Lifecycle.ofCode r.arg = some l →
        (x.lifecycle.canGo l = true → x.lifecycleSigned r.sig = true → r.sig.otpOk = true →
          Runs (.lifecycle r) s (done { up 0x33 with nextLifecycle := some l, claim := if l = .owned then Config.sha384 r.bytes else x.claim } secDone)) ∧
        (x.lifecycle.canGo l = true → x.lifecycleSigned r.sig = false → Runs (.lifecycle r) s (done (up 0x33) secSignature)) ∧
        (x.lifecycle.canGo l = false → Runs (.lifecycle r) s fun d => ∃ code, code ≠ secDone ∧ done (up 0x33) code d)) ∧
      (2 ≤ r.arg → r.arg ≤ 15 →
        (x.entropyErr = true → Runs (.keySlot r) s (done (up 0x40) secEntropy)) ∧
        (x.entropyErr = false → x.entropyStalled = true → Runs (.keySlot r) s fun d =>
          let y := { up 0x40 with stalledKeys := x.stalledKeys ++ [r.arg], secure := { (up 0x40).secure with busy := true } }
          d = { s.dev with sec := y }) ∧
        (x.entropyErr = false → x.entropyStalled = false → s.dev.slotNamed r.arg = true → Runs (.keySlot r) s (done (up 0x40) secSlotInUse)) ∧
        (x.entropyErr = false → x.entropyStalled = false → s.dev.slotNamed r.arg = false → Runs (.keySlot r) s fun d =>
          r.arg ∈ d.sec.keys ∧ (∀ k ∈ x.keys, k ∈ d.sec.keys) ∧ (∀ k ∈ d.sec.keys, k = r.arg ∨ k ∈ x.keys)
          ∧ done { up 0x40 with keys := d.sec.keys } secDone d))) ∧
    (s.dev.secLive = true → r.bytes.length = 48 → Runs (.attest r) s fun d =>
      ∃ t, (s.dev.tb.started = true → t / 1000 = s.dev.tn) ∧
        let report := x.makeReport t Config.serial.toNat r.bytes
        let old := if r.secure then x.secure else x.nonSecure
        let box : SecBox := ⟨r.secure && x.runs, secDone, if r.secure then d.sec.secure.tag else d.sec.nonSecure.tag, old.started.erase 0x20⟩
        d.sec = (if r.secure then { x with secure := box } else { x with nonSecure := box })
        ∧ d.regs = (s.dev.putRegs (responseBase r.secure) report).regs ∧ d.out = .sec secDone :: s.dev.out
        ∧ d = { s.dev with sec := d.sec, regs := d.regs, out := d.out, fresh := d.fresh })) ∧
  (∀ s : State, s.live →
    let x := s.dev.sec
    (∀ n : List Byte, (n.length = 48 → Runs (.attestNonce n) s fun d =>
        d = { s.dev with sec := { x with nonce := n }, out := .dict 0 [] :: s.dev.out }) ∧
      (n.length ≠ 48 → Runs (.attestNonce n) s fun d => d = s.dev.note (.dict abType []))) ∧
    (x.entropyErr = false → x.entropyFails < 2 → Runs .entropyHealthFail s fun d =>
      d = { s.dev with sec := { x with entropyFails := x.entropyFails + 1, entropyStalled := true } }) ∧
    (2 ≤ x.entropyFails → Runs .entropyHealthFail s fun d => d.sec.entropyErr = true ∧ d.sec.stalledKeys = [] ∧ d.sec.keys = x.keys
      ∧ d = { s.dev with sec := d.sec, out := d.out, fresh := d.fresh }) ∧
    (Runs .entropySourceRestarted s fun d => d.sec.entropyFails = 0 ∧ d.sec.entropyStalled = false ∧ d.sec.stalledKeys = []
      ∧ d.sec.entropyErr = x.entropyErr ∧ (∀ k ∈ x.keys, k ∈ d.sec.keys)
      ∧ (∀ k ∈ x.stalledKeys, x.entropyErr = false → s.dev.slotNamed k = false → k ∈ d.sec.keys)
      ∧ d = { s.dev with sec := d.sec, out := d.out, fresh := d.fresh }))

/-- SEAL_LOAD, SEAL_LOAD_DONE, REGION_RELEASE, ZEROING_DONE, TAMPER and SECURE_BOOT. -/
def Obligations.SealedRegions : Prop :=
  (∀ (s : State), s.live →
    let x := s.dev.sec
    (∀ q : SealLoadReq, s.dev.secLive = true →
      let k := q.region.val
      let up := x.takeUp true 0x10
      let fails (code : Nat) : Prop := Runs (.sealLoad q) s fun d =>
        d.sec = { up with secure := ⟨x.runs, code, d.sec.secure.tag, up.secure.started⟩ } ∧ d.out = .sec code :: s.dev.out
        ∧ d = { s.dev with sec := d.sec, out := d.out, fresh := d.fresh }
      (q.secure = false → Runs (.sealLoad q) s fun d =>
        d.sec = { x with nonSecure := ⟨false, secNotAllowed, d.sec.nonSecure.tag, x.nonSecure.started⟩ }
        ∧ d = { s.dev with sec := d.sec, out := d.out, fresh := d.fresh }) ∧
      (q.secure = true → s.dev.pwr.hs (k / 64) ≠ .trained ∨ x.runs = true → Runs (.sealLoad q) s fun d =>
        d = { s.dev with sec := { up with waiting := x.waiting ++ [q], secure := { up.secure with busy := true } } }) ∧
      (q.secure = true → s.dev.pwr.hs (k / 64) = .trained → x.runs = false →
        let form := q.package.formOk = true ∧ q.package.step ≤ 64
        let signed := x.signed q.sig = true ∧ q.sig.owner = q.package.owner
        let fits := (q.package.size + 127) / 128 * 128 ≤ s.dev.openSize (k / 64) (k % 64)
        (¬form → fails secMalformed) ∧ (form → ¬signed → fails secSignature) ∧
        (form → signed → q.package.step < x.step → fails secRollback) ∧
        (form → signed → x.step ≤ q.package.step → ¬fits → fails secTooSmall) ∧
        (form → signed → x.step ≤ q.package.step → fits → q.package.modelKey = none → ∃ code, code ≠ secDone ∧ fails code) ∧
        (form → signed → x.step ≤ q.package.step → fits → q.package.modelKey ≠ none → x.freeSlot = none ∨ (x.region k).phase ≠ .none →
          fails secSlotInUse) ∧
        (∀ key slot, form → signed → x.step ≤ q.package.step → fits → q.package.modelKey = some key → x.freeSlot = some slot →
          (x.region k).phase = .none → Runs (.sealLoad q) s fun d =>
            d.sec.region k = ⟨.moving, slot, q.package.size, q.package.digest, key, (d.sec.region k).tag, secDone⟩ ∧ d.sec.keys = slot :: x.keys
            ∧ d.sec.secure = { up.secure with busy := true } ∧ (∀ j, j ≠ k → d.sec.region j = x.region j)
            ∧ (∀ c : BlockId, c.key ≠ (rgnBlock (k / 64)).key → d.blk c = s.dev.blk c)
            ∧ d = { s.dev with sec := d.sec, moves := d.moves, fresh := d.fresh }))) ∧
    (∀ r : SealDone, (x.region r.region).phase = .loading →
      let k := r.region.val
      let y := x.region k
      let a := (s.dev.regionRange (k / 64) (k % 64)).1
      let top := a + (y.size + 127) / 128 * 128
      (∀ p, y.plain r.chunks = some p → Runs (.sealLoadDone r) s fun d => d.sec = x.setRegion k { y with phase := .readying }
        ∧ p.length = y.size ∧ (∀ i, i < y.size → d.byte (a + i) = p.getD i 0) ∧ (∀ b, a + y.size ≤ b → b < top → d.byte b = 0) ∧ (∀ b, b < a ∨ top ≤ b → d.byte b = s.dev.byte b)
        ∧ d = { s.dev with sec := d.sec, moves := d.moves, mem := d.mem, scrambles := d.scrambles }) ∧
      (y.plain r.chunks = none → Runs (.sealLoadDone r) s fun d => d.sec = x.setRegion k { y with phase := .releasing, result := secDigest }
        ∧ (∀ b, b < a ∨ (s.dev.regionRange (k / 64) (k % 64)).2 ≤ b → d.byte b = s.dev.byte b)
        ∧ d = { s.dev with sec := d.sec, moves := d.moves, mem := d.mem, scrambles := d.scrambles })) ∧
    (∀ r : SealDone, (x.region r.region).phase ≠ .loading → Runs (.sealLoadDone r) s fun d => d = s.dev) ∧
    (∀ r : SecReq, s.dev.secLive = true → r.secure = true → r.arg < 128 →
      let y := x.region r.arg
      (y.phase = .ready → Runs (.regionRelease r) s fun d =>
        d.sec.region r.arg = { y with phase := .closing, tag := (d.sec.region r.arg).tag, result := secDone }
        ∧ d.sec.secure = { (x.takeUp true 0x11).secure with busy := true } ∧ (∀ j, j ≠ r.arg → d.sec.region j = x.region j)
        ∧ d = { s.dev with sec := d.sec, moves := d.moves, fresh := d.fresh }) ∧
      (y.phase = .moving ∨ y.phase = .loading ∨ y.phase = .readying → Runs (.regionRelease r) s fun d =>
        (d.sec.region r.arg).phase = .releasing ∧ (d.sec.region r.arg).slot = y.slot ∧ d.out = .sec secAborted :: s.dev.out
        ∧ (∀ j, j ≠ r.arg → d.sec.region j = x.region j) ∧ d.sec.keys = x.keys)) ∧
    (∀ (b : BlockId) (set : Nat), b.rgnSet = some set → (s.dev.blk b).st = .loading → s.dev.zeroing set = true → s.dev.moveValid b = true →
      Runs (.zeroingDone b) s fun d => d.blk b = { s.dev.blk b with st := .ready }
        ∧ (∀ r ∈ s.dev.zeroRanges set, ∀ a, setBase set + r.1 * granule set ≤ a → a < setBase set + r.2 * granule set → d.byte a = 0)
        ∧ (∀ a, (∀ r ∈ s.dev.zeroRanges set, a < setBase set + r.1 * granule set ∨ setBase set + r.2 * granule set ≤ a) →
            d.byte a = s.dev.byte a)
        ∧ (∀ c : BlockId, c.key ≠ b.key → d.blk c = s.dev.blk c)
        ∧ d = { s.dev with moves := d.moves, mem := d.mem, scrambles := d.scrambles }) ∧
    (∀ r : BootOutcome,
      let p := { s.dev.pwr with inSysReset := false, sysPinLow := false }
      (s.dev.pwr.bringUp ≠ 1 → Runs (.secureBoot r) s fun d => d = s.dev) ∧
      (s.dev.pwr.bringUp = 1 →
        (r.puf = false ∨ x.lifecycle = .scrapped → Runs (.secureBoot r) s fun d => d = { s.dev with pwr := p, sec := { x with boot := 0xE1 } }) ∧
        (r.puf = true → x.lifecycle ≠ .scrapped →
          (x.choose r.secFw = none → Runs (.secureBoot r) s fun d => d = { s.dev with pwr := p, sec := { x with boot := 0xE2 } }) ∧
          (∀ i, x.choose r.secFw = some i →
            (x.choose r.fwc = none ∨ x.choose r.spc = none ∨ x.choose r.apc = none → Runs (.secureBoot r) s fun d =>
              d = { s.dev with pwr := p, sec := { x with boot := 0 } }) ∧
            (∀ j k l, x.choose r.fwc = some j → x.choose r.spc = some k → x.choose r.apc = some l → Runs (.secureBoot r) s fun d =>
              d.sec = { x with boot := 0, digests := i.digest.toList ++ j.digest.toList ++ k.digest.toList ++ l.digest.toList }
              ∧ d.pwr.bringUp = 2 ∧ d = { s.dev with pwr := d.pwr, sec := d.sec, fresh := d.fresh })))))) ∧
  (∀ s : State, Runs .tamper s fun d => d.sec = { s.dev.sec.zeroise with tampered := true, tamperCount := (s.dev.sec.tamperCount + 1) % 2 ^ 32,
                                                                         waiting := [], stalledKeys := [] }
    ∧ d.sec.keys = [] ∧ (∀ p, p < 8 → (s.dev.fab.port p).keyed = true → d.linkActive p = false) ∧ d.mem = s.dev.mem ∧ d.tb = s.dev.tb)

/-- DEBUG_READ, DEBUG_WRITE, DMI_ACCESS, FRAMER_RESET, DEBUG_ACCESS_TIMEOUT and DEBUG_WRITE_REFUSED. -/
def Obligations.DebugFrames : Prop :=
  (∀ (s : State) (w : BitVec 72) (r : DbgArrival) (x : DbgData) (o : DmiOutcome),
    let h := DbgHeader.ofBits w.toNat
    let g := s.dev.dbg
    let frames := [Instr.debugRead w r, .debugWrite w x] ++ (if h.space = 1 then [Instr.dmiAccess w x o] else [])
    let acked (a : DbgAck) : Prop := ∀ c ∈ frames, Runs c s fun d => d = s.dev.note (.dbg a [])
    (h.start = false → ∀ c ∈ frames, Runs c s fun d => d = s.dev) ∧
    (h.start = true → h.crcOk = false → acked .crc) ∧
    (h.start = true → h.crcOk = true →
      (g.faultNext = true → ∀ c ∈ frames, Runs c s fun d => d = { s.dev with dbg := { g with faultNext := false }, out := .dbg .fault [] :: s.dev.out }) ∧
      (g.faultNext = false →
        (g.werr = true → h.space < 3 → acked .fault) ∧
        (g.werr = false ∨ h.space = 3 →
          (∀ p, g.pending = some p → p.header ≠ h → acked .wait) ∧
          (g.pending = none →
            (h.reservedOk = false ∨ h.op ≠ 1 ∧ h.op ≠ 2 → acked .fault) ∧
            (h.reservedOk = true → h.op = 1 ∨ h.op = 2 → s.dev.dbgAllows h = false → acked .denied) ∧
            (h.reservedOk = true → s.dev.dbgAllows h = true →
              (h.op = 1 → h.space = 3 → h.addr % 4 = 0 → 0x100 ∉ h.words → Runs (.debugRead w r) s fun d =>
                d = s.dev.note (.dbg .ok (h.words.flatMap fun a => leBytes 4 (s.dev.portWord a)))) ∧
              (h.op = 1 → h.space = 1 → s.dev.pwr.held = false → o.late = false → Runs (.dmiAccess w x o) s fun d =>
                let b := h.words.flatMap fun a => leBytes 4 (s.dev.dmiWord (s.dev.fresh + (a - h.addr) / 4) (h.addr + (a - h.addr) / 4))
                d = { s.dev with out := .dbg .ok b :: s.dev.out, fresh := s.dev.fresh + h.count }) ∧
              (h.op = 2 →
                (dbgCrc16 ((x.bytes ++ zeros (4 * h.count)).take (4 * h.count)) ≠ x.crc.toNat ∨ x.bytes.length ≠ 4 * h.count →
                  Runs (.debugWrite w x) s fun d => d = { s.dev with out := .dbg .crc [] :: .dbg .ok [] :: s.dev.out }) ∧
                (dbgCrc16 x.bytes = x.crc.toNat → x.bytes.length = 4 * h.count →
                  let word (a : Nat) := (x.bytes.drop (a - h.addr)).take 4
                  (h.space = 3 → h.addr % 4 = 0 → Runs (.debugWrite w x) s fun d =>
                    d = (h.words.foldl (fun d a => d.portWrite a (leNat (word a)) x.hwSet) (s.dev.note (.dbg .ok []))).dbgAck .ok) ∧
                  (h.space = 0 → Runs (.debugWrite w x) s fun d =>
                    d = (h.words.foldl (fun d a => if d.pwr.held then d else d.offer (h.request true a (word a) .clean))
                          (s.dev.note (.dbg .ok []))).dbgAck .ok) ∧
                  (h.space = 1 → s.dev.pwr.held = false →
                    let e := (h.words.foldl (fun d a => d.dmiPut (h.addr + (a - h.addr) / 4) (leNat (word a))) (s.dev.note (.dbg .ok []))).dbgAck .ok
                    let p := (e.dbg.module 1).hartsel
                    e = { s.dev with dbg := { g with modules := e.dbg.modules }, out := .dbg .ok [] :: .dbg .ok [] :: s.dev.out,
                                     fresh := s.dev.fresh + 2 * h.count }
                    ∧ (o.differ = false ∨ bits h.addr 9 8 ≠ 1 → Runs (.dmiAccess w x o) s fun d => d = e)
                    ∧ (o.differ = true → bits h.addr 9 8 = 1 → (e.dbg.module 1).hart p ≠ (g.module 1).hart p → p < 4 →
                        Runs (.dmiAccess w x o) s fun d => d = e.pairMismatch p))))))))) ∧
    (h.space ≠ 1 → Runs (.dmiAccess w x o) s fun d => d = s.dev)) ∧
  (∀ s : State,
    let g := s.dev.dbg
    let noc (d : Device) : Prop := ∀ p : Port, p.key ≠ Port.key Port.debug → d.noc.port p = s.dev.noc.port p
    (Runs .framerReset s fun d => d.dbg = { g with pending := none } ∧ noc d ∧ d = { s.dev with dbg := d.dbg, noc := d.noc }
      ∧ (d.noc.port Port.debug).held = (s.dev.noc.port Port.debug).held.filter fun r => r.write) ∧
    (g.pending ≠ none → Runs .debugAccessTimeout s fun d => d.dbg = { g with pending := none, faultNext := true } ∧ noc d
      ∧ d = { s.dev with dbg := d.dbg, noc := d.noc }) ∧
    (g.pending = none → Runs .debugAccessTimeout s fun d => d = s.dev) ∧
    (Runs .debugWriteRefused s fun d => d.dbg.werr = true) ∧
    ((s.dev.noc.port Port.debug).inflight.all (fun i => !(i.write && i.resp == .error)) = true → Runs .debugWriteRefused s fun d =>
      d = { s.dev with dbg := { g with werr := true }, fresh := s.dev.fresh + 1 }))

/-- CHALLENGE_READ, DEBUG_UNLOCK, UNLOCK_VERIFIED, DEBUG_CLOSE, ENGINE_HALT, ENGINE_RESUME, ENGINE_STEP, BYPASS, IDCODE, SAMPLE_PRELOAD,
EXTEST, EXTEST_PULSE, EXTEST_TRAIN, CLAMP, HIGHZ and TRST_n (TAP_RESET). -/
def Obligations.DebugSession : Prop :=
  ∀ s : State,
    let g := s.dev.dbg
    (s.dev.sec.entropyErr = false → s.dev.sec.entropyStalled = false → Runs .challengeRead s fun d =>
      d.dbg = { g with challenge := d.dbg.challenge, challengeLive := true, challengeAt := d.dbg.challengeAt }
      ∧ d.dbg.challenge.length = 32 ∧ d.out = .dbg .ok (d.dbg.challenge.take 4) :: s.dev.out
      ∧ d = { s.dev with dbg := d.dbg, out := d.out, fresh := d.fresh }) ∧
    (s.dev.sec.entropyErr = true → Runs .challengeRead s fun d => d = s.dev.note (.dbg .fault [])) ∧
    (s.dev.sec.entropyErr = false → s.dev.sec.entropyStalled = true → Runs .challengeRead s fun d => d = s.dev.note (.dbg .wait [])) ∧
    (∀ w : Word,
      (g.unlockBusy = true → Runs (.debugUnlock w) s fun d => d = s.dev) ∧
      (g.unlockBusy = false → Runs (.debugUnlock w) s fun d =>
        d.dbg = { g with unlockBusy := true, challengeLive := false, respFresh := d.dbg.respFresh }
        ∧ (d.dbg.respFresh = true → g.challengeLive = true ∧ w.toNat % 2 ^ 16 ≤ 4096)
        ∧ (g.challengeLive = true → w.toNat % 2 ^ 16 ≤ 4096 → s.dev.tb.started = true →
            s.dev.tn * 1000 + 1000 ≤ g.challengeAt + challengeNs → d.dbg.respFresh = true)
        ∧ (s.dev.tb.started = true → g.challengeAt + challengeNs < s.dev.tn * 1000 → d.dbg.respFresh = false)
        ∧ d = { s.dev with dbg := d.dbg, fresh := d.fresh })) ∧
    (∀ r : UnlockOutcome,
      (g.unlockBusy = false → Runs (.unlockVerified r) s fun d => d = s.dev) ∧
      (g.unlockBusy = true → g.respFresh = true →
        (r.named = true → (r.level = 1 ∨ r.level = 2) ∧ s.dev.sec.signed r.sig = true
            ∨ r.level = 3 ∧ s.dev.sec.lifecycle = .fieldReturn ∧ r.sig.good = true ∧ r.sig.zilvo = true → Runs (.unlockVerified r) s fun d =>
          d = { s.dev with dbg := { g with unlockBusy := false, respFresh := false, level := r.level } })) ∧
      (g.unlockBusy = true → g.respFresh = false ∨ s.dev.sec.unlocks r = false → Runs (.unlockVerified r) s fun d =>
        d = { s.dev with dbg := { g with unlockBusy := false, respFresh := false, unlockFail := true } })) ∧
    (Runs .debugClose s fun d => d.dbg = { g with level := 0, pending := d.dbg.pending } ∧ d = { s.dev with dbg := d.dbg }) ∧
    (∀ (j : Fin 64) (n : Nat), g.werr = false →
      (∀ row ∈ [(Instr.engineHalt j, Eng.halt), (.engineResume j, Eng.resume), (.engineStep j n, Eng.stepFor (n % 2 ^ 16))],
        (s.dev.dbgJob j = false → Runs row.1 s fun d => d = s.dev.note (.dbg .denied [])) ∧
        (s.dev.dbgJob j = true → s.dev.pwr.held = false → Runs row.1 s fun d =>
          (∀ e, e ∈ (s.dev.job j).held → (s.dev.engine e).leaving = false → d.engine e = row.2 (s.dev.engine e))
          ∧ (∀ e, e ∉ (s.dev.job j).held ∨ (s.dev.engine e).leaving = true → d.engine e = s.dev.engine e)
          ∧ d = { s.dev with eng := d.eng }))) ∧
    (∀ v : Nat,
      let low := s.dev.pwr.sysPinLow
      let tap (t : TapInstr) (d : Device) : Prop := d = { s.dev with dbg := { g with tapReset := false, tap := t } }
      (Runs .bypass s (tap .bypass)) ∧
      (Runs .idcode s fun d => d.dbg = { g with tapReset := false, tap := .idcode } ∧ d.out = .tap (idcode Config.manufacturer) :: s.dev.out
        ∧ d = { s.dev with dbg := d.dbg, out := d.out }) ∧
      (Runs (.samplePreload v) s fun d => d.dbg = { g with tapReset := false, tap := .samplePreload, boundary := v }
        ∧ d.out = .tap v :: s.dev.out ∧ d = { s.dev with dbg := d.dbg, out := d.out }) ∧
      (Runs .extest s (tap (if low then .extest else .bypass))) ∧ (Runs .extestPulse s (tap (if low then .extestPulse else .bypass))) ∧
      (Runs .extestTrain s (tap (if low then .extestTrain else .bypass))) ∧ (Runs .clamp s (tap (if low then .clamp else .bypass))) ∧
      (Runs .highz s (tap (if low then .highz else .bypass))) ∧
      (Runs .tapReset s fun d => d = { s.dev with dbg := { g with tapReset := true, tap := .idcode } }))

/-- State.reset (R36, R408, R447, R463, R491). -/
def Obligations.ResetLeaves : Prop :=
  let d := State.reset.dev
  State.reset.pending = [] ∧ d.tb.dt = 0 ∧ d.tb.started = false ∧ Memory.wf d.mem = true ∧ (∀ a, d.byte a = 0)
  ∧ (∀ j, (d.job j).st = .free) ∧ (∀ n, (d.ring n).enable = false ∧ (d.ring n).fill = 0) ∧ (∀ e, (d.engine e).bound = none)
  ∧ d.arb.valid = false ∧ d.arb.safeN = false ∧ d.arb.gateOpen = false ∧ d.dbg.level = 0 ∧ d.dbg.pending = none
  ∧ (∀ p, (d.fgw.port p).st = .off) ∧ (∀ n, (d.fgw.node n).st = .free) ∧ (∀ p, (d.fab.port p).st = .off) ∧ d.fab.id = none

/-- Ring pointers, fill and free space (R166). -/
def Obligations.RingPointers : Prop :=
  let oneOn (p q : RPtr) (count : Nat) : Prop := q.index < count ∧
    (p.index + 1 < count → q.index = p.index + 1 ∧ q.wrap = p.wrap) ∧ (p.index + 1 = count → q.index = 0 ∧ q.wrap = !p.wrap)
  (∀ (p : RPtr) (count : Nat), p.index < count → oneOn p (p.move count 1) count) ∧
  (∀ (s : State) (r : Fin 512), s.live → let g := s.dev.ring r
    g.enable = true →
    (g.head.index < g.count → 1 ≤ g.fill → Runs (.ringAdvance r 1) s fun d => oneOn g.head (d.ring r).head g.count ∧ (d.ring r).tail = g.tail) ∧
    (g.tail.index < g.count → 1 ≤ g.free → Runs (.ringPublish r 1) s fun d => oneOn g.tail (d.ring r).tail g.count ∧ (d.ring r).head = g.head)) ∧
  (∀ g : Ring, g.head.index < g.count → g.tail.index < g.count →
    (g.head.wrap = g.tail.wrap → g.fill = g.tail.index - g.head.index) ∧
    (g.head.wrap ≠ g.tail.wrap → g.fill = g.count - g.head.index + g.tail.index) ∧
    ((g.head.wrap = g.tail.wrap → g.head.index ≤ g.tail.index) →
      (g.fill = 0 ↔ g.head.index = g.tail.index ∧ g.head.wrap = g.tail.wrap)
      ∧ (g.fill = g.count ↔ g.head.index = g.tail.index ∧ g.head.wrap ≠ g.tail.wrap)) ∧
    g.free = g.count - g.fill)
end

