-- ==== Sys2Proof/Laws/State.lean ====
section
/-! SUPPORT. The fields that an update of the device leaves, one equation each, and the state that a meaning answers. -/

namespace Sys2Proof.Machine

open Sys2Proof

/-! ### A meaning's answer -/

theorem State.onKeep_eq (s : State) (f : Device → Device) : s.onKeep f = .next { s with dev := f s.dev } := rfl

@[simp] theorem State.on_live (s : State) (f : Device → Device) (h : s.dev.pwr.held = false) :
    s.on f = .next { s with dev := f s.dev } := by simp [State.on, State.onKeep, h]

@[simp] theorem State.on_held (s : State) (f : Device → Device) (h : s.dev.pwr.held = true) : s.on f = .next s := by
  simp [State.on, State.onKeep, h]

/-! ### Device.setBlk -/

@[simp] theorem Device.setBlk_mem (d : Device) (b : BlockId) (v : MoveBlk) : (d.setBlk b v).mem = d.mem := rfl
@[simp] theorem Device.setBlk_scrambles (d : Device) (b : BlockId) (v : MoveBlk) : (d.setBlk b v).scrambles = d.scrambles := rfl
@[simp] theorem Device.setBlk_tb (d : Device) (b : BlockId) (v : MoveBlk) : (d.setBlk b v).tb = d.tb := rfl
@[simp] theorem Device.setBlk_cal (d : Device) (b : BlockId) (v : MoveBlk) : (d.setBlk b v).cal = d.cal := rfl
@[simp] theorem Device.setBlk_groups (d : Device) (b : BlockId) (v : MoveBlk) : (d.setBlk b v).groups = d.groups := rfl
@[simp] theorem Device.setBlk_rings (d : Device) (b : BlockId) (v : MoveBlk) : (d.setBlk b v).rings = d.rings := rfl
@[simp] theorem Device.setBlk_jobs (d : Device) (b : BlockId) (v : MoveBlk) : (d.setBlk b v).jobs = d.jobs := rfl
@[simp] theorem Device.setBlk_sched (d : Device) (b : BlockId) (v : MoveBlk) : (d.setBlk b v).sched = d.sched := rfl
@[simp] theorem Device.setBlk_eng (d : Device) (b : BlockId) (v : MoveBlk) : (d.setBlk b v).eng = d.eng := rfl
@[simp] theorem Device.setBlk_noc (d : Device) (b : BlockId) (v : MoveBlk) : (d.setBlk b v).noc = d.noc := rfl
@[simp] theorem Device.setBlk_stk (d : Device) (b : BlockId) (v : MoveBlk) : (d.setBlk b v).stk = d.stk := rfl
@[simp] theorem Device.setBlk_proc (d : Device) (b : BlockId) (v : MoveBlk) : (d.setBlk b v).proc = d.proc := rfl
@[simp] theorem Device.setBlk_fab (d : Device) (b : BlockId) (v : MoveBlk) : (d.setBlk b v).fab = d.fab := rfl
@[simp] theorem Device.setBlk_mce (d : Device) (b : BlockId) (v : MoveBlk) : (d.setBlk b v).mce = d.mce := rfl
@[simp] theorem Device.setBlk_gfx (d : Device) (b : BlockId) (v : MoveBlk) : (d.setBlk b v).gfx = d.gfx := rfl
@[simp] theorem Device.setBlk_fgw (d : Device) (b : BlockId) (v : MoveBlk) : (d.setBlk b v).fgw = d.fgw := rfl
@[simp] theorem Device.setBlk_dict (d : Device) (b : BlockId) (v : MoveBlk) : (d.setBlk b v).dict = d.dict := rfl
@[simp] theorem Device.setBlk_arb (d : Device) (b : BlockId) (v : MoveBlk) : (d.setBlk b v).arb = d.arb := rfl
@[simp] theorem Device.setBlk_sec (d : Device) (b : BlockId) (v : MoveBlk) : (d.setBlk b v).sec = d.sec := rfl
@[simp] theorem Device.setBlk_pwr (d : Device) (b : BlockId) (v : MoveBlk) : (d.setBlk b v).pwr = d.pwr := rfl
@[simp] theorem Device.setBlk_dbg (d : Device) (b : BlockId) (v : MoveBlk) : (d.setBlk b v).dbg = d.dbg := rfl
@[simp] theorem Device.setBlk_regs (d : Device) (b : BlockId) (v : MoveBlk) : (d.setBlk b v).regs = d.regs := rfl
@[simp] theorem Device.setBlk_rcs (d : Device) (b : BlockId) (v : MoveBlk) : (d.setBlk b v).rcs = d.rcs := rfl
@[simp] theorem Device.setBlk_holds (d : Device) (b : BlockId) (v : MoveBlk) : (d.setBlk b v).holds = d.holds := rfl
@[simp] theorem Device.setBlk_out (d : Device) (b : BlockId) (v : MoveBlk) : (d.setBlk b v).out = d.out := rfl
@[simp] theorem Device.setBlk_fresh (d : Device) (b : BlockId) (v : MoveBlk) : (d.setBlk b v).fresh = d.fresh := rfl

/-! ### Device.setRing -/

@[simp] theorem Device.setRing_mem (d : Device) (n : Nat) (r : Ring) : (d.setRing n r).mem = d.mem := rfl
@[simp] theorem Device.setRing_scrambles (d : Device) (n : Nat) (r : Ring) : (d.setRing n r).scrambles = d.scrambles := rfl
@[simp] theorem Device.setRing_tb (d : Device) (n : Nat) (r : Ring) : (d.setRing n r).tb = d.tb := rfl
@[simp] theorem Device.setRing_cal (d : Device) (n : Nat) (r : Ring) : (d.setRing n r).cal = d.cal := rfl
@[simp] theorem Device.setRing_moves (d : Device) (n : Nat) (r : Ring) : (d.setRing n r).moves = d.moves := rfl
@[simp] theorem Device.setRing_groups (d : Device) (n : Nat) (r : Ring) : (d.setRing n r).groups = d.groups := rfl
@[simp] theorem Device.setRing_jobs (d : Device) (n : Nat) (r : Ring) : (d.setRing n r).jobs = d.jobs := rfl
@[simp] theorem Device.setRing_sched (d : Device) (n : Nat) (r : Ring) : (d.setRing n r).sched = d.sched := rfl
@[simp] theorem Device.setRing_eng (d : Device) (n : Nat) (r : Ring) : (d.setRing n r).eng = d.eng := rfl
@[simp] theorem Device.setRing_noc (d : Device) (n : Nat) (r : Ring) : (d.setRing n r).noc = d.noc := rfl
@[simp] theorem Device.setRing_stk (d : Device) (n : Nat) (r : Ring) : (d.setRing n r).stk = d.stk := rfl
@[simp] theorem Device.setRing_proc (d : Device) (n : Nat) (r : Ring) : (d.setRing n r).proc = d.proc := rfl
@[simp] theorem Device.setRing_fab (d : Device) (n : Nat) (r : Ring) : (d.setRing n r).fab = d.fab := rfl
@[simp] theorem Device.setRing_mce (d : Device) (n : Nat) (r : Ring) : (d.setRing n r).mce = d.mce := rfl
@[simp] theorem Device.setRing_gfx (d : Device) (n : Nat) (r : Ring) : (d.setRing n r).gfx = d.gfx := rfl
@[simp] theorem Device.setRing_fgw (d : Device) (n : Nat) (r : Ring) : (d.setRing n r).fgw = d.fgw := rfl
@[simp] theorem Device.setRing_dict (d : Device) (n : Nat) (r : Ring) : (d.setRing n r).dict = d.dict := rfl
@[simp] theorem Device.setRing_arb (d : Device) (n : Nat) (r : Ring) : (d.setRing n r).arb = d.arb := rfl
@[simp] theorem Device.setRing_sec (d : Device) (n : Nat) (r : Ring) : (d.setRing n r).sec = d.sec := rfl
@[simp] theorem Device.setRing_pwr (d : Device) (n : Nat) (r : Ring) : (d.setRing n r).pwr = d.pwr := rfl
@[simp] theorem Device.setRing_dbg (d : Device) (n : Nat) (r : Ring) : (d.setRing n r).dbg = d.dbg := rfl
@[simp] theorem Device.setRing_regs (d : Device) (n : Nat) (r : Ring) : (d.setRing n r).regs = d.regs := rfl
@[simp] theorem Device.setRing_rcs (d : Device) (n : Nat) (r : Ring) : (d.setRing n r).rcs = d.rcs := rfl
@[simp] theorem Device.setRing_holds (d : Device) (n : Nat) (r : Ring) : (d.setRing n r).holds = d.holds := rfl
@[simp] theorem Device.setRing_out (d : Device) (n : Nat) (r : Ring) : (d.setRing n r).out = d.out := rfl
@[simp] theorem Device.setRing_fresh (d : Device) (n : Nat) (r : Ring) : (d.setRing n r).fresh = d.fresh := rfl

/-! ### Device.setJob -/

@[simp] theorem Device.setJob_mem (d : Device) (j : Nat) (v : Job) : (d.setJob j v).mem = d.mem := rfl
@[simp] theorem Device.setJob_scrambles (d : Device) (j : Nat) (v : Job) : (d.setJob j v).scrambles = d.scrambles := rfl
@[simp] theorem Device.setJob_tb (d : Device) (j : Nat) (v : Job) : (d.setJob j v).tb = d.tb := rfl
@[simp] theorem Device.setJob_cal (d : Device) (j : Nat) (v : Job) : (d.setJob j v).cal = d.cal := rfl
@[simp] theorem Device.setJob_moves (d : Device) (j : Nat) (v : Job) : (d.setJob j v).moves = d.moves := rfl
@[simp] theorem Device.setJob_groups (d : Device) (j : Nat) (v : Job) : (d.setJob j v).groups = d.groups := rfl
@[simp] theorem Device.setJob_rings (d : Device) (j : Nat) (v : Job) : (d.setJob j v).rings = d.rings := rfl
@[simp] theorem Device.setJob_sched (d : Device) (j : Nat) (v : Job) : (d.setJob j v).sched = d.sched := rfl
@[simp] theorem Device.setJob_eng (d : Device) (j : Nat) (v : Job) : (d.setJob j v).eng = d.eng := rfl
@[simp] theorem Device.setJob_noc (d : Device) (j : Nat) (v : Job) : (d.setJob j v).noc = d.noc := rfl
@[simp] theorem Device.setJob_stk (d : Device) (j : Nat) (v : Job) : (d.setJob j v).stk = d.stk := rfl
@[simp] theorem Device.setJob_proc (d : Device) (j : Nat) (v : Job) : (d.setJob j v).proc = d.proc := rfl
@[simp] theorem Device.setJob_fab (d : Device) (j : Nat) (v : Job) : (d.setJob j v).fab = d.fab := rfl
@[simp] theorem Device.setJob_mce (d : Device) (j : Nat) (v : Job) : (d.setJob j v).mce = d.mce := rfl
@[simp] theorem Device.setJob_gfx (d : Device) (j : Nat) (v : Job) : (d.setJob j v).gfx = d.gfx := rfl
@[simp] theorem Device.setJob_fgw (d : Device) (j : Nat) (v : Job) : (d.setJob j v).fgw = d.fgw := rfl
@[simp] theorem Device.setJob_dict (d : Device) (j : Nat) (v : Job) : (d.setJob j v).dict = d.dict := rfl
@[simp] theorem Device.setJob_arb (d : Device) (j : Nat) (v : Job) : (d.setJob j v).arb = d.arb := rfl
@[simp] theorem Device.setJob_sec (d : Device) (j : Nat) (v : Job) : (d.setJob j v).sec = d.sec := rfl
@[simp] theorem Device.setJob_pwr (d : Device) (j : Nat) (v : Job) : (d.setJob j v).pwr = d.pwr := rfl
@[simp] theorem Device.setJob_dbg (d : Device) (j : Nat) (v : Job) : (d.setJob j v).dbg = d.dbg := rfl
@[simp] theorem Device.setJob_regs (d : Device) (j : Nat) (v : Job) : (d.setJob j v).regs = d.regs := rfl
@[simp] theorem Device.setJob_rcs (d : Device) (j : Nat) (v : Job) : (d.setJob j v).rcs = d.rcs := rfl
@[simp] theorem Device.setJob_holds (d : Device) (j : Nat) (v : Job) : (d.setJob j v).holds = d.holds := rfl
@[simp] theorem Device.setJob_out (d : Device) (j : Nat) (v : Job) : (d.setJob j v).out = d.out := rfl
@[simp] theorem Device.setJob_fresh (d : Device) (j : Nat) (v : Job) : (d.setJob j v).fresh = d.fresh := rfl

/-! ### Device.setEng -/

@[simp] theorem Device.setEng_mem (d : Device) (e : Nat) (v : Eng) : (d.setEng e v).mem = d.mem := rfl
@[simp] theorem Device.setEng_scrambles (d : Device) (e : Nat) (v : Eng) : (d.setEng e v).scrambles = d.scrambles := rfl
@[simp] theorem Device.setEng_tb (d : Device) (e : Nat) (v : Eng) : (d.setEng e v).tb = d.tb := rfl
@[simp] theorem Device.setEng_cal (d : Device) (e : Nat) (v : Eng) : (d.setEng e v).cal = d.cal := rfl
@[simp] theorem Device.setEng_moves (d : Device) (e : Nat) (v : Eng) : (d.setEng e v).moves = d.moves := rfl
@[simp] theorem Device.setEng_groups (d : Device) (e : Nat) (v : Eng) : (d.setEng e v).groups = d.groups := rfl
@[simp] theorem Device.setEng_rings (d : Device) (e : Nat) (v : Eng) : (d.setEng e v).rings = d.rings := rfl
@[simp] theorem Device.setEng_jobs (d : Device) (e : Nat) (v : Eng) : (d.setEng e v).jobs = d.jobs := rfl
@[simp] theorem Device.setEng_sched (d : Device) (e : Nat) (v : Eng) : (d.setEng e v).sched = d.sched := rfl
@[simp] theorem Device.setEng_noc (d : Device) (e : Nat) (v : Eng) : (d.setEng e v).noc = d.noc := rfl
@[simp] theorem Device.setEng_stk (d : Device) (e : Nat) (v : Eng) : (d.setEng e v).stk = d.stk := rfl
@[simp] theorem Device.setEng_proc (d : Device) (e : Nat) (v : Eng) : (d.setEng e v).proc = d.proc := rfl
@[simp] theorem Device.setEng_fab (d : Device) (e : Nat) (v : Eng) : (d.setEng e v).fab = d.fab := rfl
@[simp] theorem Device.setEng_mce (d : Device) (e : Nat) (v : Eng) : (d.setEng e v).mce = d.mce := rfl
@[simp] theorem Device.setEng_gfx (d : Device) (e : Nat) (v : Eng) : (d.setEng e v).gfx = d.gfx := rfl
@[simp] theorem Device.setEng_fgw (d : Device) (e : Nat) (v : Eng) : (d.setEng e v).fgw = d.fgw := rfl
@[simp] theorem Device.setEng_dict (d : Device) (e : Nat) (v : Eng) : (d.setEng e v).dict = d.dict := rfl
@[simp] theorem Device.setEng_arb (d : Device) (e : Nat) (v : Eng) : (d.setEng e v).arb = d.arb := rfl
@[simp] theorem Device.setEng_sec (d : Device) (e : Nat) (v : Eng) : (d.setEng e v).sec = d.sec := rfl
@[simp] theorem Device.setEng_pwr (d : Device) (e : Nat) (v : Eng) : (d.setEng e v).pwr = d.pwr := rfl
@[simp] theorem Device.setEng_dbg (d : Device) (e : Nat) (v : Eng) : (d.setEng e v).dbg = d.dbg := rfl
@[simp] theorem Device.setEng_regs (d : Device) (e : Nat) (v : Eng) : (d.setEng e v).regs = d.regs := rfl
@[simp] theorem Device.setEng_rcs (d : Device) (e : Nat) (v : Eng) : (d.setEng e v).rcs = d.rcs := rfl
@[simp] theorem Device.setEng_holds (d : Device) (e : Nat) (v : Eng) : (d.setEng e v).holds = d.holds := rfl
@[simp] theorem Device.setEng_out (d : Device) (e : Nat) (v : Eng) : (d.setEng e v).out = d.out := rfl
@[simp] theorem Device.setEng_fresh (d : Device) (e : Nat) (v : Eng) : (d.setEng e v).fresh = d.fresh := rfl

/-! ### Device.note -/

@[simp] theorem Device.note_mem (d : Device) (n : Note) : (d.note n).mem = d.mem := rfl
@[simp] theorem Device.note_scrambles (d : Device) (n : Note) : (d.note n).scrambles = d.scrambles := rfl
@[simp] theorem Device.note_tb (d : Device) (n : Note) : (d.note n).tb = d.tb := rfl
@[simp] theorem Device.note_cal (d : Device) (n : Note) : (d.note n).cal = d.cal := rfl
@[simp] theorem Device.note_moves (d : Device) (n : Note) : (d.note n).moves = d.moves := rfl
@[simp] theorem Device.note_groups (d : Device) (n : Note) : (d.note n).groups = d.groups := rfl
@[simp] theorem Device.note_rings (d : Device) (n : Note) : (d.note n).rings = d.rings := rfl
@[simp] theorem Device.note_jobs (d : Device) (n : Note) : (d.note n).jobs = d.jobs := rfl
@[simp] theorem Device.note_sched (d : Device) (n : Note) : (d.note n).sched = d.sched := rfl
@[simp] theorem Device.note_eng (d : Device) (n : Note) : (d.note n).eng = d.eng := rfl
@[simp] theorem Device.note_noc (d : Device) (n : Note) : (d.note n).noc = d.noc := rfl
@[simp] theorem Device.note_stk (d : Device) (n : Note) : (d.note n).stk = d.stk := rfl
@[simp] theorem Device.note_proc (d : Device) (n : Note) : (d.note n).proc = d.proc := rfl
@[simp] theorem Device.note_fab (d : Device) (n : Note) : (d.note n).fab = d.fab := rfl
@[simp] theorem Device.note_mce (d : Device) (n : Note) : (d.note n).mce = d.mce := rfl
@[simp] theorem Device.note_gfx (d : Device) (n : Note) : (d.note n).gfx = d.gfx := rfl
@[simp] theorem Device.note_fgw (d : Device) (n : Note) : (d.note n).fgw = d.fgw := rfl
@[simp] theorem Device.note_dict (d : Device) (n : Note) : (d.note n).dict = d.dict := rfl
@[simp] theorem Device.note_arb (d : Device) (n : Note) : (d.note n).arb = d.arb := rfl
@[simp] theorem Device.note_sec (d : Device) (n : Note) : (d.note n).sec = d.sec := rfl
@[simp] theorem Device.note_pwr (d : Device) (n : Note) : (d.note n).pwr = d.pwr := rfl
@[simp] theorem Device.note_dbg (d : Device) (n : Note) : (d.note n).dbg = d.dbg := rfl
@[simp] theorem Device.note_regs (d : Device) (n : Note) : (d.note n).regs = d.regs := rfl
@[simp] theorem Device.note_rcs (d : Device) (n : Note) : (d.note n).rcs = d.rcs := rfl
@[simp] theorem Device.note_holds (d : Device) (n : Note) : (d.note n).holds = d.holds := rfl
@[simp] theorem Device.note_fresh (d : Device) (n : Note) : (d.note n).fresh = d.fresh := rfl

/-! ### Device.count -/

@[simp] theorem Device.count_mem (d : Device) (a n : Nat) : (d.count a n).mem = d.mem := rfl
@[simp] theorem Device.count_scrambles (d : Device) (a n : Nat) : (d.count a n).scrambles = d.scrambles := rfl
@[simp] theorem Device.count_tb (d : Device) (a n : Nat) : (d.count a n).tb = d.tb := rfl
@[simp] theorem Device.count_cal (d : Device) (a n : Nat) : (d.count a n).cal = d.cal := rfl
@[simp] theorem Device.count_moves (d : Device) (a n : Nat) : (d.count a n).moves = d.moves := rfl
@[simp] theorem Device.count_groups (d : Device) (a n : Nat) : (d.count a n).groups = d.groups := rfl
@[simp] theorem Device.count_rings (d : Device) (a n : Nat) : (d.count a n).rings = d.rings := rfl
@[simp] theorem Device.count_jobs (d : Device) (a n : Nat) : (d.count a n).jobs = d.jobs := rfl
@[simp] theorem Device.count_sched (d : Device) (a n : Nat) : (d.count a n).sched = d.sched := rfl
@[simp] theorem Device.count_eng (d : Device) (a n : Nat) : (d.count a n).eng = d.eng := rfl
@[simp] theorem Device.count_stk (d : Device) (a n : Nat) : (d.count a n).stk = d.stk := rfl
@[simp] theorem Device.count_proc (d : Device) (a n : Nat) : (d.count a n).proc = d.proc := rfl
@[simp] theorem Device.count_fab (d : Device) (a n : Nat) : (d.count a n).fab = d.fab := rfl
@[simp] theorem Device.count_mce (d : Device) (a n : Nat) : (d.count a n).mce = d.mce := rfl
@[simp] theorem Device.count_gfx (d : Device) (a n : Nat) : (d.count a n).gfx = d.gfx := rfl
@[simp] theorem Device.count_fgw (d : Device) (a n : Nat) : (d.count a n).fgw = d.fgw := rfl
@[simp] theorem Device.count_dict (d : Device) (a n : Nat) : (d.count a n).dict = d.dict := rfl
@[simp] theorem Device.count_arb (d : Device) (a n : Nat) : (d.count a n).arb = d.arb := rfl
@[simp] theorem Device.count_sec (d : Device) (a n : Nat) : (d.count a n).sec = d.sec := rfl
@[simp] theorem Device.count_pwr (d : Device) (a n : Nat) : (d.count a n).pwr = d.pwr := rfl
@[simp] theorem Device.count_dbg (d : Device) (a n : Nat) : (d.count a n).dbg = d.dbg := rfl
@[simp] theorem Device.count_regs (d : Device) (a n : Nat) : (d.count a n).regs = d.regs := rfl
@[simp] theorem Device.count_rcs (d : Device) (a n : Nat) : (d.count a n).rcs = d.rcs := rfl
@[simp] theorem Device.count_holds (d : Device) (a n : Nat) : (d.count a n).holds = d.holds := rfl
@[simp] theorem Device.count_out (d : Device) (a n : Nat) : (d.count a n).out = d.out := rfl
@[simp] theorem Device.count_fresh (d : Device) (a n : Nat) : (d.count a n).fresh = d.fresh := rfl

/-! ### Device.putByte -/

@[simp] theorem Device.putByte_scrambles (d : Device) (a : Nat) (v : Byte) : (d.putByte a v).scrambles = d.scrambles := rfl
@[simp] theorem Device.putByte_tb (d : Device) (a : Nat) (v : Byte) : (d.putByte a v).tb = d.tb := rfl
@[simp] theorem Device.putByte_cal (d : Device) (a : Nat) (v : Byte) : (d.putByte a v).cal = d.cal := rfl
@[simp] theorem Device.putByte_moves (d : Device) (a : Nat) (v : Byte) : (d.putByte a v).moves = d.moves := rfl
@[simp] theorem Device.putByte_groups (d : Device) (a : Nat) (v : Byte) : (d.putByte a v).groups = d.groups := rfl
@[simp] theorem Device.putByte_rings (d : Device) (a : Nat) (v : Byte) : (d.putByte a v).rings = d.rings := rfl
@[simp] theorem Device.putByte_jobs (d : Device) (a : Nat) (v : Byte) : (d.putByte a v).jobs = d.jobs := rfl
@[simp] theorem Device.putByte_sched (d : Device) (a : Nat) (v : Byte) : (d.putByte a v).sched = d.sched := rfl
@[simp] theorem Device.putByte_eng (d : Device) (a : Nat) (v : Byte) : (d.putByte a v).eng = d.eng := rfl
@[simp] theorem Device.putByte_noc (d : Device) (a : Nat) (v : Byte) : (d.putByte a v).noc = d.noc := rfl
@[simp] theorem Device.putByte_stk (d : Device) (a : Nat) (v : Byte) : (d.putByte a v).stk = d.stk := rfl
@[simp] theorem Device.putByte_proc (d : Device) (a : Nat) (v : Byte) : (d.putByte a v).proc = d.proc := rfl
@[simp] theorem Device.putByte_fab (d : Device) (a : Nat) (v : Byte) : (d.putByte a v).fab = d.fab := rfl
@[simp] theorem Device.putByte_mce (d : Device) (a : Nat) (v : Byte) : (d.putByte a v).mce = d.mce := rfl
@[simp] theorem Device.putByte_gfx (d : Device) (a : Nat) (v : Byte) : (d.putByte a v).gfx = d.gfx := rfl
@[simp] theorem Device.putByte_fgw (d : Device) (a : Nat) (v : Byte) : (d.putByte a v).fgw = d.fgw := rfl
@[simp] theorem Device.putByte_dict (d : Device) (a : Nat) (v : Byte) : (d.putByte a v).dict = d.dict := rfl
@[simp] theorem Device.putByte_arb (d : Device) (a : Nat) (v : Byte) : (d.putByte a v).arb = d.arb := rfl
@[simp] theorem Device.putByte_sec (d : Device) (a : Nat) (v : Byte) : (d.putByte a v).sec = d.sec := rfl
@[simp] theorem Device.putByte_pwr (d : Device) (a : Nat) (v : Byte) : (d.putByte a v).pwr = d.pwr := rfl
@[simp] theorem Device.putByte_dbg (d : Device) (a : Nat) (v : Byte) : (d.putByte a v).dbg = d.dbg := rfl
@[simp] theorem Device.putByte_regs (d : Device) (a : Nat) (v : Byte) : (d.putByte a v).regs = d.regs := rfl
@[simp] theorem Device.putByte_rcs (d : Device) (a : Nat) (v : Byte) : (d.putByte a v).rcs = d.rcs := rfl
@[simp] theorem Device.putByte_holds (d : Device) (a : Nat) (v : Byte) : (d.putByte a v).holds = d.holds := rfl
@[simp] theorem Device.putByte_out (d : Device) (a : Nat) (v : Byte) : (d.putByte a v).out = d.out := rfl
@[simp] theorem Device.putByte_fresh (d : Device) (a : Nat) (v : Byte) : (d.putByte a v).fresh = d.fresh := rfl

/-! ### Device.modJob -/

@[simp] theorem Device.modJob_mem (d : Device) (j : Nat) (f : Job → Job) : (d.modJob j f).mem = d.mem := rfl
@[simp] theorem Device.modJob_scrambles (d : Device) (j : Nat) (f : Job → Job) : (d.modJob j f).scrambles = d.scrambles := rfl
@[simp] theorem Device.modJob_tb (d : Device) (j : Nat) (f : Job → Job) : (d.modJob j f).tb = d.tb := rfl
@[simp] theorem Device.modJob_cal (d : Device) (j : Nat) (f : Job → Job) : (d.modJob j f).cal = d.cal := rfl
@[simp] theorem Device.modJob_moves (d : Device) (j : Nat) (f : Job → Job) : (d.modJob j f).moves = d.moves := rfl
@[simp] theorem Device.modJob_groups (d : Device) (j : Nat) (f : Job → Job) : (d.modJob j f).groups = d.groups := rfl
@[simp] theorem Device.modJob_rings (d : Device) (j : Nat) (f : Job → Job) : (d.modJob j f).rings = d.rings := rfl
@[simp] theorem Device.modJob_sched (d : Device) (j : Nat) (f : Job → Job) : (d.modJob j f).sched = d.sched := rfl
@[simp] theorem Device.modJob_eng (d : Device) (j : Nat) (f : Job → Job) : (d.modJob j f).eng = d.eng := rfl
@[simp] theorem Device.modJob_noc (d : Device) (j : Nat) (f : Job → Job) : (d.modJob j f).noc = d.noc := rfl
@[simp] theorem Device.modJob_stk (d : Device) (j : Nat) (f : Job → Job) : (d.modJob j f).stk = d.stk := rfl
@[simp] theorem Device.modJob_proc (d : Device) (j : Nat) (f : Job → Job) : (d.modJob j f).proc = d.proc := rfl
@[simp] theorem Device.modJob_fab (d : Device) (j : Nat) (f : Job → Job) : (d.modJob j f).fab = d.fab := rfl
@[simp] theorem Device.modJob_mce (d : Device) (j : Nat) (f : Job → Job) : (d.modJob j f).mce = d.mce := rfl
@[simp] theorem Device.modJob_gfx (d : Device) (j : Nat) (f : Job → Job) : (d.modJob j f).gfx = d.gfx := rfl
@[simp] theorem Device.modJob_fgw (d : Device) (j : Nat) (f : Job → Job) : (d.modJob j f).fgw = d.fgw := rfl
@[simp] theorem Device.modJob_dict (d : Device) (j : Nat) (f : Job → Job) : (d.modJob j f).dict = d.dict := rfl
@[simp] theorem Device.modJob_arb (d : Device) (j : Nat) (f : Job → Job) : (d.modJob j f).arb = d.arb := rfl
@[simp] theorem Device.modJob_sec (d : Device) (j : Nat) (f : Job → Job) : (d.modJob j f).sec = d.sec := rfl
@[simp] theorem Device.modJob_pwr (d : Device) (j : Nat) (f : Job → Job) : (d.modJob j f).pwr = d.pwr := rfl
@[simp] theorem Device.modJob_dbg (d : Device) (j : Nat) (f : Job → Job) : (d.modJob j f).dbg = d.dbg := rfl
@[simp] theorem Device.modJob_regs (d : Device) (j : Nat) (f : Job → Job) : (d.modJob j f).regs = d.regs := rfl
@[simp] theorem Device.modJob_rcs (d : Device) (j : Nat) (f : Job → Job) : (d.modJob j f).rcs = d.rcs := rfl
@[simp] theorem Device.modJob_holds (d : Device) (j : Nat) (f : Job → Job) : (d.modJob j f).holds = d.holds := rfl
@[simp] theorem Device.modJob_out (d : Device) (j : Nat) (f : Job → Job) : (d.modJob j f).out = d.out := rfl
@[simp] theorem Device.modJob_fresh (d : Device) (j : Nat) (f : Job → Job) : (d.modJob j f).fresh = d.fresh := rfl

/-! ### Device.modEng -/

@[simp] theorem Device.modEng_mem (d : Device) (e : Nat) (f : Eng → Eng) : (d.modEng e f).mem = d.mem := rfl
@[simp] theorem Device.modEng_scrambles (d : Device) (e : Nat) (f : Eng → Eng) : (d.modEng e f).scrambles = d.scrambles := rfl
@[simp] theorem Device.modEng_tb (d : Device) (e : Nat) (f : Eng → Eng) : (d.modEng e f).tb = d.tb := rfl
@[simp] theorem Device.modEng_cal (d : Device) (e : Nat) (f : Eng → Eng) : (d.modEng e f).cal = d.cal := rfl
@[simp] theorem Device.modEng_moves (d : Device) (e : Nat) (f : Eng → Eng) : (d.modEng e f).moves = d.moves := rfl
@[simp] theorem Device.modEng_groups (d : Device) (e : Nat) (f : Eng → Eng) : (d.modEng e f).groups = d.groups := rfl
@[simp] theorem Device.modEng_rings (d : Device) (e : Nat) (f : Eng → Eng) : (d.modEng e f).rings = d.rings := rfl
@[simp] theorem Device.modEng_jobs (d : Device) (e : Nat) (f : Eng → Eng) : (d.modEng e f).jobs = d.jobs := rfl
@[simp] theorem Device.modEng_sched (d : Device) (e : Nat) (f : Eng → Eng) : (d.modEng e f).sched = d.sched := rfl
@[simp] theorem Device.modEng_noc (d : Device) (e : Nat) (f : Eng → Eng) : (d.modEng e f).noc = d.noc := rfl
@[simp] theorem Device.modEng_stk (d : Device) (e : Nat) (f : Eng → Eng) : (d.modEng e f).stk = d.stk := rfl
@[simp] theorem Device.modEng_proc (d : Device) (e : Nat) (f : Eng → Eng) : (d.modEng e f).proc = d.proc := rfl
@[simp] theorem Device.modEng_fab (d : Device) (e : Nat) (f : Eng → Eng) : (d.modEng e f).fab = d.fab := rfl
@[simp] theorem Device.modEng_mce (d : Device) (e : Nat) (f : Eng → Eng) : (d.modEng e f).mce = d.mce := rfl
@[simp] theorem Device.modEng_gfx (d : Device) (e : Nat) (f : Eng → Eng) : (d.modEng e f).gfx = d.gfx := rfl
@[simp] theorem Device.modEng_fgw (d : Device) (e : Nat) (f : Eng → Eng) : (d.modEng e f).fgw = d.fgw := rfl
@[simp] theorem Device.modEng_dict (d : Device) (e : Nat) (f : Eng → Eng) : (d.modEng e f).dict = d.dict := rfl
@[simp] theorem Device.modEng_arb (d : Device) (e : Nat) (f : Eng → Eng) : (d.modEng e f).arb = d.arb := rfl
@[simp] theorem Device.modEng_sec (d : Device) (e : Nat) (f : Eng → Eng) : (d.modEng e f).sec = d.sec := rfl
@[simp] theorem Device.modEng_pwr (d : Device) (e : Nat) (f : Eng → Eng) : (d.modEng e f).pwr = d.pwr := rfl
@[simp] theorem Device.modEng_dbg (d : Device) (e : Nat) (f : Eng → Eng) : (d.modEng e f).dbg = d.dbg := rfl
@[simp] theorem Device.modEng_regs (d : Device) (e : Nat) (f : Eng → Eng) : (d.modEng e f).regs = d.regs := rfl
@[simp] theorem Device.modEng_rcs (d : Device) (e : Nat) (f : Eng → Eng) : (d.modEng e f).rcs = d.rcs := rfl
@[simp] theorem Device.modEng_holds (d : Device) (e : Nat) (f : Eng → Eng) : (d.modEng e f).holds = d.holds := rfl
@[simp] theorem Device.modEng_out (d : Device) (e : Nat) (f : Eng → Eng) : (d.modEng e f).out = d.out := rfl
@[simp] theorem Device.modEng_fresh (d : Device) (e : Nat) (f : Eng → Eng) : (d.modEng e f).fresh = d.fresh := rfl

/-! ### Device.modArb -/

@[simp] theorem Device.modArb_mem (d : Device) (f : Arb → Arb) : (d.modArb f).mem = d.mem := rfl
@[simp] theorem Device.modArb_scrambles (d : Device) (f : Arb → Arb) : (d.modArb f).scrambles = d.scrambles := rfl
@[simp] theorem Device.modArb_tb (d : Device) (f : Arb → Arb) : (d.modArb f).tb = d.tb := rfl
@[simp] theorem Device.modArb_cal (d : Device) (f : Arb → Arb) : (d.modArb f).cal = d.cal := rfl
@[simp] theorem Device.modArb_moves (d : Device) (f : Arb → Arb) : (d.modArb f).moves = d.moves := rfl
@[simp] theorem Device.modArb_groups (d : Device) (f : Arb → Arb) : (d.modArb f).groups = d.groups := rfl
@[simp] theorem Device.modArb_rings (d : Device) (f : Arb → Arb) : (d.modArb f).rings = d.rings := rfl
@[simp] theorem Device.modArb_jobs (d : Device) (f : Arb → Arb) : (d.modArb f).jobs = d.jobs := rfl
@[simp] theorem Device.modArb_sched (d : Device) (f : Arb → Arb) : (d.modArb f).sched = d.sched := rfl
@[simp] theorem Device.modArb_eng (d : Device) (f : Arb → Arb) : (d.modArb f).eng = d.eng := rfl
@[simp] theorem Device.modArb_noc (d : Device) (f : Arb → Arb) : (d.modArb f).noc = d.noc := rfl
@[simp] theorem Device.modArb_stk (d : Device) (f : Arb → Arb) : (d.modArb f).stk = d.stk := rfl
@[simp] theorem Device.modArb_proc (d : Device) (f : Arb → Arb) : (d.modArb f).proc = d.proc := rfl
@[simp] theorem Device.modArb_fab (d : Device) (f : Arb → Arb) : (d.modArb f).fab = d.fab := rfl
@[simp] theorem Device.modArb_mce (d : Device) (f : Arb → Arb) : (d.modArb f).mce = d.mce := rfl
@[simp] theorem Device.modArb_gfx (d : Device) (f : Arb → Arb) : (d.modArb f).gfx = d.gfx := rfl
@[simp] theorem Device.modArb_fgw (d : Device) (f : Arb → Arb) : (d.modArb f).fgw = d.fgw := rfl
@[simp] theorem Device.modArb_dict (d : Device) (f : Arb → Arb) : (d.modArb f).dict = d.dict := rfl
@[simp] theorem Device.modArb_sec (d : Device) (f : Arb → Arb) : (d.modArb f).sec = d.sec := rfl
@[simp] theorem Device.modArb_pwr (d : Device) (f : Arb → Arb) : (d.modArb f).pwr = d.pwr := rfl
@[simp] theorem Device.modArb_dbg (d : Device) (f : Arb → Arb) : (d.modArb f).dbg = d.dbg := rfl
@[simp] theorem Device.modArb_regs (d : Device) (f : Arb → Arb) : (d.modArb f).regs = d.regs := rfl
@[simp] theorem Device.modArb_rcs (d : Device) (f : Arb → Arb) : (d.modArb f).rcs = d.rcs := rfl
@[simp] theorem Device.modArb_holds (d : Device) (f : Arb → Arb) : (d.modArb f).holds = d.holds := rfl
@[simp] theorem Device.modArb_out (d : Device) (f : Arb → Arb) : (d.modArb f).out = d.out := rfl
@[simp] theorem Device.modArb_fresh (d : Device) (f : Arb → Arb) : (d.modArb f).fresh = d.fresh := rfl

/-! ### Device.modDbg -/

@[simp] theorem Device.modDbg_mem (d : Device) (f : Dbg → Dbg) : (d.modDbg f).mem = d.mem := rfl
@[simp] theorem Device.modDbg_scrambles (d : Device) (f : Dbg → Dbg) : (d.modDbg f).scrambles = d.scrambles := rfl
@[simp] theorem Device.modDbg_tb (d : Device) (f : Dbg → Dbg) : (d.modDbg f).tb = d.tb := rfl
@[simp] theorem Device.modDbg_cal (d : Device) (f : Dbg → Dbg) : (d.modDbg f).cal = d.cal := rfl
@[simp] theorem Device.modDbg_moves (d : Device) (f : Dbg → Dbg) : (d.modDbg f).moves = d.moves := rfl
@[simp] theorem Device.modDbg_groups (d : Device) (f : Dbg → Dbg) : (d.modDbg f).groups = d.groups := rfl
@[simp] theorem Device.modDbg_rings (d : Device) (f : Dbg → Dbg) : (d.modDbg f).rings = d.rings := rfl
@[simp] theorem Device.modDbg_jobs (d : Device) (f : Dbg → Dbg) : (d.modDbg f).jobs = d.jobs := rfl
@[simp] theorem Device.modDbg_sched (d : Device) (f : Dbg → Dbg) : (d.modDbg f).sched = d.sched := rfl
@[simp] theorem Device.modDbg_eng (d : Device) (f : Dbg → Dbg) : (d.modDbg f).eng = d.eng := rfl
@[simp] theorem Device.modDbg_noc (d : Device) (f : Dbg → Dbg) : (d.modDbg f).noc = d.noc := rfl
@[simp] theorem Device.modDbg_stk (d : Device) (f : Dbg → Dbg) : (d.modDbg f).stk = d.stk := rfl
@[simp] theorem Device.modDbg_proc (d : Device) (f : Dbg → Dbg) : (d.modDbg f).proc = d.proc := rfl
@[simp] theorem Device.modDbg_fab (d : Device) (f : Dbg → Dbg) : (d.modDbg f).fab = d.fab := rfl
@[simp] theorem Device.modDbg_mce (d : Device) (f : Dbg → Dbg) : (d.modDbg f).mce = d.mce := rfl
@[simp] theorem Device.modDbg_gfx (d : Device) (f : Dbg → Dbg) : (d.modDbg f).gfx = d.gfx := rfl
@[simp] theorem Device.modDbg_fgw (d : Device) (f : Dbg → Dbg) : (d.modDbg f).fgw = d.fgw := rfl
@[simp] theorem Device.modDbg_dict (d : Device) (f : Dbg → Dbg) : (d.modDbg f).dict = d.dict := rfl
@[simp] theorem Device.modDbg_arb (d : Device) (f : Dbg → Dbg) : (d.modDbg f).arb = d.arb := rfl
@[simp] theorem Device.modDbg_sec (d : Device) (f : Dbg → Dbg) : (d.modDbg f).sec = d.sec := rfl
@[simp] theorem Device.modDbg_pwr (d : Device) (f : Dbg → Dbg) : (d.modDbg f).pwr = d.pwr := rfl
@[simp] theorem Device.modDbg_regs (d : Device) (f : Dbg → Dbg) : (d.modDbg f).regs = d.regs := rfl
@[simp] theorem Device.modDbg_rcs (d : Device) (f : Dbg → Dbg) : (d.modDbg f).rcs = d.rcs := rfl
@[simp] theorem Device.modDbg_holds (d : Device) (f : Dbg → Dbg) : (d.modDbg f).holds = d.holds := rfl
@[simp] theorem Device.modDbg_out (d : Device) (f : Dbg → Dbg) : (d.modDbg f).out = d.out := rfl
@[simp] theorem Device.modDbg_fresh (d : Device) (f : Dbg → Dbg) : (d.modDbg f).fresh = d.fresh := rfl

/-! ### Device.modDict -/

@[simp] theorem Device.modDict_mem (d : Device) (f : Dict → Dict) : (d.modDict f).mem = d.mem := rfl
@[simp] theorem Device.modDict_scrambles (d : Device) (f : Dict → Dict) : (d.modDict f).scrambles = d.scrambles := rfl
@[simp] theorem Device.modDict_tb (d : Device) (f : Dict → Dict) : (d.modDict f).tb = d.tb := rfl
@[simp] theorem Device.modDict_cal (d : Device) (f : Dict → Dict) : (d.modDict f).cal = d.cal := rfl
@[simp] theorem Device.modDict_moves (d : Device) (f : Dict → Dict) : (d.modDict f).moves = d.moves := rfl
@[simp] theorem Device.modDict_groups (d : Device) (f : Dict → Dict) : (d.modDict f).groups = d.groups := rfl
@[simp] theorem Device.modDict_rings (d : Device) (f : Dict → Dict) : (d.modDict f).rings = d.rings := rfl
@[simp] theorem Device.modDict_jobs (d : Device) (f : Dict → Dict) : (d.modDict f).jobs = d.jobs := rfl
@[simp] theorem Device.modDict_sched (d : Device) (f : Dict → Dict) : (d.modDict f).sched = d.sched := rfl
@[simp] theorem Device.modDict_eng (d : Device) (f : Dict → Dict) : (d.modDict f).eng = d.eng := rfl
@[simp] theorem Device.modDict_noc (d : Device) (f : Dict → Dict) : (d.modDict f).noc = d.noc := rfl
@[simp] theorem Device.modDict_stk (d : Device) (f : Dict → Dict) : (d.modDict f).stk = d.stk := rfl
@[simp] theorem Device.modDict_proc (d : Device) (f : Dict → Dict) : (d.modDict f).proc = d.proc := rfl
@[simp] theorem Device.modDict_fab (d : Device) (f : Dict → Dict) : (d.modDict f).fab = d.fab := rfl
@[simp] theorem Device.modDict_mce (d : Device) (f : Dict → Dict) : (d.modDict f).mce = d.mce := rfl
@[simp] theorem Device.modDict_gfx (d : Device) (f : Dict → Dict) : (d.modDict f).gfx = d.gfx := rfl
@[simp] theorem Device.modDict_fgw (d : Device) (f : Dict → Dict) : (d.modDict f).fgw = d.fgw := rfl
@[simp] theorem Device.modDict_arb (d : Device) (f : Dict → Dict) : (d.modDict f).arb = d.arb := rfl
@[simp] theorem Device.modDict_sec (d : Device) (f : Dict → Dict) : (d.modDict f).sec = d.sec := rfl
@[simp] theorem Device.modDict_pwr (d : Device) (f : Dict → Dict) : (d.modDict f).pwr = d.pwr := rfl
@[simp] theorem Device.modDict_dbg (d : Device) (f : Dict → Dict) : (d.modDict f).dbg = d.dbg := rfl
@[simp] theorem Device.modDict_regs (d : Device) (f : Dict → Dict) : (d.modDict f).regs = d.regs := rfl
@[simp] theorem Device.modDict_rcs (d : Device) (f : Dict → Dict) : (d.modDict f).rcs = d.rcs := rfl
@[simp] theorem Device.modDict_holds (d : Device) (f : Dict → Dict) : (d.modDict f).holds = d.holds := rfl
@[simp] theorem Device.modDict_out (d : Device) (f : Dict → Dict) : (d.modDict f).out = d.out := rfl
@[simp] theorem Device.modDict_fresh (d : Device) (f : Dict → Dict) : (d.modDict f).fresh = d.fresh := rfl

/-! ### Device.modFab -/

@[simp] theorem Device.modFab_mem (d : Device) (f : Fab → Fab) : (d.modFab f).mem = d.mem := rfl
@[simp] theorem Device.modFab_scrambles (d : Device) (f : Fab → Fab) : (d.modFab f).scrambles = d.scrambles := rfl
@[simp] theorem Device.modFab_tb (d : Device) (f : Fab → Fab) : (d.modFab f).tb = d.tb := rfl
@[simp] theorem Device.modFab_cal (d : Device) (f : Fab → Fab) : (d.modFab f).cal = d.cal := rfl
@[simp] theorem Device.modFab_moves (d : Device) (f : Fab → Fab) : (d.modFab f).moves = d.moves := rfl
@[simp] theorem Device.modFab_groups (d : Device) (f : Fab → Fab) : (d.modFab f).groups = d.groups := rfl
@[simp] theorem Device.modFab_rings (d : Device) (f : Fab → Fab) : (d.modFab f).rings = d.rings := rfl
@[simp] theorem Device.modFab_jobs (d : Device) (f : Fab → Fab) : (d.modFab f).jobs = d.jobs := rfl
@[simp] theorem Device.modFab_sched (d : Device) (f : Fab → Fab) : (d.modFab f).sched = d.sched := rfl
@[simp] theorem Device.modFab_eng (d : Device) (f : Fab → Fab) : (d.modFab f).eng = d.eng := rfl
@[simp] theorem Device.modFab_noc (d : Device) (f : Fab → Fab) : (d.modFab f).noc = d.noc := rfl
@[simp] theorem Device.modFab_stk (d : Device) (f : Fab → Fab) : (d.modFab f).stk = d.stk := rfl
@[simp] theorem Device.modFab_proc (d : Device) (f : Fab → Fab) : (d.modFab f).proc = d.proc := rfl
@[simp] theorem Device.modFab_mce (d : Device) (f : Fab → Fab) : (d.modFab f).mce = d.mce := rfl
@[simp] theorem Device.modFab_gfx (d : Device) (f : Fab → Fab) : (d.modFab f).gfx = d.gfx := rfl
@[simp] theorem Device.modFab_fgw (d : Device) (f : Fab → Fab) : (d.modFab f).fgw = d.fgw := rfl
@[simp] theorem Device.modFab_dict (d : Device) (f : Fab → Fab) : (d.modFab f).dict = d.dict := rfl
@[simp] theorem Device.modFab_arb (d : Device) (f : Fab → Fab) : (d.modFab f).arb = d.arb := rfl
@[simp] theorem Device.modFab_sec (d : Device) (f : Fab → Fab) : (d.modFab f).sec = d.sec := rfl
@[simp] theorem Device.modFab_pwr (d : Device) (f : Fab → Fab) : (d.modFab f).pwr = d.pwr := rfl
@[simp] theorem Device.modFab_dbg (d : Device) (f : Fab → Fab) : (d.modFab f).dbg = d.dbg := rfl
@[simp] theorem Device.modFab_regs (d : Device) (f : Fab → Fab) : (d.modFab f).regs = d.regs := rfl
@[simp] theorem Device.modFab_rcs (d : Device) (f : Fab → Fab) : (d.modFab f).rcs = d.rcs := rfl
@[simp] theorem Device.modFab_holds (d : Device) (f : Fab → Fab) : (d.modFab f).holds = d.holds := rfl
@[simp] theorem Device.modFab_out (d : Device) (f : Fab → Fab) : (d.modFab f).out = d.out := rfl
@[simp] theorem Device.modFab_fresh (d : Device) (f : Fab → Fab) : (d.modFab f).fresh = d.fresh := rfl

/-! ### Device.modLink -/

@[simp] theorem Device.modLink_mem (d : Device) (p : Nat) (f : LPort → LPort) : (d.modLink p f).mem = d.mem := rfl
@[simp] theorem Device.modLink_scrambles (d : Device) (p : Nat) (f : LPort → LPort) : (d.modLink p f).scrambles = d.scrambles := rfl
@[simp] theorem Device.modLink_tb (d : Device) (p : Nat) (f : LPort → LPort) : (d.modLink p f).tb = d.tb := rfl
@[simp] theorem Device.modLink_cal (d : Device) (p : Nat) (f : LPort → LPort) : (d.modLink p f).cal = d.cal := rfl
@[simp] theorem Device.modLink_moves (d : Device) (p : Nat) (f : LPort → LPort) : (d.modLink p f).moves = d.moves := rfl
@[simp] theorem Device.modLink_groups (d : Device) (p : Nat) (f : LPort → LPort) : (d.modLink p f).groups = d.groups := rfl
@[simp] theorem Device.modLink_rings (d : Device) (p : Nat) (f : LPort → LPort) : (d.modLink p f).rings = d.rings := rfl
@[simp] theorem Device.modLink_jobs (d : Device) (p : Nat) (f : LPort → LPort) : (d.modLink p f).jobs = d.jobs := rfl
@[simp] theorem Device.modLink_sched (d : Device) (p : Nat) (f : LPort → LPort) : (d.modLink p f).sched = d.sched := rfl
@[simp] theorem Device.modLink_eng (d : Device) (p : Nat) (f : LPort → LPort) : (d.modLink p f).eng = d.eng := rfl
@[simp] theorem Device.modLink_noc (d : Device) (p : Nat) (f : LPort → LPort) : (d.modLink p f).noc = d.noc := rfl
@[simp] theorem Device.modLink_stk (d : Device) (p : Nat) (f : LPort → LPort) : (d.modLink p f).stk = d.stk := rfl
@[simp] theorem Device.modLink_proc (d : Device) (p : Nat) (f : LPort → LPort) : (d.modLink p f).proc = d.proc := rfl
@[simp] theorem Device.modLink_mce (d : Device) (p : Nat) (f : LPort → LPort) : (d.modLink p f).mce = d.mce := rfl
@[simp] theorem Device.modLink_gfx (d : Device) (p : Nat) (f : LPort → LPort) : (d.modLink p f).gfx = d.gfx := rfl
@[simp] theorem Device.modLink_fgw (d : Device) (p : Nat) (f : LPort → LPort) : (d.modLink p f).fgw = d.fgw := rfl
@[simp] theorem Device.modLink_dict (d : Device) (p : Nat) (f : LPort → LPort) : (d.modLink p f).dict = d.dict := rfl
@[simp] theorem Device.modLink_arb (d : Device) (p : Nat) (f : LPort → LPort) : (d.modLink p f).arb = d.arb := rfl
@[simp] theorem Device.modLink_sec (d : Device) (p : Nat) (f : LPort → LPort) : (d.modLink p f).sec = d.sec := rfl
@[simp] theorem Device.modLink_pwr (d : Device) (p : Nat) (f : LPort → LPort) : (d.modLink p f).pwr = d.pwr := rfl
@[simp] theorem Device.modLink_dbg (d : Device) (p : Nat) (f : LPort → LPort) : (d.modLink p f).dbg = d.dbg := rfl
@[simp] theorem Device.modLink_regs (d : Device) (p : Nat) (f : LPort → LPort) : (d.modLink p f).regs = d.regs := rfl
@[simp] theorem Device.modLink_rcs (d : Device) (p : Nat) (f : LPort → LPort) : (d.modLink p f).rcs = d.rcs := rfl
@[simp] theorem Device.modLink_holds (d : Device) (p : Nat) (f : LPort → LPort) : (d.modLink p f).holds = d.holds := rfl
@[simp] theorem Device.modLink_out (d : Device) (p : Nat) (f : LPort → LPort) : (d.modLink p f).out = d.out := rfl
@[simp] theorem Device.modLink_fresh (d : Device) (p : Nat) (f : LPort → LPort) : (d.modLink p f).fresh = d.fresh := rfl

/-! ### Device.modFgw -/

@[simp] theorem Device.modFgw_mem (d : Device) (f : Gateway → Gateway) : (d.modFgw f).mem = d.mem := rfl
@[simp] theorem Device.modFgw_scrambles (d : Device) (f : Gateway → Gateway) : (d.modFgw f).scrambles = d.scrambles := rfl
@[simp] theorem Device.modFgw_tb (d : Device) (f : Gateway → Gateway) : (d.modFgw f).tb = d.tb := rfl
@[simp] theorem Device.modFgw_cal (d : Device) (f : Gateway → Gateway) : (d.modFgw f).cal = d.cal := rfl
@[simp] theorem Device.modFgw_moves (d : Device) (f : Gateway → Gateway) : (d.modFgw f).moves = d.moves := rfl
@[simp] theorem Device.modFgw_groups (d : Device) (f : Gateway → Gateway) : (d.modFgw f).groups = d.groups := rfl
@[simp] theorem Device.modFgw_rings (d : Device) (f : Gateway → Gateway) : (d.modFgw f).rings = d.rings := rfl
@[simp] theorem Device.modFgw_jobs (d : Device) (f : Gateway → Gateway) : (d.modFgw f).jobs = d.jobs := rfl
@[simp] theorem Device.modFgw_sched (d : Device) (f : Gateway → Gateway) : (d.modFgw f).sched = d.sched := rfl
@[simp] theorem Device.modFgw_eng (d : Device) (f : Gateway → Gateway) : (d.modFgw f).eng = d.eng := rfl
@[simp] theorem Device.modFgw_noc (d : Device) (f : Gateway → Gateway) : (d.modFgw f).noc = d.noc := rfl
@[simp] theorem Device.modFgw_stk (d : Device) (f : Gateway → Gateway) : (d.modFgw f).stk = d.stk := rfl
@[simp] theorem Device.modFgw_proc (d : Device) (f : Gateway → Gateway) : (d.modFgw f).proc = d.proc := rfl
@[simp] theorem Device.modFgw_fab (d : Device) (f : Gateway → Gateway) : (d.modFgw f).fab = d.fab := rfl
@[simp] theorem Device.modFgw_mce (d : Device) (f : Gateway → Gateway) : (d.modFgw f).mce = d.mce := rfl
@[simp] theorem Device.modFgw_gfx (d : Device) (f : Gateway → Gateway) : (d.modFgw f).gfx = d.gfx := rfl
@[simp] theorem Device.modFgw_dict (d : Device) (f : Gateway → Gateway) : (d.modFgw f).dict = d.dict := rfl
@[simp] theorem Device.modFgw_arb (d : Device) (f : Gateway → Gateway) : (d.modFgw f).arb = d.arb := rfl
@[simp] theorem Device.modFgw_sec (d : Device) (f : Gateway → Gateway) : (d.modFgw f).sec = d.sec := rfl
@[simp] theorem Device.modFgw_pwr (d : Device) (f : Gateway → Gateway) : (d.modFgw f).pwr = d.pwr := rfl
@[simp] theorem Device.modFgw_dbg (d : Device) (f : Gateway → Gateway) : (d.modFgw f).dbg = d.dbg := rfl
@[simp] theorem Device.modFgw_regs (d : Device) (f : Gateway → Gateway) : (d.modFgw f).regs = d.regs := rfl
@[simp] theorem Device.modFgw_rcs (d : Device) (f : Gateway → Gateway) : (d.modFgw f).rcs = d.rcs := rfl
@[simp] theorem Device.modFgw_holds (d : Device) (f : Gateway → Gateway) : (d.modFgw f).holds = d.holds := rfl
@[simp] theorem Device.modFgw_out (d : Device) (f : Gateway → Gateway) : (d.modFgw f).out = d.out := rfl
@[simp] theorem Device.modFgw_fresh (d : Device) (f : Gateway → Gateway) : (d.modFgw f).fresh = d.fresh := rfl

/-! ### Device.modFport -/

@[simp] theorem Device.modFport_mem (d : Device) (p : Nat) (f : FPort → FPort) : (d.modFport p f).mem = d.mem := rfl
@[simp] theorem Device.modFport_scrambles (d : Device) (p : Nat) (f : FPort → FPort) : (d.modFport p f).scrambles = d.scrambles := rfl
@[simp] theorem Device.modFport_tb (d : Device) (p : Nat) (f : FPort → FPort) : (d.modFport p f).tb = d.tb := rfl
@[simp] theorem Device.modFport_cal (d : Device) (p : Nat) (f : FPort → FPort) : (d.modFport p f).cal = d.cal := rfl
@[simp] theorem Device.modFport_moves (d : Device) (p : Nat) (f : FPort → FPort) : (d.modFport p f).moves = d.moves := rfl
@[simp] theorem Device.modFport_groups (d : Device) (p : Nat) (f : FPort → FPort) : (d.modFport p f).groups = d.groups := rfl
@[simp] theorem Device.modFport_rings (d : Device) (p : Nat) (f : FPort → FPort) : (d.modFport p f).rings = d.rings := rfl
@[simp] theorem Device.modFport_jobs (d : Device) (p : Nat) (f : FPort → FPort) : (d.modFport p f).jobs = d.jobs := rfl
@[simp] theorem Device.modFport_sched (d : Device) (p : Nat) (f : FPort → FPort) : (d.modFport p f).sched = d.sched := rfl
@[simp] theorem Device.modFport_eng (d : Device) (p : Nat) (f : FPort → FPort) : (d.modFport p f).eng = d.eng := rfl
@[simp] theorem Device.modFport_noc (d : Device) (p : Nat) (f : FPort → FPort) : (d.modFport p f).noc = d.noc := rfl
@[simp] theorem Device.modFport_stk (d : Device) (p : Nat) (f : FPort → FPort) : (d.modFport p f).stk = d.stk := rfl
@[simp] theorem Device.modFport_proc (d : Device) (p : Nat) (f : FPort → FPort) : (d.modFport p f).proc = d.proc := rfl
@[simp] theorem Device.modFport_fab (d : Device) (p : Nat) (f : FPort → FPort) : (d.modFport p f).fab = d.fab := rfl
@[simp] theorem Device.modFport_mce (d : Device) (p : Nat) (f : FPort → FPort) : (d.modFport p f).mce = d.mce := rfl
@[simp] theorem Device.modFport_gfx (d : Device) (p : Nat) (f : FPort → FPort) : (d.modFport p f).gfx = d.gfx := rfl
@[simp] theorem Device.modFport_dict (d : Device) (p : Nat) (f : FPort → FPort) : (d.modFport p f).dict = d.dict := rfl
@[simp] theorem Device.modFport_arb (d : Device) (p : Nat) (f : FPort → FPort) : (d.modFport p f).arb = d.arb := rfl
@[simp] theorem Device.modFport_sec (d : Device) (p : Nat) (f : FPort → FPort) : (d.modFport p f).sec = d.sec := rfl
@[simp] theorem Device.modFport_pwr (d : Device) (p : Nat) (f : FPort → FPort) : (d.modFport p f).pwr = d.pwr := rfl
@[simp] theorem Device.modFport_dbg (d : Device) (p : Nat) (f : FPort → FPort) : (d.modFport p f).dbg = d.dbg := rfl
@[simp] theorem Device.modFport_regs (d : Device) (p : Nat) (f : FPort → FPort) : (d.modFport p f).regs = d.regs := rfl
@[simp] theorem Device.modFport_rcs (d : Device) (p : Nat) (f : FPort → FPort) : (d.modFport p f).rcs = d.rcs := rfl
@[simp] theorem Device.modFport_holds (d : Device) (p : Nat) (f : FPort → FPort) : (d.modFport p f).holds = d.holds := rfl
@[simp] theorem Device.modFport_out (d : Device) (p : Nat) (f : FPort → FPort) : (d.modFport p f).out = d.out := rfl
@[simp] theorem Device.modFport_fresh (d : Device) (p : Nat) (f : FPort → FPort) : (d.modFport p f).fresh = d.fresh := rfl

/-! ### Device.modNode -/

@[simp] theorem Device.modNode_mem (d : Device) (n : Nat) (f : Node → Node) : (d.modNode n f).mem = d.mem := rfl
@[simp] theorem Device.modNode_scrambles (d : Device) (n : Nat) (f : Node → Node) : (d.modNode n f).scrambles = d.scrambles := rfl
@[simp] theorem Device.modNode_tb (d : Device) (n : Nat) (f : Node → Node) : (d.modNode n f).tb = d.tb := rfl
@[simp] theorem Device.modNode_cal (d : Device) (n : Nat) (f : Node → Node) : (d.modNode n f).cal = d.cal := rfl
@[simp] theorem Device.modNode_moves (d : Device) (n : Nat) (f : Node → Node) : (d.modNode n f).moves = d.moves := rfl
@[simp] theorem Device.modNode_groups (d : Device) (n : Nat) (f : Node → Node) : (d.modNode n f).groups = d.groups := rfl
@[simp] theorem Device.modNode_rings (d : Device) (n : Nat) (f : Node → Node) : (d.modNode n f).rings = d.rings := rfl
@[simp] theorem Device.modNode_jobs (d : Device) (n : Nat) (f : Node → Node) : (d.modNode n f).jobs = d.jobs := rfl
@[simp] theorem Device.modNode_sched (d : Device) (n : Nat) (f : Node → Node) : (d.modNode n f).sched = d.sched := rfl
@[simp] theorem Device.modNode_eng (d : Device) (n : Nat) (f : Node → Node) : (d.modNode n f).eng = d.eng := rfl
@[simp] theorem Device.modNode_noc (d : Device) (n : Nat) (f : Node → Node) : (d.modNode n f).noc = d.noc := rfl
@[simp] theorem Device.modNode_stk (d : Device) (n : Nat) (f : Node → Node) : (d.modNode n f).stk = d.stk := rfl
@[simp] theorem Device.modNode_proc (d : Device) (n : Nat) (f : Node → Node) : (d.modNode n f).proc = d.proc := rfl
@[simp] theorem Device.modNode_fab (d : Device) (n : Nat) (f : Node → Node) : (d.modNode n f).fab = d.fab := rfl
@[simp] theorem Device.modNode_mce (d : Device) (n : Nat) (f : Node → Node) : (d.modNode n f).mce = d.mce := rfl
@[simp] theorem Device.modNode_gfx (d : Device) (n : Nat) (f : Node → Node) : (d.modNode n f).gfx = d.gfx := rfl
@[simp] theorem Device.modNode_dict (d : Device) (n : Nat) (f : Node → Node) : (d.modNode n f).dict = d.dict := rfl
@[simp] theorem Device.modNode_arb (d : Device) (n : Nat) (f : Node → Node) : (d.modNode n f).arb = d.arb := rfl
@[simp] theorem Device.modNode_sec (d : Device) (n : Nat) (f : Node → Node) : (d.modNode n f).sec = d.sec := rfl
@[simp] theorem Device.modNode_pwr (d : Device) (n : Nat) (f : Node → Node) : (d.modNode n f).pwr = d.pwr := rfl
@[simp] theorem Device.modNode_dbg (d : Device) (n : Nat) (f : Node → Node) : (d.modNode n f).dbg = d.dbg := rfl
@[simp] theorem Device.modNode_regs (d : Device) (n : Nat) (f : Node → Node) : (d.modNode n f).regs = d.regs := rfl
@[simp] theorem Device.modNode_rcs (d : Device) (n : Nat) (f : Node → Node) : (d.modNode n f).rcs = d.rcs := rfl
@[simp] theorem Device.modNode_holds (d : Device) (n : Nat) (f : Node → Node) : (d.modNode n f).holds = d.holds := rfl
@[simp] theorem Device.modNode_out (d : Device) (n : Nat) (f : Node → Node) : (d.modNode n f).out = d.out := rfl
@[simp] theorem Device.modNode_fresh (d : Device) (n : Nat) (f : Node → Node) : (d.modNode n f).fresh = d.fresh := rfl

/-! ### Device.modMap -/

@[simp] theorem Device.modMap_mem (d : Device) (m : Nat) (f : MapRun → MapRun) : (d.modMap m f).mem = d.mem := rfl
@[simp] theorem Device.modMap_scrambles (d : Device) (m : Nat) (f : MapRun → MapRun) : (d.modMap m f).scrambles = d.scrambles := rfl
@[simp] theorem Device.modMap_tb (d : Device) (m : Nat) (f : MapRun → MapRun) : (d.modMap m f).tb = d.tb := rfl
@[simp] theorem Device.modMap_cal (d : Device) (m : Nat) (f : MapRun → MapRun) : (d.modMap m f).cal = d.cal := rfl
@[simp] theorem Device.modMap_moves (d : Device) (m : Nat) (f : MapRun → MapRun) : (d.modMap m f).moves = d.moves := rfl
@[simp] theorem Device.modMap_groups (d : Device) (m : Nat) (f : MapRun → MapRun) : (d.modMap m f).groups = d.groups := rfl
@[simp] theorem Device.modMap_rings (d : Device) (m : Nat) (f : MapRun → MapRun) : (d.modMap m f).rings = d.rings := rfl
@[simp] theorem Device.modMap_jobs (d : Device) (m : Nat) (f : MapRun → MapRun) : (d.modMap m f).jobs = d.jobs := rfl
@[simp] theorem Device.modMap_sched (d : Device) (m : Nat) (f : MapRun → MapRun) : (d.modMap m f).sched = d.sched := rfl
@[simp] theorem Device.modMap_eng (d : Device) (m : Nat) (f : MapRun → MapRun) : (d.modMap m f).eng = d.eng := rfl
@[simp] theorem Device.modMap_noc (d : Device) (m : Nat) (f : MapRun → MapRun) : (d.modMap m f).noc = d.noc := rfl
@[simp] theorem Device.modMap_stk (d : Device) (m : Nat) (f : MapRun → MapRun) : (d.modMap m f).stk = d.stk := rfl
@[simp] theorem Device.modMap_proc (d : Device) (m : Nat) (f : MapRun → MapRun) : (d.modMap m f).proc = d.proc := rfl
@[simp] theorem Device.modMap_fab (d : Device) (m : Nat) (f : MapRun → MapRun) : (d.modMap m f).fab = d.fab := rfl
@[simp] theorem Device.modMap_mce (d : Device) (m : Nat) (f : MapRun → MapRun) : (d.modMap m f).mce = d.mce := rfl
@[simp] theorem Device.modMap_gfx (d : Device) (m : Nat) (f : MapRun → MapRun) : (d.modMap m f).gfx = d.gfx := rfl
@[simp] theorem Device.modMap_dict (d : Device) (m : Nat) (f : MapRun → MapRun) : (d.modMap m f).dict = d.dict := rfl
@[simp] theorem Device.modMap_arb (d : Device) (m : Nat) (f : MapRun → MapRun) : (d.modMap m f).arb = d.arb := rfl
@[simp] theorem Device.modMap_sec (d : Device) (m : Nat) (f : MapRun → MapRun) : (d.modMap m f).sec = d.sec := rfl
@[simp] theorem Device.modMap_pwr (d : Device) (m : Nat) (f : MapRun → MapRun) : (d.modMap m f).pwr = d.pwr := rfl
@[simp] theorem Device.modMap_dbg (d : Device) (m : Nat) (f : MapRun → MapRun) : (d.modMap m f).dbg = d.dbg := rfl
@[simp] theorem Device.modMap_regs (d : Device) (m : Nat) (f : MapRun → MapRun) : (d.modMap m f).regs = d.regs := rfl
@[simp] theorem Device.modMap_rcs (d : Device) (m : Nat) (f : MapRun → MapRun) : (d.modMap m f).rcs = d.rcs := rfl
@[simp] theorem Device.modMap_holds (d : Device) (m : Nat) (f : MapRun → MapRun) : (d.modMap m f).holds = d.holds := rfl
@[simp] theorem Device.modMap_out (d : Device) (m : Nat) (f : MapRun → MapRun) : (d.modMap m f).out = d.out := rfl
@[simp] theorem Device.modMap_fresh (d : Device) (m : Nat) (f : MapRun → MapRun) : (d.modMap m f).fresh = d.fresh := rfl

/-! ### Device.modGfx -/

@[simp] theorem Device.modGfx_mem (d : Device) (f : Gfx → Gfx) : (d.modGfx f).mem = d.mem := rfl
@[simp] theorem Device.modGfx_scrambles (d : Device) (f : Gfx → Gfx) : (d.modGfx f).scrambles = d.scrambles := rfl
@[simp] theorem Device.modGfx_tb (d : Device) (f : Gfx → Gfx) : (d.modGfx f).tb = d.tb := rfl
@[simp] theorem Device.modGfx_cal (d : Device) (f : Gfx → Gfx) : (d.modGfx f).cal = d.cal := rfl
@[simp] theorem Device.modGfx_moves (d : Device) (f : Gfx → Gfx) : (d.modGfx f).moves = d.moves := rfl
@[simp] theorem Device.modGfx_groups (d : Device) (f : Gfx → Gfx) : (d.modGfx f).groups = d.groups := rfl
@[simp] theorem Device.modGfx_rings (d : Device) (f : Gfx → Gfx) : (d.modGfx f).rings = d.rings := rfl
@[simp] theorem Device.modGfx_jobs (d : Device) (f : Gfx → Gfx) : (d.modGfx f).jobs = d.jobs := rfl
@[simp] theorem Device.modGfx_sched (d : Device) (f : Gfx → Gfx) : (d.modGfx f).sched = d.sched := rfl
@[simp] theorem Device.modGfx_eng (d : Device) (f : Gfx → Gfx) : (d.modGfx f).eng = d.eng := rfl
@[simp] theorem Device.modGfx_noc (d : Device) (f : Gfx → Gfx) : (d.modGfx f).noc = d.noc := rfl
@[simp] theorem Device.modGfx_stk (d : Device) (f : Gfx → Gfx) : (d.modGfx f).stk = d.stk := rfl
@[simp] theorem Device.modGfx_proc (d : Device) (f : Gfx → Gfx) : (d.modGfx f).proc = d.proc := rfl
@[simp] theorem Device.modGfx_fab (d : Device) (f : Gfx → Gfx) : (d.modGfx f).fab = d.fab := rfl
@[simp] theorem Device.modGfx_mce (d : Device) (f : Gfx → Gfx) : (d.modGfx f).mce = d.mce := rfl
@[simp] theorem Device.modGfx_fgw (d : Device) (f : Gfx → Gfx) : (d.modGfx f).fgw = d.fgw := rfl
@[simp] theorem Device.modGfx_dict (d : Device) (f : Gfx → Gfx) : (d.modGfx f).dict = d.dict := rfl
@[simp] theorem Device.modGfx_arb (d : Device) (f : Gfx → Gfx) : (d.modGfx f).arb = d.arb := rfl
@[simp] theorem Device.modGfx_sec (d : Device) (f : Gfx → Gfx) : (d.modGfx f).sec = d.sec := rfl
@[simp] theorem Device.modGfx_pwr (d : Device) (f : Gfx → Gfx) : (d.modGfx f).pwr = d.pwr := rfl
@[simp] theorem Device.modGfx_dbg (d : Device) (f : Gfx → Gfx) : (d.modGfx f).dbg = d.dbg := rfl
@[simp] theorem Device.modGfx_regs (d : Device) (f : Gfx → Gfx) : (d.modGfx f).regs = d.regs := rfl
@[simp] theorem Device.modGfx_rcs (d : Device) (f : Gfx → Gfx) : (d.modGfx f).rcs = d.rcs := rfl
@[simp] theorem Device.modGfx_holds (d : Device) (f : Gfx → Gfx) : (d.modGfx f).holds = d.holds := rfl
@[simp] theorem Device.modGfx_out (d : Device) (f : Gfx → Gfx) : (d.modGfx f).out = d.out := rfl
@[simp] theorem Device.modGfx_fresh (d : Device) (f : Gfx → Gfx) : (d.modGfx f).fresh = d.fresh := rfl

/-! ### Device.modPipe -/

@[simp] theorem Device.modPipe_mem (d : Device) (p : Nat) (f : Pipe → Pipe) : (d.modPipe p f).mem = d.mem := rfl
@[simp] theorem Device.modPipe_scrambles (d : Device) (p : Nat) (f : Pipe → Pipe) : (d.modPipe p f).scrambles = d.scrambles := rfl
@[simp] theorem Device.modPipe_tb (d : Device) (p : Nat) (f : Pipe → Pipe) : (d.modPipe p f).tb = d.tb := rfl
@[simp] theorem Device.modPipe_cal (d : Device) (p : Nat) (f : Pipe → Pipe) : (d.modPipe p f).cal = d.cal := rfl
@[simp] theorem Device.modPipe_moves (d : Device) (p : Nat) (f : Pipe → Pipe) : (d.modPipe p f).moves = d.moves := rfl
@[simp] theorem Device.modPipe_groups (d : Device) (p : Nat) (f : Pipe → Pipe) : (d.modPipe p f).groups = d.groups := rfl
@[simp] theorem Device.modPipe_rings (d : Device) (p : Nat) (f : Pipe → Pipe) : (d.modPipe p f).rings = d.rings := rfl
@[simp] theorem Device.modPipe_jobs (d : Device) (p : Nat) (f : Pipe → Pipe) : (d.modPipe p f).jobs = d.jobs := rfl
@[simp] theorem Device.modPipe_sched (d : Device) (p : Nat) (f : Pipe → Pipe) : (d.modPipe p f).sched = d.sched := rfl
@[simp] theorem Device.modPipe_eng (d : Device) (p : Nat) (f : Pipe → Pipe) : (d.modPipe p f).eng = d.eng := rfl
@[simp] theorem Device.modPipe_noc (d : Device) (p : Nat) (f : Pipe → Pipe) : (d.modPipe p f).noc = d.noc := rfl
@[simp] theorem Device.modPipe_stk (d : Device) (p : Nat) (f : Pipe → Pipe) : (d.modPipe p f).stk = d.stk := rfl
@[simp] theorem Device.modPipe_proc (d : Device) (p : Nat) (f : Pipe → Pipe) : (d.modPipe p f).proc = d.proc := rfl
@[simp] theorem Device.modPipe_fab (d : Device) (p : Nat) (f : Pipe → Pipe) : (d.modPipe p f).fab = d.fab := rfl
@[simp] theorem Device.modPipe_mce (d : Device) (p : Nat) (f : Pipe → Pipe) : (d.modPipe p f).mce = d.mce := rfl
@[simp] theorem Device.modPipe_fgw (d : Device) (p : Nat) (f : Pipe → Pipe) : (d.modPipe p f).fgw = d.fgw := rfl
@[simp] theorem Device.modPipe_dict (d : Device) (p : Nat) (f : Pipe → Pipe) : (d.modPipe p f).dict = d.dict := rfl
@[simp] theorem Device.modPipe_arb (d : Device) (p : Nat) (f : Pipe → Pipe) : (d.modPipe p f).arb = d.arb := rfl
@[simp] theorem Device.modPipe_sec (d : Device) (p : Nat) (f : Pipe → Pipe) : (d.modPipe p f).sec = d.sec := rfl
@[simp] theorem Device.modPipe_pwr (d : Device) (p : Nat) (f : Pipe → Pipe) : (d.modPipe p f).pwr = d.pwr := rfl
@[simp] theorem Device.modPipe_dbg (d : Device) (p : Nat) (f : Pipe → Pipe) : (d.modPipe p f).dbg = d.dbg := rfl
@[simp] theorem Device.modPipe_regs (d : Device) (p : Nat) (f : Pipe → Pipe) : (d.modPipe p f).regs = d.regs := rfl
@[simp] theorem Device.modPipe_rcs (d : Device) (p : Nat) (f : Pipe → Pipe) : (d.modPipe p f).rcs = d.rcs := rfl
@[simp] theorem Device.modPipe_holds (d : Device) (p : Nat) (f : Pipe → Pipe) : (d.modPipe p f).holds = d.holds := rfl
@[simp] theorem Device.modPipe_out (d : Device) (p : Nat) (f : Pipe → Pipe) : (d.modPipe p f).out = d.out := rfl
@[simp] theorem Device.modPipe_fresh (d : Device) (p : Nat) (f : Pipe → Pipe) : (d.modPipe p f).fresh = d.fresh := rfl

/-! ### Device.setReg -/

@[simp] theorem Device.setReg_mem (d : Device) (a v : Nat) : (d.setReg a v).mem = d.mem := rfl
@[simp] theorem Device.setReg_scrambles (d : Device) (a v : Nat) : (d.setReg a v).scrambles = d.scrambles := rfl
@[simp] theorem Device.setReg_tb (d : Device) (a v : Nat) : (d.setReg a v).tb = d.tb := rfl
@[simp] theorem Device.setReg_cal (d : Device) (a v : Nat) : (d.setReg a v).cal = d.cal := rfl
@[simp] theorem Device.setReg_moves (d : Device) (a v : Nat) : (d.setReg a v).moves = d.moves := rfl
@[simp] theorem Device.setReg_groups (d : Device) (a v : Nat) : (d.setReg a v).groups = d.groups := rfl
@[simp] theorem Device.setReg_rings (d : Device) (a v : Nat) : (d.setReg a v).rings = d.rings := rfl
@[simp] theorem Device.setReg_jobs (d : Device) (a v : Nat) : (d.setReg a v).jobs = d.jobs := rfl
@[simp] theorem Device.setReg_sched (d : Device) (a v : Nat) : (d.setReg a v).sched = d.sched := rfl
@[simp] theorem Device.setReg_eng (d : Device) (a v : Nat) : (d.setReg a v).eng = d.eng := rfl
@[simp] theorem Device.setReg_noc (d : Device) (a v : Nat) : (d.setReg a v).noc = d.noc := rfl
@[simp] theorem Device.setReg_stk (d : Device) (a v : Nat) : (d.setReg a v).stk = d.stk := rfl
@[simp] theorem Device.setReg_proc (d : Device) (a v : Nat) : (d.setReg a v).proc = d.proc := rfl
@[simp] theorem Device.setReg_fab (d : Device) (a v : Nat) : (d.setReg a v).fab = d.fab := rfl
@[simp] theorem Device.setReg_mce (d : Device) (a v : Nat) : (d.setReg a v).mce = d.mce := rfl
@[simp] theorem Device.setReg_gfx (d : Device) (a v : Nat) : (d.setReg a v).gfx = d.gfx := rfl
@[simp] theorem Device.setReg_fgw (d : Device) (a v : Nat) : (d.setReg a v).fgw = d.fgw := rfl
@[simp] theorem Device.setReg_dict (d : Device) (a v : Nat) : (d.setReg a v).dict = d.dict := rfl
@[simp] theorem Device.setReg_arb (d : Device) (a v : Nat) : (d.setReg a v).arb = d.arb := rfl
@[simp] theorem Device.setReg_sec (d : Device) (a v : Nat) : (d.setReg a v).sec = d.sec := rfl
@[simp] theorem Device.setReg_pwr (d : Device) (a v : Nat) : (d.setReg a v).pwr = d.pwr := rfl
@[simp] theorem Device.setReg_dbg (d : Device) (a v : Nat) : (d.setReg a v).dbg = d.dbg := rfl
@[simp] theorem Device.setReg_rcs (d : Device) (a v : Nat) : (d.setReg a v).rcs = d.rcs := rfl
@[simp] theorem Device.setReg_holds (d : Device) (a v : Nat) : (d.setReg a v).holds = d.holds := rfl
@[simp] theorem Device.setReg_out (d : Device) (a v : Nat) : (d.setReg a v).out = d.out := rfl
@[simp] theorem Device.setReg_fresh (d : Device) (a v : Nat) : (d.setReg a v).fresh = d.fresh := rfl

/-! ### Device.modInst -/

@[simp] theorem Device.modInst_mem (d : Device) (i : Nat) (f : Inst → Inst) : (d.modInst i f).mem = d.mem := rfl
@[simp] theorem Device.modInst_scrambles (d : Device) (i : Nat) (f : Inst → Inst) : (d.modInst i f).scrambles = d.scrambles := rfl
@[simp] theorem Device.modInst_tb (d : Device) (i : Nat) (f : Inst → Inst) : (d.modInst i f).tb = d.tb := rfl
@[simp] theorem Device.modInst_cal (d : Device) (i : Nat) (f : Inst → Inst) : (d.modInst i f).cal = d.cal := rfl
@[simp] theorem Device.modInst_moves (d : Device) (i : Nat) (f : Inst → Inst) : (d.modInst i f).moves = d.moves := rfl
@[simp] theorem Device.modInst_groups (d : Device) (i : Nat) (f : Inst → Inst) : (d.modInst i f).groups = d.groups := rfl
@[simp] theorem Device.modInst_rings (d : Device) (i : Nat) (f : Inst → Inst) : (d.modInst i f).rings = d.rings := rfl
@[simp] theorem Device.modInst_jobs (d : Device) (i : Nat) (f : Inst → Inst) : (d.modInst i f).jobs = d.jobs := rfl
@[simp] theorem Device.modInst_sched (d : Device) (i : Nat) (f : Inst → Inst) : (d.modInst i f).sched = d.sched := rfl
@[simp] theorem Device.modInst_eng (d : Device) (i : Nat) (f : Inst → Inst) : (d.modInst i f).eng = d.eng := rfl
@[simp] theorem Device.modInst_noc (d : Device) (i : Nat) (f : Inst → Inst) : (d.modInst i f).noc = d.noc := rfl
@[simp] theorem Device.modInst_stk (d : Device) (i : Nat) (f : Inst → Inst) : (d.modInst i f).stk = d.stk := rfl
@[simp] theorem Device.modInst_fab (d : Device) (i : Nat) (f : Inst → Inst) : (d.modInst i f).fab = d.fab := rfl
@[simp] theorem Device.modInst_mce (d : Device) (i : Nat) (f : Inst → Inst) : (d.modInst i f).mce = d.mce := rfl
@[simp] theorem Device.modInst_gfx (d : Device) (i : Nat) (f : Inst → Inst) : (d.modInst i f).gfx = d.gfx := rfl
@[simp] theorem Device.modInst_fgw (d : Device) (i : Nat) (f : Inst → Inst) : (d.modInst i f).fgw = d.fgw := rfl
@[simp] theorem Device.modInst_dict (d : Device) (i : Nat) (f : Inst → Inst) : (d.modInst i f).dict = d.dict := rfl
@[simp] theorem Device.modInst_arb (d : Device) (i : Nat) (f : Inst → Inst) : (d.modInst i f).arb = d.arb := rfl
@[simp] theorem Device.modInst_sec (d : Device) (i : Nat) (f : Inst → Inst) : (d.modInst i f).sec = d.sec := rfl
@[simp] theorem Device.modInst_pwr (d : Device) (i : Nat) (f : Inst → Inst) : (d.modInst i f).pwr = d.pwr := rfl
@[simp] theorem Device.modInst_dbg (d : Device) (i : Nat) (f : Inst → Inst) : (d.modInst i f).dbg = d.dbg := rfl
@[simp] theorem Device.modInst_regs (d : Device) (i : Nat) (f : Inst → Inst) : (d.modInst i f).regs = d.regs := rfl
@[simp] theorem Device.modInst_rcs (d : Device) (i : Nat) (f : Inst → Inst) : (d.modInst i f).rcs = d.rcs := rfl
@[simp] theorem Device.modInst_holds (d : Device) (i : Nat) (f : Inst → Inst) : (d.modInst i f).holds = d.holds := rfl
@[simp] theorem Device.modInst_out (d : Device) (i : Nat) (f : Inst → Inst) : (d.modInst i f).out = d.out := rfl
@[simp] theorem Device.modInst_fresh (d : Device) (i : Nat) (f : Inst → Inst) : (d.modInst i f).fresh = d.fresh := rfl

/-! ### Device.modProc -/

@[simp] theorem Device.modProc_mem (d : Device) (f : Proc → Proc) : (d.modProc f).mem = d.mem := rfl
@[simp] theorem Device.modProc_scrambles (d : Device) (f : Proc → Proc) : (d.modProc f).scrambles = d.scrambles := rfl
@[simp] theorem Device.modProc_tb (d : Device) (f : Proc → Proc) : (d.modProc f).tb = d.tb := rfl
@[simp] theorem Device.modProc_cal (d : Device) (f : Proc → Proc) : (d.modProc f).cal = d.cal := rfl
@[simp] theorem Device.modProc_moves (d : Device) (f : Proc → Proc) : (d.modProc f).moves = d.moves := rfl
@[simp] theorem Device.modProc_groups (d : Device) (f : Proc → Proc) : (d.modProc f).groups = d.groups := rfl
@[simp] theorem Device.modProc_rings (d : Device) (f : Proc → Proc) : (d.modProc f).rings = d.rings := rfl
@[simp] theorem Device.modProc_jobs (d : Device) (f : Proc → Proc) : (d.modProc f).jobs = d.jobs := rfl
@[simp] theorem Device.modProc_sched (d : Device) (f : Proc → Proc) : (d.modProc f).sched = d.sched := rfl
@[simp] theorem Device.modProc_eng (d : Device) (f : Proc → Proc) : (d.modProc f).eng = d.eng := rfl
@[simp] theorem Device.modProc_noc (d : Device) (f : Proc → Proc) : (d.modProc f).noc = d.noc := rfl
@[simp] theorem Device.modProc_stk (d : Device) (f : Proc → Proc) : (d.modProc f).stk = d.stk := rfl
@[simp] theorem Device.modProc_fab (d : Device) (f : Proc → Proc) : (d.modProc f).fab = d.fab := rfl
@[simp] theorem Device.modProc_mce (d : Device) (f : Proc → Proc) : (d.modProc f).mce = d.mce := rfl
@[simp] theorem Device.modProc_gfx (d : Device) (f : Proc → Proc) : (d.modProc f).gfx = d.gfx := rfl
@[simp] theorem Device.modProc_fgw (d : Device) (f : Proc → Proc) : (d.modProc f).fgw = d.fgw := rfl
@[simp] theorem Device.modProc_dict (d : Device) (f : Proc → Proc) : (d.modProc f).dict = d.dict := rfl
@[simp] theorem Device.modProc_arb (d : Device) (f : Proc → Proc) : (d.modProc f).arb = d.arb := rfl
@[simp] theorem Device.modProc_sec (d : Device) (f : Proc → Proc) : (d.modProc f).sec = d.sec := rfl
@[simp] theorem Device.modProc_pwr (d : Device) (f : Proc → Proc) : (d.modProc f).pwr = d.pwr := rfl
@[simp] theorem Device.modProc_dbg (d : Device) (f : Proc → Proc) : (d.modProc f).dbg = d.dbg := rfl
@[simp] theorem Device.modProc_regs (d : Device) (f : Proc → Proc) : (d.modProc f).regs = d.regs := rfl
@[simp] theorem Device.modProc_rcs (d : Device) (f : Proc → Proc) : (d.modProc f).rcs = d.rcs := rfl
@[simp] theorem Device.modProc_holds (d : Device) (f : Proc → Proc) : (d.modProc f).holds = d.holds := rfl
@[simp] theorem Device.modProc_out (d : Device) (f : Proc → Proc) : (d.modProc f).out = d.out := rfl
@[simp] theorem Device.modProc_fresh (d : Device) (f : Proc → Proc) : (d.modProc f).fresh = d.fresh := rfl

/-! ### Device.modMce -/

@[simp] theorem Device.modMce_mem (d : Device) (f : Mce → Mce) : (d.modMce f).mem = d.mem := rfl
@[simp] theorem Device.modMce_scrambles (d : Device) (f : Mce → Mce) : (d.modMce f).scrambles = d.scrambles := rfl
@[simp] theorem Device.modMce_tb (d : Device) (f : Mce → Mce) : (d.modMce f).tb = d.tb := rfl
@[simp] theorem Device.modMce_cal (d : Device) (f : Mce → Mce) : (d.modMce f).cal = d.cal := rfl
@[simp] theorem Device.modMce_moves (d : Device) (f : Mce → Mce) : (d.modMce f).moves = d.moves := rfl
@[simp] theorem Device.modMce_groups (d : Device) (f : Mce → Mce) : (d.modMce f).groups = d.groups := rfl
@[simp] theorem Device.modMce_rings (d : Device) (f : Mce → Mce) : (d.modMce f).rings = d.rings := rfl
@[simp] theorem Device.modMce_jobs (d : Device) (f : Mce → Mce) : (d.modMce f).jobs = d.jobs := rfl
@[simp] theorem Device.modMce_sched (d : Device) (f : Mce → Mce) : (d.modMce f).sched = d.sched := rfl
@[simp] theorem Device.modMce_eng (d : Device) (f : Mce → Mce) : (d.modMce f).eng = d.eng := rfl
@[simp] theorem Device.modMce_noc (d : Device) (f : Mce → Mce) : (d.modMce f).noc = d.noc := rfl
@[simp] theorem Device.modMce_stk (d : Device) (f : Mce → Mce) : (d.modMce f).stk = d.stk := rfl
@[simp] theorem Device.modMce_proc (d : Device) (f : Mce → Mce) : (d.modMce f).proc = d.proc := rfl
@[simp] theorem Device.modMce_fab (d : Device) (f : Mce → Mce) : (d.modMce f).fab = d.fab := rfl
@[simp] theorem Device.modMce_gfx (d : Device) (f : Mce → Mce) : (d.modMce f).gfx = d.gfx := rfl
@[simp] theorem Device.modMce_fgw (d : Device) (f : Mce → Mce) : (d.modMce f).fgw = d.fgw := rfl
@[simp] theorem Device.modMce_dict (d : Device) (f : Mce → Mce) : (d.modMce f).dict = d.dict := rfl
@[simp] theorem Device.modMce_arb (d : Device) (f : Mce → Mce) : (d.modMce f).arb = d.arb := rfl
@[simp] theorem Device.modMce_sec (d : Device) (f : Mce → Mce) : (d.modMce f).sec = d.sec := rfl
@[simp] theorem Device.modMce_pwr (d : Device) (f : Mce → Mce) : (d.modMce f).pwr = d.pwr := rfl
@[simp] theorem Device.modMce_dbg (d : Device) (f : Mce → Mce) : (d.modMce f).dbg = d.dbg := rfl
@[simp] theorem Device.modMce_regs (d : Device) (f : Mce → Mce) : (d.modMce f).regs = d.regs := rfl
@[simp] theorem Device.modMce_rcs (d : Device) (f : Mce → Mce) : (d.modMce f).rcs = d.rcs := rfl
@[simp] theorem Device.modMce_holds (d : Device) (f : Mce → Mce) : (d.modMce f).holds = d.holds := rfl
@[simp] theorem Device.modMce_out (d : Device) (f : Mce → Mce) : (d.modMce f).out = d.out := rfl
@[simp] theorem Device.modMce_fresh (d : Device) (f : Mce → Mce) : (d.modMce f).fresh = d.fresh := rfl

/-! ### Device.modStk -/

@[simp] theorem Device.modStk_mem (d : Device) (f : Stk → Stk) : (d.modStk f).mem = d.mem := rfl
@[simp] theorem Device.modStk_scrambles (d : Device) (f : Stk → Stk) : (d.modStk f).scrambles = d.scrambles := rfl
@[simp] theorem Device.modStk_tb (d : Device) (f : Stk → Stk) : (d.modStk f).tb = d.tb := rfl
@[simp] theorem Device.modStk_cal (d : Device) (f : Stk → Stk) : (d.modStk f).cal = d.cal := rfl
@[simp] theorem Device.modStk_moves (d : Device) (f : Stk → Stk) : (d.modStk f).moves = d.moves := rfl
@[simp] theorem Device.modStk_groups (d : Device) (f : Stk → Stk) : (d.modStk f).groups = d.groups := rfl
@[simp] theorem Device.modStk_rings (d : Device) (f : Stk → Stk) : (d.modStk f).rings = d.rings := rfl
@[simp] theorem Device.modStk_jobs (d : Device) (f : Stk → Stk) : (d.modStk f).jobs = d.jobs := rfl
@[simp] theorem Device.modStk_sched (d : Device) (f : Stk → Stk) : (d.modStk f).sched = d.sched := rfl
@[simp] theorem Device.modStk_eng (d : Device) (f : Stk → Stk) : (d.modStk f).eng = d.eng := rfl
@[simp] theorem Device.modStk_noc (d : Device) (f : Stk → Stk) : (d.modStk f).noc = d.noc := rfl
@[simp] theorem Device.modStk_proc (d : Device) (f : Stk → Stk) : (d.modStk f).proc = d.proc := rfl
@[simp] theorem Device.modStk_fab (d : Device) (f : Stk → Stk) : (d.modStk f).fab = d.fab := rfl
@[simp] theorem Device.modStk_mce (d : Device) (f : Stk → Stk) : (d.modStk f).mce = d.mce := rfl
@[simp] theorem Device.modStk_gfx (d : Device) (f : Stk → Stk) : (d.modStk f).gfx = d.gfx := rfl
@[simp] theorem Device.modStk_fgw (d : Device) (f : Stk → Stk) : (d.modStk f).fgw = d.fgw := rfl
@[simp] theorem Device.modStk_dict (d : Device) (f : Stk → Stk) : (d.modStk f).dict = d.dict := rfl
@[simp] theorem Device.modStk_arb (d : Device) (f : Stk → Stk) : (d.modStk f).arb = d.arb := rfl
@[simp] theorem Device.modStk_sec (d : Device) (f : Stk → Stk) : (d.modStk f).sec = d.sec := rfl
@[simp] theorem Device.modStk_pwr (d : Device) (f : Stk → Stk) : (d.modStk f).pwr = d.pwr := rfl
@[simp] theorem Device.modStk_dbg (d : Device) (f : Stk → Stk) : (d.modStk f).dbg = d.dbg := rfl
@[simp] theorem Device.modStk_regs (d : Device) (f : Stk → Stk) : (d.modStk f).regs = d.regs := rfl
@[simp] theorem Device.modStk_rcs (d : Device) (f : Stk → Stk) : (d.modStk f).rcs = d.rcs := rfl
@[simp] theorem Device.modStk_holds (d : Device) (f : Stk → Stk) : (d.modStk f).holds = d.holds := rfl
@[simp] theorem Device.modStk_out (d : Device) (f : Stk → Stk) : (d.modStk f).out = d.out := rfl
@[simp] theorem Device.modStk_fresh (d : Device) (f : Stk → Stk) : (d.modStk f).fresh = d.fresh := rfl

/-! ### Device.modPort -/

@[simp] theorem Device.modPort_mem (d : Device) (p : Port) (f : PortState → PortState) : (d.modPort p f).mem = d.mem := rfl
@[simp] theorem Device.modPort_scrambles (d : Device) (p : Port) (f : PortState → PortState) : (d.modPort p f).scrambles = d.scrambles := rfl
@[simp] theorem Device.modPort_tb (d : Device) (p : Port) (f : PortState → PortState) : (d.modPort p f).tb = d.tb := rfl
@[simp] theorem Device.modPort_cal (d : Device) (p : Port) (f : PortState → PortState) : (d.modPort p f).cal = d.cal := rfl
@[simp] theorem Device.modPort_moves (d : Device) (p : Port) (f : PortState → PortState) : (d.modPort p f).moves = d.moves := rfl
@[simp] theorem Device.modPort_groups (d : Device) (p : Port) (f : PortState → PortState) : (d.modPort p f).groups = d.groups := rfl
@[simp] theorem Device.modPort_rings (d : Device) (p : Port) (f : PortState → PortState) : (d.modPort p f).rings = d.rings := rfl
@[simp] theorem Device.modPort_jobs (d : Device) (p : Port) (f : PortState → PortState) : (d.modPort p f).jobs = d.jobs := rfl
@[simp] theorem Device.modPort_sched (d : Device) (p : Port) (f : PortState → PortState) : (d.modPort p f).sched = d.sched := rfl
@[simp] theorem Device.modPort_eng (d : Device) (p : Port) (f : PortState → PortState) : (d.modPort p f).eng = d.eng := rfl
@[simp] theorem Device.modPort_stk (d : Device) (p : Port) (f : PortState → PortState) : (d.modPort p f).stk = d.stk := rfl
@[simp] theorem Device.modPort_proc (d : Device) (p : Port) (f : PortState → PortState) : (d.modPort p f).proc = d.proc := rfl
@[simp] theorem Device.modPort_fab (d : Device) (p : Port) (f : PortState → PortState) : (d.modPort p f).fab = d.fab := rfl
@[simp] theorem Device.modPort_mce (d : Device) (p : Port) (f : PortState → PortState) : (d.modPort p f).mce = d.mce := rfl
@[simp] theorem Device.modPort_gfx (d : Device) (p : Port) (f : PortState → PortState) : (d.modPort p f).gfx = d.gfx := rfl
@[simp] theorem Device.modPort_fgw (d : Device) (p : Port) (f : PortState → PortState) : (d.modPort p f).fgw = d.fgw := rfl
@[simp] theorem Device.modPort_dict (d : Device) (p : Port) (f : PortState → PortState) : (d.modPort p f).dict = d.dict := rfl
@[simp] theorem Device.modPort_arb (d : Device) (p : Port) (f : PortState → PortState) : (d.modPort p f).arb = d.arb := rfl
@[simp] theorem Device.modPort_sec (d : Device) (p : Port) (f : PortState → PortState) : (d.modPort p f).sec = d.sec := rfl
@[simp] theorem Device.modPort_pwr (d : Device) (p : Port) (f : PortState → PortState) : (d.modPort p f).pwr = d.pwr := rfl
@[simp] theorem Device.modPort_dbg (d : Device) (p : Port) (f : PortState → PortState) : (d.modPort p f).dbg = d.dbg := rfl
@[simp] theorem Device.modPort_regs (d : Device) (p : Port) (f : PortState → PortState) : (d.modPort p f).regs = d.regs := rfl
@[simp] theorem Device.modPort_rcs (d : Device) (p : Port) (f : PortState → PortState) : (d.modPort p f).rcs = d.rcs := rfl
@[simp] theorem Device.modPort_holds (d : Device) (p : Port) (f : PortState → PortState) : (d.modPort p f).holds = d.holds := rfl
@[simp] theorem Device.modPort_out (d : Device) (p : Port) (f : PortState → PortState) : (d.modPort p f).out = d.out := rfl
@[simp] theorem Device.modPort_fresh (d : Device) (p : Port) (f : PortState → PortState) : (d.modPort p f).fresh = d.fresh := rfl

/-! ### Device.modPool -/

@[simp] theorem Device.modPool_mem (d : Device) (die : Die) (f : TagPool → TagPool) : (d.modPool die f).mem = d.mem := rfl
@[simp] theorem Device.modPool_scrambles (d : Device) (die : Die) (f : TagPool → TagPool) : (d.modPool die f).scrambles = d.scrambles := rfl
@[simp] theorem Device.modPool_tb (d : Device) (die : Die) (f : TagPool → TagPool) : (d.modPool die f).tb = d.tb := rfl
@[simp] theorem Device.modPool_cal (d : Device) (die : Die) (f : TagPool → TagPool) : (d.modPool die f).cal = d.cal := rfl
@[simp] theorem Device.modPool_moves (d : Device) (die : Die) (f : TagPool → TagPool) : (d.modPool die f).moves = d.moves := rfl
@[simp] theorem Device.modPool_groups (d : Device) (die : Die) (f : TagPool → TagPool) : (d.modPool die f).groups = d.groups := rfl
@[simp] theorem Device.modPool_rings (d : Device) (die : Die) (f : TagPool → TagPool) : (d.modPool die f).rings = d.rings := rfl
@[simp] theorem Device.modPool_jobs (d : Device) (die : Die) (f : TagPool → TagPool) : (d.modPool die f).jobs = d.jobs := rfl
@[simp] theorem Device.modPool_sched (d : Device) (die : Die) (f : TagPool → TagPool) : (d.modPool die f).sched = d.sched := rfl
@[simp] theorem Device.modPool_eng (d : Device) (die : Die) (f : TagPool → TagPool) : (d.modPool die f).eng = d.eng := rfl
@[simp] theorem Device.modPool_stk (d : Device) (die : Die) (f : TagPool → TagPool) : (d.modPool die f).stk = d.stk := rfl
@[simp] theorem Device.modPool_proc (d : Device) (die : Die) (f : TagPool → TagPool) : (d.modPool die f).proc = d.proc := rfl
@[simp] theorem Device.modPool_fab (d : Device) (die : Die) (f : TagPool → TagPool) : (d.modPool die f).fab = d.fab := rfl
@[simp] theorem Device.modPool_mce (d : Device) (die : Die) (f : TagPool → TagPool) : (d.modPool die f).mce = d.mce := rfl
@[simp] theorem Device.modPool_gfx (d : Device) (die : Die) (f : TagPool → TagPool) : (d.modPool die f).gfx = d.gfx := rfl
@[simp] theorem Device.modPool_fgw (d : Device) (die : Die) (f : TagPool → TagPool) : (d.modPool die f).fgw = d.fgw := rfl
@[simp] theorem Device.modPool_dict (d : Device) (die : Die) (f : TagPool → TagPool) : (d.modPool die f).dict = d.dict := rfl
@[simp] theorem Device.modPool_arb (d : Device) (die : Die) (f : TagPool → TagPool) : (d.modPool die f).arb = d.arb := rfl
@[simp] theorem Device.modPool_sec (d : Device) (die : Die) (f : TagPool → TagPool) : (d.modPool die f).sec = d.sec := rfl
@[simp] theorem Device.modPool_pwr (d : Device) (die : Die) (f : TagPool → TagPool) : (d.modPool die f).pwr = d.pwr := rfl
@[simp] theorem Device.modPool_dbg (d : Device) (die : Die) (f : TagPool → TagPool) : (d.modPool die f).dbg = d.dbg := rfl
@[simp] theorem Device.modPool_regs (d : Device) (die : Die) (f : TagPool → TagPool) : (d.modPool die f).regs = d.regs := rfl
@[simp] theorem Device.modPool_rcs (d : Device) (die : Die) (f : TagPool → TagPool) : (d.modPool die f).rcs = d.rcs := rfl
@[simp] theorem Device.modPool_holds (d : Device) (die : Die) (f : TagPool → TagPool) : (d.modPool die f).holds = d.holds := rfl
@[simp] theorem Device.modPool_out (d : Device) (die : Die) (f : TagPool → TagPool) : (d.modPool die f).out = d.out := rfl
@[simp] theorem Device.modPool_fresh (d : Device) (die : Die) (f : TagPool → TagPool) : (d.modPool die f).fresh = d.fresh := rfl

/-! ### Device.modPwr -/

@[simp] theorem Device.modPwr_mem (d : Device) (f : Power → Power) : (d.modPwr f).mem = d.mem := rfl
@[simp] theorem Device.modPwr_scrambles (d : Device) (f : Power → Power) : (d.modPwr f).scrambles = d.scrambles := rfl
@[simp] theorem Device.modPwr_tb (d : Device) (f : Power → Power) : (d.modPwr f).tb = d.tb := rfl
@[simp] theorem Device.modPwr_cal (d : Device) (f : Power → Power) : (d.modPwr f).cal = d.cal := rfl
@[simp] theorem Device.modPwr_moves (d : Device) (f : Power → Power) : (d.modPwr f).moves = d.moves := rfl
@[simp] theorem Device.modPwr_groups (d : Device) (f : Power → Power) : (d.modPwr f).groups = d.groups := rfl
@[simp] theorem Device.modPwr_rings (d : Device) (f : Power → Power) : (d.modPwr f).rings = d.rings := rfl
@[simp] theorem Device.modPwr_jobs (d : Device) (f : Power → Power) : (d.modPwr f).jobs = d.jobs := rfl
@[simp] theorem Device.modPwr_sched (d : Device) (f : Power → Power) : (d.modPwr f).sched = d.sched := rfl
@[simp] theorem Device.modPwr_eng (d : Device) (f : Power → Power) : (d.modPwr f).eng = d.eng := rfl
@[simp] theorem Device.modPwr_noc (d : Device) (f : Power → Power) : (d.modPwr f).noc = d.noc := rfl
@[simp] theorem Device.modPwr_stk (d : Device) (f : Power → Power) : (d.modPwr f).stk = d.stk := rfl
@[simp] theorem Device.modPwr_proc (d : Device) (f : Power → Power) : (d.modPwr f).proc = d.proc := rfl
@[simp] theorem Device.modPwr_fab (d : Device) (f : Power → Power) : (d.modPwr f).fab = d.fab := rfl
@[simp] theorem Device.modPwr_mce (d : Device) (f : Power → Power) : (d.modPwr f).mce = d.mce := rfl
@[simp] theorem Device.modPwr_gfx (d : Device) (f : Power → Power) : (d.modPwr f).gfx = d.gfx := rfl
@[simp] theorem Device.modPwr_fgw (d : Device) (f : Power → Power) : (d.modPwr f).fgw = d.fgw := rfl
@[simp] theorem Device.modPwr_dict (d : Device) (f : Power → Power) : (d.modPwr f).dict = d.dict := rfl
@[simp] theorem Device.modPwr_arb (d : Device) (f : Power → Power) : (d.modPwr f).arb = d.arb := rfl
@[simp] theorem Device.modPwr_sec (d : Device) (f : Power → Power) : (d.modPwr f).sec = d.sec := rfl
@[simp] theorem Device.modPwr_dbg (d : Device) (f : Power → Power) : (d.modPwr f).dbg = d.dbg := rfl
@[simp] theorem Device.modPwr_regs (d : Device) (f : Power → Power) : (d.modPwr f).regs = d.regs := rfl
@[simp] theorem Device.modPwr_rcs (d : Device) (f : Power → Power) : (d.modPwr f).rcs = d.rcs := rfl
@[simp] theorem Device.modPwr_holds (d : Device) (f : Power → Power) : (d.modPwr f).holds = d.holds := rfl
@[simp] theorem Device.modPwr_out (d : Device) (f : Power → Power) : (d.modPwr f).out = d.out := rfl
@[simp] theorem Device.modPwr_fresh (d : Device) (f : Power → Power) : (d.modPwr f).fresh = d.fresh := rfl

/-! ### Device.modSec -/

@[simp] theorem Device.modSec_mem (d : Device) (f : Sec → Sec) : (d.modSec f).mem = d.mem := rfl
@[simp] theorem Device.modSec_scrambles (d : Device) (f : Sec → Sec) : (d.modSec f).scrambles = d.scrambles := rfl
@[simp] theorem Device.modSec_tb (d : Device) (f : Sec → Sec) : (d.modSec f).tb = d.tb := rfl
@[simp] theorem Device.modSec_cal (d : Device) (f : Sec → Sec) : (d.modSec f).cal = d.cal := rfl
@[simp] theorem Device.modSec_moves (d : Device) (f : Sec → Sec) : (d.modSec f).moves = d.moves := rfl
@[simp] theorem Device.modSec_groups (d : Device) (f : Sec → Sec) : (d.modSec f).groups = d.groups := rfl
@[simp] theorem Device.modSec_rings (d : Device) (f : Sec → Sec) : (d.modSec f).rings = d.rings := rfl
@[simp] theorem Device.modSec_jobs (d : Device) (f : Sec → Sec) : (d.modSec f).jobs = d.jobs := rfl
@[simp] theorem Device.modSec_sched (d : Device) (f : Sec → Sec) : (d.modSec f).sched = d.sched := rfl
@[simp] theorem Device.modSec_eng (d : Device) (f : Sec → Sec) : (d.modSec f).eng = d.eng := rfl
@[simp] theorem Device.modSec_noc (d : Device) (f : Sec → Sec) : (d.modSec f).noc = d.noc := rfl
@[simp] theorem Device.modSec_stk (d : Device) (f : Sec → Sec) : (d.modSec f).stk = d.stk := rfl
@[simp] theorem Device.modSec_proc (d : Device) (f : Sec → Sec) : (d.modSec f).proc = d.proc := rfl
@[simp] theorem Device.modSec_fab (d : Device) (f : Sec → Sec) : (d.modSec f).fab = d.fab := rfl
@[simp] theorem Device.modSec_mce (d : Device) (f : Sec → Sec) : (d.modSec f).mce = d.mce := rfl
@[simp] theorem Device.modSec_gfx (d : Device) (f : Sec → Sec) : (d.modSec f).gfx = d.gfx := rfl
@[simp] theorem Device.modSec_fgw (d : Device) (f : Sec → Sec) : (d.modSec f).fgw = d.fgw := rfl
@[simp] theorem Device.modSec_dict (d : Device) (f : Sec → Sec) : (d.modSec f).dict = d.dict := rfl
@[simp] theorem Device.modSec_arb (d : Device) (f : Sec → Sec) : (d.modSec f).arb = d.arb := rfl
@[simp] theorem Device.modSec_pwr (d : Device) (f : Sec → Sec) : (d.modSec f).pwr = d.pwr := rfl
@[simp] theorem Device.modSec_dbg (d : Device) (f : Sec → Sec) : (d.modSec f).dbg = d.dbg := rfl
@[simp] theorem Device.modSec_regs (d : Device) (f : Sec → Sec) : (d.modSec f).regs = d.regs := rfl
@[simp] theorem Device.modSec_rcs (d : Device) (f : Sec → Sec) : (d.modSec f).rcs = d.rcs := rfl
@[simp] theorem Device.modSec_holds (d : Device) (f : Sec → Sec) : (d.modSec f).holds = d.holds := rfl
@[simp] theorem Device.modSec_out (d : Device) (f : Sec → Sec) : (d.modSec f).out = d.out := rfl
@[simp] theorem Device.modSec_fresh (d : Device) (f : Sec → Sec) : (d.modSec f).fresh = d.fresh := rfl

/-! ### Device.dbgAck -/

@[simp] theorem Device.dbgAck_mem (d : Device) (a : DbgAck) : (d.dbgAck a).mem = d.mem := rfl
@[simp] theorem Device.dbgAck_scrambles (d : Device) (a : DbgAck) : (d.dbgAck a).scrambles = d.scrambles := rfl
@[simp] theorem Device.dbgAck_tb (d : Device) (a : DbgAck) : (d.dbgAck a).tb = d.tb := rfl
@[simp] theorem Device.dbgAck_cal (d : Device) (a : DbgAck) : (d.dbgAck a).cal = d.cal := rfl
@[simp] theorem Device.dbgAck_moves (d : Device) (a : DbgAck) : (d.dbgAck a).moves = d.moves := rfl
@[simp] theorem Device.dbgAck_groups (d : Device) (a : DbgAck) : (d.dbgAck a).groups = d.groups := rfl
@[simp] theorem Device.dbgAck_rings (d : Device) (a : DbgAck) : (d.dbgAck a).rings = d.rings := rfl
@[simp] theorem Device.dbgAck_jobs (d : Device) (a : DbgAck) : (d.dbgAck a).jobs = d.jobs := rfl
@[simp] theorem Device.dbgAck_sched (d : Device) (a : DbgAck) : (d.dbgAck a).sched = d.sched := rfl
@[simp] theorem Device.dbgAck_eng (d : Device) (a : DbgAck) : (d.dbgAck a).eng = d.eng := rfl
@[simp] theorem Device.dbgAck_noc (d : Device) (a : DbgAck) : (d.dbgAck a).noc = d.noc := rfl
@[simp] theorem Device.dbgAck_stk (d : Device) (a : DbgAck) : (d.dbgAck a).stk = d.stk := rfl
@[simp] theorem Device.dbgAck_proc (d : Device) (a : DbgAck) : (d.dbgAck a).proc = d.proc := rfl
@[simp] theorem Device.dbgAck_fab (d : Device) (a : DbgAck) : (d.dbgAck a).fab = d.fab := rfl
@[simp] theorem Device.dbgAck_mce (d : Device) (a : DbgAck) : (d.dbgAck a).mce = d.mce := rfl
@[simp] theorem Device.dbgAck_gfx (d : Device) (a : DbgAck) : (d.dbgAck a).gfx = d.gfx := rfl
@[simp] theorem Device.dbgAck_fgw (d : Device) (a : DbgAck) : (d.dbgAck a).fgw = d.fgw := rfl
@[simp] theorem Device.dbgAck_dict (d : Device) (a : DbgAck) : (d.dbgAck a).dict = d.dict := rfl
@[simp] theorem Device.dbgAck_arb (d : Device) (a : DbgAck) : (d.dbgAck a).arb = d.arb := rfl
@[simp] theorem Device.dbgAck_sec (d : Device) (a : DbgAck) : (d.dbgAck a).sec = d.sec := rfl
@[simp] theorem Device.dbgAck_pwr (d : Device) (a : DbgAck) : (d.dbgAck a).pwr = d.pwr := rfl
@[simp] theorem Device.dbgAck_dbg (d : Device) (a : DbgAck) : (d.dbgAck a).dbg = d.dbg := rfl
@[simp] theorem Device.dbgAck_regs (d : Device) (a : DbgAck) : (d.dbgAck a).regs = d.regs := rfl
@[simp] theorem Device.dbgAck_rcs (d : Device) (a : DbgAck) : (d.dbgAck a).rcs = d.rcs := rfl
@[simp] theorem Device.dbgAck_holds (d : Device) (a : DbgAck) : (d.dbgAck a).holds = d.holds := rfl
@[simp] theorem Device.dbgAck_fresh (d : Device) (a : DbgAck) : (d.dbgAck a).fresh = d.fresh := rfl

end Sys2Proof.Machine
end

