-- ==== Sys2Proof/Laws/Tab.lean ====
section
/-! SUPPORT. Laws of sparse tables and of memory: what a read gives after a write, and that every operation keeps the
canonical form. -/

namespace Sys2Proof.Machine

variable {α : Type}

/-! ### Read after write -/

theorem tget_tdel_same (d : Nat → α) (t : Tab α) (k : Nat) : tget d (tdel t k) k = d k := by
  induction t with
  | nil => rfl
  | cons p t ih =>
    obtain ⟨a, v⟩ := p
    by_cases h : a = k <;> simp [tdel, tget, h, ih]

theorem tget_tdel_other (d : Nat → α) (t : Tab α) {j k : Nat} (h : j ≠ k) : tget d (tdel t k) j = tget d t j := by
  induction t with
  | nil => rfl
  | cons p t ih =>
    obtain ⟨a, v⟩ := p
    by_cases ha : a = k
    · subst ha
      have : ¬ a = j := fun e => h e.symm
      simp [tdel, tget, this, ih]
    · simp [tdel, tget, ha, ih]

theorem tget_tins_same (d : Nat → α) (t : Tab α) (k : Nat) (v : α) (h : ∀ p ∈ t, p.1 ≠ k) : tget d (tins t k v) k = v := by
  induction t with
  | nil => simp [tins, tget]
  | cons p t ih =>
    obtain ⟨a, w⟩ := p
    have ha : a ≠ k := h (a, w) (by simp)
    by_cases hk : k < a
    · simp [tins, tget, hk]
    · simp [tins, tget, hk, ha, ih fun q hq => h q (by simp [hq])]

theorem tget_tins_other (d : Nat → α) (t : Tab α) {j k : Nat} (v : α) (h : j ≠ k) : tget d (tins t k v) j = tget d t j := by
  have hk : ¬ k = j := fun e => h e.symm
  induction t with
  | nil => simp [tins, tget, hk]
  | cons p t ih =>
    obtain ⟨a, w⟩ := p
    by_cases ha : k < a
    · simp [tins, tget, ha, hk]
    · simp [tins, tget, ha, ih]

theorem mem_tdel {t : Tab α} {k : Nat} {p : Nat × α} (h : p ∈ tdel t k) : p ∈ t ∧ p.1 ≠ k := by
  induction t with
  | nil => simp [tdel] at h
  | cons q t ih =>
    obtain ⟨a, v⟩ := q
    by_cases ha : a = k
    · simp [tdel, ha] at h
      exact ⟨List.mem_cons_of_mem _ (ih h).1, (ih h).2⟩
    · simp [tdel, ha] at h
      rcases h with rfl | h
      · exact ⟨by simp, ha⟩
      · exact ⟨List.mem_cons_of_mem _ (ih h).1, (ih h).2⟩

/-- A read of the key that was written gives the value written. -/
@[simp] theorem tget_tput_same [DecidableEq α] (d : Nat → α) (t : Tab α) (k : Nat) (v : α) : tget d (tput d t k v) k = v := by
  unfold tput
  split
  · next h => rw [tget_tdel_same, h]
  · exact tget_tins_same d _ k v fun p hp => (mem_tdel hp).2

/-- A write leaves every other key alone. -/
theorem tget_tput_other [DecidableEq α] (d : Nat → α) (t : Tab α) {j k : Nat} (v : α) (h : j ≠ k) :
    tget d (tput d t k v) j = tget d t j := by
  unfold tput
  split
  · exact tget_tdel_other d t h
  · rw [tget_tins_other d _ v h, tget_tdel_other d t h]

theorem tget_tput [DecidableEq α] (d : Nat → α) (t : Tab α) (j k : Nat) (v : α) :
    tget d (tput d t k v) j = if j = k then v else tget d t j := by
  by_cases h : j = k
  · subst h; simp
  · simp [h, tget_tput_other d t v h]

/-! ### The canonical form -/

/-- The canonical form is: keys rise and no entry holds its default. -/
theorem twfFrom_iff [DecidableEq α] (d : Nat → α) (lo : Option Nat) (t : Tab α) :
    twfFrom d lo t = true ↔
      (∀ p ∈ t, (∀ l, lo = some l → l < p.1) ∧ p.2 ≠ d p.1) ∧ t.Pairwise fun p q => p.1 < q.1 := by
  induction t generalizing lo with
  | nil => simp [twfFrom]
  | cons p t ih =>
    obtain ⟨a, v⟩ := p
    cases lo with
    | none =>
      simp only [twfFrom, Bool.and_eq_true, decide_eq_true_eq, ih (some a), List.mem_cons, List.pairwise_cons]
      constructor
      · rintro ⟨hv, h, hp⟩
        refine ⟨?_, fun q hq => (h q hq).1 a rfl, hp⟩
        rintro q (rfl | hq)
        · exact ⟨by simp, hv⟩
        · exact ⟨by simp, (h q hq).2⟩
      · rintro ⟨h, ha, hp⟩
        exact ⟨(h (a, v) (Or.inl rfl)).2, fun q hq => ⟨by rintro l ⟨⟩; exact ha q hq, (h q (Or.inr hq)).2⟩, hp⟩
    | some l =>
      simp only [twfFrom, Bool.and_eq_true, decide_eq_true_eq, ih (some a), List.mem_cons, List.pairwise_cons]
      constructor
      · rintro ⟨⟨hl, hv⟩, h, hp⟩
        refine ⟨?_, fun q hq => (h q hq).1 a rfl, hp⟩
        rintro q (rfl | hq)
        · exact ⟨by rintro x ⟨⟩; exact hl, hv⟩
        · exact ⟨by rintro x ⟨⟩; exact lt_trans hl ((h q hq).1 a rfl), (h q hq).2⟩
      · rintro ⟨h, ha, hp⟩
        exact ⟨⟨(h (a, v) (Or.inl rfl)).1 l rfl, (h (a, v) (Or.inl rfl)).2⟩,
          fun q hq => ⟨by rintro x ⟨⟩; exact ha q hq, (h q (Or.inr hq)).2⟩, hp⟩

theorem twf_iff [DecidableEq α] (d : Nat → α) (t : Tab α) :
    twf d t = true ↔ (∀ p ∈ t, p.2 ≠ d p.1) ∧ t.Pairwise fun p q => p.1 < q.1 := by
  unfold twf
  rw [twfFrom_iff]
  simp

theorem tdel_eq_filter (t : Tab α) (k : Nat) : tdel t k = t.filter fun p => decide (p.1 ≠ k) := by
  induction t with
  | nil => rfl
  | cons p t ih =>
    obtain ⟨a, v⟩ := p
    by_cases h : a = k <;> simp [tdel, h, ih]

/-- Taking entries away keeps the canonical form. -/
theorem twf_filter [DecidableEq α] {d : Nat → α} {t : Tab α} (f : Nat × α → Bool) (h : twf d t = true) :
    twf d (t.filter f) = true := by
  rw [twf_iff] at *
  exact ⟨fun p hp => h.1 p (List.mem_of_mem_filter hp), h.2.filter _⟩

theorem mem_tins {t : Tab α} {k : Nat} {v : α} {p : Nat × α} (h : p ∈ tins t k v) : p = (k, v) ∨ p ∈ t := by
  induction t with
  | nil => simpa [tins] using h
  | cons q t ih =>
    obtain ⟨a, w⟩ := q
    by_cases ha : k < a
    · simpa [tins, ha] using h
    · simp only [tins, ha, if_false, List.mem_cons] at h
      rcases h with rfl | h
      · exact Or.inr (by simp)
      · rcases ih h with rfl | h
        · exact Or.inl rfl
        · exact Or.inr (by simp [h])

theorem pairwise_tins {t : Tab α} {k : Nat} {v : α} (h : t.Pairwise fun p q => p.1 < q.1) (hk : ∀ p ∈ t, p.1 ≠ k) :
    (tins t k v).Pairwise fun p q => p.1 < q.1 := by
  induction t with
  | nil => simp [tins]
  | cons q t ih =>
    obtain ⟨a, w⟩ := q
    rw [List.pairwise_cons] at h
    by_cases ha : k < a
    · simp only [tins, ha, if_true, List.pairwise_cons, List.mem_cons]
      refine ⟨?_, h.1, h.2⟩
      rintro q (rfl | hq)
      · exact ha
      · exact lt_trans ha (h.1 q hq)
    · simp only [tins, ha, if_false, List.pairwise_cons]
      refine ⟨fun q hq => ?_, ih h.2 fun p hp => hk p (by simp [hp])⟩
      rcases mem_tins hq with rfl | hq
      · have : a ≠ k := hk (a, w) (by simp)
        show a < k
        omega
      · exact h.1 q hq

/-- A write keeps the canonical form. -/
theorem twf_tput [DecidableEq α] {d : Nat → α} {t : Tab α} (k : Nat) (v : α) (h : twf d t = true) :
    twf d (tput d t k v) = true := by
  unfold tput
  have hd : twf d (tdel t k) = true := by rw [tdel_eq_filter]; exact twf_filter _ h
  split
  · exact hd
  · next hv =>
    rw [twf_iff] at *
    refine ⟨fun p hp => ?_, pairwise_tins hd.2 fun p hp => (mem_tdel hp).2⟩
    rcases mem_tins hp with rfl | hp
    · exact hv
    · exact hd.1 p hp

/-! ### Memory -/

@[simp] theorem mget_mput_same (m : Mem) (a : Nat) (v : Byte) : mget (mput m a v) a = v := tget_tput_same _ m a v

theorem mget_mput_other (m : Mem) {a b : Nat} (v : Byte) (h : b ≠ a) : mget (mput m a v) b = mget m b :=
  tget_tput_other _ m v h

theorem wf_mput {m : Mem} (a : Nat) (v : Byte) (h : Memory.wf m = true) : Memory.wf (mput m a v) = true := twf_tput a v h

theorem wf_mwrite {m : Mem} (a : Nat) (bs : List Byte) (h : Memory.wf m = true) : Memory.wf (mwrite m a bs) = true := by
  induction bs generalizing m a with
  | nil => exact h
  | cons b bs ih => exact ih (a + 1) (wf_mput a b h)

theorem wf_filter {m : Mem} (f : Nat × Byte → Bool) (h : Memory.wf m = true) : Memory.wf (m.filter f) = true := twf_filter f h

/-- The device writes bytes and ranges of zeros: the memory keeps its canonical form. -/
theorem Device.putByte_wf {d : Device} (a : Nat) (v : Byte) (h : Memory.wf d.mem = true) : Memory.wf (d.putByte a v).mem = true :=
  wf_mput a _ h

theorem Device.put_wf {d : Device} (a : Nat) (bs : List Byte) (h : Memory.wf d.mem = true) : Memory.wf (d.put a bs).mem = true := by
  induction bs generalizing d a with
  | nil => exact h
  | cons b bs ih => exact ih (a + 1) (Device.putByte_wf a b h)

theorem Device.putAll_wf {d : Device} (ws : List (Nat × List Byte)) (h : Memory.wf d.mem = true) :
    Memory.wf (d.putAll ws).mem = true := by
  unfold Device.putAll
  induction ws generalizing d with
  | nil => exact h
  | cons w ws ih => exact ih (Device.put_wf w.1 w.2 h)

theorem Device.zero_wf {d : Device} (lo hi : Nat) (h : Memory.wf d.mem = true) : Memory.wf (d.zero lo hi).mem = true := by
  unfold Device.zero
  split
  · exact h
  · exact wf_filter _ h

/-- What the device reads after a write of one byte: the byte itself there, and what it was elsewhere. -/
@[simp] theorem Device.byte_putByte_same (d : Device) (a : Nat) (v : Byte) : (d.putByte a v).byte a = v := by
  simp [Device.byte, Device.putByte]

theorem Device.byte_putByte_other (d : Device) {a b : Nat} (v : Byte) (h : b ≠ a) : (d.putByte a v).byte b = d.byte b := by
  simp [Device.byte, Device.putByte, mget_mput_other _ _ h]

end Sys2Proof.Machine
end

