-- ==== Sys2Proof/Laws/Access.lean ====
section
/-! SUPPORT. What reading a named group gives after a group of the same kind was written. -/

namespace Sys2Proof.Machine

open Sys2Proof

@[simp] theorem Device.setRing_ring (d : Device) (k : Nat) (v : Ring) : (d.setRing k v).ring k = v := by simp [Device.ring, Device.setRing]
theorem Device.setRing_ring_if (d : Device) (k n : Nat) (v : Ring) : (d.setRing k v).ring n = if n = k then v else d.ring n := by
  simp [Device.ring, Device.setRing, tget_tput]
@[simp] theorem Device.setJob_job (d : Device) (k : Nat) (v : Job) : (d.setJob k v).job k = v := by simp [Device.job, Device.setJob]
theorem Device.setJob_job_if (d : Device) (k n : Nat) (v : Job) : (d.setJob k v).job n = if n = k then v else d.job n := by
  simp [Device.job, Device.setJob, tget_tput]
@[simp] theorem Device.setEng_engine (d : Device) (k : Nat) (v : Eng) : (d.setEng k v).engine k = v := by simp [Device.engine, Device.setEng]
theorem Device.setEng_engine_if (d : Device) (k n : Nat) (v : Eng) : (d.setEng k v).engine n = if n = k then v else d.engine n := by
  simp [Device.engine, Device.setEng, tget_tput]
@[simp] theorem Arb.setPair_pair (a : Arb) (k : Nat) (v : Pair) : (a.setPair k v).pair k = v := by simp [Arb.pair, Arb.setPair]
theorem Arb.setPair_pair_if (a : Arb) (k n : Nat) (v : Pair) : (a.setPair k v).pair n = if n = k then v else a.pair n := by
  simp [Arb.pair, Arb.setPair, tget_tput]
@[simp] theorem Arb.setTask_task (a : Arb) (k : Nat) (v : TaskRun) : (a.setTask k v).task k = v := by simp [Arb.task, Arb.setTask]
theorem Arb.setTask_task_if (a : Arb) (k n : Nat) (v : TaskRun) : (a.setTask k v).task n = if n = k then v else a.task n := by
  simp [Arb.task, Arb.setTask, tget_tput]
@[simp] theorem Dbg.setModule_module (d : Dbg) (k : Nat) (v : DebugModule) : (d.setModule k v).module k = v := by simp [Dbg.module, Dbg.setModule]
theorem Dbg.setModule_module_if (d : Dbg) (k n : Nat) (v : DebugModule) : (d.setModule k v).module n = if n = k then v else d.module n := by
  simp [Dbg.module, Dbg.setModule, tget_tput]
@[simp] theorem Fab.setPort_port (f : Fab) (k : Nat) (v : LPort) : (f.setPort k v).port k = v := by simp [Fab.port, Fab.setPort]
theorem Fab.setPort_port_if (f : Fab) (k n : Nat) (v : LPort) : (f.setPort k v).port n = if n = k then v else f.port n := by
  simp [Fab.port, Fab.setPort, tget_tput]
@[simp] theorem Fab.setPuts_putDst (f : Fab) (k : Nat) (v : PutDst) : (f.setPuts k v).putDst k = v := by simp [Fab.putDst, Fab.setPuts]
theorem Fab.setPuts_putDst_if (f : Fab) (k n : Nat) (v : PutDst) : (f.setPuts k v).putDst n = if n = k then v else f.putDst n := by
  simp [Fab.putDst, Fab.setPuts, tget_tput]
@[simp] theorem Gateway.setPort_port (g : Gateway) (k : Nat) (v : FPort) : (g.setPort k v).port k = v := by simp [Gateway.port, Gateway.setPort]
theorem Gateway.setPort_port_if (g : Gateway) (k n : Nat) (v : FPort) : (g.setPort k v).port n = if n = k then v else g.port n := by
  simp [Gateway.port, Gateway.setPort, tget_tput]
@[simp] theorem Gateway.setGroup_group (g : Gateway) (k : Nat) (v : FGroup) : (g.setGroup k v).group k = v := by simp [Gateway.group, Gateway.setGroup]
theorem Gateway.setGroup_group_if (g : Gateway) (k n : Nat) (v : FGroup) : (g.setGroup k v).group n = if n = k then v else g.group n := by
  simp [Gateway.group, Gateway.setGroup, tget_tput]
@[simp] theorem Gateway.setNode_node (g : Gateway) (k : Nat) (v : Node) : (g.setNode k v).node k = v := by simp [Gateway.node, Gateway.setNode]
theorem Gateway.setNode_node_if (g : Gateway) (k n : Nat) (v : Node) : (g.setNode k v).node n = if n = k then v else g.node n := by
  simp [Gateway.node, Gateway.setNode, tget_tput]
@[simp] theorem Gateway.setMap_map (g : Gateway) (k : Nat) (v : MapRun) : (g.setMap k v).map k = v := by simp [Gateway.map, Gateway.setMap]
theorem Gateway.setMap_map_if (g : Gateway) (k n : Nat) (v : MapRun) : (g.setMap k v).map n = if n = k then v else g.map n := by
  simp [Gateway.map, Gateway.setMap, tget_tput]
@[simp] theorem Gfx.setPipe_pipe (g : Gfx) (k : Nat) (v : Pipe) : (g.setPipe k v).pipe k = v := by simp [Gfx.pipe, Gfx.setPipe]
theorem Gfx.setPipe_pipe_if (g : Gfx) (k n : Nat) (v : Pipe) : (g.setPipe k v).pipe n = if n = k then v else g.pipe n := by
  simp [Gfx.pipe, Gfx.setPipe, tget_tput]
@[simp] theorem Noc.setCounter_counter (c : Noc) (k : Nat) (v : Counter) : (c.setCounter k v).counter k = v := by simp [Noc.counter, Noc.setCounter]
theorem Noc.setCounter_counter_if (c : Noc) (k n : Nat) (v : Counter) : (c.setCounter k v).counter n = if n = k then v else c.counter n := by
  simp [Noc.counter, Noc.setCounter, tget_tput]
@[simp] theorem Power.setQuad_quad (x : Power) (k : Nat) (v : Quad) : (x.setQuad k v).quad k = v := by simp [Power.quad, Power.setQuad]
theorem Power.setQuad_quad_if (x : Power) (k n : Nat) (v : Quad) : (x.setQuad k v).quad n = if n = k then v else x.quad n := by
  simp [Power.quad, Power.setQuad, tget_tput]
@[simp] theorem Sec.setRegion_region (s : Sec) (k : Nat) (v : SealRegion) : (s.setRegion k v).region k = v := by simp [Sec.region, Sec.setRegion]
theorem Sec.setRegion_region_if (s : Sec) (k n : Nat) (v : SealRegion) : (s.setRegion k v).region n = if n = k then v else s.region n := by
  simp [Sec.region, Sec.setRegion, tget_tput]
@[simp] theorem Proc.setInst_inst (x : Proc) (k : Nat) (v : Inst) : (x.setInst k v).inst k = v := by simp [Proc.inst, Proc.setInst]
theorem Proc.setInst_inst_if (x : Proc) (k n : Nat) (v : Inst) : (x.setInst k v).inst n = if n = k then v else x.inst n := by
  simp [Proc.inst, Proc.setInst, tget_tput]
@[simp] theorem Device.setBlk_blk (d : Device) (b : BlockId) (v : MoveBlk) : (d.setBlk b v).blk b = v := by
  simp [Device.blk, Device.setBlk]
@[simp] theorem Noc.setPort_port (n : Noc) (p : Port) (v : PortState) : (n.setPort p v).port p = v := by
  simp [Noc.port, Noc.setPort]

@[simp] theorem Device.modJob_job (d : Device) (j : Nat) (f : Job → Job) : (d.modJob j f).job j = f (d.job j) := by
  simp [Device.modJob]
theorem Device.modJob_job_if (d : Device) (j k : Nat) (f : Job → Job) :
    (d.modJob j f).job k = if k = j then f (d.job j) else d.job k := by
  simp [Device.modJob, Device.setJob_job_if]
@[simp] theorem Device.modEng_engine (d : Device) (e : Nat) (f : Eng → Eng) : (d.modEng e f).engine e = f (d.engine e) := by
  simp [Device.modEng]
theorem Device.modEng_engine_if (d : Device) (e k : Nat) (f : Eng → Eng) :
    (d.modEng e f).engine k = if k = e then f (d.engine e) else d.engine k := by
  simp [Device.modEng, Device.setEng_engine_if]

end Sys2Proof.Machine
end

