-- ==== Sys2Proof/Laws/Arbiter.lean ====
section
/-! SUPPORT. What the Arbiter's reactions can do (R409, R430): each changes the Arbiter and the counter of free values. -/

namespace Sys2Proof.Machine

/-- A time stamp changes the counter of free values alone. -/
theorem Device.stamp_eq (d : Device) : d.stamp = (d.stamp.1, { d with fresh := d.fresh + 1 }) := rfl

theorem Device.logDt_eq (d : Device) : ∃ t n, d.logDt = (t, { d with fresh := n }) := by
  unfold Device.logDt
  split
  · exact ⟨_, _, rfl⟩
  · exact ⟨0, d.fresh, rfl⟩

/-- REPORT, and the log entries of the other reactions. -/
theorem Device.arbReport_eq (d : Device) (cause : Nat) (source : Option Nat) (reaction falls : Nat) :
    ∃ t s a n, d.arbReport cause source reaction falls
      = { d with arb := d.arb.report t cause s reaction falls a, fresh := n } := by
  obtain ⟨t, n, h⟩ := d.logDt_eq
  exact ⟨t, _, _, _, by unfold Device.arbReport; rw [h]; rfl⟩

/-- SAFE. -/
theorem Device.arbSafe_eq (d : Device) (cause : Nat) (source : Option Nat) (falls : Nat) :
    ∃ t s a n, d.arbSafe cause source falls = { d with arb := d.arb.enterSafe t cause s falls a, fresh := n } := by
  obtain ⟨t, n, h⟩ := d.logDt_eq
  exact ⟨t, _, _, _, by unfold Device.arbSafe; rw [h]; rfl⟩

theorem Device.safeCause_eq (d : Device) (cause : Nat) (source : Option Nat) (h : d.arb.valid = true) :
    ∃ t s a n, d.safeCause cause source = { d with arb := d.arb.enterSafe t cause s 0 a, fresh := n } := by
  unfold Device.safeCause
  rw [if_pos h]
  exact d.arbSafe_eq cause source 0

theorem Device.reportCause_eq (d : Device) (cause : Nat) (source : Option Nat) (h : d.arb.valid = true) :
    ∃ t s a n, d.reportCause cause source = { d with arb := d.arb.report t cause s reactReport 0 a, fresh := n } := by
  unfold Device.reportCause
  rw [if_pos h]
  exact d.arbReport_eq cause source reactReport 0

/-- The entry that a report appends. -/
@[simp] theorem Arb.report_entry (a : Arb) (dt cause source reaction falls arg : Nat) :
    (a.report dt cause source reaction falls arg).entry a.logNext = ⟨dt, a.cycles, cause, source, reaction, false, falls, arg⟩ := by
  simp [Arb.report, Arb.append, Arb.entry]

@[simp] theorem Arb.enterSafe_entry (a : Arb) (dt cause source falls arg : Nat) :
    (a.enterSafe dt cause source falls arg).entry a.logNext = ⟨dt, a.cycles, cause, source, reactSafe, false, falls, arg⟩ :=
  a.report_entry dt cause source reactSafe falls arg

end Sys2Proof.Machine
end

