-- ==== Sys2Proof/Laws/Dispatch.lean ====
section
/-! SUPPORT. One equation per command: what exec answers is what the command's meaning answers. -/

namespace Sys2Proof.Machine

open Sys2Proof

@[simp] theorem exec_registerWrite (r : RegReq) (s : State) : exec (.registerWrite r) s = execRegisterWrite r s := rfl
@[simp] theorem exec_rcRead (addr : Nat) (debug : Bool) (hwSet : Nat) (s : State) : exec (.rcRead addr debug hwSet) s = execRcRead addr debug hwSet s := rfl
@[simp] theorem exec_busAccess (r : BusReq) (s : State) : exec (.busAccess r) s = execBusAccess r s := rfl
@[simp] theorem exec_wcbDrain (e : Fin 32) (s : State) : exec (.wcbDrain e) s = execWcbDrain e s := rfl
@[simp] theorem exec_timeStart (stamp : Option Nat) (s : State) : exec (.timeStart stamp) s = execTimeStart stamp s := rfl
@[simp] theorem exec_tempoBoundary (env : TempoEnv) (s : State) : exec (.tempoBoundary env) s = execTempoBoundary env s := rfl
@[simp] theorem exec_roundBoundary (env : RoundEnv) (s : State) : exec (.roundBoundary env) s = execRoundBoundary env s := rfl
@[simp] theorem exec_seal (b : BlockId) (group : Fin 32) (s : State) : exec (.seal b group) s = execSeal b group s := rfl
@[simp] theorem exec_withdraw (b : BlockId) (s : State) : exec (.withdraw b) s = execWithdraw b s := rfl
@[simp] theorem exec_revert (b : BlockId) (s : State) : exec (.revert b) s = execRevert b s := rfl
@[simp] theorem exec_moveLoaded (b : BlockId) (s : State) : exec (.moveLoaded b) s = execMoveLoaded b s := rfl
@[simp] theorem exec_gptpMasterLoss (s : State) : exec .gptpMasterLoss s = execGptpMasterLoss s := rfl
@[simp] theorem exec_calSet (s : State) : exec .calSet s = execCalSet s := rfl
@[simp] theorem exec_calendarTick (s : State) : exec .calendarTick s = execCalendarTick s := rfl
@[simp] theorem exec_calendarRewrite (s : State) : exec .calendarRewrite s = execCalendarRewrite s := rfl
@[simp] theorem exec_calDateRead (s : State) : exec .calDateRead s = execCalDateRead s := rfl
@[simp] theorem exec_fieldCycleBoundary (g : Fin 16) (s : State) : exec (.fieldCycleBoundary g) s = execFieldCycleBoundary g s := rfl
@[simp] theorem exec_frameBoundary (p : Fin 2) (s : State) : exec (.frameBoundary p) s = execFrameBoundary p s := rfl
@[simp] theorem exec_checkpointBoundary (j : Fin 64) (s : State) : exec (.checkpointBoundary j) s = execCheckpointBoundary j s := rfl
@[simp] theorem exec_commandStart (e : Fin 32) (s : State) : exec (.commandStart e) s = execCommandStart e s := rfl
@[simp] theorem exec_commandCommit (e : Fin 32) (s : State) : exec (.commandCommit e) s = execCommandCommit e s := rfl
@[simp] theorem exec_commandFault (fault : CmdFault) (also : List CmdFault) (s : State) : exec (.commandFault fault also) s = execCommandFault fault also s := rfl
@[simp] theorem exec_atomicOverrun (e : Fin 32) (s : State) : exec (.atomicOverrun e) s = execAtomicOverrun e s := rfl
@[simp] theorem exec_waitTimeout (e : Fin 32) (s : State) : exec (.waitTimeout e) s = execWaitTimeout e s := rfl
@[simp] theorem exec_mma (e : Fin 32) (s : State) : exec (.mma e) s = execMma e s := rfl
@[simp] theorem exec_attn (e : Fin 32) (s : State) : exec (.attn e) s = execAttn e s := rfl
@[simp] theorem exec_spmm (e : Fin 32) (s : State) : exec (.spmm e) s = execSpmm e s := rfl
@[simp] theorem exec_vprog (e : Fin 32) (s : State) : exec (.vprog e) s = execVprog e s := rfl
@[simp] theorem exec_cvt (e : Fin 32) (s : State) : exec (.cvt e) s = execCvt e s := rfl
@[simp] theorem exec_copy (e : Fin 32) (s : State) : exec (.copy e) s = execCopy e s := rfl
@[simp] theorem exec_wait (e : Fin 32) (s : State) : exec (.wait e) s = execWait e s := rfl
@[simp] theorem exec_signal (e : Fin 32) (s : State) : exec (.signal e) s = execSignal e s := rfl
@[simp] theorem exec_publish (e : Fin 32) (s : State) : exec (.publish e) s = execPublish e s := rfl
@[simp] theorem exec_fence (e : Fin 32) (s : State) : exec (.fence e) s = execFence e s := rfl
@[simp] theorem exec_checkpoint (e : Fin 32) (s : State) : exec (.checkpoint e) s = execCheckpoint e s := rfl
@[simp] theorem exec_remote (e : Fin 32) (s : State) : exec (.remote e) s = execRemote e s := rfl
@[simp] theorem exec_nop (e : Fin 32) (s : State) : exec (.nop e) s = execNop e s := rfl
@[simp] theorem exec_gather (e : Fin 32) (s : State) : exec (.gather e) s = execGather e s := rfl
@[simp] theorem exec_scatter (e : Fin 32) (s : State) : exec (.scatter e) s = execScatter e s := rfl
@[simp] theorem exec_segred (e : Fin 32) (s : State) : exec (.segred e) s = execSegred e s := rfl
@[simp] theorem exec_sort (e : Fin 32) (s : State) : exec (.sort e) s = execSort e s := rfl
@[simp] theorem exec_merge (e : Fin 32) (s : State) : exec (.merge e) s = execMerge e s := rfl
@[simp] theorem exec_topk (e : Fin 32) (s : State) : exec (.topk e) s = execTopk e s := rfl
@[simp] theorem exec_setop (e : Fin 32) (s : State) : exec (.setop e) s = execSetop e s := rfl
@[simp] theorem exec_hashb (e : Fin 32) (s : State) : exec (.hashb e) s = execHashb e s := rfl
@[simp] theorem exec_hashp (e : Fin 32) (s : State) : exec (.hashp e) s = execHashp e s := rfl
@[simp] theorem exec_engineReleased (e : Fin 32) (saveBad : Option Nat) (s : State) : exec (.engineReleased e saveBad) s = execEngineReleased e saveBad s := rfl
@[simp] theorem exec_idleRelease (j : Fin 64) (s : State) : exec (.idleRelease j) s = execIdleRelease j s := rfl
@[simp] theorem exec_cameraFrameDone (rx : Fin 4) (vc : Fin 16) (s : State) : exec (.cameraFrameDone rx vc) s = execCameraFrameDone rx vc s := rfl
@[simp] theorem exec_trigClr (j : Fin 64) (mask : Fin 16) (s : State) : exec (.trigClr j mask) s = execTrigClr j mask s := rfl
@[simp] theorem exec_jobCreate (r : JobReq) (s : State) : exec (.jobCreate r) s = execJobCreate r s := rfl
@[simp] theorem exec_jobSuspend (j : Fin 64) (s : State) : exec (.jobSuspend j) s = execJobSuspend j s := rfl
@[simp] theorem exec_jobResume (j : Fin 64) (s : State) : exec (.jobResume j) s = execJobResume j s := rfl
@[simp] theorem exec_jobRestart (j : Fin 64) (s : State) : exec (.jobRestart j) s = execJobRestart j s := rfl
@[simp] theorem exec_jobDelete (j : Fin 64) (s : State) : exec (.jobDelete j) s = execJobDelete j s := rfl
@[simp] theorem exec_teardownComplete (j : Fin 64) (s : State) : exec (.teardownComplete j) s = execTeardownComplete j s := rfl
@[simp] theorem exec_heldRequestIssue (p : Port) (s : State) : exec (.heldRequestIssue p) s = execHeldRequestIssue p s := rfl
@[simp] theorem exec_requestComplete (p : Port) (id : Nat) (ns : Nat) (s : State) : exec (.requestComplete p id ns) s = execRequestComplete p id ns s := rfl
@[simp] theorem exec_tagGrant (die : Die) (s : State) : exec (.tagGrant die) s = execTagGrant die s := rfl
@[simp] theorem exec_lateReply (die : Die) (tag : Nat) (ns : Nat) (s : State) : exec (.lateReply die tag ns) s = execLateReply die tag ns s := rfl
@[simp] theorem exec_latch (s : State) : exec .latch s = execLatch s := rfl
@[simp] theorem exec_counterLowRead (addr : Nat) (s : State) : exec (.counterLowRead addr) s = execCounterLowRead addr s := rfl
@[simp] theorem exec_counterLowWrite (addr : Nat) (v : Word) (s : State) : exec (.counterLowWrite addr v) s = execCounterLowWrite addr v s := rfl
@[simp] theorem exec_counterHighWrite (addr : Nat) (v : Word) (inc : Bool) (s : State) : exec (.counterHighWrite addr v inc) s = execCounterHighWrite addr v inc s := rfl
@[simp] theorem exec_counterWrite64 (addr : Nat) (v : DWord) (inc : Bool) (s : State) : exec (.counterWrite64 addr v inc) s = execCounterWrite64 addr v inc s := rfl
@[simp] theorem exec_errLogClear (die : Die) (s : State) : exec (.errLogClear die) s = execErrLogClear die s := rfl
@[simp] theorem exec_dieLinkReplay (l : Fin 3) (ok : Bool) (s : State) : exec (.dieLinkReplay l ok) s = execDieLinkReplay l ok s := rfl
@[simp] theorem exec_dieLinkDown (l : Fin 3) (s : State) : exec (.dieLinkDown l) s = execDieLinkDown l s := rfl
@[simp] theorem exec_ringAdvance (ring : Fin 512) (n : BitVec 24) (s : State) : exec (.ringAdvance ring n) s = execRingAdvance ring n s := rfl
@[simp] theorem exec_ringPublish (ring : Fin 512) (n : BitVec 24) (s : State) : exec (.ringPublish ring n) s = execRingPublish ring n s := rfl
@[simp] theorem exec_ringReset (ring : Fin 512) (s : State) : exec (.ringReset ring) s = execRingReset ring s := rfl
@[simp] theorem exec_ringSet (ring : Fin 512) (s : State) : exec (.ringSet ring) s = execRingSet ring s := rfl
@[simp] theorem exec_ringEnable (ring : Fin 512) (cfg : Word) (s : State) : exec (.ringEnable ring cfg) s = execRingEnable ring cfg s := rfl
@[simp] theorem exec_ringDisable (ring : Fin 512) (cfg : Word) (s : State) : exec (.ringDisable ring cfg) s = execRingDisable ring cfg s := rfl
@[simp] theorem exec_scrubRead (h : Fin 2) (outcome : EccOutcome) (s : State) : exec (.scrubRead h outcome) s = execScrubRead h outcome s := rfl
@[simp] theorem exec_softRepair (h : Fin 2) (row : Nat) (correctable : Bool) (resource : Bool) (s : State) : exec (.softRepair h row correctable resource) s = execSoftRepair h row correctable resource s := rfl
@[simp] theorem exec_spareRowCopy (row : RowId) (s : State) : exec (.spareRowCopy row) s = execSpareRowCopy row s := rfl
@[simp] theorem exec_linkTraining (port : Fin 8) (outcome : TrainOutcome) (s : State) : exec (.linkTraining port outcome) s = execLinkTraining port outcome s := rfl
@[simp] theorem exec_flitReceive (port : Fin 8) (flit : Flit) (s : State) : exec (.flitReceive port flit) s = execFlitReceive port flit s := rfl
@[simp] theorem exec_retryReq (port : Fin 8) (seq : Nat) (s : State) : exec (.retryReq port seq) s = execRetryReq port seq s := rfl
@[simp] theorem exec_retryReqResend (port : Fin 8) (s : State) : exec (.retryReqResend port) s = execRetryReqResend port s := rfl
@[simp] theorem exec_hello (port : Fin 8) (h : Hello) (s : State) : exec (.hello port h) s = execHello port h s := rfl
@[simp] theorem exec_handshake (port : Fin 8) (h : HandshakeMsg) (s : State) : exec (.handshake port h) s = execHandshake port h s := rfl
@[simp] theorem exec_handshakeTimeout (port : Fin 8) (s : State) : exec (.handshakeTimeout port) s = execHandshakeTimeout port s := rfl
@[simp] theorem exec_attestationCheck (port : Fin 8) (rep : PartnerReport) (s : State) : exec (.attestationCheck port rep) s = execAttestationCheck port rep s := rfl
@[simp] theorem exec_rekey (port : Fin 8) (s : State) : exec (.rekey port) s = execRekey port s := rfl
@[simp] theorem exec_elect (port : Fin 8) (m : FMsg) (s : State) : exec (.elect port m) s = execElect port m s := rfl
@[simp] theorem exec_electionEnd (s : State) : exec .electionEnd s = execElectionEnd s := rfl
@[simp] theorem exec_join (port : Fin 8) (m : FMsg) (s : State) : exec (.join port m) s = execJoin port m s := rfl
@[simp] theorem exec_idAssign (s : State) : exec .idAssign s = execIdAssign s := rfl
@[simp] theorem exec_config (c : FabConfig) (s : State) : exec (.config c) s = execConfig c s := rfl
@[simp] theorem exec_configAck (m : FMsg) (s : State) : exec (.configAck m) s = execConfigAck m s := rfl
@[simp] theorem exec_commit (m : FMsg) (s : State) : exec (.commit m) s = execCommit m s := rfl
@[simp] theorem exec_linkState (port : Fin 8) (m : FMsg) (s : State) : exec (.linkState port m) s = execLinkState port m s := rfl
@[simp] theorem exec_rdReq (r : RemoteRead) (s : State) : exec (.rdReq r) s = execRdReq r s := rfl
@[simp] theorem exec_rdData (m : FMsg) (s : State) : exec (.rdData m) s = execRdData m s := rfl
@[simp] theorem exec_rdErr (m : FMsg) (s : State) : exec (.rdErr m) s = execRdErr m s := rfl
@[simp] theorem exec_remoteReadTimeout (tag : Nat) (s : State) : exec (.remoteReadTimeout tag) s = execRemoteReadTimeout tag s := rfl
@[simp] theorem exec_wr (m : FMsg) (s : State) : exec (.wr m) s = execWr m s := rfl
@[simp] theorem exec_wrNack (m : FMsg) (s : State) : exec (.wrNack m) s = execWrNack m s := rfl
@[simp] theorem exec_putAck (m : FMsg) (s : State) : exec (.putAck m) s = execPutAck m s := rfl
@[simp] theorem exec_putLost (dev : Nat) (num : Nat) (s : State) : exec (.putLost dev num) s = execPutLost dev num s := rfl
@[simp] theorem exec_tailAdv (m : FMsg) (s : State) : exec (.tailAdv m) s = execTailAdv m s := rfl
@[simp] theorem exec_fabricSignal (m : FMsg) (s : State) : exec (.fabricSignal m) s = execFabricSignal m s := rfl
@[simp] theorem exec_ringQuery (m : FMsg) (s : State) : exec (.ringQuery m) s = execRingQuery m s := rfl
@[simp] theorem exec_ringState (m : FMsg) (s : State) : exec (.ringState m) s = execRingState m s := rfl
@[simp] theorem exec_headUpd (m : FMsg) (s : State) : exec (.headUpd m) s = execHeadUpd m s := rfl
@[simp] theorem exec_mgmt (m : FMsg) (s : State) : exec (.mgmt m) s = execMgmt m s := rfl
@[simp] theorem exec_time (port : Fin 8) (stamp : Nat) (s : State) : exec (.time port stamp) s = execTime port stamp s := rfl
@[simp] theorem exec_heartbeat (port : Fin 8) (s : State) : exec (.heartbeat port) s = execHeartbeat port s := rfl
@[simp] theorem exec_linkDown (port : Fin 8) (s : State) : exec (.linkDown port) s = execLinkDown port s := rfl
@[simp] theorem exec_partDecision (s : State) : exec .partDecision s = execPartDecision s := rfl
@[simp] theorem exec_releaseId (id : Nat) (s : State) : exec (.releaseId id) s = execReleaseId id s := rfl
@[simp] theorem exec_brickFetch (s : State) : exec .brickFetch s = execBrickFetch s := rfl
@[simp] theorem exec_fieldReset (s : State) : exec .fieldReset s = execFieldReset s := rfl
@[simp] theorem exec_batchFetch (err : Bool) (s : State) : exec (.batchFetch err) s = execBatchFetch err s := rfl
@[simp] theorem exec_verdictRecord (crcOk : Bool) (s : State) : exec (.verdictRecord crcOk) s = execVerdictRecord crcOk s := rfl
@[simp] theorem exec_wavefrontStart (s : State) : exec .wavefrontStart s = execWavefrontStart s := rfl
@[simp] theorem exec_wavefrontDone (s : State) : exec .wavefrontDone s = execWavefrontDone s := rfl
@[simp] theorem exec_waveAbort (s : State) : exec .waveAbort s = execWaveAbort s := rfl
@[simp] theorem exec_rayCycle (s : State) : exec .rayCycle s = execRayCycle s := rfl
@[simp] theorem exec_rtuQuery (bytes : List Byte) (fromMce : Bool) (s : State) : exec (.rtuQuery bytes fromMce) s = execRtuQuery bytes fromMce s := rfl
@[simp] theorem exec_rtuAnswer (tag : Nat) (s : State) : exec (.rtuAnswer tag) s = execRtuAnswer tag s := rfl
@[simp] theorem exec_renderPass (cuts : List Nat) (s : State) : exec (.renderPass cuts) s = execRenderPass cuts s := rfl
@[simp] theorem exec_passComplete (s : State) : exec .passComplete s = execPassComplete s := rfl
@[simp] theorem exec_pipeEnable (p : Fin 2) (s : State) : exec (.pipeEnable p) s = execPipeEnable p s := rfl
@[simp] theorem exec_underflow (p : Fin 2) (plane : Fin 4) (line : Nat) (x : Nat) (s : State) : exec (.underflow p plane line x) s = execUnderflow p plane line x s := rfl
@[simp] theorem exec_regionCrcReport (p : Fin 2) (k : Fin 16) (s : State) : exec (.regionCrcReport p k) s = execRegionCrcReport p k s := rfl
@[simp] theorem exec_mworldWrite (hart : Fin 16) (w : Bool) (s : State) : exec (.mworldWrite hart w) s = execMworldWrite hart w s := rfl
@[simp] theorem exec_castle (r : CastleReq) (s : State) : exec (.castle r) s = execCastle r s := rfl
@[simp] theorem exec_quiesceDone (unit : Nat) (s : State) : exec (.quiesceDone unit) s = execQuiesceDone unit s := rfl
@[simp] theorem exec_inval (w : DWord) (s : State) : exec (.inval w) s = execInval w s := rfl
@[simp] theorem exec_invalDone (s : State) : exec .invalDone s = execInvalDone s := rfl
@[simp] theorem exec_instanceCreate (inst : Fin 32) (w : Word) (s : State) : exec (.instanceCreate inst w) s = execInstanceCreate inst w s := rfl
@[simp] theorem exec_instanceDelete (inst : Fin 32) (s : State) : exec (.instanceDelete inst) s = execInstanceDelete inst s := rfl
@[simp] theorem exec_doorbell (inst : Fin 32) (ring : Nat) (count : Nat) (s : State) : exec (.doorbell inst ring count) s = execDoorbell inst ring count s := rfl
@[simp] theorem exec_ringViewAdvance (inst : Fin 32) (ring : Nat) (count : Nat) (s : State) : exec (.ringViewAdvance inst ring count) s = execRingViewAdvance inst ring count s := rfl
@[simp] theorem exec_emulatedRead (inst : Fin 32) (off : Nat) (s : State) : exec (.emulatedRead inst off) s = execEmulatedRead inst off s := rfl
@[simp] theorem exec_emulatedWrite (inst : Fin 32) (off : Nat) (v : Nat) (s : State) : exec (.emulatedWrite inst off v) s = execEmulatedWrite inst off v s := rfl
@[simp] theorem exec_emuAnswer (inst : Fin 32) (v : Nat) (s : State) : exec (.emuAnswer inst v) s = execEmuAnswer inst v s := rfl
@[simp] theorem exec_emuTimeout (inst : Fin 32) (write : Bool) (s : State) : exec (.emuTimeout inst write) s = execEmuTimeout inst write s := rfl
@[simp] theorem exec_mailboxRead (inst : Fin 32) (len : Nat) (s : State) : exec (.mailboxRead inst len) s = execMailboxRead inst len s := rfl
@[simp] theorem exec_mailboxWrite (inst : Fin 32) (len : Nat) (s : State) : exec (.mailboxWrite inst len) s = execMailboxWrite inst len s := rfl
@[simp] theorem exec_mailboxResponse (inst : Fin 32) (s : State) : exec (.mailboxResponse inst) s = execMailboxResponse inst s := rfl
@[simp] theorem exec_firmwareCall (hart : Fin 16) (r : DictReq) (s : State) : exec (.firmwareCall hart r) s = execFirmwareCall hart r s := rfl
@[simp] theorem exec_instanceReset (inst : Fin 32) (s : State) : exec (.instanceReset inst) s = execInstanceReset inst s := rfl
@[simp] theorem exec_tagForceRetire (inst : Fin 32) (s : State) : exec (.tagForceRetire inst) s = execTagForceRetire inst s := rfl
@[simp] theorem exec_functionLevelReset (fn : Nat) (s : State) : exec (.functionLevelReset fn) s = execFunctionLevelReset fn s := rfl
@[simp] theorem exec_dlogOvfClear (inst : Fin 32) (s : State) : exec (.dlogOvfClear inst) s = execDlogOvfClear inst s := rfl
@[simp] theorem exec_joinReq (f : CFrame) (s : State) : exec (.joinReq f) s = execJoinReq f s := rfl
@[simp] theorem exec_nodeHeartbeat (f : CFrame) (s : State) : exec (.nodeHeartbeat f) s = execNodeHeartbeat f s := rfl
@[simp] theorem exec_nodeLost (n : Nat) (s : State) : exec (.nodeLost n) s = execNodeLost n s := rfl
@[simp] theorem exec_emcy (f : CFrame) (s : State) : exec (.emcy f) s = execEmcy f s := rfl
@[simp] theorem exec_safety (f : CFrame) (s : State) : exec (.safety f) s = execSafety f s := rfl
@[simp] theorem exec_rxmap (f : CFrame) (s : State) : exec (.rxmap f) s = execRxmap f s := rfl
@[simp] theorem exec_gatedExpire (port : Nat) (map : Nat) (s : State) : exec (.gatedExpire port map) s = execGatedExpire port map s := rfl
@[simp] theorem exec_mapTimeout (map : Nat) (s : State) : exec (.mapTimeout map) s = execMapTimeout map s := rfl
@[simp] theorem exec_xferRead (f : CFrame) (s : State) : exec (.xferRead f) s = execXferRead f s := rfl
@[simp] theorem exec_xferWrite (f : CFrame) (s : State) : exec (.xferWrite f) s = execXferWrite f s := rfl
@[simp] theorem exec_xferWriteInit (f : CFrame) (s : State) : exec (.xferWriteInit f) s = execXferWriteInit f s := rfl
@[simp] theorem exec_xferSegment (f : CFrame) (s : State) : exec (.xferSegment f) s = execXferSegment f s := rfl
@[simp] theorem exec_xferReadNext (f : CFrame) (s : State) : exec (.xferReadNext f) s = execXferReadNext f s := rfl
@[simp] theorem exec_xferAbort (f : CFrame) (s : State) : exec (.xferAbort f) s = execXferAbort f s := rfl
@[simp] theorem exec_xferRsp (f : CFrame) (s : State) : exec (.xferRsp f) s = execXferRsp f s := rfl
@[simp] theorem exec_xferTimeout (seg : Nat) (client : Nat) (server : Bool) (s : State) : exec (.xferTimeout seg client server) s = execXferTimeout seg client server s := rfl
@[simp] theorem exec_busAlone (port : Nat) (s : State) : exec (.busAlone port) s = execBusAlone port s := rfl
@[simp] theorem exec_probe (port : Nat) (acked : Bool) (s : State) : exec (.probe port acked) s = execProbe port acked s := rfl
@[simp] theorem exec_t1sAlone (port : Nat) (s : State) : exec (.t1sAlone port) s = execT1sAlone port s := rfl
@[simp] theorem exec_plcaFallback (port : Nat) (s : State) : exec (.plcaFallback port) s = execPlcaFallback port s := rfl
@[simp] theorem exec_ethernetFrame (f : EtherFrame) (s : State) : exec (.ethernetFrame f) s = execEthernetFrame f s := rfl
@[simp] theorem exec_ruleCreate (bytes : List Byte) (s : State) : exec (.ruleCreate bytes) s = execRuleCreate bytes s := rfl
@[simp] theorem exec_ruleDelete (h : Nat) (s : State) : exec (.ruleDelete h) s = execRuleDelete h s := rfl
@[simp] theorem exec_nodeRemove (s : State) : exec .nodeRemove s = execNodeRemove s := rfl
@[simp] theorem exec_profileSwitch (slot : Nat) (s : State) : exec (.profileSwitch slot) s = execProfileSwitch slot s := rfl
@[simp] theorem exec_profileVerified (s : State) : exec .profileVerified s = execProfileVerified s := rfl
@[simp] theorem exec_profileSave (slot : Nat) (s : State) : exec (.profileSave slot) s = execProfileSave slot s := rfl
@[simp] theorem exec_profileImport (img : List Byte) (s : State) : exec (.profileImport img) s = execProfileImport img s := rfl
@[simp] theorem exec_profileErase (slot : Nat) (s : State) : exec (.profileErase slot) s = execProfileErase slot s := rfl
@[simp] theorem exec_profileStoreDone (s : State) : exec .profileStoreDone s = execProfileStoreDone s := rfl
@[simp] theorem exec_profileLoad (s : State) : exec .profileLoad s = execProfileLoad s := rfl
@[simp] theorem exec_estop (s : State) : exec .estop s = execEstop s := rfl
@[simp] theorem exec_tempoLoss (s : State) : exec .tempoLoss s = execTempoLoss s := rfl
@[simp] theorem exec_arbiterMismatch (s : State) : exec .arbiterMismatch s = execArbiterMismatch s := rfl
@[simp] theorem exec_oscillatorFault (s : State) : exec .oscillatorFault s = execOscillatorFault s := rfl
@[simp] theorem exec_supplyFault (n : Fin 11) (overMax : Bool) (s : State) : exec (.supplyFault n overMax) s = execSupplyFault n overMax s := rfl
@[simp] theorem exec_tjReport (sensor : Fin 48) (s : State) : exec (.tjReport sensor) s = execTjReport sensor s := rfl
@[simp] theorem exec_thermalTrip (sensor : Fin 48) (s : State) : exec (.thermalTrip sensor) s = execThermalTrip sensor s := rfl
@[simp] theorem exec_arm (r : ArbReq) (s : State) : exec (.arm r) s = execArm r s := rfl
@[simp] theorem exec_release (r : ArbReq) (s : State) : exec (.release r) s = execRelease r s := rfl
@[simp] theorem exec_done (r : ArbReq) (s : State) : exec (.done r) s = execDone r s := rfl
@[simp] theorem exec_ack (r : ArbReq) (s : State) : exec (.ack r) s = execAck r s := rfl
@[simp] theorem exec_logAcknowledge (e : Nat) (s : State) : exec (.logAcknowledge e) s = execLogAcknowledge e s := rfl
@[simp] theorem exec_xcheck (r : ArbReq) (s : State) : exec (.xcheck r) s = execXcheck r s := rfl
@[simp] theorem exec_crossCheckDone (bad : Bool) (s : State) : exec (.crossCheckDone bad) s = execCrossCheckDone bad s := rfl
@[simp] theorem exec_flagFall (t : Fin 128) (s : State) : exec (.flagFall t) s = execFlagFall t s := rfl
@[simp] theorem exec_taskClockExhausted (t : Fin 128) (s : State) : exec (.taskClockExhausted t) s = execTaskClockExhausted t s := rfl
@[simp] theorem exec_pairMismatch (p : Fin 5) (s : State) : exec (.pairMismatch p) s = execPairMismatch p s := rfl
@[simp] theorem exec_adjudicationDone (p : Fin 5) (outcome : AdjOutcome) (s : State) : exec (.adjudicationDone p outcome) s = execAdjudicationDone p outcome s := rfl
@[simp] theorem exec_degradedExpiry (p : Fin 5) (s : State) : exec (.degradedExpiry p) s = execDegradedExpiry p s := rfl
@[simp] theorem exec_latentFaultTest (c : CheckerId) (ok : Bool) (s : State) : exec (.latentFaultTest c ok) s = execLatentFaultTest c ok s := rfl
@[simp] theorem exec_lfIntervalExceeded (s : State) : exec .lfIntervalExceeded s = execLfIntervalExceeded s := rfl
@[simp] theorem exec_engineSelfTest (e : Fin 32) (ok : Bool) (s : State) : exec (.engineSelfTest e ok) s = execEngineSelfTest e ok s := rfl
@[simp] theorem exec_uartLogDump (s : State) : exec .uartLogDump s = execUartLogDump s := rfl
@[simp] theorem exec_uartStatus (s : State) : exec .uartStatus s = execUartStatus s := rfl
@[simp] theorem exec_sealLoad (r : SealLoadReq) (s : State) : exec (.sealLoad r) s = execSealLoad r s := rfl
@[simp] theorem exec_sealLoadDone (r : SealDone) (s : State) : exec (.sealLoadDone r) s = execSealLoadDone r s := rfl
@[simp] theorem exec_regionRelease (r : SecReq) (s : State) : exec (.regionRelease r) s = execRegionRelease r s := rfl
@[simp] theorem exec_attest (r : SecReq) (s : State) : exec (.attest r) s = execAttest r s := rfl
@[simp] theorem exec_attestNonce (nonce : List Byte) (s : State) : exec (.attestNonce nonce) s = execAttestNonce nonce s := rfl
@[simp] theorem exec_ownerAdd (r : SecReq) (s : State) : exec (.ownerAdd r) s = execOwnerAdd r s := rfl
@[simp] theorem exec_ownerRevoke (r : SecReq) (s : State) : exec (.ownerRevoke r) s = execOwnerRevoke r s := rfl
@[simp] theorem exec_rollbackAdvance (r : SecReq) (s : State) : exec (.rollbackAdvance r) s = execRollbackAdvance r s := rfl
@[simp] theorem exec_lifecycle (r : SecReq) (s : State) : exec (.lifecycle r) s = execLifecycle r s := rfl
@[simp] theorem exec_keySlot (r : SecReq) (s : State) : exec (.keySlot r) s = execKeySlot r s := rfl
@[simp] theorem exec_zeroingDone (b : BlockId) (s : State) : exec (.zeroingDone b) s = execZeroingDone b s := rfl
@[simp] theorem exec_entropyHealthFail (s : State) : exec .entropyHealthFail s = execEntropyHealthFail s := rfl
@[simp] theorem exec_tamper (s : State) : exec .tamper s = execTamper s := rfl
@[simp] theorem exec_secureBoot (r : BootOutcome) (s : State) : exec (.secureBoot r) s = execSecureBoot r s := rfl
@[simp] theorem exec_challengeRead (s : State) : exec .challengeRead s = execChallengeRead s := rfl
@[simp] theorem exec_debugUnlock (w : Word) (s : State) : exec (.debugUnlock w) s = execDebugUnlock w s := rfl
@[simp] theorem exec_unlockVerified (r : UnlockOutcome) (s : State) : exec (.unlockVerified r) s = execUnlockVerified r s := rfl
@[simp] theorem exec_debugClose (s : State) : exec .debugClose s = execDebugClose s := rfl
@[simp] theorem exec_powerOnReset (straps : StrapSamples) (lost : SupplyLoss) (s : State) : exec (.powerOnReset straps lost) s = execPowerOnReset straps lost s := rfl
@[simp] theorem exec_arbiterValid (s : State) : exec .arbiterValid s = execArbiterValid s := rfl
@[simp] theorem exec_systemReset (straps : StrapSamples) (s : State) : exec (.systemReset straps) s = execSystemReset straps s := rfl
@[simp] theorem exec_systemResetRequest (straps : StrapSamples) (s : State) : exec (.systemResetRequest straps) s = execSystemResetRequest straps s := rfl
@[simp] theorem exec_watchdogExpiry (straps : StrapSamples) (s : State) : exec (.watchdogExpiry straps) s = execWatchdogExpiry straps s := rfl
@[simp] theorem exec_avsFailure (rail : Fin 3) (s : State) : exec (.avsFailure rail) s = execAvsFailure rail s := rfl
@[simp] theorem exec_quadPowerOn (q : Fin 8) (s : State) : exec (.quadPowerOn q) s = execQuadPowerOn q s := rfl
@[simp] theorem exec_stackThrottle (h : Fin 2) (temp : Int) (s : State) : exec (.stackThrottle h temp) s = execStackThrottle h temp s := rfl
@[simp] theorem exec_crystalStop (s : State) : exec .crystalStop s = execCrystalStop s := rfl
@[simp] theorem exec_keepAliveRequest (s : State) : exec .keepAliveRequest s = execKeepAliveRequest s := rfl
@[simp] theorem exec_wake (s : State) : exec .wake s = execWake s := rfl
@[simp] theorem exec_stackTrained (h : Fin 2) (ok : Bool) (s : State) : exec (.stackTrained h ok) s = execStackTrained h ok s := rfl
@[simp] theorem exec_readyForJobs (s : State) : exec .readyForJobs s = execReadyForJobs s := rfl
@[simp] theorem exec_debugRead (w : BitVec 72) (r : DbgArrival) (s : State) : exec (.debugRead w r) s = execDebugRead w r s := rfl
@[simp] theorem exec_debugWrite (w : BitVec 72) (data : DbgData) (s : State) : exec (.debugWrite w data) s = execDebugWrite w data s := rfl
@[simp] theorem exec_framerReset (s : State) : exec .framerReset s = execFramerReset s := rfl
@[simp] theorem exec_debugAccessTimeout (s : State) : exec .debugAccessTimeout s = execDebugAccessTimeout s := rfl
@[simp] theorem exec_debugWriteRefused (s : State) : exec .debugWriteRefused s = execDebugWriteRefused s := rfl
@[simp] theorem exec_dmiAccess (w : BitVec 72) (data : DbgData) (outcome : DmiOutcome) (s : State) : exec (.dmiAccess w data outcome) s = execDmiAccess w data outcome s := rfl
@[simp] theorem exec_breakpointHit (e : Fin 32) (s : State) : exec (.breakpointHit e) s = execBreakpointHit e s := rfl
@[simp] theorem exec_engineHalt (j : Fin 64) (s : State) : exec (.engineHalt j) s = execEngineHalt j s := rfl
@[simp] theorem exec_engineResume (j : Fin 64) (s : State) : exec (.engineResume j) s = execEngineResume j s := rfl
@[simp] theorem exec_engineStep (j : Fin 64) (n : Nat) (s : State) : exec (.engineStep j n) s = execEngineStep j n s := rfl
@[simp] theorem exec_bypass (s : State) : exec .bypass s = execBypass s := rfl
@[simp] theorem exec_idcode (s : State) : exec .idcode s = execIdcode s := rfl
@[simp] theorem exec_samplePreload (v : Nat) (s : State) : exec (.samplePreload v) s = execSamplePreload v s := rfl
@[simp] theorem exec_extest (s : State) : exec .extest s = execExtest s := rfl
@[simp] theorem exec_extestPulse (s : State) : exec .extestPulse s = execExtestPulse s := rfl
@[simp] theorem exec_extestTrain (s : State) : exec .extestTrain s = execExtestTrain s := rfl
@[simp] theorem exec_clamp (s : State) : exec .clamp s = execClamp s := rfl
@[simp] theorem exec_highz (s : State) : exec .highz s = execHighz s := rfl
@[simp] theorem exec_tapReset (s : State) : exec .tapReset s = execTapReset s := rfl
@[simp] theorem exec_commandIssue (e : Fin 32) (s : State) : exec (.commandIssue e) s = execCommandIssue e s := rfl
@[simp] theorem exec_safeAliveToggle (s : State) : exec .safeAliveToggle s = execSafeAliveToggle s := rfl
@[simp] theorem exec_estopRelease (s : State) : exec .estopRelease s = execEstopRelease s := rfl
@[simp] theorem exec_supplyBackInWindow (n : Fin 11) (s : State) : exec (.supplyBackInWindow n) s = execSupplyBackInWindow n s := rfl
@[simp] theorem exec_gptpSync (s : State) : exec .gptpSync s = execGptpSync s := rfl
@[simp] theorem exec_gateCycleStart (port : Nat) (now : Nat) (s : State) : exec (.gateCycleStart port now) s = execGateCycleStart port now s := rfl
@[simp] theorem exec_beacon (port : Nat) (s : State) : exec (.beacon port) s = execBeacon port s := rfl
@[simp] theorem exec_busOff (port : Nat) (s : State) : exec (.busOff port) s = execBusOff port s := rfl
@[simp] theorem exec_busOffRecovery (port : Nat) (s : State) : exec (.busOffRecovery port) s = execBusOffRecovery port s := rfl
@[simp] theorem exec_pcieLinkDown (s : State) : exec .pcieLinkDown s = execPcieLinkDown s := rfl
@[simp] theorem exec_pcieLinkUp (s : State) : exec .pcieLinkUp s = execPcieLinkUp s := rfl
@[simp] theorem exec_entropySourceRestarted (s : State) : exec .entropySourceRestarted s = execEntropySourceRestarted s := rfl

end Sys2Proof.Machine
end

