-- ==== Sys2Proof/Tests/Slice0.lean ====
section
/-! SUPPORT. Tests: ill-formed commands that WellFormed refuses, for each statement's clauses with hypotheses a state and
operands that meet them (`wit_…`), and single steps whose results are worked out from the specification (`test_…`). -/

namespace Sys2Proof.Tests

open Sys2Proof Sys2Proof.Machine

set_option Elab.async false

/-! ### Helpers -/

/-- A state whose queue is empty. -/
def st (d : Device) : State := ⟨d, []⟩

/-- The device a command answers on a device; none where it stops. -/
def run (c : Instr) (d : Device) : Option Device :=
  match exec c (st d) with
  | .next s => some s.dev
  | _ => none

/-- A device that runs at TN 5,000 with its Arbiter and its bring-up done. -/
def dev0 : Device :=
  { Device.init with
    tb := { TimeBase.init with started := true, dt := 5000000 }
    arb := { Arb.init with valid := true }
    pwr := { Power.init with bringUp := 5, hs0 := .trained, hs1 := .trained } }

def noMsg : FMsg := FMsg.plain .mgmt 0 0
def noStraps : StrapSamples := ⟨0, 0, 0⟩
def noMce : MceEnv := ⟨false, [], 0, [], 0⟩
def noEnv : TempoEnv := ⟨0, noMce, 0, [], []⟩
def goodSig : SigOutcome := ⟨true, 0, false, true⟩

/-! ### Ill-formed commands (WellFormed) -/

def req0 : RegReq := ⟨⟨.hub, 0⟩, 0, false, 0, 0xF0_0100_0000, false, 0, 0⟩
def bus0 : BusReq := ⟨⟨.hub, 0⟩, false, 0, 4, false, [], 0, none, .clean, false⟩
def frame0 : CFrame := ⟨0, .fd, fnEmcy, 0, 5, [], false, 0⟩

theorem test_wf_registerWrite_port : (Instr.registerWrite { req0 with master := ⟨.hub, 16⟩ }).wf = false := by decide
theorem test_wf_registerWrite_align : (Instr.registerWrite { req0 with addr := 0xF0_0100_0002 }).wf = false := by decide
theorem test_wf_registerWrite_wide : (Instr.registerWrite { req0 with wide := true, addr := 0xF0_0100_0004 }).wf = false := by decide
theorem test_wf_registerWrite_value : (Instr.registerWrite { req0 with value := 2 ^ 32 }).wf = false := by decide
theorem test_wf_rcRead : (Instr.rcRead 2 false 0).wf = false ∧ (Instr.rcRead 4 false (2 ^ 32)).wf = false := by decide
theorem test_wf_busAccess_len : (Instr.busAccess { bus0 with len := 65 }).wf = false ∧ (Instr.busAccess { bus0 with len := 0 }).wf = false := by
  decide
theorem test_wf_busAccess_data : (Instr.busAccess { bus0 with write := true }).wf = false := by decide
theorem test_wf_busAccess_master : (Instr.busAccess { bus0 with master := Port.debug }).wf = false
    ∧ (Instr.busAccess { bus0 with master := Port.toterlink }).wf = false ∧ (Instr.busAccess { bus0 with master := ⟨.cd0, 17⟩ }).wf = false := by decide
theorem test_wf_roundBoundary : (Instr.roundBoundary ⟨0, [], [], noMce⟩).wf = false ∧ (Instr.roundBoundary ⟨0, List.replicate 48 0, [], noMce⟩).wf = false := by
  decide
theorem test_wf_ports : (Instr.heldRequestIssue ⟨.cd1, 17⟩).wf = false ∧ (Instr.requestComplete ⟨.hub, 16⟩ 1 0).wf = false := by decide
theorem test_wf_counters : (Instr.counterLowRead 4).wf = false ∧ (Instr.counterLowWrite 4 0).wf = false
    ∧ (Instr.counterHighWrite 4 0 false).wf = false ∧ (Instr.counterWrite64 4 0 false).wf = false := by decide
theorem test_wf_flit : (Instr.flitReceive 0 (zeros 127)).wf = false := by decide +kernel
theorem test_wf_fabric : (Instr.retryReq 0 4096).wf = false ∧ (Instr.rdData { noMsg with data := zeros 17, len := 1 }).wf = false
    ∧ (Instr.remoteReadTimeout 8192).wf = false ∧ (Instr.wr { noMsg with data := zeros 1 }).wf = false ∧ (Instr.putLost 32 0).wf = false
    ∧ (Instr.releaseId 32).wf = false := by decide
theorem test_wf_units : (Instr.rtuQuery [] false).wf = false ∧ (Instr.underflow 0 0 8192 0).wf = false
    ∧ (Instr.underflow 0 0 0 8192).wf = false := by decide
theorem test_wf_castle : (Instr.castle ⟨256, false, 0, 0, 0, 0, false⟩).wf = false ∧ (Instr.castle ⟨0, false, 8, 0, 0, 0, false⟩).wf = false
    ∧ (Instr.castle ⟨0, false, 0, 0, 32, 0, false⟩).wf = false ∧ (Instr.castle ⟨0, false, 0, 0, 0, 64, false⟩).wf = false
    ∧ (Instr.quiesceDone 256).wf = false := by decide
theorem test_wf_views : (Instr.doorbell 0 512 0).wf = false ∧ (Instr.doorbell 0 0 (2 ^ 24)).wf = false
    ∧ (Instr.ringViewAdvance 0 512 0).wf = false ∧ (Instr.ringViewAdvance 0 0 (2 ^ 24)).wf = false := by decide
theorem test_wf_emulated : (Instr.emulatedRead 0 0x7FC).wf = false ∧ (Instr.emulatedRead 0 0x1000).wf = false
    ∧ (Instr.emulatedWrite 0 0x802 0).wf = false ∧ (Instr.emulatedWrite 0 0x800 (2 ^ 32)).wf = false ∧ (Instr.emuAnswer 0 (2 ^ 32)).wf = false
    ∧ (Instr.functionLevelReset 32).wf = false := by decide
theorem test_wf_field : (Instr.nodeLost 4096).wf = false ∧ (Instr.gatedExpire 36 0).wf = false ∧ (Instr.gatedExpire 0 2048).wf = false
    ∧ (Instr.mapTimeout 2048).wf = false := by decide
theorem test_wf_fieldPorts : (Instr.busAlone 16).wf = false ∧ (Instr.probe 16 true).wf = false ∧ (Instr.busOff 16).wf = false
    ∧ (Instr.busOffRecovery 16).wf = false ∧ (Instr.t1sAlone 15).wf = false ∧ (Instr.plcaFallback 24).wf = false ∧ (Instr.beacon 24).wf = false
    ∧ (Instr.gateCycleStart 23 0).wf = false := by decide
theorem test_wf_ethernet : (Instr.ethernetFrame ⟨23, 0, 0, 0, 0, [0]⟩).wf = false ∧ (Instr.ethernetFrame ⟨24, 0, 0, 0, 0, []⟩).wf = false := by decide
theorem test_wf_profiles : (Instr.profileSwitch 4).wf = false ∧ (Instr.profileSave 4).wf = false ∧ (Instr.profileErase 4).wf = false := by decide
theorem test_wf_profileImport (img : List Byte) (h : 2 ^ 20 < img.length) : (Instr.profileImport img).wf = false := by
  simp [Instr.wf]; omega
theorem test_wf_arbiter : (Instr.logAcknowledge 64).wf = false ∧ (Instr.attestNonce []).wf = false := by decide
theorem test_wf_debug : (Instr.debugRead 0 ⟨[], false, .clean, []⟩).wf = false ∧ (Instr.debugWrite 0 ⟨zeros 4, 0, 0⟩).wf = false
    ∧ (Instr.debugWrite 1 ⟨zeros 3, 0, 0⟩).wf = false ∧ (Instr.debugWrite 1 ⟨[], 0, 0⟩).wf = false ∧ (Instr.debugWrite 1 ⟨zeros 4, 0, 2 ^ 32⟩).wf = false
    ∧ (Instr.dmiAccess 0 ⟨[], 0, 0⟩ ⟨false, false⟩).wf = false ∧ (Instr.engineStep 0 0).wf = false ∧ (Instr.engineStep 0 (2 ^ 16)).wf = false := by decide
theorem test_wf_good : (Instr.registerWrite req0).wf = true ∧ (Instr.busAccess bus0).wf = true
    ∧ (Instr.debugRead 1 ⟨[], false, .clean, []⟩).wf = true := by decide

/-! ### Witnesses: the queue, the trip and the Arbiter -/

def heldDev : Device :=
  { dev0 with pwr := { dev0.pwr with held := true }
              arb := { dev0.arb with safe := true, safeN := false, gateOpen := false } }

theorem wit_StepRunsFront : (st dev0).pending = [] := rfl
theorem wit_TripHoldsDies : (st heldDev).dev.pwr.held = true ∧ keepAliveCommand .latch = false := by decide
theorem wit_TrippedStays : Tripped ⟨heldDev, [.latch]⟩ ∧ ∃ t, step ⟨heldDev, [.latch]⟩ = .next t :=
  ⟨⟨rfl, rfl, rfl, rfl, by simp⟩, _, rfl⟩
theorem wit_TripEntered : (st dev0).live ∧ (st dev0).dev.arb.valid = true ∧ (∀ c ∈ (st dev0).pending, ∀ x b, c ≠ .powerOnReset x b) :=
  ⟨rfl, rfl, by simp [st]⟩
theorem wit_SafeCauses : (st dev0).dev.arb.valid = true ∧ (st dev0).dev.arb.estop = false ∧ (st dev0).dev.tb.started = true
    ∧ (st dev0).dev.arb.tempoLoss = false ∧ (10 : Fin 11).val ∉ (st dev0).dev.arb.supplyOut := by decide
theorem wit_ArbiterSignals : (st dev0).dev.arb.valid = true ∧ (st dev0).dev.arb.arbFault = false ∧ (st dev0).live :=
  ⟨rfl, rfl, rfl⟩
theorem wit_ArbiterSignals_xcheck : (st { dev0 with arb := { dev0.arb with xcheck := some 16 } }).dev.arb.xcheck.isSome = true := rfl

/-- The pair 0 may arm, and every condition of R410 holds. -/
def armDev : Device :=
  { dev0 with
    arb := { dev0.arb with safe := false, safeN := true, profileOk := true, recs := List.replicate 16 ⟨true, 1⟩ }
    dict := Dict.init.setVal 0x5000 0x02 [1] }
def reqArm : ArbReq := ⟨.pair 0, 0, true⟩

theorem wit_ArmRelease_arm : armDev.mayArm reqArm.sender = true ∧ armDev.arb.armAllowed = true := by decide
theorem wit_ArmRelease_refused : armDev.mayArm .other = false ∧ armDev.mayArm .fwc = false := by decide
theorem wit_ArmRelease_no : ({ armDev with arb := { armDev.arb with recs := List.replicate 15 ⟨true, 1⟩ } } : Device).mayArm reqArm.sender = true
    ∧ ({ armDev.arb with recs := List.replicate 15 ⟨true, 1⟩ } : Arb).armAllowed = false ∧ armDev.arb.releaseAllowed = false := by decide
theorem wit_ArmRelease_release : ({ armDev with arb := { armDev.arb with safe := true } } : Device).mayArm reqArm.sender = true
    ∧ ({ armDev.arb with safe := true } : Arb).releaseAllowed = true := by decide
theorem wit_GateNeeds : ∃ t, exec (.arm reqArm) (st armDev) = .next t ∧ (st armDev).dev.arb.gateOpen = false ∧ t.dev.arb.gateOpen = true :=
  ⟨_, rfl, rfl, by decide⟩

def logDev : Device := { dev0 with arb := dev0.arb.report 7 0x0C 0 reactReport 0 0 }
theorem wit_ArbiterCommands : (logDev.isPair (.pair 3) || ArbSender.pair 3 == .fwc) = true ∧ logDev.arb.holds 0 = true
    ∧ logDev.arb.holds 63 = false ∧ logDev.arb.xcheck = none := by decide
def taskBytes (kind : Nat) : List Byte := [BitVec.ofNat 8 kind, 0, 0, 3] ++ leBytes 4 100 ++ leBytes 4 0 ++ leBytes 4 50 ++ leBytes 4 10 ++ zeros 4
/-- Task 5 has the given kind, is armed, and its period started at TN 4,900. -/
def taskDev (kind : Nat) : Device :=
  { dev0 with
    arb := dev0.arb.setTask 5 { TaskRun.init with armed := true, start := some 4900 }
    dict := Dict.init.setVal 0x5010 6 (taskBytes kind)
    jobs := [(0, { Job.init with st := .running, etime := 10, held := [] })] }
theorem wit_ArbiterCommands_done : (taskDev 2).isPair reqArm.sender = true ∧ reqArm.runs = true ∧ ((taskDev 2).taskRec 5).kind = 2 := by
  decide
theorem wit_FlagFalls : ((taskDev 1).arb.task 5).fallDue ((taskDev 1).taskRec 5) (taskDev 1).tn (taskDev 1).arb.tempoLoss = true
    ∧ (taskDev 1).taskLives ((taskDev 1).taskRec 5) = true ∧ ((taskDev 1).job ((taskDev 1).taskRec 5).id).st ≠ .free
    ∧ ((taskDev 1).arb.task 5).falls + 1 ≠ ((taskDev 1).taskRec 5).limit ∧ (taskDev 1).arb.valid = true := by decide
theorem wit_FlagFalls_clock : ((taskDev 1).taskRec 5).kind = 1 ∧ 0 < ((taskDev 1).taskRec 5).budget ∧ ((taskDev 1).arb.task 5).armed = true
    ∧ ((taskDev 1).arb.task 5).clockHold = false
    ∧ ((taskDev 1).arb.task 5).etime0 + ((taskDev 1).taskRec 5).budget ≤ ((taskDev 1).job ((taskDev 1).taskRec 5).id).etime := by decide
def pairDev (p : PairState) : Device := { dev0 with arb := { dev0.arb with pairs := [(4, ⟨p, 0, 5000, []⟩)] } }
theorem wit_Pairs : (dev0.arb.pair 4).st = .normal ∧ ((pairDev .adjudicating).arb.pair 4).st = .adjudicating
    ∧ ((pairDev .adjudicating).arb.pair 4).transients = [] ∧ ((pairDev .degraded).arb.pair 4).st = .degraded
    ∧ ((pairDev .degraded).arb.pair 4).degradedAt + ((pairDev .degraded).arb.pair 4).degradedMin * minuteTempos ≤ (pairDev .degraded).tn := by decide
theorem wit_SelfTests : dev0.dict.num 0x5000 0x01 ≠ 1
    ∧ ({ dev0 with dict := Dict.init.setVal 0x5000 1 [1] } : Device).dict.num 0x5000 0x01 = 1
    ∧ 24 ≤ ({ dev0 with tb := { dev0.tb with dt := 24 * 3600000000000 } } : Device).operatingHours := by decide
theorem wit_SelfTests_engine : let d := { dev0 with eng := [(31, { Eng.init with suspect := true })] }
    (d.engine (31 : Fin 32)).suspect = true ∧ (d.engine (31 : Fin 32)).bound = none := ⟨rfl, rfl⟩

/-! ### Witnesses: time and moves -/

theorem wit_TimeStarts : State.reset.live ∧ State.reset.dev.tb.started = false ∧ State.reset.dev.pwr.good = true
    ∧ (st dev0).dev.tb.started = true := ⟨rfl, rfl, rfl, rfl⟩
theorem wit_TimeStarts_waits : let d := { Device.init with fab := Fab.init.modPort 7 fun x => { x with ctrl := true } }
    d.portWaits = true ∧ d.fab.king = false := by decide
theorem wit_TempoAdvances : (st dev0).live ∧ dev0.tb.started = true ∧ dev0.tb.roundDue = false ∧ heldDev.tb.started = true
    ∧ ({ dev0.tb with roundDue := true } : TimeBase).roundDue = true := ⟨rfl, rfl, rfl, rfl, rfl⟩
theorem wit_DtNeverBack : dev0.tb.started = true ∧ (∀ x b, (Instr.tempoBoundary noEnv) ≠ .powerOnReset x b)
    ∧ ∃ t, exec (.tempoBoundary noEnv) (st dev0) = .next t := ⟨rfl, by simp, _, rfl⟩
def loadingDev (b : BlockId) (w : MoveState) : Device := dev0.setBlk b { MoveBlk.init with st := w, target := 5000 }
theorem wit_SealedMoves : dev0.sealAllowed .fgw 0 = true ∧ (loadingDev .fgw .ready).waitingFor .fgw = [] ∧ BlockId.fgw.rgnSet = none
    ∧ ((loadingDev .fgw .loading).blk .fgw).st = .loading ∧ ((loadingDev .fgw .ready).blk .fgw).pending = true := by decide
theorem wit_MoveRules : ((loadingDev .fgw .ready).blk .fgw).group = 0 ∧ ((loadingDev .fgw .ready).blk .fgw).due 5000 = true
    ∧ ((loadingDev .fgw .ready).blk .fgw).due 4999 = false := by decide
theorem wit_CalendarRules : Calendar.init.pending = none ∧ Calendar.init.atEnd = false ∧ Calendar.init.sub < 32767
    ∧ Calendar.init.now ≠ DateTime.last := by decide
theorem wit_ExternalTime : ({ dev0.tb with sync := .synced } : TimeBase).sync = .synced ∧ dev0.tb.sync = .none := ⟨rfl, rfl⟩
theorem wit_ExternalTime_rewrite :
    let d := { dev0 with tb := { dev0.tb with sync := .synced, offsetNow := 1000000000000000000 } }
    let u := d.utcView - (epoch2000 : Int) * 1000000000
    d.cal.sync = true ∧ d.tb.sync ≠ .none ∧ 0 ≤ u ∧ (DateTime.ofSeconds (u.toNat / 1000000000)).valid = true := by decide
theorem wit_ExternalTime_offset : ((1000000 : Int) - (TimeBase.init).offsetNow).natAbs ≤ 1000000
    ∧ 1000000 < ((1000001 : Int) - (TimeBase.init).offsetNow).natAbs := by decide
theorem wit_OtherBoundaries_cycle :
    ({ dev0 with fgw := Gateway.init.setGroup 15 { FGroup.init with period := 50, anchor := 5000, enable := true } } : Device).cycleDue 15 = true := by
  decide
theorem wit_OtherBoundaries_frame :
    (({ dev0 with gfx := Gfx.init.setPipe 1 { Pipe.init with enable := true } } : Device).setReg (pipeBase 1 + 8) 2500).frameDue 1 = true := by
  decide
theorem wit_OtherBoundaries_checkpoint : let d := { dev0 with jobs := [(63, { Job.init with st := .running, ckptOwed := true, ckptAt := 5000 })] }
    (d.job (63 : Fin 64)).ckptOwed = true ∧ (d.job (63 : Fin 64)).st = .running ∧ (d.job (63 : Fin 64)).ckptAt ≤ d.tn := by decide

/-! ### The data opcodes (chapters 04 and 05): tensors of INT32 in the slab of engine 0 -/

def cmd0 : Cmd :=
  { opcode := 0, atomic := false, cr := false, irq := false, sr := false, strict := false, chk := false, chken := false, seq := 1,
    slots := List.replicate 8 0, seed := 0, p1 := 0, p2 := 0, epi := 0, work := 0, reservedOk := true, crcGood := true }
/-- A tensor at an offset in the slab, rows of 16 bytes. -/
def ten (slot addr fmt : Nat) (sizes : List Nat) : Operand :=
  { slot := slot, comp := none,
    t := { addr := addr, space := 1, auxh := 0, auxv := false, rank := sizes.length, fmtCode := fmt, sat := false, sparse := false,
           sealed := false, world := false, sizes := sizes, strides := [16, 0, 0, 0], ring := 0, isRing := false, reservedOk := true } }
def iss (o : Op) (c : Cmd) (ops : List Operand) : Issued :=
  { cmd := c, op := o, ops := ops, ring := 0, started := true, startTn := 4990, startDt := 0, done := false, st := 0, outs := [], ins := [],
    plain := [], produced := none, heldBack := false, clash := false, fetched := [] }
/-- Engine 0 runs logical engine 0 of job 0 with one started command; words of its slab hold `ws`. -/
def opDev (o : Op) (c : Cmd) (ops : List Operand) (ws : List (Nat × Nat)) : Device :=
  let d : Device := { dev0 with
    jobs := [(0, { Job.init with st := .running, held := [0] })]
    eng := [(0, { Eng.init with bound := some (0, 0), issued := [iss o c ops] })] }
  ws.foldl (fun d w => d.put (opSlabBase 0 + w.1) (leBytes 4 w.2)) d

/-- The conditions under which DataRuns says that a command completes. -/
def ready (o : Op) (run : Issued → (Nat → Option View) → (Nat → Nat) → ExecRes) (d : Device) : Bool :=
  match d.runner 0, (d.engine 0).pendingOp o with
  | some w, some i => d.fab.answered 0 i.cmd.seq && (match d.checkSources w i with
    | (d1, none) => (match run i (d1.views w i) (d1.read w i.fetched) with
      | .ok out => (match d1.checkWrites w out.local' with | (_, none) => true | _ => false)
      | .error _ => false)
    | _ => false)
  | _, _ => false

theorem ready_sound {o : Op} {run : Issued → (Nat → Option View) → (Nat → Nat) → ExecRes} {d : Device} (h : ready o run d = true) :
    ∃ w i d1 d2 out, d.runner 0 = some w ∧ (d.engine 0).pendingOp o = some i ∧ d.fab.answered 0 i.cmd.seq = true
      ∧ d.checkSources w i = (d1, none) ∧ run i (d1.views w i) (d1.read w i.fetched) = .ok out
      ∧ d1.checkWrites w out.local' = (d2, none) := by
  unfold ready at h
  split at h
  · next w i hw hi =>
    rw [Bool.and_eq_true] at h
    obtain ⟨ha, h⟩ := h
    split at h
    · next d1 hc =>
      split at h
      · next out ho =>
        split at h
        · next d2 hd => exact ⟨w, i, d1, d2, out, hw, hi, ha, hc, ho, hd⟩
        · exact absurd h (by simp)
      · exact absurd h (by simp)
    · exact absurd h (by simp)
  · exact absurd h (by simp)

/-- Words at an offset of the slab after a command. -/
def words (c : Instr) (d : Device) (off n : Nat) : Option (List Nat) :=
  (run c d).map fun d => (List.range n).map fun i => d.nat (opSlabBase 0 + off + 4 * i) 4

def int32 : Nat := 0x04
def dCopy : Device := opDev .copy cmd0 [ten 1 0 int32 [4], ten 0 0x100 int32 [4]] [(0, 7), (4, 0xFFFF_FFFF), (12, 9)]
theorem wit_DataOps_copy : ready .copy (fun _ v _ => runCopy v) dCopy = true := by decide
theorem test_copy : words (.copy 0) dCopy 0x100 4 = some [7, 0xFFFF_FFFF, 0, 9] := by decide
theorem wit_DataOps_remote : ready .remote (fun _ v _ => runCopy v) (opDev .remote cmd0 [ten 1 0 int32 [4], ten 0 0x100 int32 [4]] []) = true := by decide
def dCvt : Device := opDev .cvt cmd0 [ten 1 0 int32 [2], ten 0 0x100 0x02 [2]] [(0, 300), (4, 0xFFFF_FFFE)]
theorem wit_DataOps_cvt : ready .cvt (fun i v _ => runCvt i.cmd v) dCvt = true := by decide
/-- 300 saturates to 127 in INT8 and −2 is 0xFE (R85). -/
theorem test_cvt : words (.cvt 0) dCvt 0x100 1 = some [0xFE7F] := by decide
def dMma : Device := opDev .mma cmd0 [ten 1 0 0x02 [4, 1], ten 2 0x40 0x02 [4, 1], ten 0 0x100 int32 [1, 1]] [(0, 0x04030201), (0x40, 0x01FF0201)]
theorem wit_DataOps_mma : ready .mma (fun i v _ => runMma i.cmd (intPath i.ops) v) dMma = true := by decide
/-- 1·1 + 2·2 + 3·(−1) + 4·1 = 6 (R103). -/
theorem test_mma : words (.mma 0) dMma 0x100 1 = some [6] := by decide
def dGather (b0 b1 : Nat) : Device :=
  opDev .gather cmd0 [ten 1 0 int32 [2, 2], ten 2 0x40 int32 [2], ten 0 0x100 int32 [2, 2]] [(0, 1), (4, 2), (16, 3), (20, 4), (0x40, b0), (0x44, b1)]
theorem wit_DataOps_gather : ready .gather (fun i v _ => runGather i.cmd v) (dGather 1 0) = true := by decide
/-- Row 1 is gathered first; an index out of range gives a row of zeros (R135). -/
theorem test_gather : words (.gather 0) (dGather 1 2) 0x100 6 = some [3, 4, 0, 0, 0, 0] := by decide
theorem wit_DataOps_scatter : ready .scatter (fun i v _ => runScatter i.cmd v)
    (opDev .scatter cmd0 [ten 1 0 int32 [2, 2], ten 2 0x40 int32 [2], ten 0 0x100 int32 [2, 2]] []) = true := by decide
def dSegred : Device := opDev .segred cmd0 [ten 1 0 int32 [1, 3], ten 2 0x40 int32 [3], ten 0 0x100 int32 [1, 2]]
  [(0, 5), (16, 6), (32, 7), (0x40, 0), (0x44, 2), (0x48, 3)]
theorem wit_DataOps_segred : ready .segred (fun i v _ => runSegred i.cmd v) dSegred = true := by decide
/-- Segments [5, 6] and [7] under ADD (R139). -/
theorem test_segred : words (.segred 0) dSegred 0x100 1 = some [11] ∧ words (.segred 0) dSegred 0x110 1 = some [7] := by decide
def dSort : Device := opDev .sort cmd0 [ten 1 0 int32 [3], ten 0 0x100 int32 [3]] [(0, 3), (4, 0xFFFF_FFFF), (8, 2)]
theorem wit_DataOps_sort : ready .sort (fun i v _ => runSort i.cmd v) dSort = true := by decide
/-- Signed ascending order (R130, R142). -/
theorem test_sort : words (.sort 0) dSort 0x100 3 = some [0xFFFF_FFFF, 2, 3] := by decide
def dMerge : Device := opDev .merge cmd0 [ten 1 0 int32 [2], ten 2 0x40 int32 [2], ten 0 0x100 int32 [4]] [(0, 1), (4, 4), (0x40, 2), (0x44, 4)]
theorem wit_DataOps_merge : ready .merge (fun i v _ => runMerge i.cmd v) dMerge = true := by decide
theorem test_merge : words (.merge 0) dMerge 0x100 4 = some [1, 2, 4, 4] := by decide
def dTopk : Device := opDev .topk { cmd0 with p1 := 2 } [ten 1 0 int32 [3], ten 0 0x100 int32 [2]] [(0, 3), (4, 9), (8, 5)]
theorem wit_DataOps_topk : ready .topk (fun i v _ => runTopk i.cmd v) dTopk = true := by decide
theorem test_topk : words (.topk 0) dTopk 0x100 2 = some [9, 5] := by decide
def dSetop : Device := opDev .setop { cmd0 with p1 := 1 } [ten 1 0 int32 [2], ten 2 0x40 int32 [2], ten 0 0x100 int32 [2]] [(0, 1), (4, 4), (0x40, 2), (0x44, 4)]
theorem wit_DataOps_setop : ready .setop (fun i v _ => runSetop i.cmd v) dSetop = true := by decide
/-- The intersection of {1, 4} and {2, 4} (R145). -/
theorem test_setop : words (.setop 0) dSetop 0x100 1 = some [4] := by decide
def dHashb : Device := opDev .hashb { cmd0 with p1 := 1 } [ten 1 0 int32 [1], ten 0 0x100 int32 [20]] [(0, 5)]
theorem wit_DataOps_hashb : ready .hashb (fun i v _ => runHashb i.cmd v) dHashb = true := by decide
theorem wit_DataOps_hashp : ready .hashp (fun i v _ => runHashp i.cmd v)
    (opDev .hashp { cmd0 with p1 := 1 } [ten 1 0 int32 [20], ten 2 0x100 int32 [1], ten 0 0x200 int32 [1]] [(0x40, 5), (0x44, 77)]) = true := by decide
theorem wit_DataOps_spmm : ready .spmm (fun i v _ => runSpmm i.cmd (intPath i.ops) v)
    (opDev .spmm cmd0 [{ ten 1 0 0x02 [1] with comp := some (ten 1 0x40 int32 [3]).t }, ten 2 0x80 0x02 [4, 1], ten 0 0x100 int32 [1, 1]]
      [(0, 2), (0x40, 0), (0x44, 1), (0x48, 3)]) = true := by decide
theorem wit_DataOps_attn : ready .attn (fun i v _ => runAttn i.cmd (fmt2 i.ops 2 1 fun w x => pairPath w x == some true) v)
    (opDev .attn cmd0 [ten 1 0 0x02 [1, 1], ten 2 0x40 0x02 [1, 1], ten 4 0x80 0x02 [1, 1], ten 0 0x100 0x2A [1, 1]] []) = true := by decide
/-- A program of one HALT. -/
def dVprog (halt : Nat) : Device :=
  (opDev .vprog cmd0 [ten 0 0x100 int32 [1]] []).put (vuBase 0 0) (leBytes 8 halt)

theorem wit_DataOps_vprog : ready .vprog (fun i v rd => runVprog i.cmd (inSpace 3 0) rd v) (dVprog 0x74) = true := by decide
theorem test_vprog_bad : (run (.vprog 0) (dVprog 0x75)).map (fun d => (d.job 0).st) = some .teardown := by decide

/-! ### The front end (R113 to R126) -/

def feDev (o : Op) (c : Cmd) (r : Ring) : Device := { opDev o c [] [] with rings := [(3, r)] }
def ring4 (head tail : Nat) : Ring :=
  { Ring.init with base := 0xD0_0000_0000, esize := 3, place := 0, enable := true, count := 4, head := ⟨head, false, 0⟩, tail := ⟨tail, false, 0⟩ }
def waits (p1 : Nat) : Option (Option Bool) :=
  let d := feDev .wait { cmd0 with p1 := p1, p2 := 10 } (ring4 0 0)
  ((d.engine 0).pendingOp .wait).map fun i => (d.runner 0).map fun w => d.waitHolds w i
theorem wit_FrontEnd_wait : waits 0 = some (some false) ∧ waits 3 = some (some true) := by decide
theorem wit_FrontEnd_publish : let d := feDev .publish { cmd0 with p1 := 3 + 4 * 2 ^ 16 } (ring4 0 0)
    ((d.engine 0).pendingOp .publish).map (fun i => ((d.ring (i.cmd.p1 % 512)).enable, decide (bits i.cmd.p1 31 16 ≤ (d.ring (i.cmd.p1 % 512)).free)))
      = some (true, true) := by decide
theorem wit_CommandFaults_publish : let d := feDev .publish { cmd0 with p1 := 3 + 5 * 2 ^ 16 } (ring4 0 0)
    ((d.engine 0).pendingOp .publish).map (fun i => decide ((d.ring (i.cmd.p1 % 512)).free < bits i.cmd.p1 31 16)) = some true
      ∧ (d.job 0).st = .running ∧ (d.runner 0).isSome = true := by decide
theorem test_publish_fault : (run (.publish 0) (feDev .publish { cmd0 with p1 := 3 + 5 * 2 ^ 16 } (ring4 0 0))).map
    (fun d => ((d.job 0).st, (d.job 0).faultCode)) = some (.teardown, 0x15) := by decide
theorem wit_FrontEnd_fence : let d := feDev .fence { cmd0 with p1 := 1 } (ring4 0 0)
    ((d.engine 0).pendingOp .fence).map (fun i => (d.fab.badPutRings.contains i.ring, d.fab.openPuts i.ring)) = some (false, false) := by decide
theorem wit_FrontEnd_checkpoint : let d := feDev .checkpoint { cmd0 with p1 := 1 } (ring4 0 0)
    ((d.engine 0).pendingOp .checkpoint).map (fun i => (i.cmd.p1 % 2 ^ 32 == (d.job 0).ckpt + 1
      && (d.fronts 0).all fun p => (d.runner p.1).isSome && p.2.any fun y => y.started && y.op == .checkpoint && y.cmd.p1 == i.cmd.p1)) = some true := by
  decide
theorem wit_FrontEnd_signal : (((feDev .signal cmd0 (ring4 0 0)).engine 0).pendingOp .signal).isSome = true
    ∧ (((feDev .nop cmd0 (ring4 0 0)).engine 0).pendingOp .nop).isSome = true := by decide
theorem wit_CommandFaults : let d := feDev .mma cmd0 (ring4 0 0)
    (d.runner (0 : Fin 32)).isSome = true ∧ (d.job 0).st = .running
    ∧ ((d.engine 0).issued.find? fun i => i.started && !i.done && faultAllowed i.op fcEcc).isSome = true := by decide
theorem wit_CommandFaults_atomic : let d := feDev .mma { cmd0 with atomic := true } (ring4 0 0)
    ((d.engine 0).issued.find? fun i => i.started && i.cmd.atomic && decide (i.startTn + 8 ≤ d.tn)).isSome = true := by decide
theorem wit_CommandFaults_fence : let d := { feDev .fence { cmd0 with p1 := 1 } (ring4 0 0) with fab := { Fab.init with badPutRings := [0] } }
    ((d.engine 0).pendingOp .fence).map (fun i => d.fab.badPutRings.contains i.ring) = some true := by decide
theorem wit_CommandFaults_checkpoint : let d := feDev .checkpoint { cmd0 with p1 := 2 } (ring4 0 0)
    ((d.engine 0).pendingOp .checkpoint).map (fun i => i.cmd.p1 % 2 ^ 32 == (d.job 0).ckpt + 1) = some false := by decide

theorem wit_CommandFaults_wait : let d := feDev .wait { cmd0 with p2 := 10 } (ring4 0 0)
    ((d.engine 0).issued.find? fun i => i.started && !i.done && i.op == .wait).map (fun i => (i.cmd.p2 % 2 ^ 32 != 0,
      decide (i.startTn + i.cmd.p2 % 2 ^ 32 ≤ d.tn))) = some (true, true) ∧ waits 0 = some (some false) := by decide

/-! ### Issue, start and commit -/

/-- Ring 0 in the system SRAM, which is secure at reset, holds one command of the opcode `o`. -/
def issueDevOf (world : Bool) (o : Nat) : Device :=
  { dev0 with
    jobs := [(0, { Job.init with st := .running, held := [0], rc := { JobRec.empty with world := world } })]
    eng := [(0, { Eng.init with bound := some (0, 0) })]
    rings := [(0, ring4 0 1)] }.put 0xD0_0000_0000 ([BitVec.ofNat 8 o, 0, 0, 0] ++ leBytes 4 1)
def issueDev (o : Nat) : Device := issueDevOf true o
theorem wit_IssueStart_fetch : ((issueDevOf false 0x3F).nextCommand (0 : Fin 32)).map (fun x => (issueDevOf false 0x3F).fetchRefused x.1 x.2.1) = some (some 0xD0_0000_0000)
    ∧ ((issueDev 0x3F).nextCommand (0 : Fin 32)).map (fun x => (issueDev 0x3F).fetchRefused x.1 x.2.1) = some none
    ∧ ((issueDevOf false 0x3F).job 0).release ≠ .delete := by decide
theorem wit_IssueStart : ((issueDev 0x3F).nextCommand (0 : Fin 32)).map (fun x => (x.1.j, x.1.l, x.2.1, x.2.2.opcode, x.2.2.seq,
    (issueDev 0x3F).dbg.hits 0 0 1)) = some (0, 0, 0, 0x3F, 1, none) := by decide
def checked (o : Nat) : Option (Option (Nat × Nat)) := ((issueDev o).nextCommand 0).map fun x => match (issueDev o).issueCheck 0 x.2.2 1 with
  | .ok _ => none
  | .error f => some f
theorem wit_IssueStart_ok : checked 0x3F = some none := by decide
/-- 0x13 is no opcode (R97, R126). -/
theorem wit_IssueStart_bad : checked 0x13 = some (some (2, 0xF)) := by decide
theorem test_issue : (run (.commandIssue 0) (issueDev 0x3F)).map (fun d => (d.engine 0).issued.map fun i => (i.cmd.seq, i.started)) = some [(1, false)] := by
  decide
theorem test_issue_bad : (run (.commandIssue 0) (issueDev 0x13)).map (fun d => ((d.job 0).st, (d.engine 0).faultInfo)) = some (.teardown, 0x1F02) := by
  decide
theorem test_issue_world : (run (.commandIssue 0) (issueDevOf false 0x3F)).map (fun d => ((d.job 0).st, (d.engine 0).faultInfo)) = some (.teardown, 0x1F09) := by
  decide
theorem wit_IssueStart_breakpoint : let d := { issueDev 0x3F with dbg := { Dbg.init with bp := [(7, 2 ^ 13 + 2 ^ 32)] } }
    d.dbg.hits 0 0 1 = some 7 ∧ (d.engine (0 : Fin 32)).step = none := by decide
def startDev (started fin : Bool) : Device :=
  { opDev .nop cmd0 [] [] with eng := [(0, { Eng.init with bound := some (0, 0), issued := [{ iss .nop cmd0 [] with started := started, done := fin }] })] }
theorem wit_IssueStart_start : let d := startDev false false
    (d.engine 0).issued.findIdx? (fun i => !i.started) = some 0 ∧ (d.job 0).st = .running
    ∧ (d.engine 0).issued.head?.map (fun i => (d.mayStart (d.engine 0) 0 i, (d.remoteRing i).isNone)) = some (true, true) := by decide
theorem wit_CommitDrain : let d := startDev true true
    ((d.engine 0).issued.map fun i => (i.started, i.done, i.op == .nop)) = [(true, true, true)] ∧ (d.engine 0).hasStores 1 = false
    ∧ (d.runner 0).isSome = true := by decide
theorem wit_CommitDrain_drain : (({ dev0 with eng := [(0, { Eng.init with wcb := [⟨1, [(63, 5)], [1]⟩] })] } : Device).engine (0 : Fin 32)).wcb
    = [⟨1, [(63, 5)], [1]⟩] := rfl
theorem test_wcbDrain : (run (.wcbDrain 0) { dev0 with eng := [(0, { Eng.init with wcb := [⟨1, [(63, 5)], [1]⟩] })] }).map
    (fun d => (d.byte 127, d.byte 126, (d.engine 0).wcb.length)) = some (5, 0, 0) := by decide


/-! ### Witnesses: power, resets, jobs, rings, memories -/

theorem wit_BringUp : Device.init.pwr.good = true ∧ Device.init.arb.valid = false ∧ Device.init.pwr.held = false := ⟨rfl, rfl, rfl⟩
def upDev (n : Nat) (tries : Nat) : Device := { dev0 with pwr := { dev0.pwr with bringUp := n, hs1 := .training, hsTries1 := tries } }
theorem wit_BringUp_stack : 2 ≤ (upDev 3 2).pwr.bringUp ∧ (upDev 3 2).pwr.hs (1 : Fin 2) ≠ .trained ∧ (upDev 3 2).pwr.hs (1 : Fin 2) ≠ .failed
    ∧ (upDev 3 2).sec.waiting = [] ∧ (upDev 3 2).pwr.tries (1 : Fin 2) = 2 := by decide
theorem wit_BringUp_ready : (upDev 4 0).pwr.bringUp = 4 ∧ (upDev 4 0).arb.xcheck = none := ⟨rfl, rfl⟩
theorem test_stackTrained : (run (.stackTrained 1 false) (upDev 3 2)).map (fun d => (d.pwr.hs0, d.pwr.hs1)) = some (.trained, .failed) := by decide
theorem test_readyForJobs : (run .readyForJobs (upDev 4 0)).map (fun d => d.pwr.bringUp) = some 5 := by decide
theorem wit_Resets : (st dev0).live ∧ (st dev0).dev.pwr.inSysReset = false := ⟨rfl, rfl⟩
theorem test_powerOnReset : (run (.powerOnReset ⟨5, 4, 1⟩ .none) (dev0.put 7 [3])).map (fun d => (d.byte 7, d.tb.dt, d.arb.safeN, d.pwr.straps))
    = some (0, 0, false, 5) := by decide
theorem test_systemReset : (run (.systemReset noStraps) (dev0.put 7 [3])).map (fun d => (d.byte 7, d.tb.dt, d.arb.gateOpen)) = some (0, 5000000, false) := by
  decide
def offDev : Device :=
  ({ dev0 with pwr := dev0.pwr.setQuad 3 { Quad.init with powered := false, powering := true } } : Device).put (opSlabBase 13 - 1) [1, 2]
theorem wit_PowerEvents : (offDev.pwr.quad (3 : Fin 8)).powering = true := by decide
theorem test_quadPowerOn : (run (.quadPowerOn 3) offDev).map (fun d => ((d.pwr.quad 3).powered, d.byte (opSlabBase 13))) = some (true, 0) := by decide
theorem wit_PowerEvents_wake : ({ dev0 with pwr := { dev0.pwr with keepAlive := true, supplyEn := false } } : Device).pwr.keepAlive = true := rfl

/-- A record of one variant of one engine with command ring 2 and completion ring 3, at 0x1000; both rings enabled. -/
def jobRecBytes (quota : Nat) : List Byte :=
  [0, 0, 0, 0, 0, 1, BitVec.ofNat 8 quota, 0, 5, 0, 0, 0] ++ leBytes 4 7 ++ zeros 16 ++ leBytes 2 3 ++ zeros 30 ++ [0, 0] ++ leBytes 2 2 ++ zeros 12
def createDev (quota : Nat) : Device := { dev0 with rings := [(2, ring4 1 1), (3, ring4 0 0)] }.put 0x1000 (jobRecBytes quota)
theorem wit_JobControl : (createDev 1).pwr.bringUp = 5 ∧ ((createDev 1).job (63 : Fin 64)).taken = false
    ∧ (createDev 1).createReason 63 0x1000 true (JobRec.ofBytes ((createDev 1).bytes 0x1000 192)) = 0
    ∧ (createDev 0).createReason 63 0x1000 true (JobRec.ofBytes ((createDev 0).bytes 0x1000 192)) = 2 := by decide +kernel
theorem test_jobCreate : (run (.jobCreate ⟨63, 0x1000, true⟩) (createDev 1)).map (fun d => ((d.job 63).nextSt, (d.ring 2).jobOwn, (d.ring 2).job,
    tget doneDef (d.job 63).doneSeq 2)) = some (some .ready, true, 63, 6) := by decide +kernel
def jobIn (x : Job) : Device := { dev0 with jobs := [(63, x)] }
theorem wit_JobControl_suspend : ((jobIn { Job.init with st := .running }).job (63 : Fin 64)).st = .running
    ∧ ((jobIn { Job.init with st := .ready }).job (63 : Fin 64)).st = .ready
    ∧ ((jobIn { Job.init with st := .ready, hold := true }).job (63 : Fin 64)).hold = true := by decide
theorem wit_JobControl_restart : let d := jobIn { Job.init with st := .failed }
    (d.job (63 : Fin 64)).st = .failed ∧ (d.job (63 : Fin 64)).nextSt = none ∧ d.openingsHeld (63 : Fin 64) = true := by decide
theorem test_jobDelete_free : (run (.jobDelete 5) dev0).map (fun d => d.out) = some [.dict abState []] := by decide

def leaveDev (rel : Release) (rows : Nat) : Device :=
  { dev0 with
    jobs := [(0, { Job.init with st := .takingBack, release := rel, held := [31], rc := { JobRec.empty with world := true, saveRows := rows, saveArea := 0x4000 } })]
    eng := [(31, { Eng.init with bound := some (0, 0), leaving := true })] }.put (opSlabBase 31 + 511) [9]
theorem wit_ReleaseTriggers : ((leaveDev .teardown 0).engine (31 : Fin 32)).bound = some (0, 0) ∧ ((leaveDev .teardown 0).engine (31 : Fin 32)).leaving = true
    ∧ ((leaveDev .teardown 0).engine (31 : Fin 32)).issued = [] ∧ ((leaveDev .teardown 0).job 0).release ≠ .suspend
    ∧ ((leaveDev .suspend 1).job 0).release = .suspend ∧ 0 < ((leaveDev .suspend 1).job 0).rc.saveRows
    ∧ ((leaveDev .suspend 1).job 0).rc.saveArea + 0 * (1 * 512) + 1 * 512 ≤ opSlabBase 0 ∧ (leaveDev .suspend 1).saveRefused 0 31 0 true = none
    ∧ ((leaveDev .suspend 1).engine (31 : Fin 32)).noSave = false ∧ ((leaveDev .suspend 1).job 0).st = .takingBack := by decide
theorem test_engineReleased : (run (.engineReleased 31 none) (leaveDev .suspend 1)).map (fun d => ((d.engine 31).bound, (d.job 0).held, d.byte (0x4000 + 511),
    d.byte (opSlabBase 31 + 511))) = some (none, [], 9, 0) := by decide +kernel
def downDev (auto : Bool) (faults : List Nat) : Device :=
  jobIn { Job.init with st := .teardown, release := .teardown, autoRestart := auto, faults := faults, faultCode := 1 }
theorem wit_ReleaseTriggers_teardown : ((downDev false []).job (63 : Fin 64)).st = .teardown ∧ ((downDev false []).job (63 : Fin 64)).release = .teardown
    ∧ ((downDev false []).job (63 : Fin 64)).held = [] ∧ ((downDev false []).job (63 : Fin 64)).nextSt = none
    ∧ ((downDev false []).job (63 : Fin 64)).autoRestart = false := by decide
theorem wit_ReleaseTriggers_restart : ((downDev true [4990, 4500, 3991]).job (63 : Fin 64)).parks (((downDev true [4990, 4500, 3991]).job (63 : Fin 64)).faults.headD 5000) = true
    ∧ ((downDev true [4990, 4500, 3990]).job (63 : Fin 64)).parks (((downDev true [4990, 4500, 3990]).job (63 : Fin 64)).faults.headD 5000) = false ∧ (downDev true []).openingsHeld (63 : Fin 64) = true
    ∧ ((downDev true []).job (63 : Fin 64)).faultCode ≠ 0x83 ∧ (downDev true []).tn = 5000 := by decide
theorem wit_ReleaseTriggers_idle : let d := jobIn { Job.init with st := .running, idleSince := some 4900 }
    (d.job (63 : Fin 64)).idleSince = some 4900 ∧ d.idleNow (63 : Fin 64) = true
    ∧ d.jobHalted (63 : Fin 64) = false ∧ 4900 + 100 ≤ d.tn := by decide
def camJob (x : JobRec) : Device := jobIn { Job.init with st := .ready, trig := [255, 4, 0, 0], rc := x }
/-- An event at 255 sets no more than the overflow bit (R209). -/
theorem wit_camera_moving : ((({ dev0 with proc := { dev0.proc with wat := [(0x22, { WatEntry.init with moving := true })] } } : Device).proc.watEntry
    (0x20 + (2 : Fin 4))).moving) = true := by decide
theorem test_camera : (run (.cameraFrameDone 2 9) (camJob { JobRec.empty with trigCfg := [2 + 256 * (2 + 4 * 9), 2 + 256 * 2, 0, 0] })).map
    (fun d => ((d.job 63).trig, (d.job 63).trigOvf)) = some ([255, 4, 0, 0], 1) := by decide
theorem test_trigClr : (run (.trigClr 63 5) (jobIn { Job.init with st := .ready, trig := [1, 2, 3, 4] })).map (fun d => (d.job 63).trig)
    = some [0, 2, 0, 4] := by decide

def ringDev (r : Ring) : Device := { dev0 with rings := [(511, r)] }
theorem wit_RingMoves : let g := { ring4 0 0 with enable := false }
    ((ringDev g).ring (511 : Fin 512)).enable = false ∧ bitOf (0x8000 : Word).toNat 15 = true ∧ ((ringDev (ring4 0 0)).ring (511 : Fin 512)).enable = true := by
  decide
/-- Three entries from index 2 of 4 wrap to index 1 (R166). -/
theorem test_ringPublish : (run (.ringPublish 511 3) (ringDev (ring4 2 2))).map (fun d => (d.ring 511).tail) = some ⟨1, true, 3⟩ := by decide
theorem test_ringAdvance : (run (.ringAdvance 511 3) (ringDev (ring4 0 2))).map (fun d => ((d.ring 511).head, (d.ring 511).err)) = some (⟨0, false, 0⟩, true) := by
  decide
theorem test_ringEnable : (run (.ringEnable 511 0x8000) (ringDev { ring4 1 2 with enable := false, base := 0xC1_0000_0040 })).map
    (fun d => ((d.ring 511).enable, (d.ring 511).tail, (d.ring 511).err)) = some (true, ⟨0, false, 0⟩, false) := by decide
theorem test_ringEnable_bad : (run (.ringEnable 511 0x8000) (ringDev { ring4 1 2 with enable := false, base := 0xC1_0000_0041 })).map
    (fun d => ((d.ring 511).enable, (d.ring 511).err)) = some (false, true) := by decide

def repairDev : Device := { dev0 with stk := { Stk.init with rowPasses := tput zeroDef [] (rowKey 1 2) 3 } }
theorem wit_ScrubRepair : dev0.tb.started = true ∧ dev0.pwr.hs (1 : Fin 2) = .trained ∧ dev0.stk.scrubTn1 + dev0.scrubInterval ≤ dev0.tn
    ∧ repairDev.needsRepair (1 : Fin 2) 2 = true := by decide
theorem wit_ScrubRepair_early : let d := { dev0 with stk := { Stk.init with scrubTn1 := 4999 } }
    d.tn < d.stk.scrubTn1 + d.scrubInterval := by decide
theorem test_scrub : (run (.scrubRead 1 .uncorrectable) dev0).map (fun d => (d.stk.scrubPos1, d.stk.scrubTn1, d.stk.uncorr1)) = some (1, 5000, 1) := by decide
theorem test_repair : (run (.softRepair 1 2 true true) repairDev).map (fun d => (d.stk.repairs.length, d.needsRepair 1 2)) = some (1, false) := by decide
/-- The 256-byte blocks of an aligned 16 KiB range lie in 64 different pseudo-channels (R171). -/
theorem test_pseudoChannel : ((List.range 64).map fun b => pseudoChannel (0x123_4000 + b * 256)).Nodup := by decide +kernel

/-! ### Witnesses: the networks and registers -/

def sramReq : BusReq := ⟨.fwc, true, 0xD0_0000_0FF8, 8, true, leBytes 8 5, 0, none, .clean, false⟩
theorem wit_Requests : sramReq.master ≠ Port.debug ∧ sramReq.master ≠ Port.toterlink ∧ sramReq.master.port < portCount sramReq.master.die
    ∧ dev0.mayIssue sramReq.master = true ∧ (dev0.noc.port sramReq.master).held = [] ∧ dev0.ctxOf sramReq.master sramReq.ctx (dev0.who sramReq).inst = none
    ∧ dev0.localOf sramReq.global sramReq.addr = some sramReq.addr ∧ placeOf sramReq.addr = .sram
    ∧ sramReq.addr / 4096 = (sramReq.addr + sramReq.len - 1) / 4096 ∧ dev0.sramWorld sramReq.addr = (dev0.who sramReq).secure
    ∧ dev0.reaches sramReq.master.die sramReq.addr = true ∧ (dev0.setLink 1 ⟨0, 0, true⟩).reaches Die.cd0 sramReq.addr = false
    ∧ sramReq.data.length = sramReq.len := by decide
theorem test_busAccess : (run (.busAccess sramReq) dev0).map (fun d => (d.nat 0xD0_0000_0FF8 8, (d.noc.port .fwc).inflight.length)) = some (5, 1) := by decide
/-- A port whose hard budget is used up. -/
def fullDev : Device := dev0.modPort .fwc fun p => { p with inflight := List.replicate (dev0.portHard .fwc) ⟨9, true, 0, 8, true, none, false, 0, 0, none, 0, .ok⟩ }
theorem wit_Requests_full : fullDev.mayIssue sramReq.master = false := by decide +kernel
def flight (orphan : Bool) : Inflight := ⟨7, true, 5, 64, false, some 3, orphan, 0, 0, none, 0, .data []⟩
def flyDev (orphan : Bool) : Device :=
  (dev0.modPort .fwc fun p => { p with inflight := [flight orphan], acc := 6400 }).modPool .hub fun q => { q with used := [3] }
theorem wit_Requests_complete : Port.fwc ≠ Port.debug ∧ ((flyDev false).noc.port .fwc).inflight.find? (fun i => i.id == 7 && !i.orphan) = some (flight false)
    ∧ (flyDev false).awaitsRemote .fwc 7 = false ∧ (flyDev false).awaitsEmu .fwc 7 = false ∧ (flyDev false).stale (flight false) = false := by decide
/-- The average moves by 1/64 of the difference: 6,400 − 100 + 164 (R228). -/
theorem test_complete : (run (.requestComplete .fwc 7 164) (flyDev false)).map (fun d => ((d.noc.port .fwc).acc, (d.noc.pool .hub).used)) = some (6464, []) := by
  decide
theorem wit_Requests_late : (List.range (portCount .hub)).findSome? (fun p => (((flyDev true).noc.port ⟨.hub, p⟩).inflight.find? fun i =>
    i.orphan && i.tag == some 3).map fun i => (p, i)) = some (5, flight true) := by decide
def waitDev : Device := dev0.modPort .fwc fun p => { p with held := [sramReq], stalled := [sramReq] }
theorem wit_Requests_held : (waitDev.noc.port .fwc).held = [sramReq] ∧ waitDev.mayIssue .fwc = true
    ∧ (fullDev.modPort .fwc fun p => { p with held := [sramReq] }).mayIssue .fwc = false := by decide +kernel
theorem wit_Requests_grant : waitDev.nextWaiting .hub = some 5 ∧ waitDev.poolTag .hub = some 0
    ∧ (waitDev.noc.port ⟨.hub, 5⟩).stalled = [sramReq] := by decide
theorem wit_Requests_link : (dev0.dieLink (2 : Fin 3)).down = false ∧ (dev0.dieLink (2 : Fin 3)).row + 1 < 16 ∧ dev0.arb.valid = true
    ∧ 16 ≤ ((dev0.setLink 2 ⟨0, 15, false⟩).dieLink (2 : Fin 3)).row + 1 ∧ ((dev0.setLink 2 ⟨0, 15, false⟩).dieLink (2 : Fin 3)).down = false := by decide
theorem test_dieLinkDown : (run (.dieLinkDown 2) dev0).map (fun d => ((d.dieLink 2).down, d.arb.safe, d.arb.safeN)) = some (true, true, false) := by decide
def ctrDev : Device := { dev0 with noc := Noc.init.setCounter 0x100 { Counter.init with val := 2 ^ 64 - 1 } }
theorem test_latch : (run .latch ctrDev).map (fun d => ((d.noc.counter 0x100).snap, d.noc.snapTn)) = some (2 ^ 64 - 1, 5000 + 2 ^ 63) := by decide
theorem test_counter : ((ctrDev.count 0x100 2).noc.counter 0x100).val = 1 ∧ ((ctrDev.count 0x100 2).noc.counter 0x100).ovf = true := by decide
def regReq (a : Nat) : RegReq := ⟨.fwc, 0, true, 0, a, false, 0x12, 0⟩
theorem wit_RegisterWrites : (regReq 0xF0_0000_0001).master ≠ Port.debug ∧ (regReq 0xF0_0000_0001).master ≠ Port.toterlink
    ∧ placeOf (regReq 0xF0_0000_0001).addr = .regs ∧ placeOf 0xF0_0000_0FFC = .regs := by decide
theorem wit_RegisterWrites_word : regOf dev0 (dev0.regWho (regReq mirrorBase)) true mirrorBase = none
    ∧ (regOf dev0 (dev0.regWho (regReq (nocBase .hub + 0x1000))) true (nocBase .hub + 0x1000)).isSome = true := by decide
theorem wit_RegisterWrites_keys : BlockId.fgw ≠ .mceCore ∧ BlockId.mceCore.key ≠ BlockId.fgw.key := by decide
/-- A W1C bit set by the hardware in the cycle of its clearing ends set (R10). -/
theorem test_w1c : w1c true 1 1 0 = true ∧ w1c true 1 0 0 = false := by decide
theorem test_rcRead : (run (.rcRead 0x40 true 0) { dev0 with rcs := [(0x40, 6)] }).map (fun d => (tget (fun _ => (0 : Word)) d.rcs 0x40, d.out)) = some (6, [.read 0x40 6])
    ∧ (run (.rcRead 0x40 false 1) { dev0 with rcs := [(0x40, 6)] }).map (fun d => tget (fun _ => (0 : Word)) d.rcs 0x40) = some 1 := by decide

/-- A counter of a port of a compute die. -/
theorem wit_LiveCounters : (Port.engine 31).port < portCount (Port.engine 31).die ∧ (st dev0).live := ⟨by decide, rfl⟩

/-! ### Witnesses: the fabric -/

def linkDev (x : LPort) : Device := { dev0 with fab := Fab.init.setPort 7 { x with ctrl := true }, dict := Dict.init.setVal 0x2100 1 [0xFF] }
def link (x : LinkSt) : Device := linkDev { LPort.init with st := x }
theorem wit_FabricLinks_training : (link .training).linkEnabled (7 : Fin 8) = true ∧ ((link .training).fab.port (7 : Fin 8)).st = .training
    ∧ (link .training).fab.version ≠ 1 ∧ ({ (link .training).fab with version := 1 } : Fab).version = 1 := by decide
def helloMsg (vmin vmax : Nat) (hash : List Byte) : Hello := ⟨77, vmin, vmax, 0, false, false, false, 2, 0, hash, 0, 0⟩
theorem wit_FabricLinks_hello : ((link .hello).fab.port (7 : Fin 8)).st = .hello ∧ max 1 (helloMsg 2 5 []).vmin ≤ min 2 (helloMsg 2 5 []).vmax
    ∧ (link .hello).fab.version = 0 ∧ (helloMsg 2 5 (link .hello).profileHash).profileHash = (link .hello).profileHash
    ∧ ((2 : Nat) ≠ 1 ∨ ((link .hello).fab.port (7 : Fin 8)).x4 = false) ∧ min 2 (helloMsg 3 5 []).vmax < max 1 (helloMsg 3 5 []).vmin := by
  refine ⟨by decide, by decide, by decide, rfl, by decide, by decide⟩
theorem wit_FabricLinks_hash : (helloMsg 2 5 ((link .hello).profileHash ++ [0])).profileHash ≠ (link .hello).profileHash := by
  simp [helloMsg]
theorem test_hello_version : (run (.hello 7 (helloMsg 3 5 [])) (link .hello)).map (fun d => ((d.fab.port 7).st, (d.fab.port 7).refuse)) = some (.refused, 1) := by
  decide
theorem wit_FabricLinks_handshake : ((link .handshake).fab.port (7 : Fin 8)).st = .handshake ∧ (link .handshake).tn < ((link .handshake).fab.port (7 : Fin 8)).hsAt + 20000
    ∧ ((linkDev { LPort.init with st := .handshake }).fab.port (7 : Fin 8)).hsAt + 20000 ≤ ({ dev0 with tb := { dev0.tb with dt := 20000000 } } : Device).tn := by decide
def share (signed : Bool) : HandshakeMsg := ⟨zeros 4, signed, zeros 48⟩
theorem test_handshake : (run (.handshake 7 (share true)) (link .handshake)).map (fun d => ((d.fab.port 7).st, (d.fab.port 7).keyed)) = some (.attesting, true)
    ∧ (run (.handshake 7 (share false)) (link .handshake)).map (fun d => ((d.fab.port 7).st, (d.fab.port 7).refuse)) = some (.refused, 3) := by
  decide
def report (same : Bool) : PartnerReport := ⟨true, true, Lifecycle.owned.code, 0, same, [], true⟩
theorem wit_FabricLinks_attest : ((link .attesting).fab.port (7 : Fin 8)).st = .attesting ∧ (report true).signed = true ∧ (report true).fresh = true
    ∧ (link .attesting).policyMet (report true) = true ∧ (link .attesting).policyMet (report false) = false := by decide
theorem wit_FabricLinks_refuses : (report false).signed = true ∧ ({ report true with accepts := false } : PartnerReport).accepts = false := by decide
def activeDev : Device := linkDev { LPort.init with st := .active, txBlocks := 2 ^ 32 - 1000000, gap := true }
theorem wit_FabricLinks_active : (activeDev.fab.port (7 : Fin 8)).st = .active ∧ 2 ^ 32 ≤ (activeDev.fab.port (7 : Fin 8)).txBlocks + 1000000
    ∧ (activeDev.fab.port (7 : Fin 8)).gap = true ∧ ((link .active).fab.port (7 : Fin 8)).gap = false := by decide
/-- A PAD flit. -/
def flit (type seq : Nat) : Flit := flitBytes { FlitHead.idle with type := type, seq := seq } (zeros 112)
/-- A flit with one bit turned. -/
def badFlit : Flit := (flit 2 0).set 9 1
theorem wit_FabricLinks_flit : (flit 2 0).good = true ∧ (flit 2 0).head.type = 2 ∧ (flit 2 0).head.seq = ((link .active).fab.port (7 : Fin 8)).rxSeq
    ∧ (flit 2 4095).good = true ∧ (flit 2 4095).head.seq ≠ ((link .active).fab.port (7 : Fin 8)).rxSeq ∧ badFlit.good = false
    ∧ (flit 0 0).head.type ≠ 1 ∧ (flit 0 0).head.type ≠ 2 ∧ ((link .active).fab.port (7 : Fin 8)).rxKey = none := by decide +kernel
/-- CRC-64 of ECMA-182 from 0 of the bytes 1 to 9 in ASCII is 6C40DF5F0B497347. -/
theorem test_crc64 : crc64 (ascii "123456789") = 0x6C40DF5F0B497347 := by decide +kernel
theorem test_flit : (run (.flitReceive 7 (flit 2 0)) (link .active)).map (fun d => ((d.fab.port 7).rxSeq, (d.fab.port 7).gap)) = some (1, false)
    ∧ (run (.flitReceive 7 badFlit) (link .active)).map (fun d => ((d.fab.port 7).rxSeq, (d.fab.port 7).gap, d.out)) = some (0, true, [.retryReq 7 0]) := by
  decide +kernel
theorem wit_FabricLinks_time : let d := { link .active with tb := TimeBase.init }
    d.tb.started = false ∧ d.pwr.good = true ∧ d.portWaits = true ∧ d.fab.king = false ∧ (d.fab.port (7 : Fin 8)).st ≠ .off := by decide
def linkMsg (up : Nat) : FMsg := { FMsg.plain .linkState 0 0 with len := 2, arg := up, data := leBytes 8 5 ++ leBytes 8 6 ++ [1, 2] ++ zeros 14 }
theorem wit_FabricLinks_state : linksAfter (link .active).fab.links (linkMsg 1).linkOf true ≠ (link .active).fab.links
    ∧ (linkMsg 1).linkOf.flip ∉ (link .active).fab.links ∧ linksAfter (link .active).fab.links (linkMsg 0).linkOf false = (link .active).fab.links := by decide

def electDev (f : Fab) : Device := { dev0 with fab := { f with ports := (Fab.init.setPort 7 { LPort.init with st := .active }).ports } }
theorem wit_Membership_elect : let f := { Fab.init with st := .discovering, electing := true, candidate := 9 }
    f.st = .discovering ∧ better (dev0.dict.num 0x2100 2) 8 f.candidate = true ∧ better (dev0.dict.num 0x2100 2) 9 f.candidate = false := by decide
theorem wit_Membership_join : (electDev { Fab.init with king := true }).linkActive (7 : Fin 8) = true
    ∧ (electDev { Fab.init with king := true }).fab.king = true ∧ (electDev { Fab.init with parent := some 3 }).fab.parent = some 3 := by decide
def endFab (c : Nat) : Fab := { Fab.init with electing := true, stable := 64, candidate := c, parent := some 3 }
theorem wit_Membership_end : (endFab ownSerial).candidate = ownSerial ∧ (endFab (ownSerial + 1)).candidate ≠ ownSerial ∧ 64 ≤ (endFab 0).stable
    ∧ Fab.init.stable < 64 := by simp [endFab, Fab.init]
theorem wit_Membership_assign : let f := { Fab.init with king := true, electedAt := 4984 }
    f.king = true ∧ f.electing = false ∧ f.electedAt + 16 ≤ dev0.tn ∧ f.stableConfig = none ∧ f.pending = none := by decide
def cfg (members : List Member) : FabConfig := ⟨3, members, 1, 2, 6000, true, []⟩
theorem wit_Membership_config : let f := { Fab.init with st := .member, pending := some (cfg []) }
    f.king = false ∧ f.st ≠ .alone ∧ f.pending = some (cfg []) ∧ ({ f with pending := none } : Fab).newer (cfg []) = true ∧ f.newer (cfg []) = false ∧ ({ FMsg.plain .configAck 1 0 with arg := 3 } : FMsg).arg = (cfg []).gen % 2 ^ 16
    ∧ (cfg []).gen = ({ FMsg.plain .commit 1 0 with addr := 3 } : FMsg).addr % 2 ^ 32
    ∧ (cfg []).gen ≠ ({ FMsg.plain .commit 1 0 with addr := 4 } : FMsg).addr % 2 ^ 32 := by decide
/-- This device is member 3, alone in its part. -/
def partFab (c : FabConfig) : Fab := { Fab.init with id := some 3, stableConfig := some c, known := [⟨ownSerial, 3, true⟩] }
theorem part_partFab (c : FabConfig) : (partFab c).part = [3] := by
  simp [Fab.part, Fab.partSerials, partFab, Fab.init, reach, neighbours]
theorem wit_Membership_part : partPass (cfg [⟨ownSerial, 3, true⟩]) (partFab (cfg [⟨ownSerial, 3, true⟩])).part = true
    ∧ partPass (cfg [⟨ownSerial, 3, true⟩, ⟨1, 1, true⟩]) (partFab (cfg [⟨ownSerial, 3, true⟩, ⟨1, 1, true⟩])).part = false := by
  simp [part_partFab, partPass, partRule, cfg, FabConfig.activeIds]
theorem wit_Membership_release : let f := { Fab.init with king := true, known := [⟨5, 31, false⟩] }
    f.king = true ∧ (∃ m ∈ f.known, m.id = 31 ∧ m.active = false) ∧ ∀ m ∈ f.known, m.id = 30 → m.active = true := by decide
theorem wit_Membership_ids : ([⟨5, 31, false⟩, ⟨6, 0, true⟩] : List Member).map Member.id |>.Nodup := by decide

/-- A member of a fabric: ID 3, with device 4 in its part. -/
def memberDev : Device :=
  { dev0 with fab := { Fab.init with id := some 3, st := .member, known := [⟨ownSerial, 3, true⟩, ⟨ownSerial + 1, 4, true⟩],
                                     links := [⟨ownSerial, 0, ownSerial + 1, 0⟩] } }
theorem reach_grows (links : List FLink) : ∀ (n : Nat) (s : List Nat) (x : Nat), x ∈ s → x ∈ reach links n s := by
  intro n
  induction n with
  | zero => intro s x h; exact h
  | succ n ih => intro s x h; exact ih _ _ (List.mem_append_left _ h)
theorem memberDev_takes : memberDev.takesFrom 4 = true := by
  have h : ownSerial + 1 ∈ reach memberDev.fab.links 32 [ownSerial] := by
    refine reach_grows _ 31 _ _ ?_
    simp [memberDev, neighbours]
  have h' : (reach memberDev.fab.links 32 [ownSerial]).contains (ownSerial + 1) = true := by simpa using h
  have h2 : ∀ l : List Nat, l.contains (ownSerial + 1) = true →
      ((([⟨ownSerial, 3, true⟩, ⟨ownSerial + 1, 4, true⟩] : List Member).filter fun m : Member => l.contains m.serial).map Member.id).contains 4 = true := by
    intro l hl
    simp only [List.contains_iff_mem] at hl
    simp only [List.filter_cons, List.contains_iff_mem, hl]
    split <;> simp
  simpa [Device.takesFrom, Fab.part, Fab.partSerials, memberDev] using h2 _ h'
def toMe (t : MType) (a : Nat) (data : List Byte) : FMsg := { FMsg.plain t 4 3 with world := true, addr := 3 * 2 ^ 40 + a, len := 1, data := data }
theorem wit_RemoteAccess : memberDev.isOwn (FMsg.plain .wr 4 3).dst = true ∧ memberDev.isOwn (FMsg.plain .wr 4 5).dst = false := by decide
theorem wit_RemoteAccess_ok : (memberDev.takesFrom 4 && decide (0 < 16 * (toMe .rdReq 0xD0_0000_0000 []).len)
    && memberDev.remoteAllowed true false 0xD0_0000_0000 16) = true := by simp [memberDev_takes]; decide
theorem wit_RemoteAccess_refused : memberDev.remoteAllowed false false 0xD0_0000_0000 16 = false
    ∧ memberDev.remoteAllowed true true 0xD0_0080_0000 16 = false ∧ memberDev.remoteAllowed true true 0xD0_007F_FFF0 16 = true := by decide
def rtag (o : Origin) (orphan : Bool) (sent : Nat) : RTag := ⟨o, 4, 4 * 2 ^ 40, 16, 2, orphan, sent, 0, 0⟩
def tagDev (r : RTag) : Device := { memberDev with fab := { memberDev.fab with tags := [(8, r)] } }
def tagMsg (gen : Nat) : FMsg := { FMsg.plain .rdData 4 3 with tag := 8, gen := gen, data := zeros 16 }
theorem wit_RemoteAccess_tag : let d := tagDev (rtag (.bus .fwc 1) false 4936)
    d.fab.tag (tagMsg 2).tag = some (rtag (.bus .fwc 1) false 4936) ∧ (rtag (.bus .fwc 1) false 4936).gen = (tagMsg 2).gen
    ∧ (rtag (.bus .fwc 1) false 4936).dst = (tagMsg 2).src ∧ d.fab.stalled = [] ∧ (tagMsg 2).tag ≠ queryTag
    ∧ (rtag (.bus .fwc 1) false 4936).gen ≠ (tagMsg 1).gen ∧ (rtag (.bus .fwc 1) false 4936).sentTn + 64 ≤ d.tn
    ∧ d.tn < (rtag (.bus .fwc 1) false 4937).sentTn + 64 ∧ (rtag (.engine 2 9) false 0).instGen = (d.proc.inst (rtag (.engine 2 9) false 0).inst).gen
    ∧ (rtag (.bus .fwc 1) true 0).orphan = true := by decide
theorem test_rdData_late : (run (.rdData (tagMsg 1)) (tagDev (rtag (.bus .fwc 1) false 4936))).map (fun d => d.fab.late) = some 1 := by
  have h : (tagDev (rtag (.bus .fwc 1) false 4936)).takesFrom (tagMsg 1).src = true := memberDev_takes
  show some (((tagDev (rtag (.bus .fwc 1) false 4936)).rdData (tagMsg 1)).fab.late) = some 1
  simp only [Device.rdData, h, Bool.not_true, Bool.false_eq_true, if_false]; decide
def putDev (sent : Nat) : Device := { memberDev with fab := memberDev.fab.setPuts 4 ⟨6, [⟨5, 0, false, sent, 2⟩], 5, none⟩ }
theorem wit_RemoteAccess_put : ((putDev 4936).fab.putDst 4).unacked.find? (fun q => q.num == 5) = some ⟨5, 0, false, 4936, 2⟩
    ∧ (putDev 4936).fab.waiting = [] ∧ 4936 + 64 ≤ (putDev 4936).tn ∧ (putDev 4937).tn < 4937 + 64 ∧ (2 : Nat) ≠ noRing := by decide
theorem test_putLost : (run (.putLost 4 5) (putDev 4936)).map (fun d => ((d.fab.putDst 4).unacked.length, d.fab.badPutRings)) = some (0, [2]) := by decide
def tailDev : Device := { memberDev with rings := [(511, ring4 0 0)] }.setReg (tlBase + 0x2000 + 4 * 63) (511 + 4 * 2 ^ 10 + 2 ^ 15)
theorem wit_RemoteRings : tailDev.takesFrom 4 = true ∧ tailDev.bound 511 4 = true ∧ tailDev.bound 511 5 = false ∧ (tailDev.ring 511).enable = true
    ∧ 4 ≤ (tailDev.ring 511).free ∧ (tailDev.ring 511).free < 5 := by
  refine ⟨?_, by decide, by decide, by decide, by decide, by decide⟩
  exact memberDev_takes
theorem wit_RemoteRings_none : dev0.takesFrom 4 = false := by decide
def proxyDev (known : Bool) : Device := { memberDev with fab := { memberDev.fab with proxies := [⟨4, 9, known, .zero, .zero, 4, 16, 0⟩] } }
theorem wit_RemoteRings_proxy : (⟨4, 9, false, .zero, .zero, 4, 16, 0⟩ : Proxy) ∈ (proxyDev false).fab.proxies ∧ 9 = (3 * 2 ^ 40 + 9) % 512 := by decide
theorem test_headUpd : (run (.headUpd { FMsg.plain .headUpd 4 3 with addr := 9, data := leBytes 8 (2 + 3 * 2 ^ 32) }) (proxyDev true)).map
    (fun d => d.fab.proxies.map Proxy.head) = some [⟨2, false, 3⟩] := by
  have h : (proxyDev true).takesFrom 4 = true := memberDev_takes
  show some (((proxyDev true).headUpd { FMsg.plain .headUpd 4 3 with addr := 9, data := leBytes 8 (2 + 3 * 2 ^ 32) }).fab.proxies.map Proxy.head) = _
  simp only [Device.headUpd, Device.modProxy, FMsg.plain, h]; decide
theorem wit_RemoteRings_mgmt : memberDev.fab.id = some (FMsg.plain .mgmt 4 3).dst ∧ memberDev.fab.id ≠ some (FMsg.plain .mgmt 4 5).dst
    ∧ field ([1, 0] : List Byte) 0 2 = 1 ∧ field ([3, 0] : List Byte) 0 2 ≠ 1 ∧ field ([3, 0] : List Byte) 0 2 ≠ 2 := by decide

/-! ### Witnesses: the motion check engine, graphics and display -/

def brickDev (place : Nat) : Device :=
  { dev0 with rings := [(2, { ring4 0 1 with esize := 67, base := if place = 0 then 0xD0_0000_0000 else 0x80_0000_0000 })]
              moves := [(BlockId.mceCore.key, { MoveBlk.init with eff := [(mceBase + 0x70, 0x8000_0002)] })] }
theorem wit_MotionChecks_brick : (brickDev 0).bricksValid = true ∧ (brickDev 0).ringReg ((brickDev 0).mceSw 0x70) = some 2
    ∧ ((brickDev 0).ring 2).entrySize = 1088 ∧ (brickDev 0).mce.bricks.length < ((brickDev 0).ring 2).fill
    ∧ (brickDev 0).hubMay .hub true false 0xD0_0000_0000 1088 = true ∧ (brickDev 1).hubMay .hub true false 0x80_0000_0000 1088 = false := by decide
/-- A vehicle with one sphere, and a batch of one candidate that lives from TN 0 for 6,000 tempos. -/
def model1 : List Byte := [1, 0, 0, 1, 0] ++ zeros 95
def batch1 (life : Nat) : List Byte := withCrc ([7, 0, 0, 0, 1, 1] ++ leBytes 2 life ++ zeros 72)
def batchDev (life : Nat) : Device :=
  { dev0 with mce := { Mce.init with sel := some ⟨0xD0_0000_0000, 84, false, 4999⟩, model := some model1 } }.put 0xD0_0000_0000 (batch1 life)
theorem wit_MotionChecks_batch : (84 : Nat) ≤ 65536 ∧ (batchDev 6000).batchMay 0xD0_0000_0000 84 = true ∧ (batchDev 6000).mce.model = some model1
    ∧ batchCode model1 ((batchDev 6000).bytes 0xD0_0000_0000 84) 84 (batchDev 6000).tn (batchDev 6000).mce.planA = 0
    ∧ batchCode model1 ((batchDev 5000).bytes 0xD0_0000_0000 84) 84 (batchDev 5000).tn (batchDev 5000).mce.planA = 7 := by decide +kernel
theorem test_batchFetch : (run (.batchFetch false) (batchDev 6000)).map (fun d => (d.mce.taken.map fun b => batchSeq b.bytes, (d.noc.counter (mceBase + 0x160)).val))
    = some ([7], 1) := by decide +kernel
def verdictDev : Device := { dev0 with mce := { Mce.init with enable := true, out := some (.blank 5000 0 modeField), wave := some ⟨0, 0, 0, 4990, []⟩ } }
theorem wit_MotionChecks_record : verdictDev.mce.out = some (.blank 5000 0 modeField) ∧ verdictDev.mce.wave = some ⟨0, 0, 0, 4990, []⟩ := ⟨rfl, rfl⟩
theorem test_verdictRecord : (run (.verdictRecord false) verdictDev).map (fun d => (d.mce.out, d.arb.recs, d.fgw.verdict)) = some (none, [⟨false, 1⟩], none) := by
  decide
theorem wit_MotionChecks_wave : let d := { dev0 with mce := { Mce.init with enable := true, nofeas := 10000 } }
    d.mce.enable = true ∧ d.mce.wave = none ∧ d.mceSw 0x8C % 2 ^ 10 ≤ d.mce.nofeas := by decide
theorem wit_MotionChecks_early : let d := { dev0 with moves := [(BlockId.mceCore.key, { MoveBlk.init with eff := [(mceBase + 0x8C, 5)] })] }
    d.mce.nofeas < d.mceSw 0x8C % 2 ^ 10 := by decide
theorem wit_MotionChecks_ray : let d := { dev0 with mce := { Mce.init with rayDue := true, model := some model1, eff := some ⟨batch1 6000, false, 0, 0⟩,
                                                                             out := some (.blank 5000 0 modeRayPending) } }
    d.mce.rayDue = true ∧ d.liveBatch.isSome = true ∧ (Verdict.blank 5000 0 modeRayPending).mode = modeRayPending := by decide +kernel

/-- A pass of 64 × 64 pixels without attachments, its ring in the system SRAM and its command list in stack 0. -/
def passBytes (w : Nat) : List Byte := leBytes 2 w ++ leBytes 2 64 ++ [1, 0, 0, 0] ++ zeros 120
def passDev (w : Nat) : Device :=
  (({ dev0 with rings := [(2, { ring4 0 1 with esize := 7 })] }.setReg (gpxBase + 8) 0x8000_0002).setReg (iommuBase + 0x10) 3).put 0xD0_0000_0000 (passBytes w)
theorem wit_GraphicsDisplay_pass : (passDev 64).gfx.pass = none ∧ (passDev 64).ringReg ((passDev 64).reg (gpxBase + 8)) = some 2
    ∧ 1 ≤ ((passDev 64).ring 2).fill
    ∧ (Pass.ofBytes ((passDev 64).bytes 0xD0_0000_0000 128)).code ((passDev 64).reg (gpxBase + 0x28)) (passDev 64).passAddrOk = 0
    ∧ (Pass.ofBytes ((passDev 4097).bytes 0xD0_0000_0000 128)).code ((passDev 4097).reg (gpxBase + 0x28)) (passDev 4097).passAddrOk = 1
    ∧ (passDev 64).ringReg ((passDev 64).reg (gpxBase + 0xC)) = none := by decide +kernel
theorem test_renderPass : (run (.renderPass []) (passDev 4097)).map (fun d => (d.gfx.pass.isSome, (d.ring 2).head.index)) = some (false, 1) := by
  decide +kernel
theorem wit_GraphicsDisplay_complete : let d := { dev0 with gfx := { Gfx.init with pass := some (Pass.ofBytes (passBytes 64), 0) } }
    d.gfx.pass.isSome = true := rfl
def query1 (bad : Bool) : RtuQuery := RtuQuery.ofBytes (zeros 48 ++ [9, 0]) false bad []
theorem wit_GraphicsDisplay_query : let d := { dev0 with gfx := { Gfx.init with queries := [query1 true] } }
    d.gfx.queries.find? (fun q => q.tag == 9) = some (query1 true) := by decide
theorem test_rtuBad : (run (.rtuAnswer 9) { dev0 with gfx := { Gfx.init with queries := [query1 true] } }).map (fun d => (d.out, d.gfx.queries))
    = some ([.rtu 9 false negInf32], []) := by decide
/-- 1,920 × 1,080 in 2,200 × 1,125 at 148.5 MHz, 60 frames a second (R327, R328). -/
def pipeDev (clk : Nat) (x : Pipe) : Device :=
  (((((({ dev0 with gfx := Gfx.init.setPipe 1 x } : Device).setReg (pipeBase 1 + 0x20) 1920).setReg (pipeBase 1 + 0x24) 2200).setReg (pipeBase 1 + 0x28) 1080).setReg
    (pipeBase 1 + 0x2C) 1125).setReg (pipeBase 1 + 0x18) clk).setReg (pipeBase 1 + 8) 16667
theorem wit_GraphicsDisplay_pipe : (pipeDev 148500 Pipe.init).pipeTimingOk (1 : Fin 2) = true ∧ (pipeDev 148000 Pipe.init).pipeTimingOk (1 : Fin 2) = false
    ∧ ((pipeDev 148500 Pipe.init).gfx.pipe (1 : Fin 2)).enable = false := by decide
theorem wit_GraphicsDisplay_frame : let x := { Pipe.init with enable := true, frameTn := some 4990 }
    ((pipeDev 148500 x).gfx.pipe (1 : Fin 2)).enable = true ∧ ((pipeDev 148500 x).gfx.pipe (1 : Fin 2)).frameTn ≠ none ∧ ((2 : Fin 4)).val < 3
    ∧ ({ pipeDev 148500 x with moves := [(BlockId.pipe1.key, { MoveBlk.init with eff := [(pipeBase 1, 2 ^ 17)] })] } : Device).regionOn (1 : Fin 2) (15 : Fin 16) = true
    ∧ ((15 : Fin 16)).val ∉ ((pipeDev 148500 x).gfx.pipe (1 : Fin 2)).reported := by decide

/-! ### Witnesses: worlds and instances -/

def castleReq (u : Nat) : CastleReq := ⟨u, true, 0, 0, 0, 0, true⟩
theorem wit_WorldCommands : dev0.castleReason (castleReq 0xFF) = 0 ∧ dev0.castleReason (castleReq 0x38) = 1 := by decide
def castlingDev (u : Nat) : Device := { dev0 with proc := { Proc.init with castlings := [(u, ⟨true, 0, 0, 0, 0, true, false⟩)] } }.put (sramBase + 0x7F_0000 - 1) [1, 2]
theorem wit_WorldCommands_quiesce : ((castlingDev 0xFF).proc.castling 0xFF).map Castling.resetDone = some false
    ∧ ((castlingDev 0x20).proc.castling 0x20).map Castling.resetDone = some false := by decide
theorem test_quiesceDone : (run (.quiesceDone 0xFF) (castlingDev 0xFF)).map (fun d => (d.byte (sramBase + 0x7F_0000), d.byte (sramBase + 0x7F_0000 - 1))) = some (0, 1) := by
  decide
theorem wit_WorldCommands_inval : dev0.proc.invalBusy = none ∧ ({ dev0.proc with invalBusy := some ⟨0, 0⟩ } : Proc).invalBusy ≠ none
    ∧ ({ dev0.proc with invalBusy := some ⟨0, 0⟩, invalHeld := [⟨1, 0⟩] } : Proc).invalHeld = [⟨1, 0⟩] := by decide
def instDev (x : Inst) : Device := { dev0 with proc := Proc.init.setInst 31 x }
def liveInst : Inst := { Inst.init with active := true, binding := .pcie, gen := 255 }
theorem wit_Instances : (31 : Fin 32).val ≠ 0 ∧ ((dev0.proc.inst (31 : Fin 32))).active = false ∧ (5 : Word) ≠ 0 ∧ (5 : Word).toNat % 4 ≠ 3 ∧ bits (5 : Word).toNat 7 3 = 0
    ∧ ((instDev liveInst).proc.inst (31 : Fin 32)).active = true ∧ ((instDev liveInst).proc.inst (31 : Fin 32)).resetting = false
    ∧ ((instDev { liveInst with resetting := true, deleting := true }).proc.inst (31 : Fin 32)).resetting = true := by decide
/-- An instance with nothing to drain is reset at once, with the next generation modulo 256 (R355). -/
theorem test_instanceReset : (run (.instanceReset 31) (instDev liveInst)).map (fun d => ((d.proc.inst 31).resetting, (d.proc.inst 31).gen)) = some (false, 0) := by
  decide +kernel
theorem wit_Instances_flr : dev0.proc.endpoint = true ∧ ((instDev liveInst).proc.inst (31 : Fin 32)).binding = .pcie
    ∧ ((instDev { liveInst with binding := .ofCode 1 }).proc.inst (31 : Fin 32)).binding ≠ .pcie := by decide
def viewDev : Device := { instDev liveInst with rings := [(511, { ring4 1 3 with inst := 31 })] }
theorem wit_Instances_view : viewDev.viewServes (31 : Fin 32) 511 = true ∧ viewDev.viewServes (30 : Fin 32) 511 = false ∧ viewDev.viewServes (31 : Fin 32) 512 = false
    ∧ 2 % 2 ^ 24 ≤ (viewDev.ring 511).free ∧ (viewDev.ring 511).free < 3 % 2 ^ 24 ∧ 2 % 2 ^ 24 ≤ (viewDev.ring 511).fill ∧ (viewDev.ring 511).fill < 3 % 2 ^ 24
    ∧ viewDev.fab.headDue = [] := by decide
theorem test_doorbell : (run (.doorbell 31 511 2) viewDev).map (fun d => (d.ring 511).tail) = some ⟨1, true, 2⟩
    ∧ (run (.doorbell 31 511 3) viewDev).map (fun d => ((d.ring 511).tail.index, (d.proc.inst 31).dbErr)) = some (3, true) := by decide
theorem wit_EmulationMailbox : ((instDev liveInst).proc.inst (31 : Fin 32)).emuWrites.length < 32 ∧ ((instDev liveInst).proc.inst (31 : Fin 32)).emuHeld = []
    ∧ 32 ≤ ((instDev { liveInst with emuWrites := List.replicate 32 (4, 1), emuHeld := [(8, 2)], emuReads := [⟨12, 0, none⟩, ⟨16, 1, some (.pcie, 3)⟩] }).proc.inst
      (31 : Fin 32)).emuWrites.length := by decide
theorem wit_EmulationMailbox_mbox : ((instDev { liveInst with mboxBusy := true }).proc.inst (31 : Fin 32)).mboxBusy = true
    ∧ ((instDev { liveInst with answer := some ⟨[1, 2, 3, 4], 0, []⟩ }).proc.inst (31 : Fin 32)).answer = some ⟨[1, 2, 3, 4], 0, []⟩ := by decide
/-- A write that starts past offset 0, and a first part. -/
theorem wit_EmulationMailbox_parts :
    (((PartReq.ofBytes ([2] ++ zeros 7 ++ [1] ++ zeros 7) mboxMax).take ((instDev liveInst).proc.inst (31 : Fin 32)).staged).2.2.isNone
      && ((PartReq.ofBytes ([2] ++ zeros 6 ++ [1] ++ zeros 8) mboxMax).take ((instDev liveInst).proc.inst (31 : Fin 32)).staged).2.2.isNone) = true := by decide
theorem test_mailboxResponse : (run (.mailboxResponse 31) (instDev { liveInst with mboxBusy := true, answer := some ⟨[1, 2, 3, 4], abState, []⟩ })).map
    (fun d => (d.nat (instPage 31 + 0x1804) 4, (d.proc.inst 31).mboxBusy, (d.proc.inst 31).mboxDone)) = some (abState, false, true) := by decide
/-- A masked vector waits as a pending bit; unmasked it is sent. -/
theorem test_msix : (run (.mailboxResponse 31) (instDev { liveInst with mboxBusy := true, answer := some ⟨[1, 2, 3, 4], 0, []⟩ })).map
    (fun d => (d.msixOpen 31 1, (d.proc.inst 31).msixPending, ((d.msixWrite 31 1 0).proc.inst 31).msixPending,
      (d.msixWrite 31 1 0).msixOpen 31 1)) = some (false, [1], [], true) := by decide
def call (write : Bool) (index sub : Nat) : DictReq := ⟨write, index, sub, []⟩
theorem wit_FirmwareCall : dev0.writeCheck (DPath.plain true) (call true 0x0FFF 0).index 0 [] ≠ 0 ∧ dev0.readCheck (DPath.plain true) (call false 0x0FFF 0).index 0 ≠ 0
    ∧ dev0.readCheck (DPath.plain true) 0x4003 1 = 0 := by decide

/-! ### Witnesses: the field gateway -/

/-- A rule that takes every frame with an action. -/
def anyRule (a : RuleAct) (arg : Nat) : Rule := ⟨1, none, 0, 0, 0, 0, 0, 0, a, arg, 0, 0⟩
/-- Port 3 is a CAN FD port with node 20 of serial 0x55 in entry 7. -/
def node7 : Node := { Node.init with serial := 0x55, vendor := 9, version := 0x21, st := .active, port := 3, number := 20, keySlot := some 4 }
def fieldGw (st : FPortSt) (n : Node) (rs : List Rule) : Gateway :=
  { (Gateway.init.setPort 3 { FPort.init with st := st }).setNode 7 n with rules := rs }
def fieldDev (st : FPortSt) (n : Node) (rs : List Rule) : Device := { dev0 with fgw := fieldGw st n rs }
def frame (func dst : Nat) (payload : List Byte) : CFrame := ⟨3, .fd, func, dst, 20, payload, true, 0⟩
def fRead : CFrame := frame fnXferReq 0 [1, 3, 0x40, 1]
def delivers : List Rule := [anyRule .deliver 0]
def fdev : Device := fieldDev .active node7 delivers
/-- What a frame's way in answers: whether it is delivered. -/
def inOk (d : Device) (f : CFrame) : Bool := (d.ingress f).2

theorem wit_FieldIngress_rows : (fieldRows fRead).any (fun r => r.1 == fnXferReq && r.2 == .xferRead fRead) = true := by decide
theorem wit_FieldIngress_off : ((fieldDev .off node7 []).fgw.port fRead.port).st = .off ∧ ((fieldDev .busOff node7 []).fgw.port fRead.port).st = .busOff
    ∧ fdev.portShut fRead.port = false := by decide
theorem wit_FieldIngress_fits : fdev.frameFits fRead = true ∧ fdev.frameFits (frame fnEmcy 0 [1]) = false ∧ fdev.nodeOf fRead = some 7
    ∧ (fdev.fgw.node 7).rate = 0 ∧ firstRule fdev.fgw.rules fRead = some (anyRule .deliver 0) ∧ firstRule [] fRead = none := by decide
theorem wit_FieldIngress_tokens : (({ node7 with rate := 2, tokens := 1 } : Node).rate ≠ 0 ∧ 0 < ({ node7 with rate := 2, tokens := 1 } : Node).tokens)
    ∧ fRead.func ≠ fnHeartbeat ∧ (anyRule .deliver 0).act ≠ .drop ∧ inOk (fieldDev .alone { node7 with rate := 2, tokens := 1 } delivers) fRead = true
    ∧ inOk (fieldDev .alone { node7 with rate := 2, tokens := 0 } delivers) fRead = false := by decide
theorem wit_FieldIngress_forward : (portMedium 0 (FPort.init).canMode).limit = 60 ∧ fRead.payload.length ≤ 60
    ∧ ((fieldDev .active node7 [anyRule .forward 3]).fgw.port (anyRule .forward 3).arg).st = .active
    ∧ (portMedium 0 0).limit < (frame fnXferReq 0 (zeros 5)).payload.length := by decide
/-- What left the device beside stamps. -/
def sent (d : Device) : List Note := d.out.filter fun n => match n with | .stamp _ _ => false | _ => true
theorem test_forward : (run (.xferRead fRead) (fieldDev .active node7 [anyRule .forward 3])).map sent = some [.frame 3 fRead] := by decide
theorem test_drop : (run (.xferRead fRead) (fieldDev .active node7 [anyRule .drop 0])).map (fun d => (sent d, (d.noc.counter fgwRuleDrops).val)) = some ([], 1) := by
  decide

def joinFrame (src serial vendor vmin vmax : Nat) : CFrame :=
  { frame fnJoinReq 0 (leBytes 4 serial ++ leBytes 2 vendor ++ leBytes 1 vmin ++ leBytes 1 vmax) with src := src }
theorem wit_NodeTable_join : inOk fdev (joinFrame 5 0x66 9 0x10 0x20) = true ∧ chooseVersion 0x10 0x20 .fd = some 0x20 ∧ chooseVersion 0x22 0x30 .fd = none
    ∧ fdev.serialTaken 3 0x55 8 = true ∧ fdev.serialTaken 3 0x55 9 = false ∧ fdev.fgw.findSerial 3 0x55 9 = some 7 ∧ (fdev.fgw.node 7).st ≠ .removed
    ∧ fdev.fgw.findSerial 3 0x66 9 = none ∧ fdev.fgw.freeEntry = some 0 ∧ fdev.fgw.find 3 5 = none ∧ fdev.fgw.find 3 20 = some 7 ∧ fdev.fgw.freeNumber 3 = some 1 := by
  decide +kernel
theorem wit_NodeTable_norule : inOk (fieldDev .active node7 []) (joinFrame 5 0x66 9 0x10 0x20) = false
    ∧ (fieldDev .active node7 []).frameFits (joinFrame 5 0x66 9 0x10 0x20) = true := by decide
/-- A number in use is replaced by the lowest free one (R366). -/
theorem test_join : (run (.joinReq (joinFrame 20 0x66 9 0x10 0x20)) fdev).map (fun d => ((d.fgw.node 0).number, (d.fgw.node 0).version, (d.fgw.node 0).serial))
    = some (1, 0x20, 0x66) := by decide +kernel
theorem wit_NodeTable_beat : inOk (fieldDev .active { node7 with st := .lost } delivers) (frame fnHeartbeat 0 (zeros 5)) = true
    ∧ (fieldDev .active { node7 with st := .lost } delivers).nodeOf (frame fnHeartbeat 0 (zeros 5)) = some 7 := by decide
theorem wit_NodeTable_lost : let d := fieldDev .active { node7 with lastHb := 2000000 } []
    (d.fgw.node 7).st = .active ∧ (d.fgw.node 7).lastHb + 3 * d.hbTempos 7 * 1000 ≤ d.tb.dt
    ∧ d.tb.dt < 2000001 + 3 * d.hbTempos 7 * 1000 := by decide
theorem wit_NodeTable_emcy : inOk fdev (frame fnEmcy 0 (zeros 8)) = true ∧ fdev.nodeOf (frame fnEmcy 0 (zeros 8)) = some 7 ∧ (fdev.fgw.node 7).emcyTn = none
    ∧ fdev.tn < 1 + 10000 := by decide
theorem wit_NodeTable_error : let d := fieldDev .active { node7 with st := .lost } []
    d.dict.errSample = 0 ∧ d.errorReg ≠ 0 ∧ (d.fgw.port 3).st = .active ∧ d.portShut 3 = false := by decide
theorem wit_NodeTable_remove : ({ fdev with fgw := { fdev.fgw with selected := 7 } } : Device).fgw.selected = 7 ∧ (fdev.fgw.node 7).st ≠ .free
    ∧ (fdev.fgw.node fdev.fgw.selected).st = .free := by decide

/-- Map 2: DIR, AUTH, entry 7, two bytes, time-out 3, buffer in the system SRAM. -/
def mapRec (dir auth : Nat) : List Byte :=
  [BitVec.ofNat 8 dir, BitVec.ofNat 8 auth] ++ leBytes 2 7 ++ leBytes 2 2 ++ leBytes 2 3 ++ leBytes 8 0xD0_0000_0100 ++ zeros 8
def mapDev (dir auth : Nat) (m : MapRun) : Device :=
  let g := (fdev.fgw.setMap 2 m).setGroup 1 { FGroup.init with enable := true }
  { fdev with dict := Dict.init.setVal 0x7402 1 (mapRec dir auth), fgw := g.setPort 3 { FPort.init with st := .active, group := 1, member := true } }
def mapFrame (func fr : Nat) (ok : Bool) : CFrame := { frame func 2 ([8, 9] ++ if fr = 0 then [] else leBytes 4 fr ++ zeros 4) with authentic := ok }
theorem wit_Maps_used : ((mapDev 2 0 .init).mapCfg 2).map (mapDev 2 0 .init).mapUsed = some true
    ∧ ((mapDev 2 0 .init).mapCfg 2).map fdev.mapUsed = some false := by decide
theorem wit_Maps : inOk (mapDev 2 0 .init) (mapFrame fnRxmap 0 true) = true ∧ ((mapDev 2 0 .init).mapCfg 2).map (fun c => (c.dir, c.auth, c.node, c.len, c.timeout))
    = some (.rx, false, 7, 2, 3) ∧ (mapFrame fnRxmap 0 true).payload.length = 2 ∧ (mapFrame fnRxmap 1 true).payload.length = 2 + 8 := by decide
theorem wit_Maps_auth : inOk (mapDev 5 0 { MapRun.init with fRx := 41 }) (mapFrame fnSafety 1041 true) = true
    ∧ ((mapDev 5 0 .init).mapCfg 2).map MapCfg.dir = some .safetyIn ∧ (mapFrame fnSafety 1041 true).authentic = true ∧ (fdev.fgw.node 7).keySlot ≠ none
    ∧ field (mapFrame fnSafety 1041 true).payload 2 4 = 1041 ∧ 41 < 1041 ∧ 1041 ≤ 41 + 1000 ∧ 41 + 1000 < field (mapFrame fnSafety 1042 true).payload 2 4 := by
  decide
def gotMap (d : Device) : Option (List Byte) × Nat × Nat := ((d.fgw.map 2).got, (d.fgw.map 2).fRx, (d.fgw.node 7).authFail)
/-- A freshness of 1,000 above the last is taken, one of 1,001 above it is not (R377). -/
theorem test_safety : (run (.safety (mapFrame fnSafety 1041 true)) (mapDev 5 0 { MapRun.init with fRx := 41 })).map gotMap = some (some [8, 9], 1041, 0)
    ∧ (run (.safety (mapFrame fnSafety 1042 true)) (mapDev 5 0 { MapRun.init with fRx := 41 })).map gotMap = some (none, 41, 1) := by decide
theorem wit_Maps_silent : let d := mapDev 2 0 { MapRun.init with silent := 3 }
    ((d.mapCfg 2).map fun c => (c.dir, decide (0 < c.timeout), decide (c.timeout ≤ (d.fgw.map 2).silent))) = some (.rx, true, true) ∧ (d.fgw.map 2).stale = false
    ∧ d.hubMay Port.fgw.group true true (0xD0_0000_0100 + 8) 8 = true := by decide
theorem wit_Maps_expire : let q : QFrame := ⟨2, 4990, fRead⟩
    let d := { dev0 with fgw := Gateway.init.setPort 31 { FPort.init with queue := [q, ⟨5, 5000, fRead⟩] } }
    q ∈ (d.fgw.port 31).queue ∧ q.map = 2 ∧ q.checkTn + d.fgwFresh ≤ d.tn := by decide

def fpDev (p : Nat) (x : FPort) : Device := { dev0 with fgw := Gateway.init.setPort p x, tb := { dev0.tb with dt := 200000000 } }
theorem wit_FieldPorts : ((fpDev 15 { FPort.init with st := .active }).fgw.port 15).st = .active ∧ ((fpDev 15 { FPort.init with st := .alone }).fgw.port 15).st = .alone
    ∧ ((fpDev 15 { FPort.init with st := .alone }).fgw.port 15).probeTn + 100000 ≤ (fpDev 15 .init).tn ∧ (fpDev 15 .init).tn < 100001 + 100000
    ∧ ((fpDev 15 { FPort.init with st := .busOff }).fgw.port 15).st = .busOff := by decide
theorem wit_FieldPorts_gates : ((fpDev 30 { FPort.init with gatesPending := some ⟨7, 10, []⟩ }).fgw.port 30).gatesPending = some ⟨7, 10, []⟩ ∧ (7 : Nat) ≤ 7 ∧ (6 : Nat) < 7
    ∧ ((fpDev 30 .init).fgw.port 30).gatesPending = none := by decide
def ether (port dst src n : Nat) : EtherFrame := ⟨port, dst, src, 1, 0, zeros n⟩
theorem wit_FieldPorts_ether : (ether 35 2 4 2000).bytes.length ≤ 2000 ∧ 2000 < (ether 35 2 4 2001).bytes.length ∧ 24 ≤ (ether 35 2 4 1).port ∧ (ether 35 2 4 1).port < 36
    ∧ bitOf (2 ^ 40) 40 = true ∧ bitOf 2 40 = false
    ∧ ((Gateway.init.learn (ether 35 2 4 1)).macs.find? fun m => m.1 == 2 && m.2.1 == 1) = none
    ∧ (({ Gateway.init with macs := [(2, 1, 24)] } : Gateway).learn (ether 35 2 4 1)).macs.find? (fun m => m.1 == 2 && m.2.1 == 1) = some (2, 1, 24)
    ∧ (Gateway.init.learn (ether 35 4 4 1)).macs.find? (fun m => m.1 == 4 && m.2.1 == 1) = some (4, 1, 35) := by decide +kernel
theorem test_ether : (run (.ethernetFrame (ether 35 2 4 1)) { dev0 with fgw := { Gateway.init with macs := [(2, 1, 24)] } }).map sent
    = some [.ether [24] [0]] := by decide
def ruleRec (act : Nat) : List Byte := [0xFF, 0, 0, BitVec.ofNat 8 act] ++ zeros 12
theorem wit_FieldPorts_rule : (ruleRec 1).length = 16 ∧ (Rule.ofBytes (ruleRec 1) 0 0).isSome = true ∧ Rule.ofBytes (ruleRec 4) 0 0 = none ∧ (zeros 15).length ≠ 16
    ∧ Gateway.init.rulesOpen.length < 8192 ∧ ([anyRule .drop 0].any fun r => r.handle == 1) = true ∧ ([anyRule .drop 0].any fun r => r.handle == 2) = false := by
  decide
def fullRules : Gateway := { Gateway.init with rulesOpen := List.replicate 8192 (anyRule .drop 0) }
theorem wit_FieldPorts_full : 8192 ≤ fullRules.rulesOpen.length := Nat.le_of_eq List.length_replicate.symm

def xferTo (h : Nat) (ix sub : Nat) (data : List Byte) : CFrame := frame fnXferReq 0 (leBytes 1 h ++ leBytes 2 ix ++ leBytes 1 sub ++ data)
theorem wit_Transfers : inOk fdev (xferTo 1 0x4003 1 []) = true ∧ fdev.nodeOf (xferTo 1 0x4003 1 []) = some 7 ∧ bitOf (16 + 1) 4 = true ∧ bitOf 1 4 = false
    ∧ fdev.openXfer 7 = none ∧ fdev.readCheck (fieldPath false) 0x4003 1 = 0 ∧ (fdev.dictVal 0x4003 1).length ≤ fdev.xferLimit 7 false
    ∧ fdev.readCheck (fieldPath false) 0x0FFF 0 ≠ 0 := by decide
theorem wit_Transfers_long : let d := { fdev with fgw := fdev.fgw.setPort 3 { FPort.init with st := .active, canMode := 0 } }
    d.readCheck (fieldPath false) 0x2020 1 = 0 ∧ d.xferLimit 7 false < (d.dictVal 0x2020 1).length := by decide
theorem test_read : (run (.xferRead (xferTo 1 0x4003 1 [])) fdev).map (fun d => (sent d).map fun
    | .frame p f => (p, f.func, f.dst, f.payload)
    | _ => (0, 0, 0, [])) = some [(3, fnXferRsp, 20, [1, 3, 0x40, 1, 107, 0])] := by decide
theorem wit_Transfers_init : (leBytes 4 (2 ^ 24)).length = 4 ∧ leNat (leBytes 4 (2 ^ 24)) ≤ 2 ^ 24 ∧ 2 ^ 24 < leNat (leBytes 4 (2 ^ 24 + 1)) := by decide
def xfer (write toggle : Bool) (data : List Byte) (pos : Nat) : Xfer := ⟨3, 20, 0x4003, 1, write, 200, data, pos, toggle, 4000, false⟩
def xferDev (x : Xfer) : Device := { fdev with fgw := { fdev.fgw with xfers := [x] } }
theorem wit_Transfers_open : (xferDev (xfer true false [] 0)).openXfer 7 = some (xfer true false [] 0) ∧ inOk (xferDev (xfer true false [] 0)) (xferTo 4 0 0 [1]) = true
    ∧ (xfer true false [] 0).toggle = bitOf 4 3 ∧ (xfer true false [] 0).toggle ≠ bitOf (4 + 8) 3 ∧ ([] ++ [(1 : Byte)]).length < (xfer true false [] 0).size
    ∧ (zeros 199 ++ [(1 : Byte)]).length = (xfer true false [] 0).size ∧ (xfer true false [] 0).size < (zeros 200 ++ [(1 : Byte)]).length
    ∧ (xfer false false (zeros 200) 140).size ≤ 140 + fdev.xferLimit 7 false ∧ 139 + fdev.xferLimit 7 false < (xfer false false (zeros 200) 139).size
    ∧ fdev.clientOf 7 = none := by decide +kernel
theorem test_segment_toggle : (run (.xferSegment (xferTo (4 + 8) 0 0 [1])) (xferDev (xfer true false [] 0))).map (fun d => d.fgw.xfers) = some [] := by decide
def cx (write : Bool) (t : Nat) : ClientXfer := ⟨3, 20, 0x4003, 1, write, [], 0, 0, false, t⟩
def clientDev (write : Bool) : Device := { fdev with fgw := { fdev.fgw with clients := [cx write 0] }, tb := { fdev.tb with dt := 100000000 } }
def rsp (cmd : Nat) : CFrame := frame fnXferRsp 0 ([BitVec.ofNat 8 cmd, 3, 0x40, 1, 5, 0])
theorem wit_Transfers_client : (clientDev false).clientOf 7 = some (cx false 0) ∧ inOk (clientDev false) (rsp cmdRead) = true ∧ (rsp cmdRead).dst = 0
    ∧ bitOf cmdRead 4 = false ∧ cmdRead % 8 = cmdRead ∧ cmdAbort % 8 = cmdAbort ∧ (clientDev true).clientOf 7 = some (cx true 0) := by decide
theorem wit_Transfers_timeout : (clientDev false).fgw.find 3 20 = some 7 ∧ (cx false 0).lastTn + 100000 ≤ (clientDev false).tn
    ∧ (clientDev false).tn < (cx false 1).lastTn + 100000 := by decide

/-! ### Witnesses: profiles -/

theorem take_pad_length (n : Nat) (x : List Byte) : ((x ++ zeros n).take n).length = n := by
  simp [zeros]
/-- An image of no records, of slot 2, signed by the device. -/
def emptyBody : List Byte :=
  leBytes 4 0x4652_505A ++ leBytes 2 1 ++ leBytes 1 2 ++ leBytes 1 0x10 ++ zeros 8 ++ sha48 []
def emptyImage : List Byte := emptyBody ++ deviceTrailer emptyBody
theorem emptyBody_length : emptyBody.length = 64 := by
  simp only [emptyBody, sha48, List.length_append, take_pad_length]; rfl
theorem emptyImage_length : emptyImage.length = 64 + 3405 := by
  rw [emptyImage, List.length_append, emptyBody_length, deviceTrailer, take_pad_length]
theorem emptyImage_drop : emptyImage.drop 64 = deviceTrailer emptyBody := by
  rw [emptyImage, ← emptyBody_length, List.drop_left]
theorem emptyImage_take : emptyImage.take 64 = emptyBody := by
  rw [emptyImage, ← emptyBody_length, List.take_left]
/-- A field of the header of the image. -/
theorem emptyImage_field (o n : Nat) (h : o + n ≤ 16) :
    field emptyImage o n = field (leBytes 4 0x4652_505A ++ leBytes 2 1 ++ leBytes 1 2 ++ leBytes 1 0x10 ++ zeros 8) o n := by
  unfold field emptyImage emptyBody
  rw [List.append_assoc, List.drop_append_of_le_length (by simp [zeros, leBytes]; omega), List.take_append_of_le_length]
  simp [zeros, leBytes]; omega
theorem emptyImage_signed (d : Device) : d.imageSigned emptyImage = true := by
  simp [Device.imageSigned, imageSigner, emptyImage_field, emptyImage_length, emptyImage_drop, emptyImage_take]
  exact Or.inl (by decide)
theorem emptyImage_records : imageRecords emptyImage = some [] := by
  have h : ¬(emptyImage.length < 64 + 3405 ∨ 2 ^ 20 < emptyImage.length ∨ field emptyImage 0 4 ≠ 0x4652_505A ∨ field emptyImage 4 2 ≠ 1
      ∨ 3 < field emptyImage 6 1) := by
    rw [emptyImage_length, emptyImage_field 0 4 (by decide), emptyImage_field 4 2 (by decide), emptyImage_field 6 1 (by decide)]; decide
  have h8 : field emptyImage 8 4 = 0 := by rw [emptyImage_field 8 4 (by decide)]; decide
  have hn : (emptyImage.drop 64).take (emptyImage.length - 64 - 3405) = [] := by rw [emptyImage_length]; rfl
  rw [imageRecords, if_neg h, h8, hn]; rfl
theorem emptyImage_reason (d : Device) (h : d.sec.step = 0) : d.imageReason emptyImage = 0 := by
  have h0 : emptyImage.isEmpty = false := by
    rw [List.isEmpty_eq_false_iff, ← List.length_pos_iff, emptyImage_length]; decide
  have hs : imageStep emptyImage = 0 := by rw [imageStep, emptyImage_field 12 2 (by decide)]; decide
  have hd : (emptyImage.drop 16).take 48 = sha48 [] := by
    have : emptyImage = (leBytes 4 0x4652_505A ++ leBytes 2 1 ++ leBytes 1 2 ++ leBytes 1 0x10 ++ zeros 8) ++ (sha48 [] ++ deviceTrailer emptyBody) := by
      simp [emptyImage, emptyBody]
    rw [this, List.drop_left' (by rfl), List.take_left' (by rw [sha48, take_pad_length])]
  simp only [Device.imageReason, h0, emptyImage_signed, hs, h, emptyImage_records, hd, Bool.false_eq_true, if_false, Bool.not_true, Nat.lt_irrefl]
  simp [safetyPart, recBytes]; decide
/-- The device with that image in the selected slot. -/
def profDev (d : Dict) : Device :=
  { dev0 with dict := { d with slots := tput slotImgDef [] 2 emptyImage, profileSel := 2 } }
theorem profDev_slot (d : Dict) : (profDev d).dict.slot 2 = emptyImage := tget_tput_same slotImgDef [] 2 emptyImage
theorem wit_Profiles_load : (profDev .init).imageReason ((profDev .init).dict.slot (profDev .init).dict.profileSel) = 0
    ∧ (profDev .init).dict.slotRecords (profDev .init).dict.profileSel = some [] ∧ (profDev .init).pwr.profileTried = false ∧ 2 ≤ (profDev .init).pwr.bringUp := by
  refine ⟨?_, ?_, rfl, by decide⟩
  · exact (congrArg _ (profDev_slot .init)).trans (emptyImage_reason _ rfl)
  · exact (congrArg imageRecords (profDev_slot .init)).trans emptyImage_records
theorem sameSafety_default : dev0.sameSafety [] = true := by decide +kernel
theorem wit_Profiles_switch : (profDev { Dict.init with switchTo := some 2, switchSt := .verifying }).switchReason 2 = 0 := by
  have h := profDev_slot { Dict.init with switchTo := some 2, switchSt := .verifying }
  have hs : (profDev { Dict.init with switchTo := some 2, switchSt := .verifying }).sameSafety [] = true := sameSafety_default
  simp only [Device.switchReason, Dict.slotRecords, h, emptyImage_reason _ (show (profDev _).sec.step = 0 from rfl), emptyImage_records, hs]
  rfl
theorem wit_Profiles : dev0.dict.store = none ∧ dev0.dict.switchTo ≠ some 3 ∧ dev0.dict.active ≠ some 3 ∧ dev0.switchReason 3 = 1
    ∧ dev0.imageReason [] ≠ 0 ∧ dev0.imageReason (dev0.dict.slot 0) ≠ 0 ∧ emptyImage.length ≤ 2 ^ 20 := by
  refine ⟨rfl, by decide, by decide, by decide, by decide, by decide, ?_⟩
  rw [emptyImage_length]; decide
theorem wit_Profiles_long : 2 ^ 20 < (List.replicate (2 ^ 20 + 1) (0 : Byte)).length := by rw [List.length_replicate]; exact Nat.lt_succ_self _
theorem wit_Profiles_store : ({ Dict.init with store := some ⟨3, []⟩ } : Dict).store = some ⟨3, []⟩ := rfl
theorem test_profileSwitch : (run (.profileSwitch 4) dev0).map (fun d => (d.dict.switchTo, d.out)) = some (none, [.dict abRange []])
    ∧ (run (.profileSwitch 3) dev0).map (fun d => (d.dict.switchTo, d.dict.switchSt)) = some (some 3, .verifying) := by decide

/-! ### Witnesses: the root of trust -/

def secDev (x : Sec) : Device := { dev0 with sec := x }
def secReq (secure : Bool) (arg : Nat) : SecReq := ⟨secure, arg, zeros 48, goodSig⟩
theorem wit_SecCommands : dev0.secLive = true ∧ (secDev { Sec.init with boot := 0xE1 }).secLive = false ∧ dev0.sec.signed goodSig = true
    ∧ dev0.sec.signed { goodSig with owner := 1 } = false ∧ goodSig.otpOk = true ∧ bitOf dev0.sec.owners 1 = false ∧ dev0.sec.lifecycle = .owned
    ∧ (secReq true 1).bytes.length = 48 := by decide
theorem wit_SecCommands_revoke : let x := { Sec.init with owners := 3 }
    x.signed goodSig = true ∧ goodSig.owner ≠ 1 ∧ bitOf x.owners 1 = true ∧ bitOf x.revoked 1 = false ∧ goodSig.owner = 0 := by decide
theorem wit_SecCommands_step : Sec.init.step < 64 ∧ (0 : Nat) ≤ Sec.init.step ∧ Lifecycle.ofCode 3 = some .fieldReturn ∧ Sec.init.lifecycle.canGo .fieldReturn = true
    ∧ Sec.init.lifecycleSigned goodSig = true ∧ Sec.init.lifecycleSigned { goodSig with good := false } = false ∧ Sec.init.lifecycle.canGo .blank = false := by decide
theorem wit_SecCommands_key : dev0.sec.entropyErr = false ∧ dev0.sec.entropyStalled = false ∧ dev0.slotNamed 15 = false
    ∧ ({ Sec.init with entropyErr := true, entropyStalled := true } : Sec).entropyErr = true := by decide
theorem wit_SecCommands_named : let d := { dev0 with moves := [(BlockId.rgnHs0.key, { MoveBlk.init with eff := [(rgnBase 0 + 0x10, 1 + 15 * 2 ^ 16)] })] }
    d.slotNamed 15 = true := by decide +kernel
theorem wit_SecCommands_entropy : Sec.init.entropyFails < 2 ∧ 2 ≤ ({ Sec.init with entropyFails := 2 } : Sec).entropyFails ∧ (zeros 48).length = 48
    ∧ (zeros 47).length ≠ 48 := by decide
theorem test_ownerAdd : (run (.ownerAdd (secReq true 1)) dev0).map (fun d => (d.sec.owners, d.out)) = some (3, [.sec secDone])
    ∧ (run (.ownerAdd { secReq true 1 with sig := { goodSig with good := false } }) dev0).map (fun d => (d.sec.owners, d.out)) = some (1, [.sec secSignature]) := by
  decide
theorem test_rollback : (run (.rollbackAdvance (secReq true 64)) dev0).map (fun d => d.sec.step) = some 64
    ∧ (run (.rollbackAdvance (secReq true 0)) dev0).map (fun d => d.out) = some [.sec secRollback] := by decide
theorem test_entropy : (run .entropyHealthFail (secDev { Sec.init with entropyFails := 2 })).map (fun d => d.sec.entropyErr) = some true := by decide

def package (size : Nat) : Package := ⟨0, 0, size, [], [], [], [], [], true⟩
def loadReq (size : Nat) : SealLoadReq := ⟨true, 127, package size, goodSig⟩
/-- Checker 63 of stack 1 is open over two granules. -/
def sealDev (x : Sec) : Device :=
  { dev0 with sec := x
              moves := [(BlockId.rgnHs1.key, { MoveBlk.init with opn := [(rgnBase 1 + 63 * 0x20, 4), (rgnBase 1 + 63 * 0x20 + 8, 5)],
                                                                  eff := [(rgnBase 1 + 63 * 0x20, 4), (rgnBase 1 + 63 * 0x20 + 8, 5)] })] }
theorem wit_SealedRegions_load : (sealDev .init).secLive = true ∧ (sealDev .init).pwr.hs ((loadReq 129).region.val / 64) = .trained
    ∧ (129 + 127) / 128 * 128 ≤ (sealDev .init).openSize 1 63
    ∧ ¬((2 ^ 23 + 127) / 128 * 128 ≤ (sealDev .init).openSize 1 63) ∧ Sec.init.freeSlot = some 2 ∧ (Sec.init.region 127).phase = .none
    ∧ ({ Sec.init with keys := List.range 16 } : Sec).freeSlot = none ∧ ({ Sec.init with step := 1 } : Sec).step > (package 1).step
    ∧ ({ dev0 with pwr := { dev0.pwr with hs1 := .training } } : Device).pwr.hs (127 / 64) ≠ .trained := by decide +kernel
theorem test_sealLoad : (run (.sealLoad { loadReq 129 with sig := { goodSig with good := false } }) (sealDev .init)).map
    (fun d => ((d.sec.region 127).phase, d.out)) = some (.none, [.sec secSignature]) := by decide +kernel
def phaseDev (p : SealPhase) : Device := sealDev (Sec.init.setRegion 127 ⟨p, 2, 100, [], [], 0, 0⟩)
theorem wit_SealedRegions_phase : ((phaseDev .loading).sec.region (127 : Fin 128)).phase = .loading ∧ ((phaseDev .ready).sec.region 127).phase = .ready
    ∧ ((phaseDev .readying).sec.region 127).phase = .readying ∧ ((phaseDev .ready).sec.region (127 : Fin 128)).phase ≠ .loading := by decide
theorem test_regionRelease : (run (.regionRelease (secReq true 127)) (phaseDev .ready)).map (fun d => ((d.sec.region 127).phase, d.sec.secure.busy))
    = some (.closing, true) := by decide +kernel
/-- A pending move of the checkers of stack 1 that gives granule 4 to the non-secure world. -/
def zeroDev : Device :=
  { dev0 with moves := [(BlockId.rgnHs1.key, { MoveBlk.init with st := .loading, stage := [(rgnBase 1, 4), (rgnBase 1 + 8, 4), (rgnBase 1 + 0x10, 1)] })] }.put
    (0xC_0000_0000 + 4 * 0x20_0000 - 1) [1, 2]
theorem wit_SealedRegions_zero : BlockId.rgnHs1.rgnSet = some 1 ∧ (zeroDev.blk .rgnHs1).st = .loading ∧ zeroDev.zeroing 1 = true ∧ zeroDev.moveValid .rgnHs1 = true
    ∧ zeroDev.zeroRanges 1 = [(4, 5)] := by decide +kernel
theorem test_zeroing : (run (.zeroingDone .rgnHs1) zeroDev).map (fun d => ((d.blk .rgnHs1).st, d.byte (0xC_0000_0000 + 4 * 0x20_0000), d.byte (0xC_0000_0000 + 4 * 0x20_0000 - 1)))
    = some (.ready, 0, 1) := by decide +kernel
def image (good : Bool) : BootImage × BootImage := (⟨{ goodSig with good := good }, 0, Vector.replicate 48 7⟩, ⟨{ goodSig with good := good }, 0, Vector.replicate 48 8⟩)
def boot (puf : Bool) (s f : Bool) : BootOutcome := ⟨puf, image s, image f, image true, image true⟩
def bootDev : Device := { dev0 with pwr := { dev0.pwr with bringUp := 1 } }
def chosen (p : BootImage × BootImage) : Option BootImage := Sec.init.choose p
theorem wit_SealedRegions_boot : bootDev.pwr.bringUp = 1 ∧ dev0.pwr.bringUp ≠ 1 ∧ bootDev.sec.lifecycle ≠ .scrapped ∧ (chosen (image true)).isSome = true
    ∧ (chosen (image false)).isNone = true := by decide
theorem test_secureBoot : (run (.secureBoot (boot true true true)) bootDev).map (fun d => (d.pwr.bringUp, d.sec.boot, d.sec.digests.take 1)) = some (2, 0, [7])
    ∧ (run (.secureBoot (boot true false true)) bootDev).map (fun d => (d.pwr.bringUp, d.sec.boot)) = some (1, 0xE2) := by decide +kernel
theorem test_tamper : (run .tamper (phaseDev .ready)).map (fun d => (d.sec.keys, (d.sec.region 127).phase, d.sec.tamperCount, d.sec.tampered)) = some ([], .none, 1, true) := by
  decide

/-! ### Witnesses: the debug port -/

/-- A frame with a good header CRC. -/
def head (w : Nat) : BitVec 72 := BitVec.ofNat 72 (w + 2 ^ 64 * dbgCrc8 w)
/-- Start, operation, space, address and count. -/
def header (op space addr count : Nat) : Nat := 1 + 2 * op + 2 ^ 5 * space + 2 ^ 8 * addr + 2 ^ 48 * (count - 1)
def hOf (w : Nat) : DbgHeader := DbgHeader.ofBits (head w).toNat
def dbgDev (g : Dbg) : Device := { dev0 with dbg := g }
theorem wit_DebugFrames : (hOf (header 1 3 0 1)).start = true ∧ (hOf (header 1 3 0 1)).crcOk = true ∧ (hOf (header 1 3 0 1)).reservedOk = true
    ∧ (DbgHeader.ofBits (head (header 1 3 0 1) + 2 ^ 71).toNat).crcOk = false ∧ (hOf (header 1 3 0 1 - 1)).start = false ∧ (hOf (header 1 3 0 1 + 2 ^ 7)).reservedOk = false
    ∧ (hOf (header 3 3 0 1)).op ≠ 1 ∧ (hOf (header 3 3 0 1)).op ≠ 2 := by decide +kernel
theorem wit_DebugFrames_level : dev0.dbgAllows (hOf (header 1 0 0 1)) = false ∧ dev0.dbgAllows (hOf (header 1 3 0 1)) = true
    ∧ (dbgDev { Dbg.init with level := 3 }).dbgAllows (hOf (header 1 1 0 1)) = true ∧ (dbgDev { Dbg.init with level := 3 }).dbgAllows (hOf (header 2 0 0 1)) = true
    ∧ (hOf (header 1 3 0 1)).addr % 4 = 0 ∧ 0x100 ∉ (hOf (header 1 3 0 4)).words ∧ (hOf (header 1 1 0 1)).space = 1 ∧ (hOf (header 2 0 0 1)).space < 3 := by
  decide +kernel
theorem wit_DebugFrames_pending : let g := { Dbg.init with pending := some ⟨hOf (header 1 0 0 1), [], false⟩ }
    g.pending = some ⟨hOf (header 1 0 0 1), [], false⟩ ∧ hOf (header 1 0 0 1) ≠ hOf (header 1 0 4 1) ∧ Dbg.init.faultNext = false ∧ Dbg.init.werr = false := by
  decide +kernel
theorem wit_DebugFrames_data : dbgCrc16 [1, 2, 3, 4] = (BitVec.ofNat 16 (dbgCrc16 [1, 2, 3, 4])).toNat ∧ [1, 2, 3, 4].length = 4 * (hOf (header 2 3 0 1)).count
    ∧ dbgCrc16 (([1, 2, 3, 5] ++ zeros 4).take 4) ≠ (BitVec.ofNat 16 (dbgCrc16 [1, 2, 3, 4])).toNat ∧ (hOf (header 2 3 0 1)).op = 2 := by decide +kernel
theorem test_debug_crc : (run (.debugRead (head (header 1 3 0 1) + 2 ^ 71) ⟨[], false, .clean, []⟩) dev0).map (fun d => d.out) = some [.dbg .crc []]
    ∧ (run (.debugRead (head (header 1 0 0 1)) ⟨[], false, .clean, []⟩) dev0).map (fun d => d.out) = some [.dbg .denied []] := by decide +kernel
theorem wit_DebugFrames_refused : (dev0.noc.port Port.debug).inflight.all (fun i => !(i.write && i.resp == .error)) = true := by decide
theorem wit_DebugSession : dev0.sec.entropyErr = false ∧ dev0.sec.entropyStalled = false ∧ dev0.dbg.unlockBusy = false
    ∧ ({ Dbg.init with unlockBusy := true, respFresh := true } : Dbg).respFresh = true ∧ dev0.sec.unlocks ⟨1, true, goodSig⟩ = true
    ∧ dev0.sec.unlocks ⟨3, true, goodSig⟩ = false
    ∧ ({ Sec.init with lifecycle := .fieldReturn } : Sec).unlocks ⟨3, true, ⟨true, 0, true, true⟩⟩ = true := by decide
theorem wit_DebugSession_fresh : let g := { Dbg.init with challengeLive := true, challengeAt := 0 }
    g.challengeLive = true ∧ (4096 : Word).toNat % 2 ^ 16 ≤ 4096 ∧ dev0.tn * 1000 + 1000 ≤ g.challengeAt + challengeNs
    ∧ g.challengeAt + challengeNs < (challengeNs + 1000) / 1000 * 1000 := by decide
theorem test_unlock : (run (.unlockVerified ⟨2, true, goodSig⟩) (dbgDev { Dbg.init with unlockBusy := true, respFresh := true })).map (fun d => (d.dbg.level, d.dbg.unlockFail))
    = some (2, false)
    ∧ (run (.unlockVerified ⟨3, true, goodSig⟩) (dbgDev { Dbg.init with unlockBusy := true, respFresh := true })).map (fun d => (d.dbg.level, d.dbg.unlockFail))
    = some (0, true) := by decide
def haltDev : Device :=
  { dbgDev { Dbg.init with level := 2 } with jobs := [(63, { Job.init with st := .running, held := [4, 5] })]
                                             eng := [(4, { Eng.init with bound := some (63, 0) }), (5, { Eng.init with bound := some (63, 1), leaving := true })] }
theorem wit_DebugSession_halt : haltDev.dbg.werr = false ∧ haltDev.dbgJob (63 : Fin 64) = true ∧ dev0.dbgJob (63 : Fin 64) = false ∧ haltDev.pwr.held = false
    ∧ 4 ∈ (haltDev.job (63 : Fin 64)).held ∧ (haltDev.engine 4).leaving = false ∧ (haltDev.engine 5).leaving = true := by decide
theorem test_halt : (run (.engineHalt 63) haltDev).map (fun d => ((d.engine 4).halted, (d.engine 5).halted)) = some (true, false) := by decide
theorem test_tap : (run .extest dev0).map (fun d => d.dbg.tap) = some .bypass
    ∧ (run .extest { dev0 with pwr := { dev0.pwr with sysPinLow := true } }).map (fun d => d.dbg.tap) = some .extest := by decide
theorem wit_RingPointers : (⟨3, true, 9⟩ : RPtr).index < 4 ∧ (ring4 3 1).head.index < (ring4 3 1).count ∧ (ring4 1 3).enable = true ∧ 1 ≤ (ring4 1 3).fill
    ∧ 1 ≤ (ring4 1 3).free ∧ (ring4 1 3).head.wrap = (ring4 1 3).tail.wrap ∧ ({ ring4 3 3 with tail := ⟨3, true, 0⟩ } : Ring).fill = 4 := by decide
/-! ### Witnesses: clauses of the fabric, the dies' links and the motion check engine -/

theorem wit_FabricLinks_tried : ((linkDev { LPort.init with st := .training, tried := true }).fab.port (7 : Fin 8)).tried = true
    ∧ (linkDev { LPort.init with st := .training, tried := true }).linkEnabled (7 : Fin 8) = true ∧ ((link .training).fab.port (7 : Fin 8)).tried = false := by decide
def v1Dev : Device := { link .training with fab := { (link .training).fab with version := 1 } }
theorem wit_FabricLinks_v1 : v1Dev.linkEnabled (7 : Fin 8) = true ∧ (v1Dev.fab.port (7 : Fin 8)).st = .training ∧ (v1Dev.fab.port (7 : Fin 8)).tried = false
    ∧ v1Dev.fab.version = 1 := by decide
/-- A fabric of version 2 meets a partner that speaks version 1 only (R255). -/
theorem wit_FabricLinks_version : let d := { link .hello with fab := { (link .hello).fab with version := 2 } }
    (d.fab.port (7 : Fin 8)).st = .hello ∧ d.fab.version ≠ 0 ∧ (helloMsg 1 1 []).vmax < d.fab.version ∧ (helloMsg 2 5 []).vmin ≤ d.fab.version := by decide
def rekeyDev (hsAt : Nat) : Device := linkDev { LPort.init with st := .active, rekeyAt := 1, hsAt := hsAt }
theorem wit_FabricLinks_timeout : ((rekeyDev 5000).fab.port (7 : Fin 8)).st = .active ∧ ((rekeyDev 5000).fab.port (7 : Fin 8)).rekeyAt ≠ 0
    ∧ (rekeyDev 5000).tn < 5000 + 20000 ∧ 5000 + 20000 ≤ ({ rekeyDev 5000 with tb := { dev0.tb with dt := 25000000 } } : Device).tn := by decide
theorem test_handshakeTimeout : (run (.handshakeTimeout 7) { rekeyDev 5000 with tb := { dev0.tb with dt := 25000000 } }).map
    (fun d => ((d.fab.port 7).st, (d.fab.port 7).refuse)) = some (.refused, 3) ∧ (run (.handshakeTimeout 7) (rekeyDev 5000)).map (fun d => (d.fab.port 7).st) = some .active := by
  decide
theorem wit_FabricLinks_accepts : ((link .attesting).fab.port (7 : Fin 8)).st = .attesting ∧ ({ report true with accepts := false } : PartnerReport).accepts = false
    ∧ (link .attesting).policyMet { report true with accepts := false } = true := by decide
theorem wit_FabricLinks_gap : (activeDev.fab.port (7 : Fin 8)).gap = true ∧ (flit 0 0).good = true ∧ (flit 0 0).head.type = 0
    ∧ ((link .active).fab.port (7 : Fin 8)).rxNext = none ∧ ((link .active).fab.port (7 : Fin 8)).rxKey = none := by decide +kernel
/-- A flit in a gap leaves the expected number (R244). -/
theorem test_gap : (run (.flitReceive 7 (flit 2 9)) activeDev).map (fun d => ((d.fab.port 7).rxSeq, (d.fab.port 7).gap)) = some (0, true) := by decide +kernel
theorem wit_FabricLinks_running : let d := linkDev { LPort.init with st := .active, ctrl := true }
    d.tb.started = true ∧ (d.fab.port (7 : Fin 8)).st ≠ .off ∧ (d.fab.port (7 : Fin 8)).st = .active := by decide

theorem wit_Membership_newer : let f := { Fab.init with st := .member, stableConfig := some (cfg []) }
    f.king = false ∧ f.st ≠ .alone ∧ f.newer { cfg [] with gen := 4 } = true ∧ f.newer (cfg []) = false := by decide
theorem wit_Membership_joins : let f := { Fab.init with king := true, electedAt := 4984, stableConfig := some (cfg []), joins := [helloMsg 2 5 []] }
    f.king = true ∧ f.electing = false ∧ f.electedAt + 16 ≤ dev0.tn ∧ f.joins ≠ [] := by decide
/-- The king of two members, alone in its part, has all acknowledgements once member 3's is here. -/
def ackFab (acks : List Nat) : Fab :=
  { partFab (cfg []) with king := true, acks := acks, pending := some (cfg [⟨ownSerial, 3, true⟩]) }
theorem wit_Membership_acks : (ackFab []).pending = some (cfg [⟨ownSerial, 3, true⟩]) ∧ (ackFab []).king = true
    ∧ ({ FMsg.plain .configAck 3 3 with arg := 3 } : FMsg).arg = (cfg [⟨ownSerial, 3, true⟩]).gen % 2 ^ 16
    ∧ ((cfg [⟨ownSerial, 3, true⟩]).activeIds = [3]) := by simp [ackFab, cfg, FabConfig.activeIds]
theorem wit_Membership_ack_missing : (3 : Nat) ∈ (cfg [⟨ownSerial, 3, true⟩]).activeIds ∧ (3 : Nat) ∈ (ackFab []).part ∧ (3 : Nat) ∉ ([5] : List Nat) := by
  have : (ackFab []).part = [3] := part_partFab (cfg [])
  simp [this, cfg, FabConfig.activeIds]
/-- A part of one member passes under its own configuration, and no other member holds one. -/
theorem wit_Membership_others : let c := cfg [⟨ownSerial, 3, true⟩]
    (partFab c).stableConfig = some c ∧ (partFab c).id = some 3 ∧ (∀ x ∈ c :: (partFab c).pending.toList, partPass x (partFab c).part = true)
    ∧ dev0.othersPass 3 (partFab c).part = true := by
  refine ⟨rfl, rfl, ?_, by simp [part_partFab, Device.othersPass]⟩
  intro x hx
  simp only [partFab, Fab.init, Option.toList, List.mem_cons, List.not_mem_nil, or_false] at hx
  subst hx
  simp [part_partFab, partPass, partRule, cfg, FabConfig.activeIds]
theorem wit_Membership_king : (cfg []).king ∈ ([3, 1] : List Nat) ∧ (Fab.init).stable < 64 ∧ (endFab (ownSerial + 1)).parent = some 3 := by decide

/-- The link from the hub to CD0 is down. -/
def cutDev (d : Device) : Device := d.setLink 1 ⟨0, 0, true⟩
theorem wit_RemoteAccess_fits : (toMe .rdReq 0xD0_0000_0000 []).fits 256 = true ∧ (toMe .rdReq 0xD0_0000_0008 []).fits 256 = false
    ∧ memberDev.fab.maxData = 256 ∧ memberDev.reaches .hub ((toMe .rdReq 0xD0_0000_0000 []).addr % 2 ^ 40) = true := by decide
theorem wit_RemoteAccess_cut : (cutDev memberDev).takesFrom 4 = true ∧ (toMe .rdReq 0 []).fits (cutDev memberDev).fab.maxData = true
    ∧ (cutDev memberDev).isOwn (toMe .rdReq 0 []).dst = true ∧ (cutDev memberDev).reaches .hub ((toMe .rdReq 0 []).addr % 2 ^ 40) = false :=
  ⟨memberDev_takes, by decide, by decide, by decide⟩
theorem wit_RemoteAccess_stranger : let d := { memberDev with fab := { memberDev.fab with known := [] } }
    d.isOwn 3 = true ∧ d.takesFrom 4 = false := by
  refine ⟨by decide, ?_⟩
  simp [Device.takesFrom, Fab.part, memberDev]
theorem wit_RemoteAccess_orphan : let d := tagDev (rtag (.bus .fwc 1) true 4936)
    d.fab.tag 8 = some (rtag (.bus .fwc 1) true 4936) ∧ (rtag (.bus .fwc 1) true 4936).orphan = true ∧ 4936 + 64 ≤ d.tn ∧ d.fab.stalled = [] := by decide

theorem wit_MotionChecks_cut : (cutDev { dev0 with mce := { Mce.init with sel := some ⟨0, 84, false, 4999⟩ } }).reaches .hub 0 = false
    ∧ (batchDev 6000).reaches .hub 0xD0_0000_0000 = true ∧ (cutDev (brickDev 0)).reaches .hub 0 = false ∧ (brickDev 0).reaches .hub 0xD0_0000_0000 = true := by decide
/-- A ring of depth bricks in stack 0, behind the cut link. -/
def farBricks : Device := cutDev { brickDev 0 with rings := [(2, { ring4 0 1 with esize := 67, base := 0x100 })] }
theorem wit_MotionChecks_far : farBricks.bricksValid = true ∧ farBricks.ringReg (farBricks.mceSw 0x70) = some 2 ∧ (farBricks.ring 2).entrySize = 1088
    ∧ farBricks.mce.bricks.length < (farBricks.ring 2).fill
    ∧ farBricks.reaches .hub ((farBricks.ring 2).entryAddr (farBricks.ring 2).head farBricks.mce.bricks.length) = false := by decide
theorem wit_MotionChecks_refused : let b : BatchSel := ⟨0xD0_0000_0000, 65537, false, 4999⟩
    let d := { dev0 with mce := { Mce.init with sel := some b } }
    d.mce.sel = some b ∧ d.reaches .hub b.addr = true ∧ 65536 < b.len ∧ d.batchMay 0xE0_0000_0000 84 = false := by decide +kernel
theorem test_batchRefused : (run (.batchFetch true) (batchDev 6000)).map (fun d => (d.mce.sel.isNone, d.mce.batchErr % 256, d.mce.taken.length)) = some (true, 8, 0) := by
  decide +kernel
/-- Two corrected words in one tempo of a search count twice, and an uncorrectable one is a field-store fault (R291). -/
theorem test_waveReads : let d := verdictDev.waveReads ⟨false, [], 0, [(1, 2)], 2⟩
    (d.noc.counter (mceBase + 0x178)).val = 2 ∧ d.mce.fieldFault = true ∧ d.mce.wave.map Wave.bad = some [(1, 2)] := by decide +kernel
/-- A batch of one candidate with two samples under check by rays. -/
def batch2 : List Byte := withCrc ([7, 0, 0, 0, 1, 2] ++ leBytes 2 6000 ++ zeros 72)
def rayDev : Device := { dev0 with mce := { Mce.init with rayPhase := some 0, model := some model1, eff := some ⟨batch2, false, 0, 0⟩ } }
theorem wit_GraphicsDisplay_sweep : rayDev.sweepOf 0 = some (model1, batch2, 0, 0, 0) ∧ rayDev.sweepOf 1 = none := by decide +kernel
theorem wit_GraphicsDisplay_moving : (dev0.proc.watEntry gpxUnit).moving = false ∧ ([] : List Nat) = [] := by decide
theorem wit_GraphicsDisplay_late : let x : Pipe := { Pipe.init with enable := true, frameTn := some 4990, late := [⟨0, 5, 0⟩] }
    ((pipeDev 148500 x).gfx.pipe (1 : Fin 2)).late.any (fun l => l.line == 5) = true ∧ ((pipeDev 148500 x).gfx.pipe (1 : Fin 2)).late.any (fun l => l.line == 6) = false := by
  decide
/-- A second late pixel of one line does not count again (R331). -/
theorem test_underflow : let x : Pipe := { Pipe.init with enable := true, frameTn := some 4990, late := [⟨0, 5, 0⟩] }
    (run (.underflow 1 0 5 9) (pipeDev 148500 x)).map (fun d => (d.noc.counter (pipeBase 1 + 0x48)).val) = some 0
    ∧ (run (.underflow 1 0 6 9) (pipeDev 148500 x)).map (fun d => (d.noc.counter (pipeBase 1 + 0x48)).val) = some 1 := by decide +kernel

/-! ### Witnesses: clauses of the worlds, the gateway, the root of trust and the debug port -/

def hartDev (halted : Bool) : Device := dbgDev { Dbg.init with modules := [(0, { DebugModule.init with harts := [(15, { DmHart.init with halted := halted })] })] }
theorem wit_WorldCommands_hart : (((hartDev true).dbg.module 0).hart (15 : Fin 16)).halted = true ∧ (((hartDev false).dbg.module 0).hart (15 : Fin 16)).halted = false := by decide
theorem test_mworldWrite : (run (.mworldWrite 15 true) (hartDev false)).map (fun d => (d.proc.hart 15).mworld) = some true
    ∧ (run (.mworldWrite 15 true) (hartDev true)).map (fun d => (d.proc.hart 15).mworld) = some (dev0.proc.hart 15).mworld := by decide
theorem wit_Instances_deleting : let d := instDev { liveInst with resetting := true, deleting := true }
    (d.proc.inst (31 : Fin 32)).active = true ∧ (d.proc.inst (31 : Fin 32)).deleting = true ∧ ((instDev liveInst).proc.inst (31 : Fin 32)).resetting = false := by decide
def emuDev (who : Option (Port × Nat)) : Device := instDev { liveInst with emuReads := [⟨16, 1, who⟩], emuWrites := [(4, 1)], emuHeld := [(8, 2)] }
theorem wit_EmulationMailbox_reads : ((emuDev none).proc.inst (31 : Fin 32)).emuReads = [⟨16, 1, none⟩]
    ∧ ((emuDev (some (.pcie, 3))).proc.inst (31 : Fin 32)).emuReads = [⟨16, 1, some (.pcie, 3)⟩] ∧ ((instDev liveInst).proc.inst (31 : Fin 32)).emuReads = []
    ∧ ((emuDev none).proc.inst (31 : Fin 32)).emuHeld = [(8, 2)] := by decide
/-- The read's answer takes the write before it out of the FIFO, and the held write enters (R343). -/
theorem test_emuAnswer : (run (.emuAnswer 31 7) (emuDev none)).map (fun d => ((d.proc.inst 31).emuReads.length, (d.proc.inst 31).emuWrites, (d.proc.inst 31).emuHeld, d.out))
    = some (0, [(8, 2)], [], [.inst 31 7]) := by decide
theorem wit_EmulationMailbox_idle : ((instDev liveInst).proc.inst (31 : Fin 32)).active = true ∧ ((instDev liveInst).proc.inst (31 : Fin 32)).resetting = false
    ∧ ((instDev liveInst).proc.inst (31 : Fin 32)).mboxBusy = false ∧ liveInst.binding = .pcie ∧ ({ liveInst with binding := .ofCode 1 } : Inst).binding ≠ .pcie := by decide

theorem wit_NodeTable_to : (joinFrame 5 0x66 9 0x10 0x20).dst = 0 ∧ ({ joinFrame 5 0x66 9 0x10 0x20 with dst := 7 } : CFrame).dst ≠ 0
    ∧ inOk fdev { joinFrame 5 0x66 9 0x10 0x20 with dst := 7 } = true ∧ inOk fdev { frame fnHeartbeat 0 (zeros 5) with dst := 7 } = true := by decide
theorem wit_NodeTable_emcy_again : let d := fieldDev .active { node7 with emcyTn := some 4999 } delivers
    inOk d (frame fnEmcy 0 (zeros 8)) = true ∧ (d.fgw.node 7).emcyTn = some 4999 ∧ d.tn < 4999 + 10000
    ∧ (4999 : Nat) + 10000 ≤ ({ d with tb := { d.tb with dt := 14999000 } } : Device).tn := by decide
theorem wit_NodeTable_sampled : let d := { fieldDev .active node7 [] with dict := { Dict.init with errSample := 1 } }
    d.dict.errSample ≠ 0 ∧ ({ dev0 with dict := { Dict.init with active := some 0 } } : Device).errorReg = 0 := by decide
theorem wit_Maps_reaches : (mapDev 2 0 .init).reaches Port.fgw.die (0xD0_0000_0100 + 8) = true ∧ (mapDev 2 0 .init).hubMay Port.fgw.group true true (0xD0_0000_0100 + 8) 8 = true
    ∧ ((mapDev 2 0 { MapRun.init with silent := 2 }).fgw.map 2).silent < 3 := by decide
theorem wit_Maps_bad : let d := mapDev 5 0 { MapRun.init with fRx := 41 }
    inOk d (mapFrame fnSafety 1041 false) = true ∧ (mapFrame fnSafety 1041 false).authentic = false ∧ inOk d (mapFrame fnSafety 41 true) = true
    ∧ field (mapFrame fnSafety 41 true).payload 2 4 ≤ 41 ∧ (mapFrame fnSafety 1041 true).payload.length = 2 + 8 := by decide
theorem wit_FieldPorts_plca : ((fpDev 16 { FPort.init with plcaId := 3 }).fgw.port 16).plcaId ≠ 0 ∧ ((fpDev 23 { FPort.init with plcaId := 0 }).fgw.port 23).plcaId = 0 := by decide
theorem test_beacon : (run (.beacon 16) (fpDev 16 { FPort.init with plcaId := 3, plca := false })).map (fun d => (d.fgw.port 16).plca) = some true := by decide
theorem wit_FieldPorts_list : (⟨7, 1000, []⟩ : GateList).ok = true ∧ (⟨7, 10, []⟩ : GateList).ok = false ∧ (⟨7, 1000000001, []⟩ : GateList).ok = false
    ∧ ((fpDev 30 { FPort.init with gatesPending := some ⟨7, 1000, []⟩ }).fgw.port 30).gatesPending = some ⟨7, 1000, []⟩ := by decide
/-- A list takes effect at its base time, not before (R360). -/
theorem test_gates : let d := fpDev 30 { FPort.init with gatesPending := some ⟨7, 1000, []⟩ }
    (run (.gateCycleStart 30 7) d).map (fun d => (d.fgw.port 30).gates.isSome) = some true
    ∧ (run (.gateCycleStart 30 6) d).map (fun d => (d.fgw.port 30).gates.isSome) = some false := by decide
theorem wit_FieldPorts_same : let g := ({ Gateway.init with macs := [(2, 1, 35)] } : Gateway).learn (ether 35 2 4 1)
    g.macs.find? (fun m => m.1 == 2 && m.2.1 == 1) = some (2, 1, 35) ∧ (ether 35 2 4 1).port = 35 ∧ dev0.portShut 24 = false := by decide
theorem wit_FieldPorts_alone : (fpDev 15 { FPort.init with st := .alone }).tn < 199999 + 100000 ∧ (FPort.init).st ≠ .alone := by decide
theorem wit_Transfers_auth : bitOf (16 + 1) 4 = true ∧ ({ xferTo (16 + 1) 0x4003 1 [] with authentic := false } : CFrame).authentic = false
    ∧ inOk fdev { xferTo (16 + 1) 0x4003 1 [] with authentic := false } = true ∧ (xferTo 1 0x4003 1 []).dst = 0 ∧ cmdKnown (7 % 8) = false ∧ bitOf 7 4 = false
    ∧ cmdKnown (1 % 8) = true ∧ inOk fdev (xferTo 7 0 0 []) = true := by decide
theorem wit_Transfers_write : (xferDev (xfer true false [] 0)).openXfer 7 = some (xfer true false [] 0) ∧ (fRead).func ≠ fnXferRsp ∧ fdev.clientOf 7 = none
    ∧ (xfer true false [] 0).lastTn + 100000 ≤ ({ fdev with tb := { fdev.tb with dt := 104000000 } } : Device).tn
    ∧ fdev.tn < (xfer true false [] 0).lastTn + 100000 := by decide
/-- A segment past the size announced ends the transfer (R371). -/
theorem test_segment_size : (run (.xferSegment (xferTo 4 0 0 [1])) (xferDev (xfer true false (zeros 200) 0))).map (fun d => d.fgw.xfers) = some []
    ∧ (run (.xferSegment (xferTo 4 0 0 [1])) (xferDev (xfer true false [] 0))).map (fun d => d.fgw.xfers.map fun x => (x.data, x.toggle)) = some [([1], true)] := by
  decide +kernel

theorem wit_SecCommands_first : let x := { Sec.init with owners := 0 }
    (secDev x).secLive = true ∧ x.owners = 0 ∧ bitOf x.owners 1 = false ∧ x.lifecycle = .owned ∧ x.signed goodSig = false := by decide
theorem wit_SecCommands_stalled : let x := { Sec.init with entropyStalled := true, stalledKeys := [15] }
    (secDev x).secLive = true ∧ x.entropyErr = false ∧ x.entropyStalled = true ∧ (secDev x).slotNamed 15 = false ∧ (15 : Nat) ∈ x.stalledKeys := by decide
/-- What the source starts again finds: the key of the command that waited (R439). -/
theorem test_restarted : (run .entropySourceRestarted (secDev { Sec.init with entropyStalled := true, stalledKeys := [15] })).map
    (fun d => (d.sec.keys, d.sec.entropyStalled)) = some ([15, 0, 1], false) := by decide
theorem wit_SealedRegions_form : (package 129).formOk = true ∧ (package 129).step ≤ 64 ∧ ¬({ package 129 with formOk := false } : Package).formOk = true
    ∧ (loadReq 129).sig.owner = (package 129).owner ∧ Sec.init.signed (loadReq 129).sig = true ∧ Sec.init.runs = false
    ∧ ({ package 129 with owner := 1 } : Package).owner ≠ (loadReq 129).sig.owner := by decide
theorem wit_SealedRegions_waits : ({ Sec.init with regions := [(5, ⟨.moving, 2, 100, [], [], 0, 0⟩)], secure := { SecBox.init with busy := true } } : Sec).runs = true := by decide
/-- A load of nothing whose digest is right, and one whose chunks are missing. -/
def nothing : SealRegion := ⟨.loading, 2, 0, Config.sha384 [], [], 0, 0⟩
theorem wit_SealedRegions_plain : nothing.plain [] = some [] ∧ ({ nothing with size := 1 } : SealRegion).plain [] = none
    ∧ ((sealDev (Sec.init.setRegion 127 nothing)).sec.region (127 : Fin 128)).phase = .loading := by
  refine ⟨by simp [SealRegion.plain, openChunks, nothing], by simp [SealRegion.plain, openChunks, nothing], rfl⟩
theorem wit_SealedRegions_more : (secReq true 127).secure = true ∧ (secReq false 127).secure = false
    ∧ ({ dev0 with pwr := { dev0.pwr with hs1 := .training } } : Device).secLive = true := by decide
def keyedDev : Device := linkDev { LPort.init with st := .active, txKey := some ⟨zeros 32, zeros 4⟩ }
theorem wit_SealedRegions_keyed : (keyedDev.fab.port 7).keyed = true ∧ keyedDev.linkActive 7 = true := by decide
theorem test_tamper_links : (run .tamper keyedDev).map (fun d => d.linkActive 7) = some false := by decide

/-- A write of dmcontrol of the SPC's debug module: hart 1, haltreq, dmactive. -/
def dmHead : Nat := header 2 1 0x110 1
def dmData : DbgData := ⟨leBytes 4 (2 ^ 31 + 2 ^ 16 + 1), BitVec.ofNat 16 (dbgCrc16 (leBytes 4 (2 ^ 31 + 2 ^ 16 + 1))), 0⟩
def dmDev : Device := dbgDev { Dbg.init with level := 3, modules := [(1, { DebugModule.init with active := true })] }
theorem wit_DebugFrames_dmi : (hOf dmHead).start = true ∧ (hOf dmHead).crcOk = true ∧ (hOf dmHead).reservedOk = true ∧ (hOf dmHead).op = 2 ∧ (hOf dmHead).space = 1
    ∧ dmDev.dbgAllows (hOf dmHead) = true ∧ dmDev.pwr.held = false ∧ dbgCrc16 dmData.bytes = dmData.crc.toNat ∧ dmData.bytes.length = 4 * (hOf dmHead).count
    ∧ bits (hOf dmHead).addr 9 8 = 1 := by decide +kernel
theorem wit_DebugFrames_differ : let e := dmDev.dmiPut 0x110 (2 ^ 31 + 2 ^ 16 + 1)
    (e.dbg.module 1).hartsel = 1 ∧ (e.dbg.module 1).hart 1 ≠ (dmDev.dbg.module 1).hart 1 := by decide +kernel
theorem wit_DebugFrames_hold : let g := { Dbg.init with werr := true, faultNext := true }
    g.werr = true ∧ g.faultNext = true ∧ (hOf (header 1 3 0 1)).space = 3 ∧ (hOf (header 1 0 0 1)).space < 3 := by decide +kernel
theorem test_dmi_differ : (run (.dmiAccess (head dmHead) dmData ⟨false, true⟩) dmDev).map (fun d => d.out.length) = some 2
    ∧ (run (.dmiAccess (head dmHead) dmData ⟨false, false⟩) dmDev).map (fun d => ((d.dbg.module 1).hart 1).haltReq || ((d.dbg.module 1).hart 1).halted) = some true := by
  decide +kernel
theorem wit_DebugSession_stalled : let x := { Sec.init with entropyStalled := true }
    (secDev x).sec.entropyErr = false ∧ (secDev x).sec.entropyStalled = true ∧ ({ Sec.init with entropyErr := true } : Sec).entropyErr = true := by decide
theorem test_challenge_wait : (run .challengeRead (secDev { Sec.init with entropyStalled := true })).map (fun d => d.out) = some [.dbg .wait []] := by decide
theorem wit_DebugSession_verified : let g := { Dbg.init with unlockBusy := true, respFresh := false }
    g.unlockBusy = true ∧ g.respFresh = false ∧ dev0.sec.signed goodSig = true ∧ (dbgDev { Dbg.init with challengeLive := true }).tb.started = true := by decide

theorem test_withFetchWord (nbits w : Nat) : State.reset.withFetchWord nbits w = State.reset ∧ decodeTableWord nbits w = none := ⟨rfl, rfl⟩
end Sys2Proof.Tests
end

/-! SUPPORT. Scope of the model (spec chapter 00): register writes and the registers that a read clears (R8 to R12). -/

namespace Sys2Proof.Machine

open Sys2Proof

/-! ### Commands of the dies that a thermal trip holds -/

/-- A command whose meaning is a change of the device outside the keep-alive domain runs on a live state. -/
theorem Runs.of_on {c : Instr} {s : State} {f : Device → Device} {Q : Device → Prop} (hs : s.live)
    (hc : exec c s = s.on f) (hQ : Q (f s.dev)) : Runs c s Q :=
  ⟨f s.dev, by rw [hc, State.on_live s f hs], hQ⟩

@[simp] theorem Device.note_out (d : Device) (n : Note) : (d.note n).out = n :: d.out := rfl

/-! ### One word written (R8 to R11) -/

/-- The addresses of the register windows (R20): the hub's, the two compute dies' and the stacks'. -/
theorem placeOf_eq_regs_iff (a : Nat) : placeOf a = .regs ↔
    (0xF0_0000_0000 ≤ a ∧ a < 0xF0_0F00_0000) ∨ (0xF1_0000_0000 ≤ a ∧ a < 0xF1_0200_0000)
      ∨ (0xF2_0000_0000 ≤ a ∧ a < 0xF2_0200_0000) ∨ (0xF3_0000_0000 ≤ a ∧ a < 0xF3_0200_0000) := by
  simp only [placeOf, ite_eq_iff, reduceCtorEq, and_false, or_false, false_or, and_true]
  omega

/-- The register windows end below the instance pages. -/
theorem lt_instPages_of_placeOf_regs {a : Nat} (h : placeOf a = .regs) : a < 0xF8_0000_0000 := by
  rw [placeOf_eq_regs_iff] at h
  omega

theorem Device.wordsWrite_singleton_none {d : Device} {w : Who} {a : Nat} (v hw : Nat) (h : regOf d w true a = none) :
    d.wordsWrite w hw [(a, v)] = (false, d) := by
  simp [Device.wordsWrite, Device.wordWrite, h]

theorem Device.wordsWrite_singleton_some {d : Device} {w : Who} {a : Nat} {g : Reg} (v hw : Nat)
    (h : regOf d w true a = some g) : d.wordsWrite w hw [(a, v)] = (true, g.put d (v % 2 ^ 32) hw) := by
  simp [Device.wordsWrite, Device.wordWrite, h]

/-- Over a link that is down a register write does not arrive (R219; log entry 152). -/
theorem Device.registerWrite_unreached {d : Device} {r : RegReq} (h : d.reaches r.master.die r.addr = false) :
    d.registerWrite r = d := by
  simp [Device.registerWrite, h]

section Narrow

variable {d : Device} {r : RegReq} (hreach : d.reaches r.master.die r.addr = true) (hplace : placeOf r.addr = .regs)
  (hwide : r.wide = false)
include hreach hplace hwide

/-- A 32-bit write that arrives at the register windows: an alignment check, then one word. -/
theorem Device.registerWrite_narrow :
    d.registerWrite r =
      if r.addr % 4 ≠ 0 then d.note (.bus r.master 0 .error)
      else (d.wordsWrite (d.regWho r) r.hwSet [(r.addr, r.value)]).2.note
        (.bus r.master 0 (if (d.wordsWrite (d.regWho r) r.hwSet [(r.addr, r.value)]).1 then .ok else .error)) := by
  have hpage : ¬ 0xF8_0000_0000 ≤ r.addr := by have := lt_instPages_of_placeOf_regs hplace; omega
  by_cases ha : r.addr % 4 = 0 <;> simp [Device.registerWrite, hreach, hplace, hwide, hpage, ha]

theorem Device.registerWrite_unaligned (ha : r.addr % 4 ≠ 0) : d.registerWrite r = d.note (.bus r.master 0 .error) := by
  rw [Device.registerWrite_narrow hreach hplace hwide, if_pos ha]

theorem Device.registerWrite_noWord (ha : r.addr % 4 = 0) (hg : regOf d (d.regWho r) true r.addr = none) :
    d.registerWrite r = d.note (.bus r.master 0 .error) := by
  simp [Device.registerWrite_narrow hreach hplace hwide, ha, Device.wordsWrite_singleton_none _ _ hg]

theorem Device.registerWrite_word {g : Reg} (ha : r.addr % 4 = 0) (hg : regOf d (d.regWho r) true r.addr = some g) :
    d.registerWrite r = (g.put d (r.value % 2 ^ 32) r.hwSet).note (.bus r.master 0 .ok) := by
  simp [Device.registerWrite_narrow hreach hplace hwide, ha, Device.wordsWrite_singleton_some _ _ hg]

end Narrow

/-- REGISTER_WRITE of every master but the debug port and another device is a register write of the device. -/
theorem Runs.registerWrite {s : State} {r : RegReq} {Q : Device → Prop} (hs : s.live) (hdebug : r.master ≠ Port.debug)
    (hfabric : r.master ≠ Port.toterlink) (hQ : Q (s.dev.registerWrite r)) : Runs (.registerWrite r) s Q := by
  refine Runs.of_on hs (exec_registerWrite r s) ?_
  rwa [if_neg (not_or.mpr ⟨hdebug, hfabric⟩)]

/-! ### Access codes (R10, R11) -/

/-- A W1C bit that is being cleared keeps what the hardware sets in the same cycle. -/
theorem w1c_of_bitOf {v i : Nat} (b : Bool) (hw : Nat) (h : bitOf v i = true) : w1c b v hw i = bitOf hw i := by
  simp [w1c, h]

theorem Device.setBlk_blk_other (d : Device) {b k : BlockId} (v : MoveBlk) (h : b.key ≠ k.key) :
    (d.setBlk b v).blk k = d.blk k :=
  tget_tput_other _ _ _ h.symm

/-- An open shadow takes the value; the value in effect and every other block stay. -/
@[simp] theorem Device.setOpen_sw (d : Device) (b : BlockId) (a v x : Nat) : (d.setOpen b a v).sw b x = d.sw b x := by
  simp [Device.setOpen, Device.sw]

@[simp] theorem Device.setOpen_swOpen (d : Device) (b : BlockId) (a v : Nat) :
    (d.setOpen b a v).swOpen b a = v % 2 ^ 32 := by
  simp [Device.setOpen, Device.swOpen]

theorem Device.setOpen_blk_other (d : Device) {b k : BlockId} (a v : Nat) (h : b.key ≠ k.key) :
    (d.setOpen b a v).blk k = d.blk k :=
  d.setBlk_blk_other _ h

/-- No word of the Arbiter mirror takes a write (R25). -/
theorem regOf_mirror_write (d : Device) (w : Who) {a : Nat} (hlo : mirrorBase ≤ a) (hhi : a < mirrorBase + 0x100_0000) :
    regOf d w true a = none := by
  have hbase : mirrorBase = 0xF0_0100_0000 := rfl
  rw [hbase] at hlo hhi
  have hplace : placeOf a = .regs := (placeOf_eq_regs_iff a).mpr (Or.inl ⟨by omega, by omega⟩)
  have hhub : a < 0xF1_0000_0000 := by omega
  have hwindow : (a - 0xF0_0000_0000) / 0x100_0000 = 1 := by omega
  calc regOf d w true a
    _ = hubWindow d w true ((a - 0xF0_0000_0000) / 0x100_0000) (a % 0x100_0000) := by simp only [regOf, hplace, if_pos hhub]
    _ = hubWindow d w true 1 (a % 0x100_0000) := by rw [hwindow]
    _ = none := rfl

/-- Settles O38: a register write is an alignment check and one word's `put`, whose access codes are read off the words. -/
theorem registerWrites : Obligations.RegisterWrites := by
  refine ⟨fun s r hs hdebug hfabric hplace hwide => ⟨fun hreach => ?_, fun hreach ha => ?_, fun hreach ha =>
    ⟨fun hg => ?_, fun g hg => ?_⟩⟩, ?_, ?_, ?_, ?_⟩
  · exact Runs.registerWrite hs hdebug hfabric (Device.registerWrite_unreached hreach)
  · exact Runs.registerWrite hs hdebug hfabric (Device.registerWrite_unaligned hreach hplace hwide ha)
  · exact Runs.registerWrite hs hdebug hfabric (Device.registerWrite_noWord hreach hplace hwide ha hg)
  · exact Runs.registerWrite hs hdebug hfabric (Device.registerWrite_word hreach hplace hwide ha hg)
  · exact fun b v hw i h => w1c_of_bitOf b hw h
  · exact fun d b a mask v _ => ⟨d.setOpen_sw b a _ a, d.setOpen_swOpen b a _, fun _ _ hkey => d.setOpen_blk_other a _ hkey⟩
  · exact fun d w a hlo hhi => regOf_mirror_write d w hlo hhi
  · exact fun d v hw => ⟨rfl, rfl⟩

/-! ### Registers that a read clears (R10 to R12) -/

/-- What an RC register holds after its read: the value and the bits set by the hardware through the debug port, only these
bits through any other master. -/
theorem Device.rcRead_rcs_same (d : Device) (a : Nat) (debug : Bool) (hw : Nat) :
    (tget (fun _ => (0 : Word)) (d.rcRead a debug hw).rcs a).toNat
      = (if debug then Nat.lor (tget (fun _ => (0 : Word)) d.rcs a).toNat hw else hw) % 2 ^ 32 := by
  simp [Device.rcRead]

theorem Device.rcRead_rcs_other (d : Device) {a b : Nat} (debug : Bool) (hw : Nat) (h : b ≠ a) :
    tget (fun _ => (0 : Word)) (d.rcRead a debug hw).rcs b = tget (fun _ => (0 : Word)) d.rcs b :=
  tget_tput_other _ _ _ h

theorem Device.rcRead_out (d : Device) (a : Nat) (debug : Bool) (hw : Nat) :
    (d.rcRead a debug hw).out = .read a (tget (fun _ => (0 : Word)) d.rcs a).toNat :: d.out := rfl

theorem Device.rcRead_frame (d : Device) (a : Nat) (debug : Bool) (hw : Nat) :
    d.rcRead a debug hw = { d with rcs := (d.rcRead a debug hw).rcs, out := (d.rcRead a debug hw).out } := rfl

/-- A debug read in whose cycle the hardware sets nothing leaves the register as it was (R12). -/
theorem Device.rcRead_debug_keeps (d : Device) (a : Nat) :
    tget (fun _ => (0 : Word)) (d.rcRead a true 0).rcs a = tget (fun _ => (0 : Word)) d.rcs a := by
  apply BitVec.eq_of_toNat_eq
  rw [Device.rcRead_rcs_same, if_pos rfl]
  exact (congrArg (· % 2 ^ 32) (Nat.or_zero _)).trans (Nat.mod_eq_of_lt (BitVec.isLt _))

/-- RC_READ is a read of the device's register. -/
theorem Runs.rcRead {s : State} {a hw : Nat} {debug : Bool} {Q : Device → Prop} (hs : s.live)
    (hQ : Q (s.dev.rcRead a debug hw)) : Runs (.rcRead a debug hw) s Q :=
  Runs.of_on hs (exec_rcRead a debug hw s) hQ

/-- Settles O39, from what an RC register holds after its read. -/
theorem debugReadKeeps : Obligations.DebugReadKeeps := by
  intro s a hw hs
  refine ⟨Runs.rcRead hs ⟨?_, ?_, fun b hb => ?_, ?_⟩, Runs.rcRead hs ?_, Runs.rcRead hs ⟨?_, ?_, ?_⟩⟩
  · exact s.dev.rcRead_out a true hw
  · exact s.dev.rcRead_rcs_same a true hw
  · exact s.dev.rcRead_rcs_other true hw hb
  · exact s.dev.rcRead_frame a true hw
  · exact congrArg BitVec.toNat (s.dev.rcRead_debug_keeps a)
  · exact s.dev.rcRead_out a false hw
  · exact s.dev.rcRead_rcs_same a false hw
  · exact s.dev.rcRead_frame a false hw

end Sys2Proof.Machine

/-! SUPPORT. Device organisation (spec chapter 01): jobs, rings, requests on the networks, remote accesses and worlds, with
what the shared operations under them leave unchanged. -/

namespace Sys2Proof.Machine

open Sys2Proof

/-! ### Folds -/

/-- What every step of a fold keeps, the fold keeps. -/
theorem foldl_keeps {α β γ : Type} (φ : α → γ) {f : α → β → α} (h : ∀ a b, φ (f a b) = φ a) (l : List β) (a : α) :
    φ (l.foldl f a) = φ a :=
  List.foldlRecOn (motive := fun b => φ b = φ a) l f rfl fun b hb x _ => (h b x).trans hb

/-- What the step of one element brings about, and every step keeps, holds after the fold. -/
theorem foldl_establishes {α β : Type} {P : α → Prop} {f : α → β → α} {l : List β} {x : β} (hx : x ∈ l)
    (hset : ∀ a, P (f a x)) (hkeep : ∀ a y, P a → P (f a y)) (a : α) : P (l.foldl f a) := by
  induction l generalizing a with
  | nil => cases hx
  | cons y l ih =>
    rcases List.mem_cons.mp hx with rfl | hx
    · exact List.foldlRecOn l f (hset a) fun b hb z _ => hkeep b z hb
    · exact ih hx _

/-! ### Tables as lists -/

/-- The entry of the key that was written is found. -/
theorem find?_tins_tdel_same {α : Type} (t : Tab α) (k : Nat) (v : α) :
    (tins (tdel t k) k v).find? (fun p => p.1 == k) = some (k, v) := by
  induction t with
  | nil => simp [tdel, tins]
  | cons p t ih =>
    obtain ⟨a, w⟩ := p
    by_cases ha : a = k
    · simpa [tdel, ha] using ih
    · by_cases hk : k < a <;> simp [tdel, tins, ha, hk, ih]

theorem find?_tdel_same {α : Type} (t : Tab α) (k : Nat) : (tdel t k).find? (fun p => p.1 == k) = none := by
  simp [tdel_eq_filter, List.find?_eq_none]

/-- A key that reads as something else than its default is listed. -/
theorem mem_keys_of_tget_ne {α : Type} {d : Nat → α} {t : Tab α} {k : Nat} (h : tget d t k ≠ d k) : k ∈ t.map Prod.fst := by
  induction t with
  | nil => exact absurd rfl h
  | cons p t ih =>
    obtain ⟨a, v⟩ := p
    by_cases ha : a = k
    · simp [ha]
    · exact List.mem_cons_of_mem _ (ih (by simpa [tget, ha] using h))

/-! ### Memory of a range that is cleared (R346, R491) -/

theorem mget_filter_of_keep {m : Mem} {f : Nat × Byte → Bool} {a : Nat} (h : ∀ v, f (a, v) = true) :
    mget (m.filter f) a = mget m a := by
  unfold mget
  induction m with
  | nil => rfl
  | cons p m ih =>
    obtain ⟨b, v⟩ := p
    by_cases hb : b = a
    · subst hb; simp [h, tget]
    · cases hf : f (b, v) <;> simp [hf, tget, hb, ih]

theorem mget_filter_of_drop {m : Mem} {f : Nat × Byte → Bool} {a : Nat} (h : ∀ v, f (a, v) = false) :
    mget (m.filter f) a = 0 := by
  unfold mget
  induction m with
  | nil => rfl
  | cons p m ih =>
    obtain ⟨b, v⟩ := p
    by_cases hb : b = a
    · subst hb; simp [h, ih]
    · cases hf : f (b, v) <;> simp [hf, tget, hb, ih]

theorem scrambleAt_append (xs ys : List Scramble) (a : Nat) :
    scrambleAt (xs ++ ys) a = scrambleAt xs a ^^^ scrambleAt ys a := by
  induction xs with
  | nil => simp [scrambleAt]
  | cons x xs ih => simp [scrambleAt, ih, BitVec.xor_assoc]

/-- An empty range adds nothing. -/
theorem scrambleAt_filter_nonempty (ss : List Scramble) (a : Nat) :
    scrambleAt (ss.filter fun s => decide (s.lo < s.hi)) a = scrambleAt ss a := by
  induction ss with
  | nil => rfl
  | cons s ss ih =>
    by_cases hs : s.lo < s.hi
    · simp [hs, scrambleAt, ih]
    · have hout : ¬ (s.lo ≤ a ∧ a < s.hi) := by omega
      simp [hs, scrambleAt, hout, ih]

/-- What is left of undefined ranges around the cleared one adds what they added outside it, and nothing inside. -/
theorem scrambleAt_cut (ss : List Scramble) {lo hi : Nat} (h : lo < hi) (a : Nat) :
    scrambleAt (ss.flatMap fun s =>
        [⟨s.lo, min s.hi lo, s.seed⟩, ⟨max s.lo hi, s.hi, s.seed⟩].filter fun s => decide (s.lo < s.hi)) a
      = if lo ≤ a ∧ a < hi then 0 else scrambleAt ss a := by
  induction ss with
  | nil => simp [scrambleAt]
  | cons s ss ih =>
    rw [List.flatMap_cons, scrambleAt_append, scrambleAt_filter_nonempty, ih]
    by_cases hin : lo ≤ a ∧ a < hi
    · simp only [scrambleAt, if_pos hin]
      rw [if_neg (by omega), if_neg (by omega)]
      simp
    · simp only [scrambleAt, if_neg hin]
      by_cases hs : s.lo ≤ a ∧ a < s.hi
      · rcases Nat.lt_or_ge a lo with hlo | hlo
        · rw [if_pos (by omega), if_neg (by omega), if_pos hs]
          simp
        · rw [if_neg (by omega), if_pos (by omega), if_pos hs]
          simp
      · rw [if_neg (by omega), if_neg (by omega), if_neg hs]
        simp

/-- A cleared range reads zero, and every other byte as before. -/
theorem Device.byte_zero (d : Device) {lo hi : Nat} (h : lo < hi) (a : Nat) :
    (d.zero lo hi).byte a = if lo ≤ a ∧ a < hi then 0 else d.byte a := by
  simp only [Device.byte, Device.zero, if_neg (Nat.not_le.mpr h), scrambleAt_cut _ h]
  by_cases hin : lo ≤ a ∧ a < hi
  · rw [mget_filter_of_drop (fun v => by simp [hin])]
    simp [hin]
  · have hout : a < lo ∨ hi ≤ a := by omega
    rw [mget_filter_of_keep (fun v => by simpa using hout), if_neg hin, if_neg hin]

/-! ### Worlds and castling (R334, R344 to R346) -/

theorem Device.mworldWrite_of_halted {d : Device} {h : Nat} (w : Bool) (hh : ((d.dbg.module 0).hart h).halted = true) :
    d.mworldWrite h w = d := by
  simp [Device.mworldWrite, hh]

theorem Device.mworldWrite_hart {d : Device} {h : Nat} (w : Bool) (hh : ((d.dbg.module 0).hart h).halted = false) (k : Nat) :
    (d.mworldWrite h w).proc.hart k
      = if k = h then ⟨w, (d.proc.hart h).predictors && (d.proc.hart h).mworld == w⟩ else d.proc.hart k := by
  simp [Device.mworldWrite, hh, Device.modProc, Proc.hart, tget_tput]

theorem Device.mworldWrite_eq {d : Device} {h : Nat} (w : Bool) (hh : ((d.dbg.module 0).hart h).halted = false) :
    d.mworldWrite h w = { d with proc := { d.proc with harts := (d.mworldWrite h w).proc.harts },
                                 dbg := { d.dbg with modules := (d.mworldWrite h w).dbg.modules } } := by
  simp [Device.mworldWrite, hh, Device.modProc, Dbg.setModule]

/-- The mailbox plays no part in the refusal of a castling. -/
theorem Device.castleReason_sec (d : Device) (x : Sec) (r : CastleReq) :
    ({ d with sec := x } : Device).castleReason r = d.castleReason r := rfl

theorem Proc.castling_tins (p : Proc) (u : Nat) (c : Castling) :
    ({ p with castlings := tins (tdel p.castlings u) u c } : Proc).castling u = some c := by
  simp [Proc.castling, find?_tins_tdel_same]

theorem Device.castle_accepted {d : Device} {r : CastleReq} (h : d.castleReason r = 0) :
    d.castle r = d.modProc fun p => { p with
      castlings := tins (tdel p.castlings r.unit) r.unit ⟨r.world, r.kind, r.vmid, r.inst, r.ctx, r.secure, false⟩,
      wat := tput watDef p.wat r.unit { p.watEntry r.unit with moving := true } } := by
  simp [Device.castle, h]

theorem Device.castle_refused {d : Device} {r : CastleReq} (h : d.castleReason r ≠ 0) :
    d.castle r = { d with proc := { d.proc with castleResult := some (r.unit, d.castleReason r) },
                          out := .castle r.unit (d.castleReason r) :: d.out } := by
  simp [Device.castle, h, Device.modProc, Device.note]

theorem Device.zero_frame (d : Device) (lo hi : Nat) :
    d.zero lo hi = { d with mem := (d.zero lo hi).mem, scrambles := (d.zero lo hi).scrambles } := by
  by_cases h : hi ≤ lo <;> simp [Device.zero, h]

@[simp] theorem Device.zero_proc (d : Device) (lo hi : Nat) : (d.zero lo hi).proc = d.proc := by rw [Device.zero_frame]
@[simp] theorem Device.zero_tb (d : Device) (lo hi : Nat) : (d.zero lo hi).tb = d.tb := by rw [Device.zero_frame]
@[simp] theorem Device.zero_jobs (d : Device) (lo hi : Nat) : (d.zero lo hi).jobs = d.jobs := by rw [Device.zero_frame]

/-- Of the state of processors, time and jobs, the reset of a unit clears the unit's wired interrupt alone. -/
theorem Device.unitReset_leaves (d : Device) (u : Nat) :
    (d.unitReset u).proc = { d.proc with aplic := d.proc.aplic.filter fun x => x != u } ∧ (d.unitReset u).tb = d.tb
      ∧ (d.unitReset u).jobs = d.jobs := by
  unfold Device.unitReset
  split_ifs <;> simp [Device.modProc, Device.discardBlk, Device.resetWords, Device.fencePort]

/-- The reset of a unit outside the system SRAM touches no memory. -/
theorem Device.unitReset_memory (d : Device) {u : Nat} (h : u < 0x80) :
    (d.unitReset u).mem = d.mem ∧ (d.unitReset u).scrambles = d.scrambles := by
  simp only [Device.unitReset, if_neg (show ¬ 0x80 ≤ u by omega)]
  split_ifs <;> simp [Device.modProc, Device.discardBlk, Device.resetWords, Device.fencePort]

/-- The granule of system SRAM that a unit is. -/
theorem Device.unitReset_granule (d : Device) {u : Nat} (h : 0x80 ≤ u) (a : Nat) :
    (d.unitReset u).byte a
      = if sramBase + (u - 0x80) * 0x1_0000 ≤ a ∧ a < sramBase + (u - 0x80) * 0x1_0000 + 0x1_0000 then 0 else d.byte a := by
  have hgpx : u ≠ gpxUnit := by simp only [gpxUnit]; omega
  have hend : sramBase + (u - 0x7F) * 0x1_0000 = sramBase + (u - 0x80) * 0x1_0000 + 0x1_0000 := by omega
  simp only [Device.unitReset, if_neg (show ¬ u < 0x20 by omega), if_neg (show ¬ (u = 0x24 ∨ u = 0x25) by omega), if_neg hgpx,
    if_pos h, hend]
  exact Device.byte_zero _ (by omega) a

theorem Device.quiesceDone_eq {d : Device} {u : Nat} {c : Castling} (hc : d.proc.castling u = some c) (hr : c.resetDone = false) :
    d.quiesceDone u
      = (d.unitReset u).modProc fun p => { p with castlings := tins (tdel p.castlings u) u { c with resetDone := true } } := by
  simp [Device.quiesceDone, hc, hr]

/-! ### Invalidations (R341) -/

theorem Device.inval_idle {d : Device} (w : Nat) (h : d.proc.invalBusy = none) :
    d.inval w = d.invalStart ⟨w, d.proc.invalAddr⟩ := by
  simp [Device.inval, h]

theorem Device.inval_busy {d : Device} (w : Nat) (h : d.proc.invalBusy ≠ none) :
    d.inval w = d.modProc fun p => { p with invalHeld := p.invalHeld ++ [⟨w, d.proc.invalAddr⟩] } := by
  simp [Device.inval, h]

theorem Device.invalEnd_alone {d : Device} (h : d.proc.invalBusy ≠ none) (hheld : d.proc.invalHeld = []) :
    d.invalEnd = d.modProc fun p => { p with invalBusy := none, invalDone := true } := by
  obtain ⟨b, hb⟩ := Option.ne_none_iff_exists'.mp h
  simp [Device.invalEnd, hb, hheld]

theorem Device.invalEnd_next {d : Device} {i : Inval} {rest : List Inval} (h : d.proc.invalBusy ≠ none)
    (hheld : d.proc.invalHeld = i :: rest) : d.invalEnd = (d.modProc fun p => { p with invalHeld := rest }).invalStart i := by
  obtain ⟨b, hb⟩ := Option.ne_none_iff_exists'.mp h
  simp [Device.invalEnd, hb, hheld]

theorem Device.dlogClear_dlog (d : Device) (i k : Nat) :
    (d.dlogClear i).proc.dlog k
      = if k = i then { d.proc.dlog i with head := (d.proc.dlog i).tail, ovf := false, filter := [] } else d.proc.dlog k := by
  simp [Device.dlogClear, Device.modProc, Proc.setDlog, Proc.dlog, tget_tput]

theorem Device.quiesceDone_leaves {d : Device} {u : Nat} {c : Castling} (hc : d.proc.castling u = some c)
    (hr : c.resetDone = false) :
    let e := d.quiesceDone u
    e.proc.castling u = some { c with resetDone := true } ∧ e.proc.wat = d.proc.wat ∧ e.proc.insts = d.proc.insts
      ∧ e.tb = d.tb ∧ e.jobs = d.jobs ∧ e.mem = (d.unitReset u).mem ∧ e.scrambles = (d.unitReset u).scrambles := by
  obtain ⟨hproc, htb, hjobs⟩ := d.unitReset_leaves u
  have hwat := congrArg Proc.wat hproc
  have hinsts := congrArg Proc.insts hproc
  rw [Device.quiesceDone_eq hc hr]
  exact ⟨Proc.castling_tins _ _ _, hwat, hinsts, htb, hjobs, rfl, rfl⟩

/-- Settles O46, command by command from what each one's operation writes. -/
theorem worldCommands : Obligations.WorldCommands := by
  intro s hs p
  refine ⟨fun h w => ⟨fun hrun => ?_, fun hhalt => ?_⟩, fun r => ⟨fun hr => ?_, fun hr => ?_⟩, fun u c hc hdone => ?_,
    fun w => ⟨fun hidle => ?_, fun hbusy => ?_⟩, fun hbusy hheld => ?_, fun i rest hbusy hheld => ?_, ?_, ?_, fun i => ?_⟩
  · refine Runs.of_on hs (exec_mworldWrite h w s) ⟨?_, fun hne => ?_, fun heq => ?_, fun k hk => ?_, Device.mworldWrite_eq w hrun⟩
    · simp [Device.mworldWrite_hart w hrun]
    · simp [Device.mworldWrite_hart w hrun, show (s.dev.proc.hart h).mworld ≠ w from hne]
    · simp [Device.mworldWrite_hart w hrun, show (s.dev.proc.hart h).mworld = w from heq, p]
    · rw [Device.mworldWrite_hart w hrun, if_neg hk]
  · exact Runs.of_on hs (exec_mworldWrite h w s) (Device.mworldWrite_of_halted w hhalt)
  · refine Runs.of_on hs (exec_castle r s) ?_
    rw [Device.castle_accepted ((s.dev.castleReason_sec _ r).trans hr)]
    exact ⟨Proc.castling_tins _ _ _, tget_tput_same _ _ _ _, fun k hk => tget_tput_other _ _ _ hk, rfl⟩
  · refine Runs.of_on hs (exec_castle r s) ?_
    rw [Device.castle_refused (by rwa [Device.castleReason_sec]), Device.castleReason_sec]
  · obtain ⟨hcast, hwat, hinsts, htb, hjobs, hmem, hscr⟩ := Device.quiesceDone_leaves hc hdone
    have hbyte (a : Nat) : (s.dev.quiesceDone u).byte a = (s.dev.unitReset u).byte a := by
      simp only [Device.byte, hmem, hscr]
    refine Runs.of_on hs (exec_quiesceDone u s) ⟨hcast, hwat, hinsts, htb, hjobs, fun hu => ⟨fun a hlo hhi => ?_, fun a ha => ?_⟩,
      fun hu => ?_⟩
    · rw [hbyte, Device.unitReset_granule _ hu, if_pos ⟨hlo, hhi⟩]
    · rw [hbyte, Device.unitReset_granule _ hu, if_neg (by omega)]
    · rw [hmem, hscr]
      exact s.dev.unitReset_memory hu
  · exact Runs.of_on hs (exec_inval w s) (Device.inval_idle _ hidle)
  · exact Runs.of_on hs (exec_inval w s) (Device.inval_busy _ hbusy)
  · exact Runs.of_on hs (exec_invalDone s) (Device.invalEnd_alone hbusy hheld)
  · exact Runs.of_on hs (exec_invalDone s) (Device.invalEnd_next hbusy hheld)
  · exact Runs.of_on hs (exec_pcieLinkDown s) rfl
  · exact Runs.of_on hs (exec_pcieLinkUp s) rfl
  · refine Runs.of_on hs (exec_dlogOvfClear i s) ⟨?_, fun k hk => ?_, rfl⟩
    · rw [Device.dlogClear_dlog, if_pos rfl]
    · rw [Device.dlogClear_dlog, if_neg hk]

/-! ### What the sending of a message touches (R252 to R254, R262) -/

/-- The device without what sending changes: the queues and routes of the links, the messages that wait, notes and free values. -/
def Device.sansSends (d : Device) : Device :=
  { d with fab := { d.fab with ports := [], routes := [], waiting := [] }, out := [], fresh := 0 }

@[simp] theorem Device.note_sansSends (d : Device) (n : Note) : (d.note n).sansSends = d.sansSends := rfl

@[simp] theorem Device.modLink_sansSends (d : Device) (p : Nat) (f : LPort → LPort) :
    (d.modLink p f).sansSends = d.sansSends := rfl

@[simp] theorem Device.pump_sansSends (d : Device) (p : Nat) : (d.pump p).sansSends = d.sansSends := by
  unfold Device.pump
  rw [foldl_keeps Device.sansSends fun _ _ => Device.note_sansSends _ _, Device.modLink_sansSends]
  split <;> rfl

@[simp] theorem Device.tx_sansSends (d : Device) (p : Nat) (m : FMsg) : (d.tx p m).sansSends = d.sansSends := by
  simp [Device.tx]

theorem Device.depart_sansSends (d : Device) {m : FMsg} (ring q : Nat) (down alt own : Bool) (hm : m.isPut = false) :
    (d.depart m ring q down alt own).sansSends = d.sansSends := by
  have hput : FMsg.isPut { m with down := m.down || down } = false := hm
  simp only [Device.depart, hput, Bool.and_false, Bool.false_eq_true, if_false, Device.tx_sansSends]
  rfl

/-- A message that takes no number and whose missing route is no event: neither a put nor a read request nor a signal. -/
def FMsg.unnumbered (m : FMsg) : Bool := !(m.isPut || m.type == .rdReq || m.type == .signal)

theorem FMsg.isPut_of_unnumbered {m : FMsg} (h : m.unnumbered = true) : m.isPut = false := by
  simp only [FMsg.unnumbered, Bool.not_eq_true', Bool.or_eq_false_iff] at h
  exact h.1.1

theorem Device.noRoute_of_unnumbered (d : Device) {m : FMsg} (ring : Nat) (own : Bool) (h : m.unnumbered = true) :
    d.noRoute m ring own = d := by
  unfold Device.noRoute
  split
  case h_5 => rfl
  all_goals simp_all [FMsg.unnumbered, FMsg.isPut]

/-- A message leaves, waits, or finds no route: each of the three touches what sending touches. -/
theorem Device.send_sansSends (d : Device) {m : FMsg} (ring : Nat) (h : m.unnumbered = true) :
    (d.send m ring).sansSends = d.sansSends := by
  have hput := FMsg.isPut_of_unnumbered h
  unfold Device.send
  extract_lets own wait
  have hwait : (wait d).sansSends = d.sansSends := rfl
  split
  · exact hwait
  · split
    · exact hwait
    · rw [Device.noRoute_of_unnumbered d ring own h]
    · rw [hput, Bool.and_false, Bool.false_and, if_neg Bool.false_ne_true]
      exact d.depart_sansSends ring _ _ _ _ hput

/-! ### What a move of a ring touches (R166, R206, R208, R270) -/

/-- The job without what an event of a ring changes: trigger counters and the marks of idleness. -/
def Job.calm (x : Job) : Job := { x with trig := [], trigOvf := 0, idleSince := none, dormant := false }

theorem Job.trigger_calm (x : Job) (t consumed events : Nat) : (x.trigger t consumed events).calm = x.calm := by
  unfold Job.trigger
  split <;> rfl

theorem Device.modJob_calm (d : Device) (k : Nat) {f : Job → Job} (hf : ∀ x : Job, (f x).calm = x.calm) (j : Nat) :
    ((d.modJob k f).job j).calm = (d.job j).calm := by
  rw [Device.modJob_job_if]
  split
  · next h => rw [hf, h]
  · rfl

/-- What no change of a job's counters touches, an event at trigger inputs leaves (R208, R209). -/
theorem Device.triggerBy_keeps {γ : Type} (φ : Device → γ)
    (hjob : ∀ (d : Device) (j : Nat) (f : Job → Job), (∀ x : Job, (f x).calm = x.calm) → φ (d.modJob j f) = φ d)
    (d : Device) (p : Nat → Bool) : φ (d.triggerBy p) = φ d := by
  refine foldl_keeps φ (fun d j => foldl_keeps φ (fun d t => ?_) _ _) _ _
  split
  · exact hjob d j _ fun x => x.trigger_calm t 0 1
  · rfl

/-- A move of a ring writes the ring; what else it does is to mark its head as due to its producer and to change counters of
jobs. -/
theorem Device.moveRing_keeps {γ : Type} (φ : Device → γ)
    (hdue : ∀ (d : Device) (l : List Nat), φ { d with fab := { d.fab with headDue := l } } = φ d)
    (hjob : ∀ (d : Device) (j : Nat) (f : Job → Job), (∀ x : Job, (f x).calm = x.calm) → φ (d.modJob j f) = φ d)
    (d : Device) (n : Nat) (r : Ring) : φ (d.moveRing n r) = φ (d.setRing n r) := by
  have hmark (c : Bool) (l : List Nat) (e : Device) :
      φ (if c then { e with fab := { e.fab with headDue := l } } else e) = φ e := by
    split
    · exact hdue _ _
    · rfl
  have hawake (c : Bool) (j : Nat) (e : Device) :
      φ (if c then e.modJob j fun x => { x with idleSince := none, dormant := false } else e) = φ e := by
    split
    · exact hjob _ _ _ fun _ => rfl
    · rfl
  simp only [Device.moveRing]
  split
  · rw [Device.triggerBy_keeps φ hjob, hawake, hmark]
  · rw [hmark]

@[simp] theorem Device.moveRing_rings (d : Device) (n : Nat) (r : Ring) :
    (d.moveRing n r).rings = (d.setRing n r).rings :=
  Device.moveRing_keeps Device.rings (fun _ _ => rfl) (fun _ _ _ _ => rfl) d n r

theorem Device.ring_congr {d e : Device} (h : e.rings = d.rings) (k : Nat) : e.ring k = d.ring k := by
  simp only [Device.ring, h]

theorem Device.moveRing_ring (d : Device) (n k : Nat) (r : Ring) :
    (d.moveRing n r).ring k = if k = n then r else d.ring k := by
  rw [Device.ring_congr (d.moveRing_rings n r), Device.setRing_ring_if]

theorem Device.moveRing_calm (d : Device) (n : Nat) (r : Ring) (j : Nat) :
    ((d.moveRing n r).job j).calm = (d.job j).calm :=
  Device.moveRing_keeps (fun d => (d.job j).calm) (fun _ _ => rfl) (fun d k _ hf => d.modJob_calm k hf j) d n r

/-- The device without rings, jobs, the fabric, outputs and free values. -/
def Device.sansRings (d : Device) : Device := { d with rings := [], jobs := [], fab := Fab.init, out := [], fresh := 0 }

theorem Device.eq_of_sansRings {d e : Device} (h : e.sansRings = d.sansRings) :
    e = { d with rings := e.rings, jobs := e.jobs, fab := e.fab, out := e.out, fresh := e.fresh } :=
  congrArg (fun x : Device => { x with rings := e.rings, jobs := e.jobs, fab := e.fab, out := e.out, fresh := e.fresh }) h

@[simp] theorem Device.moveRing_sansRings (d : Device) (n : Nat) (r : Ring) : (d.moveRing n r).sansRings = d.sansRings :=
  Device.moveRing_keeps Device.sansRings (fun _ _ => rfl) (fun _ _ _ _ => rfl) d n r

theorem Device.sansRings_of_sansSends {d e : Device} (h : e.sansSends = d.sansSends) : e.sansRings = d.sansRings :=
  (congrArg Device.sansRings h :)

theorem Device.rings_of_sansSends {d e : Device} (h : e.sansSends = d.sansSends) : e.rings = d.rings :=
  (congrArg Device.rings h :)

/-- Heads told to their producers (R270): messages leave, and no head is due any more. -/
theorem Device.sendHeads_sansSends (d : Device) :
    d.sendHeads.sansSends = ({ d with fab := { d.fab with headDue := [] } } : Device).sansSends := by
  unfold Device.sendHeads
  refine foldl_keeps Device.sansSends (fun d n => ?_) _ _
  split
  · split
    · rfl
    · exact d.send_sansSends _ rfl
  · rfl

/-! ### Software's moves of rings (R165 to R170, R496) -/

/-- Of the rings, ring `r` alone changes; beside rings, jobs, the fabric, outputs and free values may. -/
def OnlyRing (r : Nat) (d e : Device) : Prop :=
  e = { d with rings := e.rings, jobs := e.jobs, fab := e.fab, out := e.out, fresh := e.fresh }
    ∧ ∀ k, k ≠ r → e.ring k = d.ring k

theorem OnlyRing.of_setRing {d e : Device} {n : Nat} {r : Ring} (h : e.sansRings = d.sansRings)
    (hr : e.rings = (d.setRing n r).rings) : OnlyRing n d e ∧ e.ring n = r := by
  have hring (k : Nat) : e.ring k = if k = n then r else d.ring k := by
    rw [Device.ring_congr hr, Device.setRing_ring_if]
  exact ⟨⟨Device.eq_of_sansRings h, fun k hk => by rw [hring, if_neg hk]⟩, by rw [hring, if_pos rfl]⟩

/-- The ring that an operation of software leaves: the result, or the ring with ERR. -/
def Ring.orErr (g : Ring) (r : Option Ring) : Ring := r.getD { g with err := true }

theorem Device.ringDo_sansRings (d : Device) (n : Nat) (r : Option Ring) : (d.ringDo n r).sansRings = d.sansRings := by
  cases r
  · rfl
  · exact d.moveRing_sansRings n _

theorem Device.ringDo_rings (d : Device) (n : Nat) (r : Option Ring) :
    (d.ringDo n r).rings = (d.setRing n ((d.ring n).orErr r)).rings := by
  cases r
  · rfl
  · exact d.moveRing_rings n _

theorem Device.ringDo_onlyRing (d : Device) (n : Nat) (r : Option Ring) :
    OnlyRing n d (d.ringDo n r) ∧ (d.ringDo n r).ring n = (d.ring n).orErr r :=
  OnlyRing.of_setRing (d.ringDo_sansRings n r) (d.ringDo_rings n r)

theorem Device.ringDo_sendHeads_onlyRing (d : Device) (n : Nat) (r : Option Ring) :
    OnlyRing n d (d.ringDo n r).sendHeads ∧ (d.ringDo n r).sendHeads.ring n = (d.ring n).orErr r :=
  OnlyRing.of_setRing
    ((Device.sansRings_of_sansSends (Device.sendHeads_sansSends _)).trans (d.ringDo_sansRings n r))
    ((Device.rings_of_sansSends (Device.sendHeads_sansSends _)).trans (d.ringDo_rings n r))

theorem Ring.orErr_ite {p : Prop} [Decidable p] (g r : Ring) :
    g.orErr (if p then some r else none) = if p then r else { g with err := true } := by
  split <;> rfl

theorem Device.setRing_rings_congr {d e : Device} (h : e.rings = d.rings) (n : Nat) (r : Ring) :
    (e.setRing n r).rings = (d.setRing n r).rings := by
  simp only [Device.setRing, h]

theorem Device.scramble_eq (d : Device) (lo hi : Nat) :
    d.scramble lo hi = { d with scrambles := (d.scramble lo hi).scrambles, fresh := (d.scramble lo hi).fresh } := by
  by_cases h : lo < hi <;> simp [Device.scramble, h]

/-- What neither undefined bytes nor engines touch, a second producer of a ring leaves (R169). -/
theorem Device.ringClash_keeps {γ : Type} (φ : Device → γ) (hscr : ∀ (d : Device) lo hi, φ (d.scramble lo hi) = φ d)
    (heng : ∀ (d : Device) e f, φ (d.modEng e f) = φ d) (d : Device) (n k : Nat) : φ (d.ringClash n k) = φ d := by
  unfold Device.ringClash
  refine (foldl_keeps φ (fun d e => ?_) _ _).trans (foldl_keeps φ (fun d i => hscr d _ _) _ _)
  split
  · exact heng _ _ _
  · rfl

@[simp] theorem Device.scramble_rings (d : Device) (lo hi : Nat) : (d.scramble lo hi).rings = d.rings := by
  rw [Device.scramble_eq]

@[simp] theorem Device.ringClash_rings (d : Device) (n k : Nat) : (d.ringClash n k).rings = d.rings :=
  Device.ringClash_keeps Device.rings Device.scramble_rings (fun _ _ _ => rfl) d n k

/-- The device without what software's move of a ring and a clash of its producers touch. -/
def Device.sansClash (d : Device) : Device := { d.sansRings with eng := [], scrambles := [] }

theorem Device.ringClash_sansClash (d : Device) (n k : Nat) : (d.ringClash n k).sansClash = d.sansClash :=
  Device.ringClash_keeps Device.sansClash (fun d lo hi => by rw [Device.scramble_eq]; rfl) (fun _ _ _ => rfl) d n k

theorem Device.ringPublish_alone {d : Device} {n : Nat} (k : Nat) (h : ∀ e, e < 32 → (d.engine e).produces n = false) :
    d.ringPublish n k = d.ringDo n ((d.ring n).publish k) := by
  have hnone : ((List.range 32).any fun e => (d.engine e).produces n) = false := by
    simpa using h
  simp [Device.ringPublish, hnone]

/-- A publish writes the ring, on a device whose rings are as before (R168, R169). -/
theorem Device.ringPublish_eq (d : Device) (n k : Nat) :
    ∃ x : Device, x.sansClash = d.sansClash ∧ x.rings = d.rings ∧ d.ringPublish n k = x.ringDo n ((d.ring n).publish k) := by
  refine ⟨_, ?_, ?_, rfl⟩
  · split
    · exact d.ringClash_sansClash n k
    · rfl
  · split
    · exact d.ringClash_rings n k
    · rfl

theorem Device.ringPublish_onlyRing (d : Device) (n k : Nat) :
    OnlyRing n d { d.ringPublish n k with eng := d.eng, scrambles := d.scrambles }
      ∧ (d.ringPublish n k).ring n = (d.ring n).orErr ((d.ring n).publish k) := by
  obtain ⟨x, hsans, hrings, heq⟩ := d.ringPublish_eq n k
  have hdo : (d.ringPublish n k).sansClash = d.sansClash := by
    rw [heq]
    exact (congrArg (fun y : Device => { y with eng := [], scrambles := [] }) (x.ringDo_sansRings n _) :).trans hsans
  have hset : (d.ringPublish n k).rings = (d.setRing n ((d.ring n).orErr ((d.ring n).publish k))).rings := by
    rw [heq, x.ringDo_rings, Device.ring_congr hrings, Device.setRing_rings_congr hrings]
  exact OnlyRing.of_setRing (d := d) (e := { d.ringPublish n k with eng := d.eng, scrambles := d.scrambles })
    (congrArg (fun y : Device => { y with eng := d.eng, scrambles := d.scrambles }) hdo :) hset

theorem Device.ringEnable_creates {d : Device} {n : Nat} {cfg : Nat} (hd : (d.ring n).enable = false) (he : bitOf cfg 15 = true) :
    d.ringEnable n cfg = d.setRing n (if ((d.ring n).withCfg cfg).geometryOk (n / 256)
      then { (d.ring n).withCfg cfg with head := .zero, tail := .zero }
      else { (d.ring n).withCfg cfg with enable := false, err := true }) := by
  have hcfg : ((d.ring n).withCfg cfg).enable = true := he
  have hcreate : ((d.ring n).withCfg cfg).create = { (d.ring n).withCfg cfg with head := .zero, tail := .zero } := by
    simp [Ring.create, ← hcfg]
  simp only [Device.ringEnable, hd, hcfg, hcreate, Bool.false_eq_true, if_false, if_true]
  split <;> rfl

theorem Device.ringEnable_enabled {d : Device} {n : Nat} (cfg : Nat) (he : (d.ring n).enable = true) :
    d.ringEnable n cfg = d.cfgRefused n cfg := by
  simp [Device.ringEnable, he]

theorem Device.setRing_onlyRing (d : Device) (n : Nat) (r : Ring) : OnlyRing n d (d.setRing n r) :=
  (OnlyRing.of_setRing (d := d) (e := d.setRing n r) rfl rfl).1

theorem Device.cfgRefused_eq (d : Device) (n cfg : Nat) :
    ∃ dict fresh, d.cfgRefused n cfg = { d.ringErr n with dict := dict, fresh := fresh } := by
  unfold Device.cfgRefused
  split
  · exact ⟨_, _, rfl⟩
  · exact ⟨d.dict, d.fresh, rfl⟩

theorem Device.cfgRefused_onlyRing (d : Device) (n cfg : Nat) :
    OnlyRing n d { d.cfgRefused n cfg with dict := d.dict } ∧ (d.cfgRefused n cfg).ring n = { d.ring n with err := true } := by
  obtain ⟨dict, fresh, h⟩ := d.cfgRefused_eq n cfg
  rw [h]
  exact OnlyRing.of_setRing (d := d) (e := { d.ringErr n with dict := d.dict, fresh := fresh }) rfl rfl

theorem Device.cfgRefused_exhausted {d : Device} {n cfg : Nat} (he : bitOf cfg 15 = true) (hfull : d.ringsFull n = true) :
    (d.cfgRefused n cfg).dict.log.head?.map Event.code = some evExhaustion := by
  simp [Device.cfgRefused, he, hfull, Device.exhausted, Device.event, Device.stamp, Dict.event]

/-- A write of CFG that clears ENABLE alone, on a ring that no job owns and no command names, disables the ring (R496). -/
theorem Device.ringDisable_enabled {d : Device} {n : Nat} (cfg : Nat) (he : (d.ring n).enable = true) :
    d.ringDisable n cfg = if (d.ring n).withCfg cfg = { d.ring n with enable := false } ∧ (d.ring n).jobOwn = false
        ∧ d.ringNamed n = false then d.setRing n { d.ring n with enable := false } else d.cfgRefused n cfg := by
  simp [Device.ringDisable, he]

theorem Ring.set_eq (g : Ring) :
    g.set = if g.enable = true ∧ g.setHead % 2 ^ 24 < g.count ∧ g.setTail % 2 ^ 24 < g.count
      then some { g with head := .ofWord g.setHead, tail := .ofWord g.setTail } else none := by
  simp only [Ring.set, Bool.and_eq_true, decide_eq_true_eq, and_assoc]
  rfl

/-- Settles O34: every operation writes one ring, or sets its ERR. -/
theorem ringMoves : Obligations.RingMoves := by
  intro s r hs g only alone
  refine ⟨fun n => ?_, fun n => ?_, ?_, ?_, fun cfg hdis hcfg => ?_, fun cfg hen => ?_, fun cfg hen => ?_⟩
  · obtain ⟨honly, hring⟩ := s.dev.ringDo_sendHeads_onlyRing r (g.advance n.toNat)
    refine Runs.of_on hs (exec_ringAdvance r n s) ⟨honly, hring.trans ?_⟩
    simp [g, Ring.advance, Ring.orErr_ite]
  · obtain ⟨honly, hring⟩ := s.dev.ringPublish_onlyRing r n.toNat
    refine Runs.of_on hs (exec_ringPublish r n s) ⟨fun halone => ?_, honly, hring.trans ?_⟩
    · rw [Device.ringPublish_alone _ halone]
      exact (s.dev.ringDo_onlyRing r _).1
    · simp [g, Ring.publish, Ring.orErr_ite]
  · obtain ⟨honly, hring⟩ := s.dev.ringDo_sendHeads_onlyRing r (if g.enable && !s.dev.ringNamed r then some g.reset else none)
    refine Runs.of_on hs (exec_ringReset r s) ⟨honly, hring.trans ?_⟩
    simp [g, Ring.reset, Ring.orErr_ite]
  · obtain ⟨honly, hring⟩ := s.dev.ringDo_sendHeads_onlyRing r (if s.dev.ringNamed r then none else g.set)
    refine Runs.of_on hs (exec_ringSet r s) ⟨honly, hring.trans ?_⟩
    cases hnamed : s.dev.ringNamed r
    · simp [g, Ring.set_eq, Ring.orErr_ite]
    · simp [g, Ring.orErr]
  · refine Runs.of_on hs (exec_ringEnable r cfg s) ?_
    rw [Device.ringEnable_creates hdis hcfg]
    exact ⟨s.dev.setRing_onlyRing r _, s.dev.setRing_ring r _⟩
  · refine Runs.of_on hs (exec_ringEnable r cfg s) ?_
    rw [Device.ringEnable_enabled _ hen]
    obtain ⟨honly, hring⟩ := s.dev.cfgRefused_onlyRing r cfg.toNat
    exact ⟨hring, honly, fun hbit hfull => Device.cfgRefused_exhausted hbit hfull⟩
  · refine Runs.of_on hs (exec_ringDisable r cfg s) ?_
    obtain ⟨honly, hring⟩ := s.dev.cfgRefused_onlyRing r cfg.toNat
    rw [Device.ringDisable_enabled _ hen]
    split
    · exact ⟨s.dev.setRing_onlyRing r _, s.dev.setRing_ring r _⟩
    · exact ⟨honly, hring⟩

/-! ### Bytes written (R6) -/

theorem Device.put_eq (d : Device) (a : Nat) (bs : List Byte) : d.put a bs = { d with mem := (d.put a bs).mem } := by
  induction bs generalizing d a with
  | nil => rfl
  | cons b bs ih => exact (ih (d.putByte a b) (a + 1)).trans rfl

/-- A byte string is read where it was written, and every other byte is as before. -/
theorem Device.byte_put (d : Device) (a : Nat) (bs : List Byte) (b : Nat) :
    (d.put a bs).byte b = if a ≤ b ∧ b < a + bs.length then bs.getD (b - a) 0 else d.byte b := by
  induction bs generalizing d a with
  | nil => rw [if_neg (by simp only [List.length_nil]; omega)]; rfl
  | cons x bs ih =>
    rw [Device.put, ih, List.length_cons]
    rcases Nat.lt_trichotomy b a with hb | rfl | hb
    · rw [if_neg (by omega), if_neg (by omega), Device.byte_putByte_other _ _ (by omega)]
    · rw [if_neg (by omega), if_pos (by omega), Device.byte_putByte_same]
      simp
    · obtain ⟨k, rfl⟩ : ∃ k, b = a + 1 + k := ⟨b - a - 1, by omega⟩
      have hk : a + 1 + k - a = k + 1 := by omega
      by_cases hin : k < bs.length
      · rw [if_pos (by omega), if_pos (by omega), hk, Nat.add_sub_cancel_left, List.getD_cons_succ]
      · rw [if_neg (by omega), if_neg (by omega), Device.byte_putByte_other _ _ (by omega)]

/-! ### Traffic of a command (R221, R228, R235) -/

theorem Device.served_eq (d : Device) (p : Port) (write : Bool) (a n : Nat) :
    d.served p write a n = { d with noc := (d.served p write a n).noc, fresh := (d.served p write a n).fresh } := by
  unfold Device.served
  split
  · rfl
  · split <;> rfl

theorem Device.logRemote_eq (d : Device) (world write : Bool) (a n : Nat) :
    ∃ noc out, d.logRemote world write a n = { d with noc := noc, out := out } := by
  unfold Device.logRemote
  split
  · exact ⟨d.noc, d.out, rfl⟩
  · exact ⟨_, _, rfl⟩

/-! ### Tags of remote reads (R264) -/

@[simp] theorem Fab.freeRTag_tag_same (f : Fab) (t : Nat) : (f.freeRTag t).tag t = none := by
  simp [Fab.freeRTag, Fab.tag, find?_tdel_same]

theorem Device.grantRTag_of_none_stalled {d : Device} (h : d.fab.stalled = []) : d.grantRTag = d := by
  simp [Device.grantRTag, h, Fab.nextStalled]

theorem Device.flush_of_none_waiting {d : Device} (routes : Bool) (h : d.fab.waiting = []) : d.flush routes = d := by
  have hfab : ({ d.fab with waiting := [] } : Fab) = d.fab := by rw [← h]
  simp [Device.flush, h, Device.modFab, hfab]

/-! ### The bridge error log (R27, R264, R266) -/

@[simp] theorem Fab.logErr_entry (f : Fab) (e : BridgeErr) : tget bridgeErrDef (f.logErr e).errLog f.errNext = e := by
  simp [Fab.logErr]

theorem Device.logBridge_eq (d : Device) (addr kind dev tag reason : Nat) :
    d.logBridge addr kind dev tag reason = { d with
      fab := d.fab.logErr ⟨addr, kind, dev, tag, reason, d.stamp.1⟩, out := .irqBridge :: d.out, fresh := d.fresh + 1 } := rfl

theorem Device.logBridge_kind {d : Device} {n : Nat} (addr kind dev tag reason : Nat) (h : d.fab.errNext = n) :
    (tget bridgeErrDef (d.logBridge addr kind dev tag reason).fab.errLog n).kind = kind := by
  simp [Device.logBridge_eq, ← h]

theorem Device.logBridge_reason {d : Device} {n : Nat} (addr kind dev tag reason : Nat) (h : d.fab.errNext = n) :
    (tget bridgeErrDef (d.logBridge addr kind dev tag reason).fab.errLog n).reason = reason := by
  simp [Device.logBridge_eq, ← h]

theorem Fab.badRing_eq (f : Fab) (ring : Nat) : f.badRing ring = { f with badPutRings := (f.badRing ring).badPutRings } := by
  unfold Fab.badRing
  split <;> rfl

@[simp] theorem Fab.badRing_waiting (f : Fab) (ring : Nat) : (f.badRing ring).waiting = f.waiting := by rw [Fab.badRing_eq]
@[simp] theorem Fab.badRing_errNext (f : Fab) (ring : Nat) : (f.badRing ring).errNext = f.errNext := by rw [Fab.badRing_eq]
@[simp] theorem Fab.badRing_putDst (f : Fab) (ring k : Nat) : (f.badRing ring).putDst k = f.putDst k := by
  rw [Fab.badRing_eq]
  rfl

theorem Fab.mem_badRing (f : Fab) {ring : Nat} (h : ring ≠ noRing) : ring ∈ (f.badRing ring).badPutRings := by
  unfold Fab.badRing
  split
  · next hor =>
    rcases hor with heq | hmem
    · exact absurd heq h
    · simpa using hmem
  · simp

/-! ### Remote reads at their destination (R28, R253, R264, R268) -/

@[simp] theorem Device.remoteRead_clean (d : Device) (world : Bool) (a : Nat) : d.remoteRead world a .clean = (true, d) := by
  unfold Device.remoteRead
  cases placeOf a <;> rfl

section Destination

variable {d : Device} {m : FMsg} (hown : d.isOwn m.dst = true)
include hown

theorem Device.rdReq_untaken (o : EccOutcome) (h : (d.takesFrom m.src && m.fits d.fab.maxData) = false) :
    d.rdReq m o = d.free16.2.sendErr m d.free16.1 := by
  simp [Device.rdReq, hown, h]

theorem Device.rdReq_unreached (o : EccOutcome) (h : (d.takesFrom m.src && m.fits d.fab.maxData) = true)
    (hreach : d.reaches .hub (m.addr % 2 ^ 40) = false) : d.rdReq m o = d := by
  simp only [Device.rdReq, hown, h, hreach, Bool.not_true, Bool.not_false, Bool.false_eq_true, if_false, if_true]

theorem Device.rdReq_refused (o : EccOutcome) (h : (d.takesFrom m.src && m.fits d.fab.maxData) = true)
    (hreach : d.reaches .hub (m.addr % 2 ^ 40) = true)
    (hno : d.remoteAllowed m.world false (m.addr % 2 ^ 40) (16 * m.len) = false) :
    d.rdReq m o = (d.logRemote m.world false (m.addr % 2 ^ 40) (16 * m.len)).free16.2.sendErr m
      (d.logRemote m.world false (m.addr % 2 ^ 40) (16 * m.len)).free16.1 := by
  simp only [Device.rdReq, hown, h, hreach, hno, Bool.not_true, Bool.false_eq_true, if_false]

theorem Device.rdReq_served (h : (d.takesFrom m.src && m.fits d.fab.maxData) = true)
    (hreach : d.reaches .hub (m.addr % 2 ^ 40) = true)
    (hmay : d.remoteAllowed m.world false (m.addr % 2 ^ 40) (16 * m.len) = true) :
    d.rdReq m .clean = (d.served Port.toterlink false (m.addr % 2 ^ 40) (16 * m.len)).send
      { FMsg.plain .rdData d.ownId m.src with
        level := m.level, tag := m.tag, gen := m.gen, addr := m.addr, len := m.len,
        data := d.bytes (m.addr % 2 ^ 40) (16 * m.len) } noRing := by
  simp only [Device.rdReq, hown, h, hreach, hmay, Device.remoteRead_clean, Bool.not_true, Bool.false_eq_true, if_false, if_true]

theorem Device.wr_unreached (h : (d.takesFrom m.src && m.fits d.fab.maxData) = true)
    (hreach : d.reaches .hub (m.addr % 2 ^ 40) = false) : d.wr m = d := by
  simp only [Device.wr, hown, h, hreach, Bool.not_true, Bool.not_false, Bool.false_eq_true, if_false, if_true]

theorem Device.wr_stored (h : (d.takesFrom m.src && m.fits d.fab.maxData) = true)
    (hreach : d.reaches .hub (m.addr % 2 ^ 40) = true)
    (hmay : d.remoteAllowed m.world true (m.addr % 2 ^ 40) (16 * m.len) = true) :
    d.wr m = ((d.put (m.addr % 2 ^ 40) (m.written (d.bytes (m.addr % 2 ^ 40) (16 * m.len)))).served Port.toterlink true
      (m.addr % 2 ^ 40) (16 * m.len)).landed m := by
  simp only [Device.wr, hown, h, hreach, hmay, Bool.not_true, Bool.false_eq_true, if_false, if_true]

end Destination

/-! ### Writes of other devices and their answers (R253, R266) -/

theorem FMsg.written_length (m : FMsg) (old : List Byte) : (m.written old).length = 16 * m.len := by
  unfold FMsg.written
  split
  · next h => simp [h.1]
  · simp [zeros]

theorem Device.nack_sansSends (d : Device) (m : FMsg) : (d.nack m).sansSends = d.sansSends :=
  Device.send_sansSends _ _ rfl

theorem Device.landed_sansSends (d : Device) (m : FMsg) :
    (d.landed m).sansSends = (d.modFab fun f =>
      { f with landed := tput natDef f.landed m.src ((tget natDef f.landed m.src + 1) % 2 ^ 16) }).sansSends :=
  Device.send_sansSends _ _ rfl

/-- A write that is taken stores its bytes and counts as landed (R266). -/
theorem Device.landed_put_served (d : Device) (m : FMsg) (a : Nat) (bs : List Byte) :
    let e := ((d.put a bs).served Port.toterlink true a bs.length).landed m
    (∀ b, e.byte b = (d.put a bs).byte b)
      ∧ tget natDef e.fab.landed m.src = (tget natDef d.fab.landed m.src + 1) % 2 ^ 16
      ∧ e = { d with mem := e.mem, noc := e.noc, fab := e.fab, out := e.out, fresh := e.fresh } := by
  intro e
  have he : e.sansSends = _ := Device.landed_sansSends _ m
  rw [Device.served_eq] at he
  have hmem : e.mem = (d.put a bs).mem := (congrArg Device.mem he :)
  have hscr : e.scrambles = (d.put a bs).scrambles := (congrArg Device.scrambles he :)
  have hput := d.put_eq a bs
  have hfab : (d.put a bs).fab = d.fab := by rw [hput]
  refine ⟨fun b => by simp only [Device.byte, hmem, hscr], ?_, ?_⟩
  · have hland : e.fab.landed = tput natDef (d.put a bs).fab.landed m.src
        ((tget natDef (d.put a bs).fab.landed m.src + 1) % 2 ^ 16) := (congrArg (fun x : Device => x.fab.landed) he :)
    rw [hland, tget_tput_same, hfab]
  · rw [hput] at he
    exact (congrArg (fun x : Device => { x with mem := e.mem, noc := e.noc, fab := e.fab, out := e.out, fresh := e.fresh }) he :)

/-- A write that is refused stores nothing. -/
theorem Device.nack_eq (d : Device) (m : FMsg) :
    d.nack m = { d with fab := (d.nack m).fab, out := (d.nack m).out, fresh := (d.nack m).fresh }
      ∧ (d.nack m).fab.landed = d.fab.landed :=
  ⟨(congrArg (fun x : Device => { x with fab := (d.nack m).fab, out := (d.nack m).out, fresh := (d.nack m).fresh })
      (d.nack_sansSends m) :), (congrArg (fun x : Device => x.fab.landed) (d.nack_sansSends m) :)⟩

theorem Device.wr_refused {d : Device} {m : FMsg} (hown : d.isOwn m.dst = true)
    (h : (d.takesFrom m.src && m.fits d.fab.maxData) = false ∨ d.reaches .hub (m.addr % 2 ^ 40) = true
      ∧ d.remoteAllowed m.world true (m.addr % 2 ^ 40) (16 * m.len) = false) :
    ∃ noc out, d.wr m = ({ d with noc := noc, out := out } : Device).nack m := by
  cases htakes : d.takesFrom m.src && m.fits d.fab.maxData with
  | false => exact ⟨d.noc, d.out, by simp [Device.wr, hown, htakes]⟩
  | true =>
    obtain ⟨hreach, hno⟩ := h.resolve_left (by simp [htakes])
    obtain ⟨noc, out, hlog⟩ := d.logRemote_eq m.world true (m.addr % 2 ^ 40) (16 * m.len)
    refine ⟨noc, out, ?_⟩
    rw [← hlog]
    simp only [Device.wr, hown, htakes, hreach, hno, Bool.not_true, Bool.false_eq_true, if_false]

/-! ### Answers to this device's requests (R264 to R266) -/

theorem Device.deliverRead_bus (d : Device) {r : RTag} {p : Port} {id : Nat} (bs : List Byte) (h : r.origin = .bus p id) :
    d.deliverRead r bs = d.modPort p fun x =>
      { x with inflight := x.inflight.map fun i => if i.id = id then i.fill r.addr bs else i } := by
  simp [Device.deliverRead, h]

theorem Device.deliverRead_engine {d : Device} {r : RTag} {e q : Nat} (bs : List Byte) (h : r.origin = .engine e q)
    (hgen : r.instGen = (d.proc.inst r.inst).gen) :
    d.deliverRead r bs = d.modEng e fun g => g.modIssued q fun i => { i with fetched := mwrite i.fetched r.addr bs } := by
  simp [Device.deliverRead, h, hgen]

theorem Device.readFails_bus (d : Device) {r : RTag} {p : Port} {id : Nat} (t kind reason : Nat) (h : r.origin = .bus p id) :
    d.readFails t r kind reason = ((d.modFab fun f => f.freeRTag t).logBridge r.addr kind r.dst t reason).modPort p fun x =>
      { x with inflight := x.inflight.map fun i => if i.id = id then { i with resp := .error } else i } := by
  simp [Device.readFails, h]

section Answers

variable {d : Device} {m : FMsg} (hown : d.isOwn m.dst = true)
include hown

/-- Answers from a device outside the part change nothing (R268). -/
theorem Device.answers_outside (h : d.takesFrom m.src = false) :
    d.rdData m = d ∧ d.rdErr m = d ∧ d.wrNack m = d ∧ d.putAck m = d := by
  simp [Device.rdData, Device.rdErr, Device.wrNack, Device.putAck, hown, h]

variable (hfrom : d.takesFrom m.src = true)
include hfrom

theorem Device.rdData_late (h : ∀ r, d.fab.tag m.tag = some r → r.gen ≠ m.gen ∨ r.dst ≠ m.src) : d.rdData m = d.lateRead := by
  simp only [Device.rdData, hown, hfrom, Bool.not_true, Bool.false_eq_true, if_false]
  split
  · rfl
  · next r hr => rw [if_pos (h r hr)]

theorem Device.rdData_delivers {r : RTag} (htag : d.fab.tag m.tag = some r) (hgen : r.gen = m.gen) (hdst : r.dst = m.src)
    (horph : r.orphan = false) : d.rdData m = ((d.modFab fun f => f.freeRTag m.tag).deliverRead r m.data).grantRTag := by
  simp [Device.rdData, hown, hfrom, htag, hgen, hdst, horph]

theorem Device.rdErr_fails {r : RTag} (hquery : m.tag ≠ queryTag) (htag : d.fab.tag m.tag = some r) (hgen : r.gen = m.gen)
    (hdst : r.dst = m.src) (horph : r.orphan = false) : d.rdErr m = (d.readFails m.tag r 3 m.arg).grantRTag := by
  simp [Device.rdErr, hown, hfrom, hquery, htag, hgen, hdst, horph]

theorem Device.wrNack_closes {q : Put} (hq : (d.fab.putDst m.src).unacked.find? (fun q => q.num == m.tag) = some q) :
    d.wrNack m = (((d.modFab fun f => (f.setPuts m.src { d.fab.putDst m.src with
      unacked := (d.fab.putDst m.src).unacked.filter fun q => q.num != m.tag }).badRing q.ring).logBridge
        m.addr (if q.tail then 7 else 1) m.src m.tag m.arg).flush false) := by
  simp only [Device.wrNack, hown, hfrom, hq, Bool.not_true, Bool.false_eq_true, if_false]

theorem Device.putAck_closes : d.putAck m = (d.modFab fun f => f.setPuts m.src { d.fab.putDst m.src with
      unacked := (d.fab.putDst m.src).unacked.drop ((m.arg + 2 ^ 16 - (d.fab.putDst m.src).acked) % 2 ^ 16),
      acked := m.arg % 2 ^ 16 }).flush false := by
  simp only [Device.putAck, hown, hfrom, Bool.not_true, Bool.false_eq_true, if_false]

end Answers

/-- The put that is closed as refused or lost (R266, R267): it is no longer open, its ring is marked, and the log has its kind. -/
theorem Device.putClosed (d : Device) (dev addr kind num reason : Nat) (q : Put) (hwait : d.fab.waiting = []) :
    let pd := d.fab.putDst dev
    let e := ((d.modFab fun f => (f.setPuts dev { pd with unacked := pd.unacked.filter fun q => q.num != num }).badRing q.ring).logBridge
      addr kind dev num reason).flush false
    (e.fab.putDst dev).unacked = (d.fab.putDst dev).unacked.filter (fun q => q.num != num)
      ∧ (q.ring ≠ noRing → q.ring ∈ e.fab.badPutRings)
      ∧ (tget bridgeErrDef e.fab.errLog d.fab.errNext).kind = kind
      ∧ e = { d with fab := e.fab, out := e.out, fresh := e.fresh } := by
  intro pd e
  have he : e = (d.modFab fun f => (f.setPuts dev { pd with unacked := pd.unacked.filter fun q => q.num != num }).badRing
      q.ring).logBridge addr kind dev num reason := by
    refine Device.flush_of_none_waiting false ?_
    exact (Fab.badRing_waiting _ _).trans hwait
  rw [he]
  exact ⟨congrArg PutDst.unacked ((Fab.badRing_putDst _ _ _).trans (d.fab.setPuts_putDst dev _)),
    fun hring => Fab.mem_badRing _ hring, Device.logBridge_kind _ _ _ _ _ (Fab.badRing_errNext _ _), rfl⟩

/-! ### Reads and puts that nothing has answered (R264 to R266) -/

theorem Device.readTimeout_early {d : Device} {t : Nat} {r : RTag} (htag : d.fab.tag t = some r) (h : d.tn < r.sentTn + 64) :
    d.readTimeout t = d := by
  simp [Device.readTimeout, htag, h]

theorem Device.readTimeout_orphan {d : Device} {t : Nat} {r : RTag} (htag : d.fab.tag t = some r) (h : r.sentTn + 64 ≤ d.tn)
    (horph : r.orphan = true) : d.readTimeout t = (d.modFab fun f => f.freeRTag t).grantRTag := by
  simp [Device.readTimeout, htag, Nat.not_lt.mpr h, horph]

theorem Device.readTimeout_fails {d : Device} {t : Nat} {r : RTag} (htag : d.fab.tag t = some r) (h : r.sentTn + 64 ≤ d.tn)
    (horph : r.orphan = false) : d.readTimeout t = (d.readFails t r 4 0).grantRTag := by
  simp [Device.readTimeout, htag, Nat.not_lt.mpr h, horph]

theorem Device.putLost_early {d : Device} {dev num : Nat} {q : Put}
    (hq : (d.fab.putDst dev).unacked.find? (fun q => q.num == num) = some q) (h : d.tn < q.sentTn + 64) : d.putLost dev num = d := by
  simp [Device.putLost, hq, h]

theorem Device.putLost_closes {d : Device} {dev num : Nat} {q : Put}
    (hq : (d.fab.putDst dev).unacked.find? (fun q => q.num == num) = some q) (h : q.sentTn + 64 ≤ d.tn) :
    d.putLost dev num = ((d.modFab fun f => (f.setPuts dev { d.fab.putDst dev with
      unacked := (d.fab.putDst dev).unacked.filter fun q => q.num != num }).badRing q.ring).logBridge q.addr 2 dev num 0).flush false := by
  simp [Device.putLost, hq, Nat.not_lt.mpr h]

/-- A read of a bus request that ends with an error: its tag is free, the request fails and the log has the kind (R264). -/
theorem Device.readFails_bus_leaves {d : Device} {r : RTag} {p : Port} {id : Nat} (t kind reason : Nat) (h : r.origin = .bus p id)
    (hstall : d.fab.stalled = []) :
    let e := (d.readFails t r kind reason).grantRTag
    e.fab.tag t = none
      ∧ (e.noc.port p).inflight = (d.noc.port p).inflight.map (fun i => if i.id = id then { i with resp := .error } else i)
      ∧ (tget bridgeErrDef e.fab.errLog d.fab.errNext).kind = kind
      ∧ (tget bridgeErrDef e.fab.errLog d.fab.errNext).reason = reason
      ∧ e = { d with fab := e.fab, noc := e.noc, out := .irqBridge :: d.out, fresh := d.fresh + 1 } := by
  intro e
  have he : e = d.readFails t r kind reason := by
    refine Device.grantRTag_of_none_stalled ?_
    rw [Device.readFails_bus d t kind reason h]
    exact hstall
  rw [Device.readFails_bus d t kind reason h] at he
  rw [he]
  have hnext : (d.modFab fun f => f.freeRTag t).fab.errNext = d.fab.errNext := rfl
  exact ⟨Fab.freeRTag_tag_same d.fab t, congrArg PortState.inflight (Noc.setPort_port _ _ _),
    Device.logBridge_kind r.addr kind r.dst t reason hnext, Device.logBridge_reason r.addr kind r.dst t reason hnext,
    by rw [Device.logBridge_eq]; rfl⟩

/-- Settles O42, message by message. -/
theorem remoteAccess : Obligations.RemoteAccess := by
  intro s m hs
  refine ⟨fun hout => ?_, fun hown => ⟨?_, fun hfrom => ?_, fun hfrom r q id htag hgen hdst horph horig hstall => ?_,
    fun hfrom r e q htag hgen hdst horph horig hinst hstall => ?_, fun hfrom hlate => ?_, ?_, fun hfrom q hq hwait => ?_,
    fun hfrom hwait => ?_⟩, fun t r htag => ⟨fun hearly => ?_, fun hlate hstall => ⟨fun horph => ?_, fun q id horph horig => ?_⟩⟩,
    fun dev num q hq => ⟨fun hearly => ?_, fun hlate hwait => ?_⟩⟩
  · exact ⟨fun o => Runs.of_on hs (exec_rdReq _ s) (by simp [Device.rdReq, hout]),
      Runs.of_on hs (exec_rdData m s) (by simp [Device.rdData, hout]),
      Runs.of_on hs (exec_rdErr m s) (by simp [Device.rdErr, hout]), Runs.of_on hs (exec_wr m s) (by simp [Device.wr, hout]),
      Runs.of_on hs (exec_wrNack m s) (by simp [Device.wrNack, hout]),
      Runs.of_on hs (exec_putAck m s) (by simp [Device.putAck, hout])⟩
  · exact ⟨fun htakes hreach hmay => Runs.of_on hs (exec_rdReq _ s) (Device.rdReq_served hown htakes hreach hmay),
      fun o => ⟨fun htakes => Runs.of_on hs (exec_rdReq _ s) (Device.rdReq_untaken hown o htakes),
        fun htakes hreach hno => Runs.of_on hs (exec_rdReq _ s) (Device.rdReq_refused hown o htakes hreach hno),
        fun htakes hreach => Runs.of_on hs (exec_rdReq _ s) (Device.rdReq_unreached hown o htakes hreach)⟩⟩
  · obtain ⟨hdata, herr, hnack, hack⟩ := Device.answers_outside hown hfrom
    exact ⟨Runs.of_on hs (exec_rdData m s) hdata, Runs.of_on hs (exec_rdErr m s) herr, Runs.of_on hs (exec_wrNack m s) hnack,
      Runs.of_on hs (exec_putAck m s) hack⟩
  · refine ⟨Runs.of_on hs (exec_rdData m s) ?_, fun hquery => Runs.of_on hs (exec_rdErr m s) ?_⟩
    · rw [Device.rdData_delivers hown hfrom htag hgen hdst horph, Device.deliverRead_bus _ _ horig,
        Device.grantRTag_of_none_stalled]
      · exact ⟨Fab.freeRTag_tag_same _ _, congrArg PortState.inflight (Noc.setPort_port _ _ _), rfl⟩
      · exact hstall
    · rw [Device.rdErr_fails hown hfrom hquery htag hgen hdst horph]
      exact Device.readFails_bus_leaves m.tag 3 m.arg horig hstall
  · refine Runs.of_on hs (exec_rdData m s) ?_
    rw [Device.rdData_delivers hown hfrom htag hgen hdst horph, Device.deliverRead_engine _ horig,
      Device.grantRTag_of_none_stalled]
    · exact ⟨Device.modEng_engine _ _ _, Fab.freeRTag_tag_same _ _, fun k hk => by rw [Device.modEng_engine_if, if_neg hk]; rfl, rfl⟩
    · exact hstall
    · exact hinst
  · exact Runs.of_on hs (exec_rdData m s) (Device.rdData_late hown hfrom hlate)
  · refine ⟨fun htakes hreach hmay => Runs.of_on hs (exec_wr m s) ?_, fun hno => Runs.of_on hs (exec_wr m s) ?_,
      fun htakes hreach => Runs.of_on hs (exec_wr m s) (Device.wr_unreached hown htakes hreach)⟩
    · rw [Device.wr_stored hown htakes hreach hmay]
      have hlen := m.written_length (s.dev.bytes (m.addr % 2 ^ 40) (16 * m.len))
      obtain ⟨hbyte, hland, hframe⟩ := s.dev.landed_put_served m (m.addr % 2 ^ 40)
        (m.written (s.dev.bytes (m.addr % 2 ^ 40) (16 * m.len)))
      rw [hlen] at hbyte hland hframe
      refine ⟨fun k hk => ?_, fun b hb => ?_, hland, hframe⟩
      · rw [hbyte, Device.byte_put, hlen, if_pos (by omega), Nat.add_sub_cancel_left]
      · rw [hbyte, Device.byte_put, hlen, if_neg (by omega)]
    · obtain ⟨noc, out, hwr⟩ := Device.wr_refused hown hno
      obtain ⟨hframe, hland⟩ := Device.nack_eq { s.dev with noc := noc, out := out } m
      rw [hwr]
      refine ⟨?_, hland⟩
      rw [hframe]
  · refine Runs.of_on hs (exec_wrNack m s) ?_
    rw [Device.wrNack_closes hown hfrom hq]
    exact s.dev.putClosed m.src m.addr _ m.tag m.arg q hwait
  · refine Runs.of_on hs (exec_putAck m s) ?_
    rw [Device.putAck_closes hown hfrom, Device.flush_of_none_waiting]
    · exact ⟨Fab.setPuts_putDst _ _ _, rfl⟩
    · exact hwait
  · exact Runs.of_on hs (exec_remoteReadTimeout t s) (Device.readTimeout_early htag hearly)
  · refine Runs.of_on hs (exec_remoteReadTimeout t s) ?_
    rw [Device.readTimeout_orphan htag hlate horph, Device.grantRTag_of_none_stalled]
    · rfl
    · exact hstall
  · refine Runs.of_on hs (exec_remoteReadTimeout t s) ?_
    rw [Device.readTimeout_fails htag hlate horph]
    obtain ⟨hfree, hfail, hkind, -, -⟩ := Device.readFails_bus_leaves t 4 0 horig hstall
    exact ⟨hfree, hfail, hkind⟩
  · exact Runs.of_on hs (exec_putLost dev num s) (Device.putLost_early hq hearly)
  · refine Runs.of_on hs (exec_putLost dev num s) ?_
    rw [Device.putLost_closes hq hlate]
    obtain ⟨hopen, hbad, hkind, -⟩ := s.dev.putClosed dev q.addr 2 num 0 q hwait
    exact ⟨hopen, hbad, hkind⟩

/-! ### A request within one page (R20, R23, R337) -/

theorem pagesOf_within_page {u n : Nat} (hpos : 1 ≤ n) (hshort : n ≤ 64) (hpage : u / 4096 = (u + n - 1) / 4096) :
    pagesOf u n = [(u, n)] := by
  have hrange : List.range (n / 4096 + 2) = [0, 1] := by rw [Nat.div_eq_of_lt (by omega)]; rfl
  have hlo : max u ((u / 4096 + 0) * 4096) = u := by omega
  have hhi : min (u + n) ((u / 4096 + 0 + 1) * 4096) = u + n := by omega
  have hnext : ¬ max u ((u / 4096 + 1) * 4096) < min (u + n) ((u / 4096 + 1 + 1) * 4096) := by omega
  have hfirst : u < u + n := by omega
  simp only [pagesOf, hrange, List.filterMap_cons, List.filterMap_nil, hlo, hhi, if_pos hfirst, if_neg hnext, Nat.add_sub_cancel_left]

theorem BusReq.bytes_length (r : BusReq) : r.bytes.length = r.len := by simp [BusReq.bytes, zeros]

theorem BusReq.bytes_of_length {r : BusReq} (h : r.data.length = r.len) : r.bytes = r.data := by simp [BusReq.bytes, h]

/-- A write within one page that no context translates meets the window of its package-local address. -/
theorem Device.serve_local {d : Device} {w : Who} {r : BusReq} {a : Nat} (id level : Nat) (hw : r.write = true)
    (hpages : pagesOf r.addr r.len = [(r.addr, r.len)]) (hctx : d.ctxOf r.master r.ctx w.inst = none)
    (hloc : d.localOf r.global r.addr = some a) :
    d.serve w id level r = ((d.localAccess w id r a r.len r.bytes).1, BusResp.ok.join (d.localAccess w id r a r.len r.bytes).2) := by
  have hall : r.bytes.take r.len = r.bytes := by rw [← r.bytes_length, List.take_length]
  simp [Device.serve, hpages, hctx, hall, Device.partAccess, hloc, hw]

section SramWrite

variable {d : Device} {w : Who} {r : BusReq} {a : Nat} (id : Nat) (bs : List Byte)

theorem Device.localAccess_lost (h : d.reaches w.port.die a = false) : d.localAccess w id r a r.len bs = (d, .lost) := by
  simp [Device.localAccess, h]

theorem Device.localAccess_sram_stored (hplace : placeOf a = .sram) (h : d.reaches w.port.die a = true)
    (hworld : d.sramWorld a = w.secure) (hw : r.write = true) : d.localAccess w id r a r.len bs = (d.put a bs, .ok) := by
  simp [Device.localAccess, h, hplace, hworld, Device.memAccess, hw]

theorem Device.localAccess_sram_refused (hplace : placeOf a = .sram) (h : d.reaches w.port.die a = true)
    (hworld : d.sramWorld a ≠ w.secure) : d.localAccess w id r a r.len bs = (d, .error) := by
  simp [Device.localAccess, h, hplace, hworld, Device.refuse]

end SramWrite

/-! ### A write leaves its port (R221, R223) -/

/-- The data request that a write of a master becomes. -/
def Device.writeOf (d : Device) (r : BusReq) : Inflight :=
  ⟨(d.noc.port r.master).nextId + 1, (d.who r).secure, d.nextLevel r.master, r.len, r.write, none, false, (d.who r).inst,
    (d.proc.inst (d.who r).inst).gen, d.stackOf (d.who r) r, r.addr, .ok⟩

/-- The device with that request in flight, before it is served. -/
def Device.entered (d : Device) (r : BusReq) : Device :=
  d.modPort r.master fun s => { s with inflight := s.inflight ++ [d.writeOf r], nextId := (d.writeOf r).id }

/-- A request in flight takes up the response of a part. -/
def Inflight.answered (id : Nat) (resp : BusResp) (i : Inflight) : Inflight :=
  if i.id = id then { i with resp := i.resp.join resp } else i

theorem Device.issueBus_write {d : Device} {r : BusReq} (hw : r.write = true) :
    d.issueBus r none =
      ((d.entered r).serve (d.who r) (d.writeOf r).id (d.nextLevel r.master) r).1.modPort r.master fun s =>
        { s with inflight := s.inflight.map (Inflight.answered (d.writeOf r).id
          ((d.entered r).serve (d.who r) (d.writeOf r).id (d.nextLevel r.master) r).2) } := by
  unfold Device.issueBus Device.entered Device.writeOf
  simp only [hw, if_true]
  rfl

/-- A write that is answered at once is the youngest in flight, with its response. -/
theorem Device.issueBus_answered {d e : Device} {r : BusReq} {resp : BusResp} (hw : r.write = true)
    (hserve : (d.entered r).serve (d.who r) (d.writeOf r).id (d.nextLevel r.master) r = (e, BusResp.ok.join resp))
    (hnoc : e.noc = (d.entered r).noc) (hsame : BusResp.ok.join resp = resp) :
    let f := d.issueBus r none
    (∃ x, (f.noc.port r.master).inflight = (d.noc.port r.master).inflight.map (Inflight.answered x.id resp) ++ [x]
        ∧ x.id = (d.noc.port r.master).nextId + 1 ∧ x.resp = resp ∧ x.bytes = r.len ∧ x.level = d.nextLevel r.master)
      ∧ f = { e with noc := f.noc } := by
  intro f
  have hf : f = e.modPort r.master fun s =>
      { s with inflight := s.inflight.map (Inflight.answered (d.writeOf r).id resp) } := by
    rw [← hsame]
    exact (Device.issueBus_write hw).trans (by rw [hserve])
  have hport : e.noc.port r.master = { d.noc.port r.master with
      inflight := (d.noc.port r.master).inflight ++ [d.writeOf r], nextId := (d.writeOf r).id } := by
    rw [hnoc]
    exact Noc.setPort_port _ _ _
  refine ⟨⟨{ d.writeOf r with resp := resp }, ?_, rfl, rfl, rfl, rfl⟩, by rw [hf]; rfl⟩
  rw [hf]
  have hlast : Inflight.answered (d.writeOf r).id resp (d.writeOf r) = { d.writeOf r with resp := resp } := by
    simp [Inflight.answered, hsame, Device.writeOf]
  refine (congrArg PortState.inflight (Noc.setPort_port _ _ _)).trans ?_
  rw [hport]
  change List.map _ (_ ++ [_]) = _
  rw [List.map_append, List.map_singleton, hlast]

/-! ### A request leaves its port (R223, R228, R230, R235) -/

theorem byteCounter_ne_stackCounter {p : Port} {i : Inflight} (hp : p.port < portCount p.die) (h : Nat) :
    byteCounter p i.write (levelClass i.level) ≠ stackCounter h i.write (levelClass i.level) := by
  have hcls : levelClass i.level ≤ 3 := by
    unfold levelClass classRT classBK classLT
    split
    · omega
    · split <;> omega
  have hbase : portBase p < stackBase h := by
    unfold portBase stackBase
    cases hd : p.die <;> simp only [hd, portCount, nocBase] at hp ⊢ <;> omega
  unfold byteCounter stackCounter
  split <;> omega

theorem Device.modPool_pool (d : Device) (die : Die) (f : TagPool → TagPool) :
    (d.modPool die f).noc.pool die = f (d.noc.pool die) := by cases die <;> rfl

@[simp] theorem Device.modPool_port (d : Device) (die : Die) (f : TagPool → TagPool) (p : Port) :
    (d.modPool die f).noc.port p = d.noc.port p := by cases die <;> rfl

@[simp] theorem Device.modPool_counter (d : Device) (die : Die) (f : TagPool → TagPool) (c : Nat) :
    (d.modPool die f).noc.counter c = d.noc.counter c := by cases die <;> rfl

@[simp] theorem Device.count_port (d : Device) (c n : Nat) (p : Port) : (d.count c n).noc.port p = d.noc.port p := rfl

@[simp] theorem Device.count_counter_same (d : Device) (c n : Nat) :
    (d.count c n).noc.counter c = (d.noc.counter c).add n := Noc.setCounter_counter _ _ _

theorem Device.count_counter_other (d : Device) {c k : Nat} (n : Nat) (h : c ≠ k) :
    (d.count k n).noc.counter c = d.noc.counter c := by
  rw [Device.count, Noc.count, Noc.setCounter_counter_if, if_neg h]

theorem TagPool.not_mem_free (p : TagPool) (t : Nat) : t ∉ (p.free t).used := by simp [TagPool.free]

/-- The bytes of a completed request counted at the controller of its stack, if one served it (R235). -/
def Device.countStack (d : Device) (i : Inflight) : Device :=
  match i.stack with
  | some h => d.count (stackCounter h i.write (levelClass i.level)) i.bytes
  | none => d

/-- The tag of a completed request goes back to its die's pool (R230). -/
def Device.returnTag (d : Device) (die : Die) (i : Inflight) : Device :=
  match i.tag with
  | some t => d.modPool die fun q => q.free t
  | none => d

theorem Device.countStack_eq (d : Device) (i : Inflight) : d.countStack i = { d with noc := (d.countStack i).noc } := by
  unfold Device.countStack
  cases i.stack <;> rfl

@[simp] theorem Device.countStack_port (d : Device) (i : Inflight) (p : Port) : (d.countStack i).noc.port p = d.noc.port p := by
  unfold Device.countStack
  cases i.stack <;> rfl

theorem Device.countStack_counter (d : Device) {i : Inflight} {c : Nat}
    (h : ∀ k, c ≠ stackCounter k i.write (levelClass i.level)) : (d.countStack i).noc.counter c = d.noc.counter c := by
  unfold Device.countStack
  cases i.stack with
  | none => rfl
  | some k => exact d.count_counter_other _ (h k)

theorem Device.returnTag_eq (d : Device) (die : Die) (i : Inflight) :
    d.returnTag die i = { d with noc := (d.returnTag die i).noc } := by
  unfold Device.returnTag
  cases i.tag <;> rfl

@[simp] theorem Device.returnTag_port (d : Device) (die : Die) (i : Inflight) (p : Port) :
    (d.returnTag die i).noc.port p = d.noc.port p := by
  unfold Device.returnTag
  cases i.tag <;> simp

@[simp] theorem Device.returnTag_counter (d : Device) (die : Die) (i : Inflight) (c : Nat) :
    (d.returnTag die i).noc.counter c = d.noc.counter c := by
  unfold Device.returnTag
  cases i.tag <;> simp

theorem Device.returnTag_frees (d : Device) (die : Die) {i : Inflight} {t : Nat} (h : i.tag = some t) :
    t ∉ ((d.returnTag die i).noc.pool die).used := by
  simp only [Device.returnTag, h, Device.modPool_pool]
  exact TagPool.not_mem_free _ _

section LeavePort

variable (d : Device) (p : Port) (i : Inflight) (ns : Nat)

theorem Device.leavePort_steps : ∃ st, st.inflight = (d.noc.port p).inflight.filter (fun x => x.id != i.id)
    ∧ st.acc = (d.noc.port p).acc - (d.noc.port p).acc / 64 + ns
    ∧ d.leavePort p i ns = (((d.modPort p fun _ => st).count (byteCounter p i.write (levelClass i.level)) i.bytes).countStack
        i).returnTag p.die i := ⟨_, rfl, rfl, rfl⟩

theorem Device.leavePort_eq : d.leavePort p i ns = { d with noc := (d.leavePort p i ns).noc } := by
  obtain ⟨st, -, -, h⟩ := d.leavePort_steps p i ns
  rw [h, Device.returnTag_eq, Device.countStack_eq]
  rfl

theorem Device.leavePort_port : ((d.leavePort p i ns).noc.port p).inflight = (d.noc.port p).inflight.filter (fun x => x.id != i.id)
    ∧ ((d.leavePort p i ns).noc.port p).acc = (d.noc.port p).acc - (d.noc.port p).acc / 64 + ns := by
  obtain ⟨st, hin, hacc, h⟩ := d.leavePort_steps p i ns
  have hport : (d.leavePort p i ns).noc.port p = st := by
    rw [h, Device.returnTag_port, Device.countStack_port, Device.count_port]
    exact Noc.setPort_port _ _ _
  rw [hport]
  exact ⟨hin, hacc⟩

theorem Device.leavePort_counter (hp : p.port < portCount p.die) :
    ((d.leavePort p i ns).noc.counter (byteCounter p i.write (levelClass i.level))).val
      = ((d.noc.counter (byteCounter p i.write (levelClass i.level))).val + i.bytes) % 2 ^ 64 := by
  obtain ⟨st, -, -, h⟩ := d.leavePort_steps p i ns
  rw [h, Device.returnTag_counter, Device.countStack_counter _ (byteCounter_ne_stackCounter hp), Device.count_counter_same]
  rfl

theorem Device.leavePort_frees {t : Nat} (htag : i.tag = some t) : t ∉ ((d.leavePort p i ns).noc.pool p.die).used := by
  obtain ⟨st, -, -, h⟩ := d.leavePort_steps p i ns
  rw [h]
  exact Device.returnTag_frees _ _ htag

end LeavePort

/-- A fenced read that a late reply names holds its tag. -/
theorem orphan_tag {d : Device} {die : Die} {tag p : Nat} {i : Inflight} {ps : List Nat}
    (h : ps.findSome? (fun p => ((d.noc.port ⟨die, p⟩).inflight.find? fun i => i.orphan && i.tag == some tag).map fun i => (p, i))
      = some (p, i)) : i.tag = some tag := by
  obtain ⟨q, -, hq⟩ := List.exists_of_findSome?_eq_some h
  obtain ⟨x, hx, heq⟩ := Option.map_eq_some_iff.mp hq
  have hi : x = i := congrArg Prod.snd heq
  have hfound := List.find?_some hx
  rw [hi] at hfound
  simpa using (Bool.and_eq_true_iff.mp hfound).2

theorem Device.lateReply_leaves {d : Device} {die : Die} {tag p : Nat} {i : Inflight} (ns : Nat)
    (h : (List.range (portCount die)).findSome? (fun p => ((d.noc.port ⟨die, p⟩).inflight.find? fun i =>
      i.orphan && i.tag == some tag).map fun i => (p, i)) = some (p, i)) :
    ∃ proc, d.lateReply die tag ns = { d.leavePort ⟨die, p⟩ i ns with proc := proc } := by
  simp only [Device.lateReply, h]
  split
  · exact ⟨_, rfl⟩
  · exact ⟨_, rfl⟩

/-! ### Links between the dies (R217, R219) -/

theorem Device.setLink_dieLink (d : Device) (l : Nat) (v : DieLink) : (d.setLink l v).dieLink l = v := by
  simp [Device.setLink, Device.dieLink]

/-- A link that goes down is marked, and the Arbiter of the device that met the fault enters the safe state with the cause of
R219. -/
theorem Device.linkFault_down {d b : Device} {l n : Nat} (hup : (d.dieLink l).down = false) (hvalid : d.arb.valid = true)
    (hn : (d.dieLink l).replays = n) (hb : d = { b with noc := d.noc }) :
    let e := d.linkFault l
    (e.dieLink l).down = true ∧ (e.dieLink l).replays = n ∧ ∃ x, x = { b with noc := e.noc } ∧ SafeReaction 0x09 x e := by
  intro e
  have hlink := d.setLink_dieLink l { d.dieLink l with down := true }
  obtain ⟨t, src, a, n, h⟩ := (d.setLink l { d.dieLink l with down := true }).safeCause_eq 0x09 none hvalid
  have he : e = _ := (if_neg (by simp [hup])).trans h
  rw [he]
  refine ⟨(congrArg DieLink.down hlink :), (congrArg DieLink.replays hlink :).trans hn, _, rfl, ?_⟩
  rw [hb]
  exact ⟨rfl, rfl, rfl, rfl, congrArg LogEntry.cause (Arb.enterSafe_entry _ _ _ _ _ _),
    congrArg LogEntry.reaction (Arb.enterSafe_entry _ _ _ _ _ _), rfl⟩

/-! ### What a master offers (R223, R224) -/

section Offer

variable {d : Device} {r : BusReq} (hport : r.master.port < portCount r.master.die) (hpos : 1 ≤ r.len) (hlen : r.len ≤ 64)
include hport hpos hlen

theorem Device.offer_held (h : d.mayIssue r.master = false) :
    d.offer r = d.modPort r.master fun p => { p with held := p.held ++ [r] } := by
  have hfit : ¬(r.len = 0 ∨ 64 < r.len ∨ portCount r.master.die ≤ r.master.port) := by omega
  simp [Device.offer, hfit, h]

theorem Device.offer_write (hmay : d.mayIssue r.master = true) (hheld : (d.noc.port r.master).held = []) (hw : r.write = true) :
    d.offer r = d.issueBus r none := by
  have hfit : ¬(r.len = 0 ∨ 64 < r.len ∨ portCount r.master.die ≤ r.master.port) := by omega
  simp [Device.offer, hfit, hmay, hheld, Device.launch, hw]

end Offer

/-- An untranslated write within one page is answered by what its window does. -/
theorem Device.serve_entered {d e : Device} {r : BusReq} {a : Nat} {resp : BusResp} (hw : r.write = true)
    (hpages : pagesOf r.addr r.len = [(r.addr, r.len)]) (hctx : d.ctxOf r.master r.ctx (d.who r).inst = none)
    (hloc : d.localOf r.global r.addr = some a)
    (hmeets : (d.entered r).localAccess (d.who r) (d.writeOf r).id r a r.len r.bytes = (e, resp)) :
    (d.entered r).serve (d.who r) (d.writeOf r).id (d.nextLevel r.master) r = (e, BusResp.ok.join resp) := by
  rw [Device.serve_local (d := d.entered r) _ _ hw hpages hctx hloc, hmeets]

/-- Settles O37, command by command. -/
theorem requests : Obligations.Requests := by
  intro s hs
  refine ⟨fun r hdbg htl hport hpos hlen => ?_, fun p id ns i hdbg hport hfind hremote hemu hlost hstale => ?_,
    fun die tag ns p i hfind => ?_, fun p r rest hheld => ⟨fun hmay => ?_, fun hmay => ?_⟩, fun die p t r rest hnext htag hstall => ?_,
    fun l hup => ⟨?_, fun hrow => ?_, fun hvalid hrow => ?_, fun hvalid => ?_⟩⟩
  · have hoffer (Q : Device → Prop) (hQ : Q (s.dev.offer r)) : Runs (.busAccess r) s Q :=
      Runs.of_on hs (exec_busAccess r s) (by simpa [hdbg, htl] using hQ)
    refine ⟨fun hmay => hoffer _ (Device.offer_held hport hpos hlen hmay),
      fun a hw hmay hheld hctx hloc hplace hpage => ⟨fun hreach hworld hdata => hoffer _ ?_, fun hreach hworld => hoffer _ ?_,
        fun hreach => hoffer _ ?_⟩⟩
    all_goals
      rw [Device.offer_write hport hpos hlen hmay hheld hw]
      have hpages := pagesOf_within_page hpos hlen hpage
    · obtain ⟨hin, hframe⟩ := Device.issueBus_answered hw (Device.serve_entered hw hpages hctx hloc
        (Device.localAccess_sram_stored (d := s.dev.entered r) _ _ hplace hreach hworld hw)) (by rw [Device.put_eq]) rfl
      have hbyte (b : Nat) : (s.dev.issueBus r none).byte b = _ :=
        (congrArg (fun d : Device => d.byte b) hframe).trans ((s.dev.entered r).byte_put a r.bytes b)
      rw [BusReq.bytes_of_length hdata, hdata] at hbyte
      refine ⟨fun k hk => ?_, fun b hb => ?_, hin, ?_⟩
      · rw [hbyte, if_pos (by omega), Nat.add_sub_cancel_left]
      · rw [hbyte, if_neg (by omega)]
        rfl
      · rw [Device.put_eq] at hframe
        exact (congrArg (fun d : Device => { d with mem := (s.dev.issueBus r none).mem }) hframe :)
    · exact Device.issueBus_answered (e := s.dev.entered r) hw (Device.serve_entered hw hpages hctx hloc
        (Device.localAccess_sram_refused (w := s.dev.who r) _ _ hplace hreach hworld)) rfl rfl
    · exact Device.issueBus_answered (e := s.dev.entered r) hw (Device.serve_entered hw hpages hctx hloc
        (Device.localAccess_lost (w := s.dev.who r) _ _ hreach)) rfl rfl
  · have hdone : s.dev.requestComplete p id ns = (s.dev.leavePort p i ns).note (.bus p id i.resp) := by
      simp [Device.requestComplete, hfind, hremote, hemu, hlost, hdbg, hstale]
    refine Runs.of_on hs (exec_requestComplete p id ns s) ?_
    rw [hdone]
    have hframe := s.dev.leavePort_eq p i ns
    obtain ⟨hin, hacc⟩ := s.dev.leavePort_port p i ns
    exact ⟨by rw [hframe]; rfl, hin, hacc, s.dev.leavePort_counter p i ns hport, fun t ht => s.dev.leavePort_frees p i ns ht,
      by rw [hframe]; rfl⟩
  · obtain ⟨proc, hlate⟩ := Device.lateReply_leaves ns hfind
    refine Runs.of_on hs (exec_lateReply die tag ns s) ?_
    rw [hlate]
    have hframe := s.dev.leavePort_eq ⟨die, p⟩ i ns
    exact ⟨s.dev.leavePort_frees ⟨die, p⟩ i ns (orphan_tag hfind), by rw [hframe], (s.dev.leavePort_port ⟨die, p⟩ i ns).1,
      by rw [hframe]⟩
  · exact Runs.of_on hs (exec_heldRequestIssue p s) (by simp [Device.heldIssue, hheld, hmay])
  · exact Runs.of_on hs (exec_heldRequestIssue p s) (by simp [Device.heldIssue, hheld, hmay])
  · exact Runs.of_on hs (exec_tagGrant die s) (by simp only [Device.tagGrant, hnext, htag, hstall])
  · exact Runs.of_on hs (exec_dieLinkReplay l true s) (by simp [Device.dieReplay, hup])
  · exact Runs.of_on hs (exec_dieLinkReplay l false s) (by simp [Device.dieReplay, hup, Nat.not_le.mpr hrow])
  · have hdown : s.dev.dieReplay l false = (s.dev.setLink l { s.dev.dieLink l with
        replays := ((s.dev.dieLink l).replays + 1) % 2 ^ 32, row := (s.dev.dieLink l).row + 1 }).linkFault l := by
      simp [Device.dieReplay, hup, hrow]
    refine Runs.of_on hs (exec_dieLinkReplay l false s) ?_
    rw [hdown]
    exact Device.linkFault_down (by rw [Device.setLink_dieLink]; exact hup) hvalid (by rw [Device.setLink_dieLink]) rfl
  · exact Runs.of_on hs (exec_dieLinkDown l s) (Device.linkFault_down hup hvalid rfl rfl)

/-! ### Tables and rings written by a fold -/

theorem tget_foldl_tput {α : Type} [DecidableEq α] (d f : Nat → α) {l : List Nat} {n : Nat} (h : n ∈ l) (t : Tab α) :
    tget d (l.foldl (fun t k => tput d t k (f k)) t) n = f n := by
  refine foldl_establishes (P := fun t => tget d t n = f n) h (fun t => tget_tput_same _ _ _ _) (fun t k hk => ?_) t
  rw [tget_tput]
  split
  · next heq => rw [heq]
  · exact hk

/-- Rings changed one after the other. -/
def Device.mapRings (d : Device) (f : Ring → Ring) (l : List Nat) : Device := l.foldl (fun d k => d.setRing k (f (d.ring k))) d

theorem Device.mapRings_eq (d : Device) (f : Ring → Ring) (l : List Nat) : d.mapRings f l = { d with rings := (d.mapRings f l).rings } :=
  (congrArg (fun x : Device => { x with rings := (d.mapRings f l).rings })
    (foldl_keeps (fun x : Device => { x with rings := [] }) (f := fun (d : Device) k => d.setRing k (f (d.ring k))) (fun _ _ => rfl) l d) :)

/-- What the change brings about holds of every ring that was changed. -/
theorem Device.mapRings_ring {P : Ring → Prop} {f : Ring → Ring} (hf : ∀ r, P (f r)) {l : List Nat} {n : Nat} (h : n ∈ l)
    (d : Device) : P ((d.mapRings f l).ring n) := by
  refine foldl_establishes (P := fun d : Device => P (d.ring n)) h (fun d => ?_) (fun d k hk => ?_) d
  · rw [Device.setRing_ring]
    exact hf _
  · rw [Device.setRing_ring_if]
    split
    · exact hf _
    · exact hk

/-- A ring that a job owns is listed as such. -/
theorem Device.mem_ownedRings {d : Device} {n j : Nat} (hown : (d.ring n).jobOwn = true) (hjob : (d.ring n).job = j) :
    n ∈ d.ownedRings j := by
  have hlisted : n ∈ d.rings.map Prod.fst :=
    mem_keys_of_tget_ne (d := ringDef) fun h => Bool.false_ne_true ((congrArg Ring.jobOwn h).symm.trans hown)
  exact List.mem_filter.mpr ⟨hlisted, by simp [hown, hjob]⟩

/-! ### Kills (R120, R195, R212) -/

/-- The device without undefined bytes, free values and the fabric. -/
def Device.sansFab (d : Device) : Device := { d with scrambles := [], fresh := 0, fab := Fab.init }

theorem Device.scramble_sansFab (d : Device) (lo hi : Nat) : (d.scramble lo hi).sansFab = d.sansFab := by
  rw [Device.scramble_eq]
  rfl

/-- The device without what a kill touches beside its engine: the networks too. -/
def Device.sansNet (d : Device) : Device := { d.sansFab with noc := Noc.init }

theorem Device.scramble_sansNet (d : Device) (lo hi : Nat) : (d.scramble lo hi).sansNet = d.sansNet := by
  rw [Device.sansNet, Device.scramble_sansFab]
  rfl

theorem Device.setFab_sansNet (d : Device) (f : Fab) : ({ d with fab := f } : Device).sansNet = d.sansNet := rfl

theorem Device.setNet_sansNet (d : Device) (n : Noc) (f : Fab) : ({ d with noc := n, fab := f } : Device).sansNet = d.sansNet := rfl

/-- A kill writes its engine, on a device that differs in what `sansNet` leaves out. -/
theorem Device.killEngine_eq (d : Device) (e : Nat) (atomicToo : Bool) :
    ∃ (x : Device) (g : Eng), x.sansNet = d.sansNet
      ∧ g.issued = (d.engine e).issued.filter (fun i => !atomicToo && i.cmd.atomic && i.started)
      ∧ d.killEngine e atomicToo = x.setEng e g := by
  refine ⟨_, _, ?_, rfl, rfl⟩
  have hscr (l : List (Nat × Nat)) : (l.foldl (fun d r => d.scramble r.1 r.2) d).sansNet = d.sansNet :=
    foldl_keeps Device.sansNet (fun d r => d.scramble_sansNet _ _) l d
  split
  · refine (Device.setNet_sansNet _ _ _).trans ((foldl_keeps Device.sansNet (fun d i => ?_) _ _).trans
      ((Device.setFab_sansNet _ _).trans (hscr _)))
    split <;> rfl
  · exact (Device.setFab_sansNet _ _).trans (hscr _)

/-- The device without what kills and releases touch: the engines too. -/
def Device.sansKills (d : Device) : Device := { d.sansNet with eng := [] }

theorem Device.eng_of_sansNet {d e : Device} (h : e.sansNet = d.sansNet) (k : Nat) : e.engine k = d.engine k :=
  (congrArg (fun x : Device => x.engine k) h :)

theorem Device.killEngine_sansKills (d : Device) (e : Nat) (atomicToo : Bool) :
    (d.killEngine e atomicToo).sansKills = d.sansKills := by
  obtain ⟨x, g, hx, -, hkill⟩ := d.killEngine_eq e atomicToo
  rw [hkill]
  exact (congrArg (fun x : Device => { x with eng := [] }) hx :)

theorem Device.killEngine_issued (d : Device) (e : Nat) : ((d.killEngine e true).engine e).issued = [] := by
  obtain ⟨x, g, -, hg, hkill⟩ := d.killEngine_eq e true
  rw [hkill, Device.setEng_engine, hg]
  simp

theorem Device.killEngine_issued_nil {d : Device} {e : Nat} (k : Nat) (h : (d.engine e).issued = []) :
    ((d.killEngine k true).engine e).issued = [] := by
  obtain ⟨x, g, hx, hg, hkill⟩ := d.killEngine_eq k true
  rw [hkill, Device.setEng_engine_if, Device.eng_of_sansNet hx]
  split
  · simp [hg]
  · exact h

theorem Device.fenceEngine_sansKills (d : Device) (e : Nat) : (d.fenceEngine e).sansKills = d.sansKills := rfl

theorem Device.fenceEngine_engine (d : Device) (e k : Nat) : (d.fenceEngine e).engine k = d.engine k := rfl

/-! ### Engines begin their release (R196) -/

theorem Device.modEng_sansKills (d : Device) (e : Nat) (f : Eng → Eng) : (d.modEng e f).sansKills = d.sansKills := rfl

theorem Device.leaveAll_sansKills (d : Device) (es : List Nat) : (d.leaveAll es).sansKills = d.sansKills := by
  unfold Device.leaveAll
  exact foldl_keeps Device.sansKills (fun d e => d.modEng_sansKills e _) es d

theorem Device.leaveAll_issued (d : Device) (es : List Nat) (e : Nat) : ((d.leaveAll es).engine e).issued = (d.engine e).issued := by
  refine foldl_keeps (fun d : Device => (d.engine e).issued) (fun d k => ?_) es d
  rw [Device.modEng_engine_if]
  split
  · next h => rw [h]
  · rfl

theorem Device.leaveAll_leaving (d : Device) {es : List Nat} {e : Nat} (h : e ∈ es) : ((d.leaveAll es).engine e).leaving = true := by
  refine foldl_establishes (P := fun d : Device => (d.engine e).leaving = true) h (fun d => by rw [Device.modEng_engine])
    (fun d k hk => ?_) d
  rw [Device.modEng_engine_if]
  split
  · rfl
  · exact hk

/-- The kills and the begin of the release of a take-back (R195). -/
theorem Device.takeBack_running {d : Device} {j : Nat} (h : (d.job j).st = .running) :
    ∃ x : Device, x.sansKills = d.sansKills ∧ (∀ e ∈ (d.job j).held, (x.engine e).leaving = true)
      ∧ d.takeBack j = x.modJob j fun y => { y with st := .takingBack, release := .suspend, tbAt := x.tn, idleSince := none } := by
  refine ⟨_, ?_, ?_, if_pos h⟩
  · exact (Device.leaveAll_sansKills _ _).trans (foldl_keeps Device.sansKills (fun d e => d.killEngine_sansKills e false) _ _)
  · exact fun e he => Device.leaveAll_leaving _ he

/-- The kills, the fences and the begin of the release of a teardown (R212). -/
theorem Device.tornDown (d : Device) (es : List Nat) :
    let x := (es.foldl (fun d e => (d.killEngine e true).fenceEngine e) d).leaveAll es
    x.sansKills = d.sansKills ∧ ∀ e ∈ es, (x.engine e).issued = [] ∧ (x.engine e).leaving = true := by
  intro x
  refine ⟨(Device.leaveAll_sansKills _ _).trans (foldl_keeps Device.sansKills (fun d e => ?_) _ _),
    fun e he => ⟨?_, Device.leaveAll_leaving _ he⟩⟩
  · rw [Device.fenceEngine_sansKills, Device.killEngine_sansKills]
  · rw [Device.leaveAll_issued]
    refine foldl_establishes (P := fun d : Device => (d.engine e).issued = []) he (fun d => ?_) (fun d k hk => ?_) d
    · rw [Device.fenceEngine_engine, Device.killEngine_issued]
    · rw [Device.fenceEngine_engine, Device.killEngine_issued_nil k hk]

/-! ### Creation (R188) -/

theorem Device.jobCreate_closed {d : Device} (j a : Nat) (secure : Bool) (h : d.pwr.bringUp ≠ 5) :
    d.jobCreate j a secure = (d, abState) := by
  simp [Device.jobCreate, h]

theorem Device.jobCreate_full {d : Device} (j a : Nat) (secure : Bool) (h : d.pwr.bringUp = 5)
    (hfull : ∀ k, k < 64 → (d.job k).taken = true) : d.jobCreate j a secure = (d.exhausted 0x03, abResource) := by
  have hall : ((List.range 64).all fun k => (d.job k).taken) = true := by simpa using hfull
  simp [Device.jobCreate, h, hall]

theorem Device.jobCreate_judged {d : Device} (j a : Nat) (secure : Bool) (h : d.pwr.bringUp = 5)
    (hroom : ∃ k : Fin 64, (d.job k).taken = false) :
    d.jobCreate j a secure = if d.createReason j a secure (JobRec.ofBytes (d.bytes a 192)) = 0
      then (d.jobMake j a (JobRec.ofBytes (d.bytes a 192)), 0)
      else (d.modJob j fun x => { x with createReason := d.createReason j a secure (JobRec.ofBytes (d.bytes a 192)) }, abState) := by
  obtain ⟨k, hk⟩ := hroom
  have hall : ((List.range 64).all fun k => (d.job k).taken) = false :=
    List.all_eq_false.mpr ⟨k, List.mem_range.mpr k.isLt, by simp [hk]⟩
  simp only [Device.jobCreate, h, hall, bne_self_eq_false, Bool.false_eq_true, if_false]

/-- The rings that a record names are those of every job with the record. -/
theorem Job.cmdRings_of_rc {x y : Job} (h : x.rc = y.rc) : x.cmdRings = y.cmdRings := by
  simp only [Job.cmdRings, h]

theorem Job.complRings_of_rc {x y : Job} (h : x.rc = y.rc) : x.complRings = y.complRings := by
  simp only [Job.complRings, Job.maxEngines, h]

/-- A job made from a context record, before its openings are recorded (R188). -/
def Device.blankJob (d : Device) (j a : Nat) (r : JobRec) : Job :=
  { Job.init with
    recAddr := a, rc := r, weight := r.weight, quota := r.quota, autoRestart := r.autoRestart, nextSt := some .ready,
    createReason := (d.job j).createReason }

/-- The job that a creation leaves (R188). -/
def Device.madeJob (d : Device) (j a : Nat) (r : JobRec) : Job :=
  { d.blankJob j a r with
    openings := (d.blankJob j a r).cmdRings.foldl (fun t n => tput rptrDef t n (d.ring n).head) [],
    doneSeq := (d.blankJob j a r).cmdRings.foldl (fun t n => tput doneDef t n ((r.openSeq + 2 ^ 32 - 1) % 2 ^ 32)) [] }

theorem Device.madeJob_cmdRings (d : Device) (j a : Nat) (r : JobRec) :
    (d.madeJob j a r).cmdRings = ({ Job.init with rc := r } : Job).cmdRings := Job.cmdRings_of_rc rfl

theorem Device.madeJob_complRings (d : Device) (j a : Nat) (r : JobRec) :
    (d.madeJob j a r).complRings = ({ Job.init with rc := r } : Job).complRings := Job.complRings_of_rc rfl

theorem Device.madeJob_openings (d : Device) (j a : Nat) (r : JobRec) {n : Nat}
    (h : n ∈ ({ Job.init with rc := r } : Job).cmdRings) :
    tget rptrDef (d.madeJob j a r).openings n = (d.ring n).head
      ∧ tget doneDef (d.madeJob j a r).doneSeq n = (r.openSeq + 2 ^ 32 - 1) % 2 ^ 32 := by
  rw [← d.madeJob_cmdRings j a r] at h
  exact ⟨tget_foldl_tput rptrDef (fun n => (d.ring n).head) h [], tget_foldl_tput doneDef (fun _ => (r.openSeq + 2 ^ 32 - 1) % 2 ^ 32) h []⟩

/-- A ring becomes a job's (R188). -/
def Ring.ownedBy (j : Nat) (g : Ring) : Ring := { g with jobOwn := true, job := j }

/-- The device with the rings of a new job owned by it (R188). -/
def Device.ringsTaken (d : Device) (j : Nat) (x : Job) : Device := d.mapRings (Ring.ownedBy j) (x.cmdRings ++ x.complRings)

/-- A creation writes the job and its rings; beside them it touches undefined bytes, free values and the fabric. -/
theorem Device.jobMake_eq (d : Device) (j a : Nat) (r : JobRec) :
    ∃ f : Fab, d.jobMake j a r = ({ (d.ringsTaken j (d.madeJob j a r)).scramble (vuBase j 0) (vuBase j 32) with fab := f } : Device).setJob
      j (d.madeJob j a r) := ⟨_, rfl⟩

theorem Device.ringsTaken_sansFab (d : Device) (j : Nat) (x : Job) :
    (d.ringsTaken j x).sansFab = ({ d with rings := (d.ringsTaken j x).rings } : Device).sansFab := by
  unfold Device.ringsTaken
  rw [← Device.mapRings_eq]

theorem Device.ringsTaken_ring (d : Device) (j : Nat) {x : Job} {n : Nat} (h : n ∈ x.cmdRings ++ x.complRings) :
    ((d.ringsTaken j x).ring n).jobOwn = true ∧ ((d.ringsTaken j x).ring n).job = j :=
  Device.mapRings_ring (P := fun g => g.jobOwn = true ∧ g.job = j) (fun _ => ⟨rfl, rfl⟩) h d

/-- The job written on a device that holds its rings: what a creation leaves, whatever bytes become undefined. -/
theorem Device.made_leaves {d m : Device} {j : Nat} {x : Job} (f : Fab)
    (h : m.sansFab = ({ d with rings := (d.ringsTaken j x).rings } : Device).sansFab) :
    let e := ({ m with fab := f } : Device).setJob j x
    e.job j = x ∧ (∀ n ∈ x.cmdRings ++ x.complRings, (e.ring n).jobOwn = true ∧ (e.ring n).job = j)
      ∧ (∀ k, k ≠ j → e.job k = d.job k)
      ∧ e = { d with jobs := e.jobs, rings := e.rings, fab := e.fab, scrambles := e.scrambles, fresh := e.fresh } := by
  intro e
  have hrings : e.rings = (d.ringsTaken j x).rings := (congrArg Device.rings h :)
  refine ⟨Device.setJob_job _ _ _, fun n hn => ?_, fun k hk => ?_, ?_⟩
  · rw [Device.ring_congr hrings]
    exact d.ringsTaken_ring j hn
  · rw [Device.setJob_job_if, if_neg hk]
    exact (congrArg (fun y : Device => y.job k) h :)
  · exact (congrArg (fun y : Device => { y with
      jobs := e.jobs, rings := e.rings, fab := e.fab, scrambles := e.scrambles, fresh := e.fresh }) h :)

theorem Device.jobMake_leaves (d : Device) (j a : Nat) (r : JobRec) :
    let x := d.madeJob j a r
    let e := d.jobMake j a r
    e.job j = x ∧ (∀ n ∈ x.cmdRings ++ x.complRings, (e.ring n).jobOwn = true ∧ (e.ring n).job = j)
      ∧ (∀ k, k ≠ j → e.job k = d.job k)
      ∧ e = { d with jobs := e.jobs, rings := e.rings, fab := e.fab, scrambles := e.scrambles, fresh := e.fresh } := by
  obtain ⟨f, he⟩ := d.jobMake_eq j a r
  rw [he]
  exact Device.made_leaves f ((Device.scramble_sansFab _ _ _).trans (d.ringsTaken_sansFab j _))

/-- The device that a creation leaves, with its answer (R188). -/
theorem Device.made_answered {d e : Device} {j a : Nat} {r : JobRec} (hjob : e.job j = d.madeJob j a r)
    (hrings : ∀ n ∈ (d.madeJob j a r).cmdRings ++ (d.madeJob j a r).complRings, (e.ring n).jobOwn = true ∧ (e.ring n).job = j)
    (hother : ∀ k, k ≠ j → e.job k = d.job k)
    (hframe : e = { d with jobs := e.jobs, rings := e.rings, fab := e.fab, scrambles := e.scrambles, fresh := e.fresh }) :
    let y : Job := { Job.init with rc := r }
    let f := answer (e, 0)
    (f.job j).nextSt = some .ready ∧ (f.job j).st = .free ∧ (f.job j).rc = r ∧ (f.job j).recAddr = a
      ∧ (∀ n ∈ y.cmdRings ++ y.complRings, (f.ring n).jobOwn = true ∧ (f.ring n).job = j)
      ∧ (∀ n ∈ y.cmdRings, tget rptrDef (f.job j).openings n = (d.ring n).head
          ∧ tget doneDef (f.job j).doneSeq n = (r.openSeq + 2 ^ 32 - 1) % 2 ^ 32)
      ∧ (∀ k, k ≠ j → f.job k = d.job k) ∧ f.out = .dict 0 [] :: d.out
      ∧ f = { d with jobs := f.jobs, rings := f.rings, fab := f.fab, scrambles := f.scrambles, fresh := f.fresh, out := f.out } := by
  intro y f
  have hmade : f.job j = d.madeJob j a r := hjob
  have hout : e.out = d.out := (congrArg Device.out hframe :)
  rw [hmade]
  rw [Device.madeJob_cmdRings, Device.madeJob_complRings] at hrings
  exact ⟨rfl, rfl, rfl, rfl, hrings, fun n hn => d.madeJob_openings j a r hn, hother, congrArg (Note.dict 0 [] :: ·) hout,
    (congrArg (fun x : Device => { x with out := f.out }) hframe :)⟩

/-! ### Control (R189, R195, R213 to R215) -/

theorem Device.jobSuspend_holds {d : Device} {j : Nat} (hfree : (d.job j).st ≠ .free) (hfailed : (d.job j).st ≠ .failed) :
    d.jobSuspend j = ((d.modJob j fun x => { x with hold := true }).takeBack j, 0) := if_neg (by simp [hfree, hfailed])

theorem Device.takeBack_idle {d : Device} {j : Nat} (h : (d.job j).st ≠ .running) : d.takeBack j = d := if_neg h

theorem Device.jobRestart_failed {d : Device} {j : Nat} (hst : (d.job j).st = .failed) (hnext : (d.job j).nextSt = none)
    (hrel : (d.job j).release ≠ .delete) : d.jobRestart j = ((d.modJob j fun x => { x with faults := [] }).restart j, 0) :=
  if_pos ⟨hst, hnext, hrel⟩

theorem Device.jobDrop_taken {d : Device} {j : Nat} (hst : (d.job j).st ≠ .free) : d.jobDrop j = (d.jobDelete j, 0) :=
  if_pos (by simp [Job.taken, hst])

/-- A job that goes back to its opening (R213). -/
def Job.restarted (x : Job) : Job :=
  { x with doneSeq := x.cmdRings.foldl (fun t n => tput doneDef t n ((x.rc.openSeq + 2 ^ 32 - 1) % 2 ^ 32)) x.doneSeq,
           stale := 0, ckpt := 0, ckptOwed := false, ckptPos := [], reload := false, restarts := (x.restarts + 1) % 2 ^ 32,
           nextSt := some .ready, release := .none, faultReason := 0, dormant := false }

theorem Job.restarted_doneSeq {x : Job} {n : Nat} (h : n ∈ x.cmdRings) :
    tget doneDef x.restarted.doneSeq n = (x.rc.openSeq + 2 ^ 32 - 1) % 2 ^ 32 :=
  tget_foldl_tput doneDef (fun _ => (x.rc.openSeq + 2 ^ 32 - 1) % 2 ^ 32) h x.doneSeq

theorem Device.openingsHeld_modJob_faults (d : Device) (j : Nat) (l : List Nat) :
    (d.modJob j fun x => { x with faults := l }).openingsHeld j = d.openingsHeld j := by
  simp only [Device.openingsHeld, Device.modJob_job]
  rfl

/-- The command rings of a job moved to its openings (R213). -/
def Device.rewound (d : Device) (x : Job) (l : List Nat) : Device :=
  l.foldl (fun d n => d.moveRing n { d.ring n with head := tget rptrDef x.openings n }) d

theorem Device.rewound_head (d : Device) (x : Job) {l : List Nat} {n : Nat} (h : n ∈ l) :
    ((d.rewound x l).ring n).head = tget rptrDef x.openings n := by
  refine foldl_establishes (P := fun d : Device => (d.ring n).head = tget rptrDef x.openings n) h (fun d => ?_) (fun d k hk => ?_) d
  · rw [Device.moveRing_ring, if_pos rfl]
  · rw [Device.moveRing_ring]
    split
    · next heq => rw [heq]
    · exact hk

theorem Device.rewound_calm (d : Device) (x : Job) (l : List Nat) (j : Nat) : ((d.rewound x l).job j).calm = (d.job j).calm :=
  foldl_keeps (fun d : Device => (d.job j).calm) (fun d _ => d.moveRing_calm _ _ j) l d

theorem Device.rewound_sansRings (d : Device) (x : Job) (l : List Nat) : (d.rewound x l).sansRings = d.sansRings :=
  foldl_keeps Device.sansRings (fun d _ => d.moveRing_sansRings _ _) l d

/-- A restart that the openings allow moves the command rings to them, and the job goes back (R213). -/
theorem Device.restart_held {d : Device} {j : Nat} (h : d.openingsHeld j = true) :
    ∃ f : Fab, d.restart j = ({ d.rewound (d.job j) (d.job j).cmdRings with fab := f } : Device).modJob j Job.restarted :=
  ⟨_, if_pos h⟩

theorem Device.restart_leaves {d : Device} {j : Nat} (h : d.openingsHeld j = true) :
    let e := d.restart j
    (∃ y : Job, y.calm = (d.job j).calm ∧ e.job j = y.restarted)
      ∧ (∀ n ∈ (d.job j).cmdRings, (e.ring n).head = tget rptrDef (d.job j).openings n) ∧ e.sansRings = d.sansRings := by
  intro e
  obtain ⟨f, he⟩ := Device.restart_held h
  rw [show e = _ from he]
  exact ⟨⟨_, d.rewound_calm (d.job j) _ j, Device.modJob_job _ _ _⟩, fun n hn => d.rewound_head (d.job j) hn,
    d.rewound_sansRings (d.job j) _⟩

/-- Moves of some blocks are discarded (R45). -/
def Device.discards (d : Device) (l : List BlockId) : Device := l.foldl (fun d b => d.setBlk b (d.blk b).discard) d

theorem Device.discards_eq (d : Device) (l : List BlockId) : d.discards l = { d with moves := (d.discards l).moves } :=
  (congrArg (fun x : Device => { x with moves := (d.discards l).moves })
    (foldl_keeps (fun x : Device => { x with moves := [] }) (f := fun (d : Device) b => d.setBlk b (d.blk b).discard)
      (fun _ _ => rfl) l d) :)

/-- A ring is nobody's (R215). -/
def Ring.unowned (g : Ring) : Ring := { g with jobOwn := false }

/-- A job in its deletion (R215). -/
def Job.deleted (x : Job) : Job :=
  { x with st := if x.held.isEmpty then x.st else .teardown, release := .delete, nextSt := none, idleSince := none }

theorem Device.jobDelete_taken {d : Device} {j : Nat} (h : (d.job j).st ≠ .free) :
    ∃ (x : Device) (l : List BlockId), x.sansKills = d.sansKills
      ∧ (∀ k ∈ (d.job j).held, (x.engine k).issued = [] ∧ (x.engine k).leaving = true)
      ∧ d.jobDelete j = ((x.mapRings Ring.unowned (x.ownedRings j)).discards l).modJob j Job.deleted := by
  obtain ⟨hsans, heng⟩ := d.tornDown (d.job j).held
  exact ⟨_, _, hsans, heng, if_neg h⟩

theorem Device.jobDelete_leaves {d : Device} {j : Nat} (h : (d.job j).st ≠ .free) :
    let e := d.jobDelete j
    (e.job j).release = .delete ∧ (e.job j).nextSt = none
      ∧ (∀ n, (d.ring n).jobOwn = true → (d.ring n).job = j → (e.ring n).jobOwn = false)
      ∧ (∀ k ∈ (d.job j).held, (e.engine k).issued = [] ∧ (e.engine k).leaving = true)
      ∧ (∀ k, k ≠ j → e.job k = d.job k) ∧ e.tb = d.tb ∧ e.mem = d.mem := by
  obtain ⟨x, l, hsans, heng, he⟩ := Device.jobDelete_taken h
  have hring (k : Nat) : x.ring k = d.ring k := Device.ring_congr (congrArg Device.rings hsans :) k
  have hjob (k : Nat) : x.job k = d.job k := (congrArg (fun y : Device => y.job k) hsans :)
  rw [he, Device.discards_eq, Device.mapRings_eq]
  refine ⟨?_, ?_, fun n hown hn => ?_, heng, fun k hk => ?_, (congrArg Device.tb hsans :), (congrArg Device.mem hsans :)⟩
  · rw [Device.modJob_job]
    rfl
  · rw [Device.modJob_job]
    rfl
  · have howned : n ∈ x.ownedRings j := Device.mem_ownedRings (by rw [hring, hown]) (by rw [hring, hn])
    exact (Device.mapRings_ring (P := fun g => g.jobOwn = false) (f := Ring.unowned) (fun _ => rfl) howned x :)
  · rw [Device.modJob_job_if, if_neg hk]
    exact hjob k

/-- A running job is taken back: its engines leave, and it keeps its host hold (R195, R196). -/
theorem Device.takeBack_leaves {d : Device} {j : Nat} (h : (d.job j).st = .running) :
    let e := d.takeBack j
    (∃ t, e.job j = { d.job j with st := .takingBack, release := .suspend, tbAt := t, idleSince := none })
      ∧ (∀ k ∈ (d.job j).held, (e.engine k).leaving = true) ∧ (∀ k, k ≠ j → e.job k = d.job k)
      ∧ e.out = d.out ∧ e.rings = d.rings ∧ e.mem = d.mem ∧ e.tb = d.tb := by
  obtain ⟨x, hsans, heng, he⟩ := Device.takeBack_running h
  have hjob (k : Nat) : x.job k = d.job k := (congrArg (fun y : Device => y.job k) hsans :)
  rw [he]
  refine ⟨⟨x.tn, ?_⟩, heng, fun k hk => ?_, (congrArg Device.out hsans :), (congrArg Device.rings hsans :),
    (congrArg Device.mem hsans :), (congrArg Device.tb hsans :)⟩
  · rw [Device.modJob_job, hjob]
  · rw [Device.modJob_job_if, if_neg hk]
    exact hjob k

/-- Settles O32: creation, then each control code in the states that allow it. -/
theorem jobControl : Obligations.JobControl := by
  refine ⟨fun s r hs hup hroom => ?_, fun s r hs => ⟨fun hdown => ?_, fun hup hfull => ?_⟩,
    fun s j hs => ⟨fun hst => ?_, fun hst hfree hfailed => ?_, fun hst => ?_, fun hhold => ?_, fun hhold => ?_, fun hst => ?_,
      fun hst => ?_, fun hst hnext hrel hheld => ?_, fun hst => ?_⟩⟩
  · have hjudged := Device.jobCreate_judged r.job r.addr r.secure hup hroom
    refine ⟨fun hwhy => Runs.of_on hs (exec_jobCreate r s) ?_, fun hwhy => Runs.of_on hs (exec_jobCreate r s) ?_⟩
    · rw [hjudged, if_pos hwhy]
      obtain ⟨hjob, hrings, hother, hframe⟩ := s.dev.jobMake_leaves r.job r.addr (JobRec.ofBytes (s.dev.bytes r.addr 192))
      exact Device.made_answered hjob hrings hother hframe
    · rw [hjudged, if_neg hwhy]
      rfl
  · exact Runs.of_on hs (exec_jobCreate r s) (by rw [Device.jobCreate_closed _ _ _ hdown]; rfl)
  · exact Runs.of_on hs (exec_jobCreate r s) (by rw [Device.jobCreate_full _ _ _ hup hfull]; rfl)
  · refine Runs.of_on hs (exec_jobSuspend j s) ?_
    rw [Device.jobSuspend_holds (by simp [hst]) (by simp [hst])]
    obtain ⟨⟨t, hjob⟩, hleave, hother, hout, hrings, hmem, htb⟩ :=
      Device.takeBack_leaves (d := s.dev.modJob j fun x => { x with hold := true }) (j := j) (by rw [Device.modJob_job]; exact hst)
    rw [Device.modJob_job] at hjob hleave
    generalize (s.dev.modJob j fun x => { x with hold := true }).takeBack j = e at *
    exact ⟨(congrArg Job.st hjob :), (congrArg Job.hold hjob :), (congrArg Job.release hjob :), (congrArg Job.held hjob :), hleave,
      fun k hk => (hother k hk).trans (by rw [Device.modJob_job_if, if_neg hk]), congrArg (Note.dict 0 [] :: ·) hout, hrings, hmem, htb⟩
  · refine Runs.of_on hs (exec_jobSuspend j s) ?_
    rw [Device.jobSuspend_holds hfree hfailed, Device.takeBack_idle (by rw [Device.modJob_job]; exact hst)]
    rfl
  · exact Runs.of_on hs (exec_jobSuspend j s) (by rw [Device.jobSuspend, if_pos hst]; rfl)
  · exact Runs.of_on hs (exec_jobResume j s) (by rw [Device.jobResume, if_pos hhold]; rfl)
  · exact Runs.of_on hs (exec_jobResume j s) (by rw [Device.jobResume, if_neg (by simp [hhold])]; rfl)
  · exact Runs.of_on hs (exec_jobRestart j s) (by rw [Device.jobRestart, if_neg (by simp [hst])]; rfl)
  · exact Runs.of_on hs (exec_jobDelete j s) (by rw [Device.jobDrop, if_neg (by simp [hst])]; rfl)
  · refine Runs.of_on hs (exec_jobRestart j s) ?_
    rw [Device.jobRestart_failed hst hnext hrel]
    obtain ⟨⟨y, hcalm, hjob⟩, hheads, hsans⟩ := Device.restart_leaves (d := s.dev.modJob j fun x => { x with faults := [] })
      ((s.dev.openingsHeld_modJob_faults j []).trans hheld)
    rw [Device.modJob_job] at hcalm hheads
    generalize (s.dev.modJob j fun x => { x with faults := [] }).restart j = e at *
    have hrc : y.rc = (s.dev.job j).rc := (congrArg Job.rc hcalm :)
    refine ⟨(congrArg Job.nextSt hjob :), (congrArg Job.faults hjob :).trans (congrArg Job.faults hcalm :), ?_,
      (congrArg Job.ckpt hjob :), (congrArg Job.stale hjob :),
      ((congrArg Job.st hjob :).trans (congrArg Job.st hcalm :)).trans hst, fun n hn => ⟨hheads n hn, ?_⟩,
      (congrArg Device.mem hsans :), (congrArg Device.eng hsans :), (congrArg Device.tb hsans :)⟩
    · have hrestarts : y.restarts = (s.dev.job j).restarts := (congrArg Job.restarts hcalm :)
      rw [← hrestarts]
      exact (congrArg Job.restarts hjob :)
    · rw [← hrc, ← Job.restarted_doneSeq ((Job.cmdRings_of_rc hrc).symm ▸ hn)]
      exact (congrArg (fun x : Job => tget doneDef x.doneSeq n) hjob :)
  · refine Runs.of_on hs (exec_jobDelete j s) ?_
    rw [Device.jobDrop_taken hst]
    exact Device.jobDelete_leaves hst

end Sys2Proof.Machine

/-! SUPPORT. Tempo and time (spec chapter 02): what reset leaves, time start, the calendar and external time. -/

namespace Sys2Proof.Machine

open Sys2Proof

/-! ### Right after reset (R36, R408, R447, R463, R491) -/

/-- Settles O59: each part of the reset state is read off its initial value. -/
theorem resetLeaves : Obligations.ResetLeaves := by
  refine ⟨rfl, rfl, rfl, rfl, fun a => ?_, fun j => rfl, fun n => ⟨rfl, rfl⟩, fun e => rfl, rfl, rfl, rfl, rfl, rfl,
    fun p => rfl, fun n => rfl, fun p => rfl, rfl⟩
  exact BitVec.xor_self

/-! ### Time start (R36) -/

theorem Device.milestone_frame (d : Device) (k : Nat) :
    d.milestone k = { d with pwr := (d.milestone k).pwr, fresh := (d.milestone k).fresh } := by
  unfold Device.milestone
  extract_lets f prev t
  split <;> rfl

/-- The third step of the bring-up touches the power state and the field ports alone. -/
theorem Device.fieldReady_frame (d : Device) :
    d.fieldReady = { d with pwr := d.fieldReady.pwr, fgw := d.fieldReady.fgw, fresh := d.fieldReady.fresh } := by
  unfold Device.fieldReady
  split
  · extract_lets d'
    rw [show d' = d.milestone 3 from rfl, d.milestone_frame 3]
  · rfl

theorem Device.timeStart_of_started {d : Device} (stamp : Option Nat) (h : d.tb.started = true) : d.timeStart stamp = d := by
  simp [Device.timeStart, h]

theorem Device.timeStart_frame (d : Device) (stamp : Option Nat) :
    d.timeStart stamp = { d with tb := (d.timeStart stamp).tb } := by
  unfold Device.timeStart
  split <;> rfl

/-- Where time starts, DT takes the stamp of a first TIME message that the device waits for, else 0. -/
theorem Device.timeStart_clock {d : Device} (stamp : Option Nat) (hstart : d.tb.started = false) (hgood : d.pwr.good = true) :
    (d.timeStart stamp).tb.started = true ∧
      (d.timeStart stamp).tb.dt = ((stamp.filter fun _ => d.portWaits && !d.fab.king).map (· % 2 ^ 64)).getD 0 := by
  cases stamp with
  | none => simp [Device.timeStart, hstart, hgood]
  | some t => cases hw : (d.portWaits && !d.fab.king) <;> simp [Device.timeStart, hstart, hgood, hw, Option.filter]

/-- What `timeStart` does to the time base is not touched by the step of the bring-up that may follow. -/
theorem Device.startTime_tb (d : Device) (stamp : Option Nat) : (d.startTime stamp).tb = (d.timeStart stamp).tb := by
  unfold Device.startTime
  rw [Device.fieldReady_frame]

theorem Device.startTime_frame (d : Device) (stamp : Option Nat) :
    d.startTime stamp = { d with tb := (d.startTime stamp).tb, pwr := (d.startTime stamp).pwr,
                                 fgw := (d.startTime stamp).fgw, fresh := (d.startTime stamp).fresh } := by
  unfold Device.startTime
  rw [Device.fieldReady_frame, Device.timeStart_frame]

/-- Settles O15: `timeStart` sets the time base once, and the step of the bring-up that may follow leaves it. -/
theorem timeStarts : Obligations.TimeStarts := by
  intro s stamp hs
  refine ⟨fun hstart hgood => Runs.of_on hs (exec_timeStart stamp s) ?_, fun hstart => Runs.of_on hs (exec_timeStart stamp s) ?_⟩
  · obtain ⟨hstarted, hdt⟩ := Device.timeStart_clock stamp hstart hgood
    refine ⟨?_, fun t ht hwait hking => ?_, fun hnone => ?_, s.dev.startTime_frame stamp⟩ <;> rw [Device.startTime_tb]
    · exact hstarted
    · rw [hdt]
      simp [ht, hwait, hking, Option.filter]
    · rw [hdt]
      rcases hnone with h | h | h
      · simp [h]
      · cases stamp <;> simp [h, Option.filter]
      · cases stamp <;> simp [h, Option.filter]
  · rw [Device.startTime_tb, Device.timeStart_of_started stamp hstart]

/-! ### The calendar (R57 to R61) -/

/-- A tick that has no staged date to apply and no end to stay at goes on within the second, to the next second, or ends. -/
theorem Calendar.tick_of_free {c : Calendar} (hp : c.pending = none) (he : c.atEnd = false) :
    c.tick = if c.sub < 32767 then ({ c with sub := c.sub + 1 }, false)
      else if c.now = DateTime.last then ({ c with sub := 0x7FFF, atEnd := true }, true)
      else ({ c with now := c.now.succ, sub := 0 }, false) := by
  simp [Calendar.tick, hp, he]

theorem Calendar.tick_of_pending {c : Calendar} {t : DateTime} (h : c.pending = some t) :
    c.tick = ({ c with now := t, sub := 0, pending := none, atEnd := false }, false) := by
  simp [Calendar.tick, h]

theorem Calendar.tick_of_atEnd {c : Calendar} (hp : c.pending = none) (he : c.atEnd = true) : c.tick = (c, false) := by
  simp [Calendar.tick, hp, he]

/-- A tick counts the calendar on and leaves what a read of CAL_DATE latched. -/
theorem Calendar.tick_latch (c : Calendar) : c.tick.1.latch = c.latch := by
  cases hp : c.pending with
  | some t => rw [Calendar.tick_of_pending hp]
  | none =>
    cases he : c.atEnd with
    | true => rw [Calendar.tick_of_atEnd hp he]
    | false => rw [Calendar.tick_of_free hp he]; split_ifs <;> rfl

theorem Device.calTick_cal (d : Device) : d.calTick.cal = d.cal.tick.1 := by
  cases h : d.cal.tick.2
  · simp [Device.calTick, h]
  · simp only [Device.calTick, h, if_true]
    rfl

/-- A tick that does not end the calendar touches the calendar alone. -/
theorem Device.calTick_of_not_ended {d : Device} (h : d.cal.tick.2 = false) : d.calTick = { d with cal := d.cal.tick.1 } := by
  simp [Device.calTick, h]

/-- While a latch is held, CAL_TIME reads it. -/
theorem tbReg_calTime_latched {d : Device} {l : Word × Word} (h : d.cal.latch = some l) :
    (tbReg 0x84).get d = l.1.toNat := by
  simp [tbReg, calReg, h]

/-- While a latch is held, CAL_SUB reads it. -/
theorem tbReg_calSub_latched {d : Device} {l : Word × Word} (h : d.cal.latch = some l) :
    (tbReg 0x88).get d = l.2.toNat := by
  simp [tbReg, calReg, Reg.ro, h, Nat.mod_eq_of_lt l.2.isLt]

/-- Settles O20: the latch takes the present words, and no tick writes it. -/
theorem calDateLatches : Obligations.CalDateLatches := by
  intro s hs
  have hlatch : s.dev.calRead.cal.latch = some (s.dev.cal.now.timeWord, BitVec.ofNat 32 s.dev.cal.sub) := rfl
  have htick : s.dev.calRead.calTick.cal.latch = s.dev.calRead.cal.latch := by rw [Device.calTick_cal, Calendar.tick_latch]
  refine Runs.of_on hs (exec_calDateRead s) ⟨rfl, tbReg_calTime_latched hlatch, ?_, tbReg_calTime_latched (htick.trans hlatch), ?_⟩
  · rw [tbReg_calSub_latched hlatch, BitVec.toNat_ofNat]
  · rw [tbReg_calSub_latched (htick.trans hlatch), BitVec.toNat_ofNat]

theorem DateTime.succ_within_minute {c : DateTime} (h : c.second < 59) : c.succ = { c with second := c.second + 1 } := by
  simp [DateTime.succ, h]

/-- The last second of 28 February is followed by 29 February exactly in a leap year. -/
theorem DateTime.succ_end_of_february (y : Nat) :
    (⟨y, 2, 28, 23, 59, 59⟩ : DateTime).succ = if isLeap y then ⟨y, 2, 29, 0, 0, 0⟩ else ⟨y, 3, 1, 0, 0, 0⟩ := by
  cases h : isLeap y <;> simp [DateTime.succ, monthLength, h]

/-- CAL_SET takes a staged date that exists for the next tick, and refuses any other with ERR. -/
theorem Calendar.set_cases (c : Calendar) :
    c.set.now = c.now ∧ c.set.sub = c.sub ∧
      if (DateTime.ofWords c.stagedDate c.stagedTime).valid
      then c.set.pending = some (DateTime.ofWords c.stagedDate c.stagedTime) ∧ c.set.err = c.err
      else c.set.pending = c.pending ∧ c.set.err = true := by
  cases h : (DateTime.ofWords c.stagedDate c.stagedTime).valid <;> simp [Calendar.set, h]

/-- Settles O21: one equation of a tick per case, and one of the next second per roll. -/
theorem calendarRules : Obligations.CalendarRules := by
  refine ⟨fun s hs => Runs.of_on hs (exec_calSet s) ⟨rfl, s.dev.cal.set_cases⟩, fun s => ⟨s.dev.calTick, exec_calendarTick s, ?_⟩,
    fun y h m x => ⟨DateTime.succ_end_of_february y, fun hm => ?_, fun hx => DateTime.succ_within_minute hx⟩, by decide⟩
  · refine ⟨fun c hp => ?_, fun hp he => ?_, fun hp he hsub => ?_, fun hp he hsub hnow => ?_, fun hp he hsub hnow => ?_⟩
    · simp [Device.calTick_cal, Calendar.tick_of_pending hp]
    · have htick := Calendar.tick_of_atEnd hp he
      rw [Device.calTick_of_not_ended (by rw [htick]), htick]
    · have htick := (Calendar.tick_of_free hp he).trans (if_pos hsub)
      rw [Device.calTick_of_not_ended (by rw [htick]), htick]
    · have htick := (Calendar.tick_of_free hp he).trans ((if_neg (by omega)).trans (if_neg hnow))
      rw [Device.calTick_of_not_ended (by rw [htick]), htick]
    · have htick := (Calendar.tick_of_free hp he).trans ((if_neg (by omega)).trans (if_pos hnow))
      simp [Device.calTick_cal, htick, hnow]
  · simp [DateTime.succ, hm]

/-! ### External time (R51 to R55, R59) -/

theorem TimeBase.offsetMove_slews {t : TimeBase} {target : Int} (tn : Nat) (h : (target - t.offsetNow).natAbs ≤ 1000000) :
    t.offsetMove target tn =
      ({ t with slewTo := if target - t.offsetNow = 0 then none else some target, slewAcc := 0 }, false) :=
  if_pos h

theorem TimeBase.offsetMove_steps {t : TimeBase} {target : Int} (tn : Nat) (h : 1000000 < (target - t.offsetNow).natAbs) :
    t.offsetMove target tn =
      ({ t with offsetNow := target, slewTo := none, slewAcc := 0, stepSize := target - t.offsetNow, stepTn := tn,
                stepCount := (t.stepCount + 1) % 2 ^ 32 }, true) :=
  if_neg (Nat.not_le.mpr h)

/-- Settles O22, from one equation for each event of external time. -/
theorem externalTime : Obligations.ExternalTime := by
  refine ⟨fun s hs => ⟨fun hsync => ?_, fun hsync => ?_, fun hstart => ?_, ?_⟩, fun t target tn => ⟨fun hnear => ?_, fun hfar => ?_⟩⟩
  · exact Runs.of_on hs (exec_gptpMasterLoss s) (if_pos hsync)
  · exact Runs.of_on hs (exec_gptpMasterLoss s) (if_neg (by simp [hsync]))
  · exact Runs.of_on hs (exec_gptpSync s) (if_pos hstart)
  · intro u c hcal hsync hu hvalid
    have hrun : s.dev.calRewrite = { s.dev with cal := { s.dev.cal with now := c, sub := u.toNat % 1000000000 * 32768 / 1000000000,
                                                                        pending := none, atEnd := false } } := by
      have hguard : (s.dev.cal.sync && s.dev.tb.sync != .none && decide (0 ≤ u)) = true := by simp [hcal, hsync, hu]
      exact (if_pos hguard).trans (if_pos hvalid)
    exact Runs.of_on hs (exec_calendarRewrite s) (by rw [hrun]; exact ⟨rfl, rfl, rfl⟩)
  · rw [TimeBase.offsetMove_slews tn hnear]
    exact ⟨rfl, rfl, fun hne => if_neg (sub_ne_zero.mpr hne)⟩
  · rw [TimeBase.offsetMove_steps tn hfar]
    exact ⟨rfl, rfl, rfl, rfl, rfl, rfl⟩

end Sys2Proof.Machine

/-! SUPPORT. What leaves the time base (spec chapter 02): one equation for each function of the model that does not touch it, in the
order of the model. They carry the statements on device time through everything that a command does. -/

namespace Sys2Proof.Machine

open Sys2Proof

/-! ### Loops and branches -/

/-- What the counter of device time shows (R34 to R36): whether it runs, DT at the latest boundary, and whether the round boundary
of the present TN has yet to be served. -/
def TimeBase.clock (t : TimeBase) : Bool × Nat × Bool := (t.started, t.dt, t.roundDue)

@[simp] theorem Device.ite_tb (c : Prop) [Decidable c] (d e : Device) :
    (if c then d else e).tb = if c then d.tb else e.tb := apply_ite Device.tb c d e

@[simp] theorem TimeBase.ite_clock (c : Prop) [Decidable c] (t u : TimeBase) :
    (if c then t else u).clock = if c then t.clock else u.clock := apply_ite TimeBase.clock c t u

/-- Every step of a loop over the device leaves the time base. -/
def KeepsTime {β : Type} (f : Device → β → Device) : Prop := ∀ d x, (f d x).tb = d.tb

@[simp] theorem keepsTime_iff {β : Type} (f : Device → β → Device) : KeepsTime f ↔ ∀ d x, (f d x).tb = d.tb := Iff.rfl

@[simp] theorem foldl_tb {β : Type} {f : Device → β → Device} (h : KeepsTime f) (l : List β) (d : Device) :
    (l.foldl f d).tb = d.tb := foldl_keeps Device.tb h l d

/-- A loop that carries a finding beside the device leaves the time base. -/
theorem foldl_fst_tb {α β : Type} {f : Device × α → β → Device × α} (h : ∀ p x, (f p x).1.tb = p.1.tb) (l : List β)
    (p : Device × α) : (l.foldl f p).1.tb = p.1.tb := foldl_keeps (fun p => p.1.tb) h l p

/-! ### The device -/

@[simp] theorem Device.put_tb (d : Device) (a : Nat) (bs : List Byte) : (d.put a bs).tb = d.tb := by
  rw [Device.put_eq]

@[simp] theorem Device.putAll_tb (d : Device) (ws : List (Nat × List Byte)) : (d.putAll ws).tb = d.tb := by simp [Device.putAll]

@[simp] theorem Device.scramble_tb (d : Device) (lo hi : Nat) : (d.scramble lo hi).tb = d.tb := by simp [Device.scramble]

@[simp] theorem Device.stamp_tb (d : Device) : d.stamp.2.tb = d.tb := rfl

@[simp] theorem Device.stampEvent_tb (d : Device) (s : StampSource) : (d.stampEvent s).tb = d.tb := rfl

@[simp] theorem Device.event_tb (d : Device) (code : Nat) (source : Option Nat) (arg : Nat) :
    (d.event code source arg).tb = d.tb := rfl

@[simp] theorem Device.exhausted_tb (d : Device) (code : Nat) : (d.exhausted code).tb = d.tb := rfl

/-! ### Operations that several commands share -/

@[simp] theorem Device.setOpen_tb (d : Device) (b : BlockId) (a v : Nat) : (d.setOpen b a v).tb = d.tb := rfl

@[simp] theorem Device.logRefusal_tb (d : Device) (p : Port) (a : Nat) (write secure : Bool) :
    (d.logRefusal p a write secure).tb = d.tb := rfl

@[simp] theorem Device.mceLoad_tb (d : Device) (a n : Nat) : (d.mceLoad a n).1.tb = d.tb := by
  unfold Device.mceLoad
  split <;> simp

@[simp] theorem Device.modelLoad_tb (d : Device) (a : Nat) : (d.modelLoad a).1.tb = d.tb := by
  unfold Device.modelLoad
  split
  · rfl
  · have htb := d.mceLoad_tb a 64
    split
    · next e he => exact (congrArg (fun p => p.1.tb) he).symm.trans htb
    · next e h _ he =>
      rw [Device.mceLoad_tb]
      exact (congrArg (fun p => p.1.tb) he).symm.trans htb

@[simp] theorem Device.planLoad_tb (d : Device) (a n : Nat) : (d.planLoad a n).1.tb = d.tb := by
  unfold Device.planLoad
  split <;> simp

@[simp] theorem Device.sealBlk_tb (d : Device) (b : BlockId) (g : Nat) : (d.sealBlk b g).tb = d.tb := by
  unfold Device.sealBlk
  repeat' split
  all_goals simp

@[simp] theorem Device.withdrawBlk_tb (d : Device) (b : BlockId) : (d.withdrawBlk b).tb = d.tb := rfl

@[simp] theorem Device.revertBlk_tb (d : Device) (b : BlockId) : (d.revertBlk b).tb = d.tb := by
  unfold Device.revertBlk
  split <;> simp

@[simp] theorem Device.setRail_tb (d : Device) (die step : Nat) : (d.setRail die step).tb = d.tb := by simp [Device.setRail]

@[simp] theorem Device.raiseRails_tb (d : Device) : d.raiseRails.tb = d.tb := by simp [Device.raiseRails]

@[simp] theorem Device.settleRails_tb (d : Device) : d.settleRails.tb = d.tb := by simp [Device.settleRails]

@[simp] theorem Device.moveLoaded_tb (d : Device) (b : BlockId) : (d.moveLoaded b).tb = d.tb := by
  unfold Device.moveLoaded
  split <;> simp

@[simp] theorem Device.resetLatency_tb (d old : Device) (die : Die) : (d.resetLatency old die).tb = d.tb := rfl

@[simp] theorem Device.recrypt_tb (d : Device) (set : Nat) (old new : List Checker) : (d.recrypt set old new).tb = d.tb := by
  simp [Device.recrypt]

@[simp] theorem Device.mceMove_tb (d old : Device) : (d.mceMove old).tb = d.tb := rfl

@[simp] theorem Device.modelMove_tb (d old : Device) : (d.modelMove old).tb = d.tb := rfl

@[simp] theorem Device.cruMove_tb (d : Device) : d.cruMove.tb = d.tb := rfl

@[simp] theorem Device.secSeal_tb (d : Device) (h r attr : Nat) : (d.secSeal h r attr).tb = d.tb := by simp [Device.secSeal]

@[simp] theorem Device.regionWipe_tb (d : Device) (h r : Nat) : (d.regionWipe h r).tb = d.tb := by simp [Device.regionWipe]

@[simp] theorem Device.regionsMoved_tb (d : Device) (h : Nat) : (d.regionsMoved h).tb = d.tb := by
  simp only [Device.regionsMoved]
  refine foldl_tb (fun _ _ => ?_) _ _
  split <;> simp

/-! ### The Arbiter -/

@[simp] theorem Device.logDt_tb (d : Device) : d.logDt.2.tb = d.tb := by
  unfold Device.logDt
  split <;> simp

@[simp] theorem Device.logRest_tb (d : Device) (source : Option Nat) : (d.logRest source).2.2.tb = d.tb := rfl

@[simp] theorem Device.arbReport_tb (d : Device) (cause : Nat) (source : Option Nat) (reaction falls : Nat) :
    (d.arbReport cause source reaction falls).tb = d.tb := by
  simp [Device.arbReport]

@[simp] theorem Device.arbGate_tb (d : Device) (cause : Nat) (source : Option Nat) : (d.arbGate cause source).tb = d.tb := by
  simp [Device.arbGate]

@[simp] theorem Device.arbSafe_tb (d : Device) (cause : Nat) (source : Option Nat) (falls : Nat) :
    (d.arbSafe cause source falls).tb = d.tb := by
  simp [Device.arbSafe]

@[simp] theorem Device.safeCause_tb (d : Device) (cause : Nat) (source : Option Nat) :
    (d.safeCause cause source).tb = d.tb := by
  simp [Device.safeCause]

@[simp] theorem Device.reportCause_tb (d : Device) (cause : Nat) (source : Option Nat) :
    (d.reportCause cause source).tb = d.tb := by
  simp [Device.reportCause]

@[simp] theorem Device.pairMismatch_tb (d : Device) (p : Nat) : (d.pairMismatch p).tb = d.tb := by simp [Device.pairMismatch]

/-! ### Networks -/

@[simp] theorem Device.leavePort_tb (d : Device) (p : Port) (i : Inflight) (ns : Nat) : (d.leavePort p i ns).tb = d.tb := by
  unfold Device.leavePort
  repeat' split
  all_goals simp

@[simp] theorem Device.resample_tb (d : Device) (p : Port) : (d.resample p).tb = d.tb := rfl

@[simp] theorem Device.served_tb (d : Device) (p : Port) (write : Bool) (a n : Nat) : (d.served p write a n).tb = d.tb := by
  unfold Device.served
  repeat' split
  all_goals simp

@[simp] theorem Device.servedFree_tb (d : Device) (p : Port) (write : Bool) (a : Nat) : (d.servedFree p write a).tb = d.tb := by
  simp [Device.servedFree]

@[simp] theorem Device.lateInst_tb (d : Device) (i : Nat) : (d.lateInst i).tb = d.tb := rfl

@[simp] theorem Device.dbgArrive_tb (d : Device) (i : Inflight) : (d.dbgArrive i).tb = d.tb := by simp [Device.dbgArrive]

@[simp] theorem Device.requestComplete_tb (d : Device) (p : Port) (id ns : Nat) : (d.requestComplete p id ns).tb = d.tb := by
  unfold Device.requestComplete
  split <;> simp

@[simp] theorem Device.lateReply_tb (d : Device) (die : Die) (tag ns : Nat) : (d.lateReply die tag ns).tb = d.tb := by
  simp only [Device.lateReply]
  split <;> simp

@[simp] theorem Device.latch_tb (d : Device) : d.latch.tb = d.tb := rfl

@[simp] theorem Device.holdHigh_tb (d : Device) (a v : Nat) : (d.holdHigh a v).tb = d.tb := rfl

@[simp] theorem Device.modCounter_tb (d : Device) (a : Nat) (f : Counter → Counter) : (d.modCounter a f).tb = d.tb := rfl

@[simp] theorem Device.errLogClear_tb (d : Device) (die : Die) : (d.errLogClear die).tb = d.tb := rfl

@[simp] theorem Device.setLink_tb (d : Device) (l : Nat) (v : DieLink) : (d.setLink l v).tb = d.tb := rfl

@[simp] theorem Device.linkFault_tb (d : Device) (l : Nat) : (d.linkFault l).tb = d.tb := by simp [Device.linkFault]

@[simp] theorem Device.dieReplay_tb (d : Device) (l : Nat) (ok : Bool) : (d.dieReplay l ok).tb = d.tb := by
  simp [Device.dieReplay]

/-! ### Jobs and engines -/

@[simp] theorem Device.triggerBy_tb (d : Device) (p : Nat → Bool) : (d.triggerBy p).tb = d.tb := by simp [Device.triggerBy]

@[simp] theorem Device.triggerTempo_tb (d : Device) : d.triggerTempo.tb = d.tb := by simp [Device.triggerTempo]

@[simp] theorem Device.moveRing_tb (d : Device) (n : Nat) (r : Machine.Ring) : (d.moveRing n r).tb = d.tb := by
  simp [Device.moveRing]

@[simp] theorem Device.killEngine_tb (d : Device) (e : Nat) (atomicToo : Bool) : (d.killEngine e atomicToo).tb = d.tb :=
  (congrArg Device.tb (d.killEngine_sansKills e atomicToo) :)

@[simp] theorem Device.fenceEngine_tb (d : Device) (e : Nat) : (d.fenceEngine e).tb = d.tb := rfl

@[simp] theorem Device.leaveAll_tb (d : Device) (es : List Nat) : (d.leaveAll es).tb = d.tb := by simp [Device.leaveAll]

@[simp] theorem Device.takeBack_tb (d : Device) (j : Nat) : (d.takeBack j).tb = d.tb := by simp [Device.takeBack]

@[simp] theorem Device.jobFault_tb (d : Device) (j code logical : Nat) : (d.jobFault j code logical).tb = d.tb := by
  simp [Device.jobFault]

theorem Device.saveRefused_tb {d e : Device} {j n l : Nat} {write : Bool} (h : d.saveRefused j n l write = some e) :
    e.tb = d.tb := by
  obtain ⟨a, -, rfl⟩ := Option.map_eq_some_iff.mp h
  simp

theorem Device.saveRefused_getD_tb {d e : Device} (j n l : Nat) (write : Bool) (h : e.tb = d.tb) :
    ((d.saveRefused j n l write).getD e).tb = d.tb := by
  cases hs : d.saveRefused j n l write with
  | none => exact h
  | some f => exact Device.saveRefused_tb hs

@[simp] theorem Device.saveRows_tb (d : Device) (j e l : Nat) : (d.saveRows j e l).tb = d.tb :=
  Device.saveRefused_getD_tb _ _ _ _ (d.put_tb _ _)

@[simp] theorem Device.loadRows_tb (d : Device) (j e l : Nat) : (d.loadRows j e l).tb = d.tb :=
  Device.saveRefused_getD_tb _ _ _ _ (d.put_tb _ _)

@[simp] theorem Device.clearSlab_tb (d : Device) (e : Nat) : (d.clearSlab e).tb = d.tb := by simp [Device.clearSlab]

@[simp] theorem Device.restart_tb (d : Device) (j : Nat) : (d.restart j).tb = d.tb := by
  unfold Device.restart
  split
  · exact foldl_tb (fun d n => d.moveRing_tb n _) _ d
  · rfl

@[simp] theorem Device.teardownComplete_tb (d : Device) (j : Nat) : (d.teardownComplete j).tb = d.tb := by
  simp [Device.teardownComplete]

@[simp] theorem Device.jobDelete_tb (d : Device) (j : Nat) : (d.jobDelete j).tb = d.tb := by simp [Device.jobDelete]

@[simp] theorem Device.bindEngines_tb (d : Device) (j : Nat) (es : List Nat) : (d.bindEngines j es).tb = d.tb := by
  simp [Device.bindEngines]

@[simp] theorem Device.rewind_tb (d : Device) (j v : Nat) : (d.rewind j v).tb = d.tb := by
  simp only [Device.rewind]
  split <;> simp

/-! ### The motion check engine -/

@[simp] theorem Device.hubPut_tb (d : Device) (p : Port) (secure : Bool) (a : Nat) (bs : List Byte) :
    (d.hubPut p secure a bs).tb = d.tb := by
  simp [Device.hubPut]

@[simp] theorem Device.answer_tb (p : Device × Nat) : (answer p).tb = p.1.tb := rfl

theorem Device.hubPublish_tb {d e : Device} {p : Port} {secure : Bool} {n : Nat} {bs : List Byte}
    (h : d.hubPublish p secure n bs = some e) : e.tb = d.tb := by
  simp only [Device.hubPublish] at h
  split at h <;> cases h
  simp

@[simp] theorem Device.hubPublish_getD_tb (d e : Device) (p : Port) (secure : Bool) (n : Nat) (bs : List Byte)
    (h : e.tb = d.tb) :
    ((d.hubPublish p secure n bs).getD e).tb = d.tb := by
  cases hp : d.hubPublish p secure n bs with
  | none => exact h
  | some f => exact Device.hubPublish_tb hp

@[simp] theorem Device.syncBricks_tb (d : Device) : d.syncBricks.tb = d.tb := by simp [Device.syncBricks]

@[simp] theorem Device.brickFetch_tb (d : Device) : d.brickFetch.tb = d.tb := by
  simp only [Device.brickFetch]
  split <;> simp

@[simp] theorem Device.fieldReset_tb (d : Device) : d.fieldReset.tb = d.tb := rfl

@[simp] theorem Device.fieldErrors_tb (d : Device) (corr : Nat) (bad : Bool) : (d.fieldErrors corr bad).tb = d.tb := by
  simp [Device.fieldErrors]

@[simp] theorem Device.brickDone_tb (d : Device) (b : Brick) : (d.brickDone b).tb = d.tb := by
  simp only [Device.brickDone]
  split <;> simp

theorem Device.windowStep_tb (p : Device × Window) (b : Brick) : (Device.windowStep p b).1.tb = p.1.tb := by
  simp only [Device.windowStep]
  split_ifs <;> simp

@[simp] theorem Device.updateWindow_tb (d : Device) : d.updateWindow.1.tb = d.tb := by
  simp only [Device.updateWindow, Device.ite_tb, Device.modMce_tb, Device.count_tb, ite_self]
  refine (foldl_fst_tb Device.windowStep_tb _ _).trans ?_
  simp

@[simp] theorem Device.batchSelect_tb (d : Device) : d.batchSelect.tb = d.tb := by
  simp only [Device.batchSelect]
  repeat' split
  all_goals simp

@[simp] theorem Device.batchFetch_tb (d : Device) (err : Bool) : (d.batchFetch err).tb = d.tb := by
  unfold Device.batchFetch
  split <;> simp

@[simp] theorem Device.batchTakes_tb (d : Device) : d.batchTakes.tb = d.tb := by
  simp only [Device.batchTakes]
  split <;> simp

@[simp] theorem Device.planCheck_tb (d : Device) (env : MceEnv) : (d.planCheck env).1.tb = d.tb := by
  unfold Device.planCheck
  repeat' split
  all_goals simp

@[simp] theorem Device.formRecord_tb (d : Device) (r : Verdict) (clear0 : Option Int) (mismatch : Bool) :
    (d.formRecord r clear0 mismatch).tb = d.tb := by
  simp [Device.formRecord]

@[simp] theorem Device.fieldCheck_tb (d : Device) (env : MceEnv) (w : Window) : (d.fieldCheck env w).tb = d.tb := by
  simp only [Device.fieldCheck]
  split <;> simp

@[simp] theorem Device.rayTempo_tb (d : Device) (env : MceEnv) (w : Window) : (d.rayTempo env w).tb = d.tb := by
  simp only [Device.rayTempo]
  split <;> simp

@[simp] theorem Device.mceWaits_tb (d : Device) : d.mceWaits.tb = d.tb := rfl

@[simp] theorem Device.waveReads_tb (d : Device) (env : MceEnv) : (d.waveReads env).tb = d.tb := by
  unfold Device.waveReads
  split <;> simp

@[simp] theorem Device.mceTempo_tb (d : Device) (env : MceEnv) : (d.mceTempo env).tb = d.tb := by
  simp only [Device.mceTempo]
  repeat' split
  all_goals simp

@[simp] theorem Device.rayCycle_tb (d : Device) : d.rayCycle.tb = d.tb := by
  unfold Device.rayCycle
  repeat' split
  all_goals simp

@[simp] theorem Device.verdictRing_tb (d : Device) (bs : List Byte) : (d.verdictRing bs).tb = d.tb := by
  unfold Device.verdictRing
  split
  · rfl
  · exact Device.hubPublish_getD_tb _ _ _ _ _ _ rfl

@[simp] theorem Device.completeTasks_tb (d : Device) (atBoundary : Bool) (p : Nat → TaskRec → Bool) :
    (d.completeTasks atBoundary p).tb = d.tb := by
  simp [Device.completeTasks]

@[simp] theorem Device.verdictRecord_tb (d : Device) (crcOk : Bool) : (d.verdictRecord crcOk).tb = d.tb := by
  unfold Device.verdictRecord
  split <;> simp

@[simp] theorem Device.waveStart_tb (d : Device) : d.waveStart.tb = d.tb := by simp [Device.waveStart]

@[simp] theorem Device.waveDone_tb (d : Device) : d.waveDone.tb = d.tb := by
  unfold Device.waveDone
  split <;> simp

@[simp] theorem Device.waveAbort_tb (d : Device) : d.waveAbort.tb = d.tb := rfl

/-! ### Memory -/

@[simp] theorem Device.engineOut_tb (d : Device) (e : Nat) : (d.engineOut e).tb = d.tb := by simp [Device.engineOut]

@[simp] theorem Device.retireRange_tb (d : Device) (die a : Nat) : (d.retireRange die a).tb = d.tb := by
  simp [Device.retireRange]

@[simp] theorem Device.eventOpen_tb (d : Device) (arg : Nat) : (d.eventOpen arg).tb = d.tb := rfl

@[simp] theorem Device.scheduleRow_tb (d : Device) (r : RowId) (bad : Bool) : (d.scheduleRow r bad).tb = d.tb := by
  unfold Device.scheduleRow
  repeat' split
  all_goals simp

@[simp] theorem Device.slabError_tb (d : Device) (a : Nat) (bad : Bool) : (d.slabError a bad).tb = d.tb := by
  simp only [Device.slabError]
  repeat' split
  all_goals simp

@[simp] theorem Device.remapRows_tb (d : Device) : d.remapRows.tb = d.tb := by simp [Device.remapRows]

@[simp] theorem Device.rowCopied_tb (d : Device) (r : RowId) : (d.rowCopied r).tb = d.tb := rfl

@[simp] theorem Device.stackError_tb (d : Device) (h a : Nat) (o : EccOutcome) : (d.stackError h a o).tb = d.tb := by
  unfold Device.stackError
  split <;> simp

@[simp] theorem Device.memError_tb (d : Device) (a : Nat) (o : EccOutcome) : (d.memError a o).tb = d.tb := by
  unfold Device.memError
  split <;> simp

@[simp] theorem Device.scrubRead_tb (d : Device) (h : Nat) (o : EccOutcome) : (d.scrubRead h o).tb = d.tb := by
  simp [Device.scrubRead]

theorem Device.scrambles_tb (d : Device) (lo hi : Nat → Nat) (es : List Nat) :
    (es.foldl (fun d e => d.scramble (lo e) (hi e)) d).tb = d.tb :=
  foldl_tb (fun d e => d.scramble_tb (lo e) (hi e)) es d

@[simp] theorem Device.softRepair_tb (d : Device) (h row : Nat) (correctable resource : Bool) :
    (d.softRepair h row correctable resource).tb = d.tb := by
  unfold Device.softRepair
  split
  · rfl
  · extract_lets base d1 d2
    have hd : d1.tb = d.tb := rfl
    split
    · split
      · exact hd
      · exact (Device.scrambles_tb _ (fun o => base + o) (fun o => base + o + 256) _).trans hd
    · refine (foldl_tb (fun d p => ?_) _ _).trans hd
      simp

/-! ### Translation -/

@[simp] theorem Device.dirty_tb (d : Device) (c : Nat) (world : Bool) (a : Nat) : (d.dirty c world a).tb = d.tb := by
  simp [Device.dirty]

@[simp] theorem Device.iommuFault_tb (d : Device) (c a cause : Nat) : (d.iommuFault c a cause).tb = d.tb := rfl

@[simp] theorem Device.freeCause_tb (d : Device) (c a : Nat) : (d.freeCause c a).tb = d.tb := rfl

theorem Device.useLeaf_tb {d : Device} {write glob : Bool} {fault pa p level va : Nat} {h : WalkHit × Device}
    (hw : d.useLeaf write fault pa p level va glob = .ok h) : h.2.tb = d.tb := by
  obtain ⟨-, hw⟩ | ⟨-, hw⟩ := ite_eq_iff.mp hw <;> cases hw
  simp

theorem Device.walkStep_tb {d : Device} {write : Bool} {gpa level pa : Nat} {next : Nat → WalkRes} {h : WalkHit × Device}
    (hnext : ∀ p, next p = .ok h → h.2.tb = d.tb) (hw : d.walkStep write gpa level pa next = .ok h) : h.2.tb = d.tb := by
  simp only [Device.walkStep] at hw
  split_ifs at hw with _ _ hleaf
  · exact Device.useLeaf_tb hw
  · exact hnext _ hw

theorem Device.walkG_tb {d : Device} {write : Bool} {gpa n base idx : Nat} {h : WalkHit × Device}
    (hw : d.walkG write gpa n base idx = .ok h) : h.2.tb = d.tb := by
  induction n generalizing base idx with
  | zero => exact Device.walkStep_tb (fun _ hnext => by cases hnext) hw
  | succ n ih => exact Device.walkStep_tb (fun _ hnext => ih hnext) hw

theorem Device.stage2_tb {d : Device} {c gpa : Nat} {write : Bool} {h : WalkHit × Device} (hw : d.stage2 c write gpa = .ok h) :
    h.2.tb = d.tb := by
  simp only [Device.stage2] at hw
  split_ifs at hw
  · cases hw
    rfl
  · exact Device.walkG_tb hw

/-- A walk ends at its first entry, or goes on from a table one level down. -/
theorem Device.walkS_step_tb {d : Device} {c va n base : Nat} {write glob : Bool} {h : WalkHit × Device}
    (hw : d.walkS c write va n base glob = .ok h) : h.2.tb = d.tb ∨ ∃ (e : Device) (m base' : Nat) (glob' : Bool),
      n = m + 1 ∧ e.tb = d.tb ∧ e.walkS c write va m base' glob' = .ok h := by
  rw [Device.walkS.eq_def] at hw
  dsimp only at hw
  split at hw
  · cases hw
  · next t e he =>
    have hte := Device.stage2_tb he
    obtain ⟨-, hw⟩ | ⟨-, hw⟩ := ite_eq_iff.mp hw
    · cases hw
    · obtain ⟨-, hw⟩ | ⟨-, hw⟩ := ite_eq_iff.mp hw
      · cases hw
      · obtain ⟨-, hw⟩ | ⟨-, hw⟩ := ite_eq_iff.mp hw
        · split at hw
          · cases hw
          · next t' e' he' => exact .inl ((Device.useLeaf_tb hw).trans ((Device.stage2_tb he').trans hte))
        · cases n with
          | zero => cases hw
          | succ n => exact .inr ⟨e, n, _, _, rfl, hte, hw⟩

theorem Device.walkS_tb {d : Device} {c va n base : Nat} {write glob : Bool} {h : WalkHit × Device}
    (hw : d.walkS c write va n base glob = .ok h) : h.2.tb = d.tb := by
  induction n generalizing d base glob with
  | zero =>
    obtain hd | ⟨_, _, _, _, hn, -⟩ := Device.walkS_step_tb hw
    · exact hd
    · cases hn
  | succ n ih =>
    obtain hd | ⟨e, m, _, _, hn, he, hw⟩ := Device.walkS_step_tb hw
    · exact hd
    · cases hn
      exact (ih hw).trans he

theorem Device.stage1_tb {d : Device} {c va : Nat} {write : Bool} {h : WalkHit × Device} (hw : d.stage1 c write va = .ok h) :
    h.2.tb = d.tb := by
  simp only [Device.stage1] at hw
  split_ifs at hw
  · cases hw
    rfl
  · exact Device.walkS_tb hw

theorem Device.walkBoth_tb {d : Device} {c a : Nat} {write : Bool} {h : Nat × Device} (hw : d.walkBoth c write a = .ok h) :
    h.2.tb = d.tb := by
  simp only [Device.walkBoth] at hw
  split at hw
  · cases hw
  · next h1 e h1e =>
    split at hw
    · cases hw
    · next h2 f h2f =>
      have htb := (Device.stage2_tb h2f).trans (Device.stage1_tb h1e)
      split_ifs at hw <;> cases hw <;> exact htb

@[simp] theorem Device.translate_tb (d : Device) (c : Nat) (world write : Bool) (a : Nat) :
    (d.translate c world write a).2.tb = d.tb := by
  unfold Device.translate
  extract_lets tc hit r
  split
  · simp
  · have hr : r.2.tb = d.tb := by
      simp only [r]
      cases hit with
      | some x => rfl
      | none =>
        dsimp only
        split
        · next hw => exact Device.walkBoth_tb hw
        · simp
    split
    · exact (Device.dirty_tb _ _ _ _).trans hr
    · exact hr

@[simp] theorem Device.irqFile_tb (d : Device) (hart file id : Nat) : (d.irqFile hart file id).tb = d.tb := rfl

@[simp] theorem Device.msixWrite_tb (d : Device) (i id v : Nat) : (d.msixWrite i id v).tb = d.tb := by simp [Device.msixWrite]

/-! ### Commands on the engines -/

@[simp] theorem Device.checkPage_tb (d : Device) (w : Runner) (write sealed weight : Bool) (u n : Nat) :
    (d.checkPage w write sealed weight u n).1.tb = d.tb := by
  have hat (e : Device) (p : Nat) : (match e.placeFault w.world write sealed weight p with
      | some c =>
        (if e.refusalLogged w.world write weight p then e.logRefusal (Port.engine w.e) p write w.world else e, some (c, p))
      | none => (e, none)).1.tb = e.tb := by
    split <;> simp
  have htb := d.translate_tb w.ctx w.world write (u % 2 ^ 56)
  unfold Device.checkPage
  dsimp only
  split
  · split
    · next p e h => exact (hat e p).trans ((congrArg (fun r => r.2.tb) h).symm.trans htb)
    · next e h => exact (congrArg (fun r => r.2.tb) h).symm.trans htb
  · exact hat _ _
  all_goals rfl

@[simp] theorem Device.checkRanges_tb (d : Device) (w : Runner) (write sealed weight : Bool) (rs : List (Nat × Nat)) :
    (d.checkRanges w write sealed weight rs).1.tb = d.tb := by
  refine foldl_fst_tb (fun p r => ?_) _ _
  split <;> simp

@[simp] theorem Device.storePage_tb (d : Device) (w : Runner) (seq u : Nat) (bs : List Byte) :
    (d.storePage w seq u bs).tb = d.tb := by
  unfold Device.storePage
  repeat' split
  all_goals simp

@[simp] theorem Device.storeBytes_tb (d : Device) (w : Runner) (seq u : Nat) (bs : List Byte) :
    (d.storeBytes w seq u bs).tb = d.tb := by
  simp [Device.storeBytes]

@[simp] theorem Device.record_tb (d : Device) (w : Runner) (seq status : Nat) (st : NumStatus) :
    (d.record w seq status st).tb = d.tb := by
  simp only [Device.record]
  split <;> simp

@[simp] theorem Device.checkFault_tb (d : Device) (e : Nat) : (d.checkFault e).tb = d.tb := by simp [Device.checkFault]

@[simp] theorem Device.faultRegs_tb (d : Device) (f : FaultOf) : (d.faultRegs f).tb = d.tb := by simp [Device.faultRegs]

@[simp] theorem Device.cmdFaults_tb (d : Device) (fs : List FaultOf) : (d.cmdFaults fs).tb = d.tb := by
  unfold Device.cmdFaults
  extract_lets d1 d2
  have h : d2.tb = d.tb := by
    refine (foldl_tb ?_ _ _).trans (foldl_tb ?_ _ _)
    · exact fun d f => d.faultRegs_tb f
    · exact fun d f => d.record_tb f.w f.seq f.code 0
  split
  · exact h
  · exact (Device.jobFault_tb _ _ _ _).trans h

@[simp] theorem Device.cmdFault_tb (d : Device) (w : Runner) (seq code slot addr : Nat) (atIssue : Bool) :
    (d.cmdFault w seq code slot addr atIssue).tb = d.tb := by
  simp [Device.cmdFault]

/-! ### Messages of the fabric -/

@[simp] theorem Device.pump_tb (d : Device) (p : Nat) : (d.pump p).tb = d.tb := by
  simp only [Device.pump]
  split <;> simp

@[simp] theorem Device.tx_tb (d : Device) (p : Nat) (m : FMsg) : (d.tx p m).tb = d.tb := by simp [Device.tx]

@[simp] theorem Device.settle_tb (d : Device) (p : Nat) : (d.settle p).tb = d.tb := by simp [Device.settle]

@[simp] theorem Device.attestation_tb (d : Device) (nonce : List Byte) : (d.attestation nonce).2.tb = d.tb := rfl

@[simp] theorem Device.logBridge_tb (d : Device) (addr kind dev tag reason : Nat) :
    (d.logBridge addr kind dev tag reason).tb = d.tb := rfl

@[simp] theorem Device.depart_tb (d : Device) (m : FMsg) (ring q : Nat) (down alt own : Bool) :
    (d.depart m ring q down alt own).tb = d.tb := by
  simp [Device.depart]

@[simp] theorem Device.readFails_tb (d : Device) (t : Nat) (r : RTag) (kind reason : Nat) :
    (d.readFails t r kind reason).tb = d.tb := by
  simp only [Device.readFails]
  repeat' split
  all_goals simp

@[simp] theorem Device.noRoute_tb (d : Device) (m : FMsg) (ring : Nat) (own : Bool) : (d.noRoute m ring own).tb = d.tb := by
  unfold Device.noRoute
  repeat' split
  all_goals simp

@[simp] theorem Device.send_tb (d : Device) (m : FMsg) (ring : Nat) : (d.send m ring).tb = d.tb := by
  simp only [Device.send]
  repeat' split
  all_goals simp

@[simp] theorem Device.sendErr_tb (d : Device) (m : FMsg) (reason : Nat) : (d.sendErr m reason).tb = d.tb := by
  simp [Device.sendErr]

@[simp] theorem Device.free16_tb (d : Device) : (d.free16).2.tb = d.tb := rfl

@[simp] theorem Device.forward_tb (d : Device) (m : FMsg) : (d.forward m).tb = d.tb := by
  unfold Device.forward
  split <;> simp

@[simp] theorem Device.flush_tb (d : Device) (routes : Bool) : (d.flush routes).tb = d.tb := by simp [Device.flush]

@[simp] theorem Device.askRead_tb (d : Device) (r : RTag) (world : Bool) (level : Nat) :
    (d.askRead r world level).tb = d.tb := by
  unfold Device.askRead
  split <;> simp

@[simp] theorem Device.grantRTag_tb (d : Device) : d.grantRTag.tb = d.tb := by
  unfold Device.grantRTag
  split <;> simp

@[simp] theorem Device.sendHeads_tb (d : Device) : d.sendHeads.tb = d.tb := by
  unfold Device.sendHeads
  refine foldl_tb (fun _ _ => ?_) _ _
  split <;> simp

@[simp] theorem Device.instIrq_tb (d : Device) (i id : Nat) : (d.instIrq i id).tb = d.tb := by
  simp only [Device.instIrq]
  split <;> simp

@[simp] theorem Device.signalIrq_tb (d : Device) (i id : Nat) : (d.signalIrq i id).tb = d.tb := by simp [Device.signalIrq]

/-! ### Jobs -/

@[simp] theorem Device.jobMake_tb (d : Device) (j a : Nat) (r : JobRec) : (d.jobMake j a r).tb = d.tb := by
  obtain ⟨-, -, -, hframe⟩ := d.jobMake_leaves j a r
  rw [hframe]

@[simp] theorem Device.jobCreate_tb (d : Device) (j a : Nat) (secure : Bool) : (d.jobCreate j a secure).1.tb = d.tb := by
  simp only [Device.jobCreate]
  repeat' split
  all_goals simp

@[simp] theorem Device.engineReleased_tb (d : Device) (e : Nat) (bad : Option Nat) : (d.engineReleased e bad).tb = d.tb := by
  simp only [Device.engineReleased]
  split
  · rfl
  · split
    · rfl
    · refine (Device.modJob_tb _ _ _).trans ((Device.modEng_tb _ _ _).trans ((Device.clearSlab_tb _ _).trans ?_))
      split
      · split
        · simp
        · simp
      · rfl

@[simp] theorem Device.bindJob_tb (d : Device) (j v : Nat) (bad : List (Nat × Nat)) : (d.bindJob j v bad).tb = d.tb := by
  simp only [Device.bindJob]
  refine (foldl_tb (fun d p => ?_) _ _).trans (by simp)
  split <;> simp

@[simp] theorem Device.jobSuspend_tb (d : Device) (j : Nat) : (d.jobSuspend j).1.tb = d.tb := by
  unfold Device.jobSuspend
  split <;> simp

@[simp] theorem Device.jobResume_tb (d : Device) (j : Nat) : (d.jobResume j).1.tb = d.tb := by
  unfold Device.jobResume
  split <;> simp

@[simp] theorem Device.jobRestart_tb (d : Device) (j : Nat) : (d.jobRestart j).1.tb = d.tb := by
  unfold Device.jobRestart
  split <;> simp

@[simp] theorem Device.jobDrop_tb (d : Device) (j : Nat) : (d.jobDrop j).1.tb = d.tb := by
  unfold Device.jobDrop
  split <;> simp

@[simp] theorem Device.jobControl_tb (d : Device) (j code : Nat) : (d.jobControl j code).1.tb = d.tb := by
  unfold Device.jobControl
  split <;> simp

@[simp] theorem Device.idleRelease_tb (d : Device) (j : Nat) : (d.idleRelease j).tb = d.tb := by
  simp only [Device.idleRelease]
  split <;> simp

@[simp] theorem Device.frameDone_tb (d : Device) (rx vc : Nat) : (d.frameDone rx vc).tb = d.tb := by simp [Device.frameDone]

@[simp] theorem Device.trigClr_tb (d : Device) (j mask : Nat) : (d.trigClr j mask).tb = d.tb := rfl

@[simp] theorem Device.moveVariant_tb (d : Device) (j k c : Nat) : (d.moveVariant j k c).tb = d.tb := by
  simp [Device.moveVariant]

@[simp] theorem Device.switchVariant_tb (d : Device) (j v : Nat) : (d.switchVariant j v).tb = d.tb := by
  simp only [Device.switchVariant, Device.modJob_tb, Device.bindEngines_tb]
  exact (Device.scrambles_tb _ opSlabBase (fun e => opSlabBase e + 0x40_0000) _).trans
    (foldl_tb (fun d e => d.modEng_tb e _) _ _)

@[simp] theorem Device.decideVariant_tb (d : Device) (j : Nat) : (d.decideVariant j).tb = d.tb := by
  simp only [Device.decideVariant]
  split <;> simp

@[simp] theorem Device.checkpointMoves_tb (d : Device) (j : Nat) : (d.checkpointMoves j).tb = d.tb := by
  simp [Device.checkpointMoves]

@[simp] theorem Device.jobStates_tb (d : Device) : d.jobStates.tb = d.tb := by
  refine foldl_tb (fun d j => ?_) _ d
  dsimp only
  split
  · simp
  · split
    · rfl
    · split <;> simp

@[simp] theorem Device.jobTime_tb (d : Device) : d.jobTime.tb = d.tb := by simp [Device.jobTime]

@[simp] theorem Device.jobIdle_tb (d : Device) : d.jobIdle.tb = d.tb := by simp [Device.jobIdle]

@[simp] theorem Device.deficits_tb (d : Device) : d.deficits.tb = d.tb := by simp [Device.deficits]

@[simp] theorem Device.startJob_tb (d : Device) (j v : Nat) (rw : Bool) (bad : List (Nat × Nat)) :
    (d.startJob j v rw bad).tb = d.tb := by
  simp [Device.startJob]

@[simp] theorem Device.rewindBase_tb (d : Device) (j n : Nat) : (d.rewindBase j n).tb = d.tb := by simp [Device.rewindBase]

theorem Device.serveJob_tb (bad : List (Nat × Nat)) (p : Device × Bool) (j : Nat) :
    (Device.serveJob bad p j).1.tb = p.1.tb := by
  unfold Device.serveJob
  dsimp only
  split
  · split <;> simp
  · split
    · split <;> simp
    · rfl

@[simp] theorem Device.serveRt_tb (bad : List (Nat × Nat)) (d : Device) (j : Nat) : (Device.serveRt bad d j).tb = d.tb := by
  simp only [Device.serveRt]
  repeat' split
  all_goals simp

@[simp] theorem Device.schedule_tb (d : Device) (bad : List (Nat × Nat)) : (d.schedule bad).tb = d.tb := by
  simp only [Device.schedule]
  refine (foldl_tb (fun d j => d.modJob_tb j _) _ _).trans ((foldl_fst_tb (Device.serveJob_tb bad) _ _).trans ?_)
  exact (foldl_tb (fun d j => d.serveRt_tb bad j) _ _).trans d.deficits_tb

@[simp] theorem Device.reserve_tb (d : Device) (sub v : Nat) : (d.reserve sub v).tb = d.tb := by simp [Device.reserve]

/-! ### Issue and commit -/

@[simp] theorem Device.breakHit_tb (d : Device) (w : Runner) (b : Nat) : (d.breakHit w b).tb = d.tb := by simp [Device.breakHit]

@[simp] theorem Device.issue_tb (d : Device) (e : Nat) : (d.issue e).tb = d.tb := by
  unfold Device.issue
  repeat' split
  all_goals simp

@[simp] theorem Device.breakpoint_tb (d : Device) (e : Nat) : (d.breakpoint e).tb = d.tb := by
  unfold Device.breakpoint
  repeat' split
  all_goals simp

@[simp] theorem Device.askProxy_tb (d : Device) (dev ring : Nat) (world : Bool) : (d.askProxy dev ring world).tb = d.tb := by
  simp only [Device.askProxy]
  split <;> simp

@[simp] theorem Device.askSources_tb (d : Device) (w : Runner) (i : Issued) : (d.askSources w i).tb = d.tb := by
  simp [Device.askSources]

@[simp] theorem Device.begin_tb (d : Device) (w : Runner) (i : Issued) : (d.begin w i).tb = d.tb := by simp [Device.begin]

@[simp] theorem Device.commandStart_tb (d : Device) (e : Nat) : (d.commandStart e).tb = d.tb := by
  simp only [Device.commandStart]
  repeat' split
  all_goals simp

@[simp] theorem Device.sendTails_tb (d : Device) (i : Issued) (world : Bool) : (d.sendTails i world).tb = d.tb := by
  unfold Device.sendTails
  split <;> simp

@[simp] theorem Device.triggerJob_tb (d : Device) (j t : Nat) : (d.triggerJob j t).tb = d.tb := rfl

@[simp] theorem Device.fabricSignal_tb (d : Device) (n : Nat) : (d.fabricSignal n).tb = d.tb := by simp [Device.fabricSignal]

@[simp] theorem Device.deliverSignal_tb (d : Device) (w : Runner) (i : Issued) : (d.deliverSignal w i).tb = d.tb := by
  simp only [Device.deliverSignal]
  split <;> simp

@[simp] theorem Device.ringClash_tb (d : Device) (n k : Nat) : (d.ringClash n k).tb = d.tb := by simp [Device.ringClash]

@[simp] theorem Device.commitOne_tb (d : Device) (w : Runner) (i : Issued) : (d.commitOne w i).tb = d.tb := by
  unfold Device.commitOne
  extract_lets two d1 d2 d3 d4 d5 d6 d7 d8 d9
  have h1 : d1.tb = d.tb := foldl_tb (fun d p => by split <;> simp) _ _
  have h2 : d2.tb = d.tb := (foldl_tb (fun d p => by split <;> simp) _ _).trans h1
  have h4 : d4.tb = d.tb := (d3.modJob_tb _ _).trans ((d2.sendTails_tb i w.world).trans h2)
  have h5 : d5.tb = d.tb := (foldl_tb (fun d p => by split <;> simp) _ _).trans h4
  have h6 : d6.tb = d.tb := by simp only [d6]; split <;> simp [h5]
  have h7 : d7.tb = d.tb := by simp only [d7]; split <;> simp [h6]
  have h8 : d8.tb = d.tb := by simp only [d8]; split <;> [split; skip; skip] <;> simp [h7]
  exact (d9.modEng_tb _ _).trans ((d8.count_tb _ _).trans h8)

@[simp] theorem Device.commitCheckpoint_tb (d : Device) (j c : Nat) : (d.commitCheckpoint j c).tb = d.tb := by
  unfold Device.commitCheckpoint
  refine foldl_tb (fun _ _ => ?_) _ _
  split <;> simp

@[simp] theorem Device.commandCommit_tb (d : Device) (e : Nat) : (d.commandCommit e).tb = d.tb := by
  unfold Device.commandCommit
  repeat' split
  all_goals simp

@[simp] theorem Device.commandFault_tb (d : Device) (f : CmdFault) (also : List CmdFault) :
    (d.commandFault f also).tb = d.tb := by
  unfold Device.commandFault
  split <;> simp

@[simp] theorem Device.atomicOverrun_tb (d : Device) (e : Nat) : (d.atomicOverrun e).tb = d.tb := by
  unfold Device.atomicOverrun
  split <;> simp

@[simp] theorem Device.waitTimeout_tb (d : Device) (e : Nat) : (d.waitTimeout e).tb = d.tb := by
  unfold Device.waitTimeout
  split <;> simp

@[simp] theorem Device.wcbDrain_tb (d : Device) (e : Nat) : (d.wcbDrain e).tb = d.tb := by
  unfold Device.wcbDrain
  split
  · rfl
  · dsimp only
    split
    · rfl
    · refine (foldl_tb (fun d k => ?_) _ _).trans (d.served_tb _ _ _ _)
      split <;> rfl

/-! ### Time -/

@[simp] theorem Device.calTick_tb (d : Device) : d.calTick.tb = d.tb := by simp [Device.calTick]

@[simp] theorem Device.calRewrite_tb (d : Device) : d.calRewrite.tb = d.tb := by simp [Device.calRewrite]

@[simp] theorem Device.calRead_tb (d : Device) : d.calRead.tb = d.tb := rfl

/-! ### The fabric -/

@[simp] theorem Device.linkTraining_tb (d : Device) (p : Nat) (o : TrainOutcome) : (d.linkTraining p o).tb = d.tb := by
  unfold Device.linkTraining
  split <;> simp

@[simp] theorem Device.flood_tb (d : Device) (except : Nat) (m : FMsg) : (d.flood except m).tb = d.tb := by simp [Device.flood]

@[simp] theorem Device.sendConfig_tb (d : Device) (c : FabConfig) : (d.sendConfig c).tb = d.tb := by simp [Device.sendConfig]

@[simp] theorem Device.commitIfAcked_tb (d : Device) : d.commitIfAcked.tb = d.tb := by
  unfold Device.commitIfAcked
  split <;> simp

@[simp] theorem Device.proposeConfig_tb (d : Device) (members : List Member) (membership : Bool) (applyTn : Nat) :
    (d.proposeConfig members membership applyTn).tb = d.tb := by
  simp [Device.proposeConfig]

@[simp] theorem Device.takeReleases_tb (d : Device) : d.takeReleases.tb = d.tb := rfl

@[simp] theorem Device.membershipConfig_tb (d : Device) : d.membershipConfig.tb = d.tb := by simp [Device.membershipConfig]

@[simp] theorem Device.kingConfig_tb (d : Device) : d.kingConfig.tb = d.tb := by
  simp only [Device.kingConfig]
  repeat' split
  all_goals simp

@[simp] theorem Device.linkChange_tb (d : Device) (from' : Nat) (l : FLink) (up : Bool) :
    (d.linkChange from' l up).tb = d.tb := by
  simp [Device.linkChange]

@[simp] theorem Device.linkDown_tb (d : Device) (p : Nat) : (d.linkDown p).tb = d.tb := by simp [Device.linkDown]

@[simp] theorem Device.refuseLink_tb (d : Device) (p reason : Nat) : (d.refuseLink p reason).tb = d.tb := by
  simp [Device.refuseLink]

@[simp] theorem Device.contribute_tb (d : Device) (p : Nat) : (d.contribute p).tb = d.tb := rfl

@[simp] theorem Device.hello_tb (d : Device) (p : Nat) (h : Hello) : (d.hello p h).tb = d.tb := by simp [Device.hello]

@[simp] theorem Device.beginRekey_tb (d : Device) (p : Nat) : (d.beginRekey p).tb = d.tb :=
  (Device.contribute_tb _ _).trans (d.modLink_tb _ _)

@[simp] theorem Device.handshake_tb (d : Device) (p : Nat) (m : HandshakeMsg) : (d.handshake p m).tb = d.tb := by
  simp only [Device.handshake]
  split <;> simp

@[simp] theorem Device.handshakeTimeout_tb (d : Device) (p : Nat) : (d.handshakeTimeout p).tb = d.tb := by
  simp [Device.handshakeTimeout]

@[simp] theorem Device.startRekey_tb (d : Device) (p : Nat) : (d.startRekey p).tb = d.tb := by simp [Device.startRekey]

@[simp] theorem Device.linkUp_tb (d : Device) (p : Nat) : (d.linkUp p).tb = d.tb := by simp [Device.linkUp]

@[simp] theorem Device.attestationCheck_tb (d : Device) (p : Nat) (r : PartnerReport) : (d.attestationCheck p r).tb = d.tb := by
  simp [Device.attestationCheck]

@[simp] theorem Device.retryReq_tb (d : Device) (p seq : Nat) : (d.retryReq p seq).tb = d.tb := by simp [Device.retryReq]

@[simp] theorem Device.retryAgain_tb (d : Device) (p : Nat) : (d.retryAgain p).tb = d.tb := by simp [Device.retryAgain]

@[simp] theorem Device.elect_tb (d : Device) (p : Nat) (m : FMsg) : (d.elect p m).tb = d.tb := by simp [Device.elect]

@[simp] theorem Device.electionEnd_tb (d : Device) : d.electionEnd.tb = d.tb := by
  simp only [Device.electionEnd]
  repeat' split
  all_goals simp

@[simp] theorem Device.join_tb (d : Device) (m : FMsg) : (d.join m).tb = d.tb := by
  unfold Device.join
  repeat' split
  all_goals simp

@[simp] theorem Device.idAssign_tb (d : Device) : d.idAssign.tb = d.tb := by simp [Device.idAssign]

@[simp] theorem Device.toKing_tb (d : Device) (king : Nat) (m : FMsg) : (d.toKing king m).tb = d.tb := by
  unfold Device.toKing
  split <;> simp

@[simp] theorem Device.takeConfig_tb (d : Device) (c : FabConfig) : (d.takeConfig c).tb = d.tb := by
  unfold Device.takeConfig
  repeat' split
  all_goals simp

@[simp] theorem Device.configAck_tb (d : Device) (m : FMsg) : (d.configAck m).tb = d.tb := by
  unfold Device.configAck
  repeat' split
  all_goals simp

@[simp] theorem Device.commitConfig_tb (d : Device) (m : FMsg) : (d.commitConfig m).tb = d.tb := by
  unfold Device.commitConfig
  split <;> simp

@[simp] theorem Device.healJobs_tb (d : Device) : d.healJobs.tb = d.tb := by simp [Device.healJobs]

@[simp] theorem Device.releaseId_tb (d : Device) (id : Nat) : (d.releaseId id).1.tb = d.tb := by
  unfold Device.releaseId
  repeat' split
  all_goals simp

@[simp] theorem Device.logRemote_tb (d : Device) (world write : Bool) (a n : Nat) :
    (d.logRemote world write a n).tb = d.tb := by
  unfold Device.logRemote
  split <;> simp

@[simp] theorem Device.remoteRead_tb (d : Device) (world : Bool) (a : Nat) (ecc : EccOutcome) :
    (d.remoteRead world a ecc).2.tb = d.tb := by
  unfold Device.remoteRead
  split <;> simp

@[simp] theorem Device.rdReq_tb (d : Device) (m : FMsg) (ecc : EccOutcome) : (d.rdReq m ecc).tb = d.tb := by simp [Device.rdReq]

@[simp] theorem Device.lateRead_tb (d : Device) : d.lateRead.tb = d.tb := rfl

@[simp] theorem Device.deliverRead_tb (d : Device) (r : RTag) (bs : List Byte) : (d.deliverRead r bs).tb = d.tb := by
  unfold Device.deliverRead
  split <;> simp

@[simp] theorem Device.rdData_tb (d : Device) (m : FMsg) : (d.rdData m).tb = d.tb := by
  unfold Device.rdData
  repeat' split
  all_goals simp

@[simp] theorem Device.queryFails_tb (d : Device) (dev ring : Nat) : (d.queryFails dev ring).tb = d.tb := by
  unfold Device.queryFails
  refine foldl_tb (fun _ _ => ?_) _ _
  split <;> simp

@[simp] theorem Device.rdErr_tb (d : Device) (m : FMsg) : (d.rdErr m).tb = d.tb := by
  unfold Device.rdErr
  repeat' split
  all_goals simp

@[simp] theorem Device.readTimeout_tb (d : Device) (t : Nat) : (d.readTimeout t).tb = d.tb := by
  unfold Device.readTimeout
  split <;> simp

@[simp] theorem Device.nack_tb (d : Device) (m : FMsg) : (d.nack m).tb = d.tb := by simp [Device.nack]

@[simp] theorem Device.landed_tb (d : Device) (m : FMsg) : (d.landed m).tb = d.tb := by simp [Device.landed]

@[simp] theorem Device.wr_tb (d : Device) (m : FMsg) : (d.wr m).tb = d.tb := by simp [Device.wr]

@[simp] theorem Device.wrNack_tb (d : Device) (m : FMsg) : (d.wrNack m).tb = d.tb := by
  simp only [Device.wrNack]
  repeat' split
  all_goals simp

@[simp] theorem Device.putAck_tb (d : Device) (m : FMsg) : (d.putAck m).tb = d.tb := by simp [Device.putAck]

@[simp] theorem Device.putLost_tb (d : Device) (dev num : Nat) : (d.putLost dev num).tb = d.tb := by
  simp only [Device.putLost]
  split <;> simp

@[simp] theorem Device.tailAdv_tb (d : Device) (m : FMsg) : (d.tailAdv m).tb = d.tb := by
  simp only [Device.tailAdv]
  repeat' split
  all_goals simp

@[simp] theorem Device.signalIn_tb (d : Device) (m : FMsg) : (d.signalIn m).tb = d.tb := by simp [Device.signalIn]

@[simp] theorem Device.ringQuery_tb (d : Device) (m : FMsg) : (d.ringQuery m).tb = d.tb := by simp [Device.ringQuery]

@[simp] theorem Device.modProxy_tb (d : Device) (m : FMsg) (f : Proxy → Proxy) : (d.modProxy m f).tb = d.tb := by
  simp [Device.modProxy]

@[simp] theorem Device.ringState_tb (d : Device) (m : FMsg) : (d.ringState m).tb = d.tb := by simp [Device.ringState]

@[simp] theorem Device.headUpd_tb (d : Device) (m : FMsg) : (d.headUpd m).tb = d.tb := by simp [Device.headUpd]

@[simp] theorem Device.heartbeats_tb (d : Device) : d.heartbeats.tb = d.tb := by simp [Device.heartbeats]

@[simp] theorem Device.fabricSends_tb (d : Device) : d.fabricSends.tb = d.tb := by
  refine (foldl_tb (fun d p => ?_) _ _).trans (by split <;> rfl)
  dsimp only
  split <;> simp

@[simp] theorem Device.partDecision_tb (d : Device) : d.partDecision.tb = d.tb := by
  unfold Device.partDecision
  split <;> simp

@[simp] theorem Device.remoteGrant_tb (d : Device) : d.remoteGrant.tb = d.tb := by simp [Device.remoteGrant]

/-! ### Graphics and display -/

@[simp] theorem Device.unitPlace_tb (d : Device) (u : Nat) (write : Bool) (a : Nat) : (d.unitPlace u write a).2.tb = d.tb := by
  simp [Device.unitPlace]

@[simp] theorem Device.unitDraw_tb (d : Device) (port : Port) (u : Nat) (r : Nat × Nat) : (d.unitDraw port u r).tb = d.tb := by
  refine foldl_tb (fun d pg => ?_) _ d
  have htb := d.unitPlace_tb u true pg.1
  split
  · next h => simpa [h] using htb
  · next h => split_ifs <;> simpa [h] using htb

@[simp] theorem Device.unitPut_tb (d : Device) (port : Port) (u : Nat) (r : Nat × List Byte) :
    (d.unitPut port u r).tb = d.tb := by
  refine foldl_tb (fun d pg => ?_) _ d
  have htb := d.unitPlace_tb u true pg.1
  split <;> next h => simpa [h] using htb

@[simp] theorem Device.passRecord_tb (d : Device) (seq code partials : Nat) : (d.passRecord seq code partials).tb = d.tb := by
  simp only [Device.passRecord]
  split
  · rfl
  · exact Device.hubPublish_getD_tb _ _ _ _ _ _ rfl

@[simp] theorem Device.partialRender_tb (d : Device) (p : Pass) (key : Nat) (load : Nat → Nat → List Byte) (cut : Nat) :
    (d.partialRender p key load cut).tb = d.tb := by
  simp [Device.partialRender]

@[simp] theorem Device.renderPass_tb (d : Device) (cuts : List Nat) : (d.renderPass cuts).tb = d.tb := by
  simp only [Device.renderPass]
  repeat' split
  all_goals simp

@[simp] theorem Device.passComplete_tb (d : Device) : d.passComplete.tb = d.tb := by
  unfold Device.passComplete
  split <;> simp

@[simp] theorem Device.rtuQuery_tb (d : Device) (bytes : List Byte) (fromMce : Bool) :
    (d.rtuQuery bytes fromMce).tb = d.tb := by
  unfold Device.rtuQuery
  split <;> simp

@[simp] theorem Device.rtuAnswer_tb (d : Device) (tag : Nat) : (d.rtuAnswer tag).tb = d.tb := by
  unfold Device.rtuAnswer
  split <;> simp

@[simp] theorem Device.pipeEnable_tb (d : Device) (p : Nat) : (d.pipeEnable p).tb = d.tb := by simp [Device.pipeEnable]

@[simp] theorem Device.beginTasks_tb (d : Device) (p : Nat → TaskRec → Bool) : (d.beginTasks p).tb = d.tb := by
  simp [Device.beginTasks]

@[simp] theorem Device.underflow_tb (d : Device) (p plane line x : Nat) : (d.underflow p plane line x).tb = d.tb := by
  simp [Device.underflow]

@[simp] theorem Device.regionReport_tb (d : Device) (p k : Nat) : (d.regionReport p k).tb = d.tb := by
  simp [Device.regionReport]

/-! ### Power -/

@[simp] theorem Device.milestone_tb (d : Device) (k : Nat) : (d.milestone k).tb = d.tb := by simp [Device.milestone]

@[simp] theorem Device.fieldReady_tb (d : Device) : d.fieldReady.tb = d.tb := by simp [Device.fieldReady]

@[simp] theorem Device.stacksReady_tb (d : Device) : d.stacksReady.tb = d.tb := by simp [Device.stacksReady]

@[simp] theorem Device.arbiterValid_tb (d : Device) : d.arbiterValid.tb = d.tb := by simp [Device.arbiterValid]

@[simp] theorem Device.stackTrained_tb (d : Device) (h : Nat) (ok : Bool) : (d.stackTrained h ok).tb = d.tb := by
  simp [Device.stackTrained]

@[simp] theorem Device.readyForJobs_tb (d : Device) : d.readyForJobs.tb = d.tb := by simp [Device.readyForJobs]

@[simp] theorem Device.avsFailure_tb (d : Device) (rail : Nat) : (d.avsFailure rail).tb = d.tb := rfl

theorem Device.clearSlabs_tb (d : Device) (q : Nat) (l : List Nat) :
    (l.foldl (fun d i => d.clearSlab (4 * q + i)) d).tb = d.tb := by
  induction l generalizing d with
  | nil => rfl
  | cons i l ih => exact (ih (d.clearSlab (4 * q + i))).trans (d.clearSlab_tb (4 * q + i))

@[simp] theorem Device.quadPowerOn_tb (d : Device) (q : Nat) : (d.quadPowerOn q).tb = d.tb := by
  simp only [Device.quadPowerOn]
  split
  · exact (Device.clearSlabs_tb _ _ _).trans (d.modPwr_tb _)
  · rfl

@[simp] theorem Device.capRound_tb (d : Device) (mw : Nat) : (d.capRound mw).tb = d.tb := by
  simp only [Device.capRound]
  repeat' split
  all_goals simp

@[simp] theorem Device.stackThrottle_tb (d : Device) (h : Nat) (t : Int) : (d.stackThrottle h t).tb = d.tb := rfl

@[simp] theorem Device.stackRound_tb (d : Device) (h : Nat) : (d.stackRound h).tb = d.tb := by simp [Device.stackRound]

@[simp] theorem Device.crystalStop_tb (d : Device) : d.crystalStop.tb = d.tb := rfl

@[simp] theorem Device.keepAlive_tb (d : Device) : d.keepAlive.tb = d.tb := by simp [Device.keepAlive]

@[simp] theorem Device.wake_tb (d : Device) : d.wake.tb = d.tb := by simp [Device.wake]

/-! ### Commands of the Arbiter -/

@[simp] theorem Device.estop_tb (d : Device) : d.estop.tb = d.tb := by simp [Device.estop]

@[simp] theorem Device.estopRelease_tb (d : Device) : d.estopRelease.tb = d.tb := rfl

@[simp] theorem Device.tempoLost_tb (d : Device) : d.tempoLost.tb = d.tb := by simp [Device.tempoLost]

@[simp] theorem Device.arbOwnFault_tb (d : Device) (cause : Nat) : (d.arbOwnFault cause).tb = d.tb := by
  simp [Device.arbOwnFault]

@[simp] theorem Device.aliveToggle_tb (d : Device) : d.aliveToggle.tb = d.tb := by simp [Device.aliveToggle]

@[simp] theorem Device.supplyFault_tb (d : Device) (n : Nat) : (d.supplyFault n).tb = d.tb := by simp [Device.supplyFault]

@[simp] theorem Device.supplyBack_tb (d : Device) (n : Nat) : (d.supplyBack n).tb = d.tb := rfl

@[simp] theorem Device.tjReport_tb (d : Device) (sensor : Nat) : (d.tjReport sensor).tb = d.tb := by simp [Device.tjReport]

@[simp] theorem Device.arbCommand_tb (d : Device) (ok : Bool) (f : Device → Device) (hf : ∀ e, (f e).tb = e.tb) :
    (d.arbCommand ok f).tb = d.tb := by
  simp_all [Device.arbCommand]

@[simp] theorem Device.arm_tb (d : Device) (r : ArbReq) : (d.arm r).tb = d.tb := by simp [Device.arm]

@[simp] theorem Device.releaseSafe_tb (d : Device) (r : ArbReq) : (d.releaseSafe r).tb = d.tb := by simp [Device.releaseSafe]

@[simp] theorem Device.done_tb (d : Device) (r : ArbReq) : (d.done r).tb = d.tb := Device.arbCommand_tb _ _ _ fun _ => rfl

@[simp] theorem Device.ack_tb (d : Device) (r : ArbReq) : (d.ack r).tb = d.tb := Device.arbCommand_tb _ _ _ fun _ => rfl

@[simp] theorem Device.xcheckCmd_tb (d : Device) (r : ArbReq) : (d.xcheckCmd r).tb = d.tb :=
  Device.arbCommand_tb _ _ _ fun _ => rfl

@[simp] theorem Device.crossCheckDone_tb (d : Device) (bad : Bool) : (d.crossCheckDone bad).tb = d.tb := by
  simp [Device.crossCheckDone]

@[simp] theorem Device.logAck_tb (d : Device) (e : Nat) : (d.logAck e).1.tb = d.tb := by
  unfold Device.logAck
  split <;> simp

@[simp] theorem Device.restartTask_tb (d : Device) (r : TaskRec) : (d.restartTask r).tb = d.tb := by simp [Device.restartTask]

@[simp] theorem Device.takeAction_tb (d : Device) (t falls : Nat) (r : TaskRec) : (d.takeAction t falls r).tb = d.tb := by
  simp only [Device.takeAction]
  split <;> simp

@[simp] theorem Device.flagFall_tb (d : Device) (t : Nat) : (d.flagFall t).tb = d.tb := by simp [Device.flagFall]

@[simp] theorem Device.clockExhausted_tb (d : Device) (t : Nat) : (d.clockExhausted t).tb = d.tb := by
  simp [Device.clockExhausted]

@[simp] theorem Device.taskPeriods_tb (d : Device) : d.taskPeriods.tb = d.tb := by simp [Device.taskPeriods]

@[simp] theorem Device.removePair_tb (d : Device) (p : Nat) : (d.removePair p).tb = d.tb := by simp [Device.removePair]

@[simp] theorem Device.adjudicated_tb (d : Device) (p : Nat) (o : AdjOutcome) : (d.adjudicated p o).tb = d.tb := by
  unfold Device.adjudicated
  split <;> simp

@[simp] theorem Device.degradedEnd_tb (d : Device) (p : Nat) : (d.degradedEnd p).tb = d.tb := by simp [Device.degradedEnd]

@[simp] theorem Device.latentFault_tb (d : Device) (c : CheckerId) : (d.latentFault c).tb = d.tb := by
  unfold Device.latentFault
  split <;> simp

@[simp] theorem Device.latentTest_tb (d : Device) (c : CheckerId) (ok : Bool) : (d.latentTest c ok).tb = d.tb := by
  simp [Device.latentTest]

@[simp] theorem Device.lfInterval_tb (d : Device) : d.lfInterval.tb = d.tb := by simp [Device.lfInterval]

@[simp] theorem Device.selfTest_tb (d : Device) (e : Nat) (ok : Bool) : (d.selfTest e ok).tb = d.tb := by simp [Device.selfTest]

@[simp] theorem Device.uartLog_tb (d : Device) : d.uartLog.tb = d.tb := rfl

@[simp] theorem Device.uartStatus_tb (d : Device) : d.uartStatus.tb = d.tb := rfl

/-! ### Security -/

@[simp] theorem Device.secTag_tb (d : Device) : d.secTag.2.tb = d.tb := rfl

@[simp] theorem Device.secResult_tb (d : Device) (secure : Bool) (result : Nat) : (d.secResult secure result).tb = d.tb := rfl

@[simp] theorem Device.secRefuse_tb (d : Device) (secure : Bool) : (d.secRefuse secure).tb = d.tb := rfl

@[simp] theorem Device.secCommand_tb (d : Device) (code : Nat) (secure both : Bool) (f : Device → Device)
    (hf : ∀ e, (f e).tb = e.tb) : (d.secCommand code secure both f).tb = d.tb := by
  simp_all [Device.secCommand]

@[simp] theorem Device.secCheck_tb (d : Device) (secure ok : Bool) (code : Nat) (f : Device → Device)
    (hf : ∀ e, (f e).tb = e.tb) : (d.secCheck secure ok code f).tb = d.tb := by
  simp_all [Device.secCheck]

@[simp] theorem Device.sealStart_tb (d : Device) (q : SealLoadReq) : (d.sealStart q).tb = d.tb := by
  unfold Device.sealStart
  refine Device.secCheck_tb _ _ _ _ _ fun d => Device.secCheck_tb _ _ _ _ _ fun d => Device.secCheck_tb _ _ _ _ _ fun d =>
    Device.secCheck_tb _ _ _ _ _ fun d => ?_
  split
  · simp
  · simp
  · split <;> simp

@[simp] theorem Device.sealLoad_tb (d : Device) (q : SealLoadReq) : (d.sealLoad q).tb = d.tb := by simp [Device.sealLoad]

@[simp] theorem Device.sealNext_tb (d : Device) (n : Nat) : (d.sealNext n).tb = d.tb := by
  induction n generalizing d with
  | zero => rfl
  | succ n ih =>
    unfold Device.sealNext
    split
    · rfl
    · split <;> simp [ih]

@[simp] theorem Device.sealPump_tb (d : Device) : d.sealPump.tb = d.tb := by simp [Device.sealPump]

@[simp] theorem Device.trainEnd_tb (d : Device) (h : Nat) (ok : Bool) : (d.trainEnd h ok).tb = d.tb := by simp [Device.trainEnd]

@[simp] theorem Device.sealDone_tb (d : Device) (k : Nat) (chunks : List (List Byte × List Byte)) :
    (d.sealDone k chunks).tb = d.tb := by
  simp only [Device.sealDone]
  repeat' split
  all_goals simp

@[simp] theorem Device.regionRelease_tb (d : Device) (r : SecReq) : (d.regionRelease r).tb = d.tb := by
  refine Device.secCommand_tb _ _ _ _ _ fun d => Device.secCheck_tb _ _ _ _ _ fun d => ?_
  dsimp only
  split
  iterate 4 simp
  split <;> simp

@[simp] theorem Device.putRegs_tb (d : Device) (a : Nat) (bs : List Byte) : (d.putRegs a bs).tb = d.tb := by
  simp [Device.putRegs]

@[simp] theorem Device.attest_tb (d : Device) (r : SecReq) : (d.attest r).tb = d.tb := by simp [Device.attest]

@[simp] theorem Device.secStart_tb (d : Device) (secure : Bool) (code len : Nat) : (d.secStart secure code len).tb = d.tb := by
  unfold Device.secStart
  repeat' split
  all_goals simp

@[simp] theorem Device.setNonce_tb (d : Device) (nonce : List Byte) : (d.setNonce nonce).1.tb = d.tb := by
  unfold Device.setNonce
  split <;> simp

@[simp] theorem Device.ownerAdd_tb (d : Device) (r : SecReq) : (d.ownerAdd r).tb = d.tb := by
  refine Device.secCommand_tb _ _ _ _ _ fun d => Device.secCheck_tb _ _ _ _ _ fun d => Device.secCheck_tb _ _ _ _ _ fun d =>
    Device.secCheck_tb _ _ _ _ _ fun d => Device.secCheck_tb _ _ _ _ _ fun d => rfl

@[simp] theorem Device.ownerRevoke_tb (d : Device) (r : SecReq) : (d.ownerRevoke r).tb = d.tb := by
  refine Device.secCommand_tb _ _ _ _ _ fun d => Device.secCheck_tb _ _ _ _ _ fun d => Device.secCheck_tb _ _ _ _ _ fun d => ?_
  split
  · simp
  · exact Device.secCheck_tb _ _ _ _ _ fun d => rfl

@[simp] theorem Device.rollback_tb (d : Device) (r : SecReq) : (d.rollback r).tb = d.tb :=
  Device.secCommand_tb _ _ _ _ _ fun _ => Device.secCheck_tb _ _ _ _ _ fun _ => Device.secCheck_tb _ _ _ _ _ fun _ =>
    Device.secCheck_tb _ _ _ _ _ fun _ => Device.secCheck_tb _ _ _ _ _ fun _ => rfl

@[simp] theorem Device.lifecycleCmd_tb (d : Device) (r : SecReq) : (d.lifecycleCmd r).tb = d.tb := by
  refine Device.secCommand_tb _ _ _ _ _ fun d => ?_
  split
  · simp
  · split
    · simp
    · exact Device.secCheck_tb _ _ _ _ _ fun d => Device.secCheck_tb _ _ _ _ _ fun d => rfl

@[simp] theorem Device.loadKey_tb (d : Device) (k : Nat) : (d.loadKey k).tb = d.tb := by simp [Device.loadKey]

@[simp] theorem Device.keySlot_tb (d : Device) (r : SecReq) : (d.keySlot r).tb = d.tb := by simp [Device.keySlot]

@[simp] theorem Device.unstall_tb (d : Device) : d.unstall.tb = d.tb := by simp [Device.unstall]

@[simp] theorem Device.entropyFail_tb (d : Device) : d.entropyFail.tb = d.tb := by simp [Device.entropyFail]

@[simp] theorem Device.entropyBack_tb (d : Device) : d.entropyBack.tb = d.tb := by simp [Device.entropyBack]

@[simp] theorem Device.zeroingDone_tb (d : Device) (b : BlockId) : (d.zeroingDone b).tb = d.tb := by
  unfold Device.zeroingDone
  split <;> simp

@[simp] theorem Device.tamper_tb (d : Device) : d.tamper.tb = d.tb := by simp [Device.tamper]

@[simp] theorem Device.secureBoot_tb (d : Device) (r : BootOutcome) : (d.secureBoot r).tb = d.tb := by
  simp only [Device.secureBoot]
  repeat' split
  all_goals simp

/-! ### The gateway -/

@[simp] theorem Device.handFrame_tb (d : Device) (p : Nat) (f : CFrame) : (d.handFrame p f).tb = d.tb := by
  simp [Device.handFrame]

@[simp] theorem Device.sendEmcy_tb (d : Device) : d.sendEmcy.tb = d.tb := by simp [Device.sendEmcy]

@[simp] theorem Device.errorEmcy_tb (d : Device) (v : Nat) : (d.errorEmcy v).tb = d.tb := by simp [Device.errorEmcy]

@[simp] theorem Device.ruleDrop_tb (d : Device) : d.ruleDrop.tb = d.tb := rfl

@[simp] theorem Device.takeToken_tb (d : Device) (f : CFrame) : (d.takeToken f).1.tb = d.tb := by
  simp only [Device.takeToken]
  repeat' split
  all_goals simp

@[simp] theorem Device.forwardFrame_tb (d : Device) (f : CFrame) (p : Nat) : (d.forwardFrame f p).tb = d.tb := by
  simp [Device.forwardFrame]

@[simp] theorem Device.ingress_tb (d : Device) (f : CFrame) : (d.ingress f).1.tb = d.tb := by
  unfold Device.ingress
  extract_lets p d1 d2 b
  split
  · rfl
  · have hd : d2.tb = d.tb := by simp [d2, d1]
    rcases htk : d2.takeToken f with ⟨e, ok⟩
    have hok : e.tb = d.tb := (congrArg (fun t => t.1.tb) htk).symm.trans ((d2.takeToken_tb f).trans hd)
    split
    · simp [hd]
    · split
      · simp [hd]
      · dsimp only
        split_ifs
        · simp [hd]
        · exact hok
        · split
          · exact (e.forwardFrame_tb _ _).trans hok
          · exact Device.hubPublish_getD_tb _ _ _ _ _ _ (e.ruleDrop_tb) |>.trans hok
          · exact hok

@[simp] theorem Device.received_tb (d : Device) (f : CFrame) (func : Nat) (core : Device → CFrame → Device)
    (hcore : ∀ e x, (core e x).tb = e.tb) : (d.received f func core).tb = d.tb := by
  simp_all [Device.received]

@[simp] theorem Device.joinAnswer_tb (d : Device) (f : CFrame) (result version number : Nat) :
    (d.joinAnswer f result version number).tb = d.tb := by
  simp [Device.joinAnswer]

@[simp] theorem Device.joinNode_tb (d : Device) (f : CFrame) : (d.joinNode f).tb = d.tb := by
  simp only [Device.joinNode]
  repeat' split
  all_goals simp

@[simp] theorem Device.joinReq_tb (d : Device) (f : CFrame) : (d.joinReq f).tb = d.tb := by simp [Device.joinReq]

@[simp] theorem Device.nodeRemove_tb (d : Device) : d.nodeRemove.1.tb = d.tb := by
  simp only [Device.nodeRemove]
  split <;> simp

@[simp] theorem Device.nodeBeat_tb (d : Device) (f : CFrame) : (d.nodeBeat f).tb = d.tb := by
  unfold Device.nodeBeat
  split <;> simp

@[simp] theorem Device.nodeLost_tb (d : Device) (n : Nat) : (d.nodeLost n).tb = d.tb := by simp [Device.nodeLost]

@[simp] theorem Device.emcyIn_tb (d : Device) (f : CFrame) : (d.emcyIn f).tb = d.tb := by
  unfold Device.emcyIn
  split <;> simp

@[simp] theorem Device.ownBeat_tb (d : Device) : d.ownBeat.tb = d.tb := by simp [Device.ownBeat]

@[simp] theorem Device.authFail_tb (d : Device) (n : Nat) : (d.authFail n).tb = d.tb := rfl

@[simp] theorem Device.mapFrame_tb (d : Device) (f : CFrame) (dir : MapDir) : (d.mapFrame f dir).tb = d.tb := by
  unfold Device.mapFrame
  split <;> simp

@[simp] theorem Device.writeBuffer_tb (d : Device) (c : MapCfg) (stale : Bool) (data : Option (List Byte)) :
    (d.writeBuffer c stale data).tb = d.tb := by
  unfold Device.writeBuffer
  split <;> simp

@[simp] theorem Device.updateMaps_tb (d : Device) (g : Nat) : (d.updateMaps g).tb = d.tb := by
  refine foldl_tb (fun d m => ?_) _ d
  split
  · split
    · split <;> simp
    · rfl
  · rfl

@[simp] theorem Device.mapTimeout_tb (d : Device) (m : Nat) : (d.mapTimeout m).tb = d.tb := by
  unfold Device.mapTimeout
  split <;> simp

@[simp] theorem Device.newestEntry_tb (d : Device) (n len : Nat) : (d.newestEntry n len).1.tb = d.tb := by
  simp only [Device.newestEntry]
  repeat' split
  all_goals simp

@[simp] theorem Device.wearKey_tb (d : Device) (n : Node) : (d.wearKey n).tb = d.tb := by simp [Device.wearKey]

@[simp] theorem Device.queueGated_tb (d : Device) (m p : Nat) (f : CFrame) : (d.queueGated m p f).tb = d.tb := by
  simp [Device.queueGated]

@[simp] theorem Device.sendMapOf_tb (d : Device) (m : Nat) (c : MapCfg) (node : Node) : (d.sendMapOf m c node).tb = d.tb := by
  simp only [Device.sendMapOf]
  split <;> simp

@[simp] theorem Device.sendMap_tb (d : Device) (m : Nat) (c : MapCfg) : (d.sendMap m c).tb = d.tb := by simp [Device.sendMap]

@[simp] theorem Device.sendMaps_tb (d : Device) (g : Nat) : (d.sendMaps g).tb = d.tb := by
  unfold Device.sendMaps
  refine foldl_tb (fun _ _ => ?_) _ _
  split <;> simp

@[simp] theorem Device.gatedExpire_tb (d : Device) (p m : Nat) : (d.gatedExpire p m).tb = d.tb := by simp [Device.gatedExpire]

@[simp] theorem Device.sendTime_tb (d : Device) (g : Nat) : (d.sendTime g).tb = d.tb := by simp [Device.sendTime]

@[simp] theorem Device.busAlone_tb (d : Device) (p : Nat) : (d.busAlone p).tb = d.tb := by simp [Device.busAlone]

@[simp] theorem Device.probe_tb (d : Device) (p : Nat) (acked : Bool) : (d.probe p acked).tb = d.tb := by simp [Device.probe]

@[simp] theorem Device.t1sAlone_tb (d : Device) (p : Nat) : (d.t1sAlone p).tb = d.tb := by simp [Device.t1sAlone]

@[simp] theorem Device.setPlca_tb (d : Device) (p : Nat) (up : Bool) : (d.setPlca p up).tb = d.tb := by simp [Device.setPlca]

@[simp] theorem Device.busOff_tb (d : Device) (p : Nat) : (d.busOff p).tb = d.tb := by simp [Device.busOff]

@[simp] theorem Device.busOffEnd_tb (d : Device) (p : Nat) : (d.busOffEnd p).tb = d.tb := by simp [Device.busOffEnd]

@[simp] theorem Device.gateCycle_tb (d : Device) (p now : Nat) : (d.gateCycle p now).tb = d.tb := by
  unfold Device.gateCycle
  split <;> simp

@[simp] theorem Device.bridge_tb (d : Device) (f : EtherFrame) : (d.bridge f).tb = d.tb := by simp [Device.bridge]

@[simp] theorem Device.ruleCreate_tb (d : Device) (b : List Byte) : (d.ruleCreate b).1.tb = d.tb := by
  unfold Device.ruleCreate
  repeat' split
  all_goals simp

@[simp] theorem Device.ruleDelete_tb (d : Device) (h : Nat) : (d.ruleDelete h).1.tb = d.tb := by
  unfold Device.ruleDelete
  split <;> simp

@[simp] theorem Device.fieldRound_tb (d : Device) : d.fieldRound.tb = d.tb := by simp [Device.fieldRound]

/-! ### The dictionary -/

@[simp] theorem Device.putOpen_tb (d : Device) (h : Home) (v : Nat) : (d.putOpen h v).tb = d.tb := rfl

theorem Device.fwStaged_tb (d : Device) (l : List Staged) :
    (l.foldl (fun d s => match entryHome s.ix s.sub with
      | some h => d.putOpen h (leNat s.value)
      | none => d) d).tb = d.tb := by
  refine foldl_tb (fun d s => ?_) l d
  split <;> simp

@[simp] theorem Device.fwSeal_tb (d : Device) (b : BlockId) (n : Nat) : (d.fwSeal b n).tb = d.tb := by
  simp only [Device.fwSeal, Device.sealBlk_tb, Device.setBlk_tb, Device.modDict_tb]
  exact d.fwStaged_tb _

@[simp] theorem Device.fwPump_tb (d : Device) (b : BlockId) : (d.fwPump b).tb = d.tb := by simp [Device.fwPump]

@[simp] theorem Device.fwAccept_tb (d : Device) (b : BlockId) (due : Nat) : (d.fwAccept b due).tb = d.tb := by
  simp [Device.fwAccept]

@[simp] theorem Device.fwPumpAll_tb (d : Device) : d.fwPumpAll.tb = d.tb := by simp [Device.fwPumpAll]

@[simp] theorem Device.takeEffect_tb (d : Device) (ix sub : Nat) (v : List Byte) : (d.takeEffect ix sub v).tb = d.tb := by
  simp [Device.takeEffect]

@[simp] theorem Device.takeStaged_tb (d : Device) (p : Staged → Bool) : (d.takeStaged p).tb = d.tb := by
  simp [Device.takeStaged]

@[simp] theorem Device.dictCycle_tb (d : Device) (g : Nat) : (d.dictCycle g).tb = d.tb := by simp [Device.dictCycle]

@[simp] theorem Device.dictBoundary_tb (d : Device) (k : BKind) : (d.dictBoundary k).tb = d.tb := by simp [Device.dictBoundary]

@[simp] theorem Device.firmwareSeal_tb (d : Device) (b : BlockId) (es : List (Nat × Nat)) (val : Nat → Nat → List Byte) :
    (d.firmwareSeal b es val).tb = d.tb := by
  simp [Device.firmwareSeal]

@[simp] theorem Device.profileIn_tb (d : Device) (n : Nat) : (d.profileIn n).tb = d.tb := rfl

@[simp] theorem Device.dropReplaced_tb (d : Device) : d.dropReplaced.tb = d.tb := rfl

theorem Device.firmwareSeals_tb (d : Device) (bs : List BlockId) (es : List (Nat × Nat)) (val : Nat → Nat → List Byte) :
    (bs.foldl (fun x b => x.firmwareSeal b es val) d).tb = d.tb :=
  foldl_tb (fun x b => x.firmwareSeal_tb b es val) bs d

@[simp] theorem Device.profileSeal_tb (d : Device) : d.profileSeal.tb = d.tb := by
  unfold Device.profileSeal
  split
  · exact (Device.firmwareSeals_tb _ _ _ _).trans d.dropReplaced_tb
  · rfl

@[simp] theorem Device.profileSwitch_tb (d : Device) (n : Nat) : (d.profileSwitch n).1.tb = d.tb := by
  unfold Device.profileSwitch
  split <;> simp

@[simp] theorem Device.profileVerified_tb (d : Device) : d.profileVerified.tb = d.tb := by
  unfold Device.profileVerified
  split <;> simp

@[simp] theorem Device.storeStart_tb (d : Device) (n : Nat) (img : List Byte) : (d.storeStart n img).1.tb = d.tb := by
  unfold Device.storeStart
  split <;> simp

@[simp] theorem Device.profileSave_tb (d : Device) (n : Nat) : (d.profileSave n).1.tb = d.tb := by
  unfold Device.profileSave
  split <;> simp

@[simp] theorem Device.profileImport_tb (d : Device) (img : List Byte) : (d.profileImport img).1.tb = d.tb := by
  unfold Device.profileImport
  repeat' split
  all_goals simp

@[simp] theorem Device.profileErase_tb (d : Device) (n : Nat) : (d.profileErase n).1.tb = d.tb := by
  unfold Device.profileErase
  split <;> simp

@[simp] theorem Device.storeDone_tb (d : Device) : d.storeDone.tb = d.tb := by
  unfold Device.storeDone
  split <;> simp

/-! ### Instances and worlds -/

@[simp] theorem Device.hartRuns_tb (d : Device) (h : Nat) : (d.hartRuns h).tb = d.tb := rfl

@[simp] theorem Device.mworldWrite_tb (d : Device) (h : Nat) (w : Bool) : (d.mworldWrite h w).tb = d.tb := by
  simp [Device.mworldWrite]

@[simp] theorem Device.castle_tb (d : Device) (r : CastleReq) : (d.castle r).tb = d.tb := by simp [Device.castle]

@[simp] theorem Device.fencePort_tb (d : Device) (p : Port) : (d.fencePort p).tb = d.tb := rfl

@[simp] theorem Device.resetWords_tb (d : Device) (b : BlockId) (lo hi : Nat) : (d.resetWords b lo hi).tb = d.tb := rfl

@[simp] theorem Device.discardBlk_tb (d : Device) (b : BlockId) : (d.discardBlk b).tb = d.tb := rfl

@[simp] theorem Device.unitReset_tb (d : Device) (u : Nat) : (d.unitReset u).tb = d.tb := by simp [Device.unitReset]

@[simp] theorem Device.quiesceDone_tb (d : Device) (u : Nat) : (d.quiesceDone u).tb = d.tb := by
  unfold Device.quiesceDone
  split <;> simp

@[simp] theorem Device.castlingEnd_tb (d : Device) (u : Nat) (c : Castling) : (d.castlingEnd u c).tb = d.tb := by
  simp only [Device.castlingEnd]
  repeat' split
  all_goals simp

@[simp] theorem Device.castlingTempo_tb (d : Device) : d.castlingTempo.tb = d.tb := by simp [Device.castlingTempo]

@[simp] theorem Device.invalStart_tb (d : Device) (i : Inval) : (d.invalStart i).tb = d.tb := rfl

@[simp] theorem Device.inval_tb (d : Device) (w : Nat) : (d.inval w).tb = d.tb := by simp [Device.inval]

@[simp] theorem Device.invalEnd_tb (d : Device) : d.invalEnd.tb = d.tb := by
  unfold Device.invalEnd
  split <;> simp

@[simp] theorem Device.resetEnd_tb (d : Device) (i : Nat) : (d.resetEnd i).tb = d.tb := by simp [Device.resetEnd]

@[simp] theorem Device.drainEnd_tb (d : Device) (i : Nat) : (d.drainEnd i).tb = d.tb := by simp [Device.drainEnd]

@[simp] theorem Device.emuGive_tb (d : Device) (i : Nat) (who : Option (Port × Nat)) (v : Nat) :
    (d.emuGive i who v).tb = d.tb := by
  unfold Device.emuGive
  split <;> simp

@[simp] theorem Device.instReset_tb (d : Device) (i : Nat) : (d.instReset i).tb = d.tb := by simp [Device.instReset]

@[simp] theorem Device.forceRetire_tb (d : Device) (i : Nat) : (d.forceRetire i).tb = d.tb := by simp [Device.forceRetire]

@[simp] theorem Device.drainTempo_tb (d : Device) : d.drainTempo.tb = d.tb := by simp [Device.drainTempo]

@[simp] theorem Device.resetPcie_tb (d : Device) : d.resetPcie.tb = d.tb := by simp [Device.resetPcie]

@[simp] theorem Device.flr_tb (d : Device) (fn : Nat) : (d.flr fn).tb = d.tb := by simp [Device.flr]

@[simp] theorem Device.pcieLink_tb (d : Device) (up : Bool) : (d.pcieLink up).tb = d.tb := rfl

@[simp] theorem Device.instCreate_tb (d : Device) (i w : Nat) : (d.instCreate i w).1.tb = d.tb := by
  simp only [Device.instCreate]
  repeat' split
  all_goals simp

@[simp] theorem Device.instDelete_tb (d : Device) (i : Nat) : (d.instDelete i).1.tb = d.tb := by simp [Device.instDelete]

@[simp] theorem Device.viewMove_tb (d : Device) (i n : Nat) (f : Machine.Ring → Option Machine.Ring) :
    (d.viewMove i n f).tb = d.tb := by
  unfold Device.viewMove
  repeat' split
  all_goals simp

@[simp] theorem Device.emuRead_tb (d : Device) (i off : Nat) (who : Option (Port × Nat)) : (d.emuRead i off who).tb = d.tb := by
  simp [Device.emuRead]

@[simp] theorem Device.emuWrite_tb (d : Device) (i off v : Nat) : (d.emuWrite i off v).tb = d.tb := rfl

@[simp] theorem Device.emuAnswer_tb (d : Device) (i v : Nat) : (d.emuAnswer i v).tb = d.tb := by
  unfold Device.emuAnswer
  split <;> simp

@[simp] theorem Device.emuLate_tb (d : Device) (i off : Nat) : (d.emuLate i off).tb = d.tb := rfl

@[simp] theorem Device.emuExpire_tb (d : Device) (i : Nat) (write : Bool) : (d.emuExpire i write).tb = d.tb := by
  simp only [Device.emuExpire]
  repeat' split
  all_goals simp

@[simp] theorem Device.dlogClear_tb (d : Device) (i : Nat) : (d.dlogClear i).tb = d.tb := rfl

/-! ### Owners of the dictionary -/

@[simp] theorem Device.stageWrite_tb (d : Device) (ix sub : Nat) (v : List Byte) (k : BKind) :
    (d.stageWrite ix sub v k).tb = d.tb := by
  simp only [Device.stageWrite]
  split <;> simp

@[simp] theorem Device.dictRead_tb (d : Device) (p : DPath) (ix sub : Nat) : (d.dictRead p ix sub).1.tb = d.tb := by
  simp only [Device.dictRead]
  repeat' split
  all_goals simp

@[simp] theorem Device.partRead_tb (d : Device) (p : DPath) (r : PartReq) (max : Nat) : (d.partRead p r max).1.tb = d.tb := by
  simp only [Device.partRead]
  repeat' split
  all_goals simp

@[simp] theorem Device.mboxAnswer_tb (d : Device) (i : Nat) : (d.mboxAnswer i).tb = d.tb := by
  unfold Device.mboxAnswer
  split <;> simp

/-! ### Rings -/

@[simp] theorem Device.ringErr_tb (d : Device) (n : Nat) : (d.ringErr n).tb = d.tb := rfl

@[simp] theorem Device.cfgRefused_tb (d : Device) (n cfg : Nat) : (d.cfgRefused n cfg).tb = d.tb := by simp [Device.cfgRefused]

@[simp] theorem Device.ringDo_tb (d : Device) (n : Nat) (r : Option Machine.Ring) : (d.ringDo n r).tb = d.tb := by
  unfold Device.ringDo
  split <;> simp

@[simp] theorem Device.ringAdvance_tb (d : Device) (n k : Nat) : (d.ringAdvance n k).tb = d.tb := by simp [Device.ringAdvance]

@[simp] theorem Device.ringPublish_tb (d : Device) (n k : Nat) : (d.ringPublish n k).tb = d.tb := by simp [Device.ringPublish]

@[simp] theorem Device.ringReset_tb (d : Device) (n : Nat) : (d.ringReset n).tb = d.tb := by simp [Device.ringReset]

@[simp] theorem Device.ringSet_tb (d : Device) (n : Nat) : (d.ringSet n).tb = d.tb := by simp [Device.ringSet]

@[simp] theorem Device.ringEnable_tb (d : Device) (n cfg : Nat) : (d.ringEnable n cfg).tb = d.tb := by simp [Device.ringEnable]

@[simp] theorem Device.ringDisable_tb (d : Device) (n cfg : Nat) : (d.ringDisable n cfg).tb = d.tb := by
  simp [Device.ringDisable]

/-! ### Words of the register windows -/

@[simp] theorem Device.moveCtrl_tb (d : Device) (b : BlockId) (v : Nat) : (d.moveCtrl b v).tb = d.tb := by
  simp [Device.moveCtrl]

@[simp] theorem Device.ringConfig_tb (d : Device) (n : Nat) (f : Machine.Ring → Machine.Ring) :
    (d.ringConfig n f).tb = d.tb := by
  simp [Device.ringConfig]

@[simp] theorem Device.ringCtrl_tb (d : Device) (n v : Nat) : (d.ringCtrl n v).tb = d.tb := by
  unfold Device.ringCtrl
  split <;> simp

@[simp] theorem Device.errInfoWrite_tb (d : Device) (die : Die) (v hw : Nat) : (d.errInfoWrite die v hw).tb = d.tb := by
  simp [Device.errInfoWrite]

@[simp] theorem Device.cntCtrl_tb (d : Device) (v : Nat) : (d.cntCtrl v).tb = d.tb := by simp [Device.cntCtrl]

@[simp] theorem Device.portCtrl_tb (d : Device) (p v : Nat) : (d.portCtrl p v).tb = d.tb := by simp [Device.portCtrl]

@[simp] theorem Device.mceCtrl_tb (d : Device) (v : Nat) : (d.mceCtrl v).tb = d.tb := by simp [Device.mceCtrl]

@[simp] theorem Device.pipeCtrl_tb (d : Device) (p v : Nat) : (d.pipeCtrl p v).tb = d.tb := by simp [Device.pipeCtrl]

@[simp] theorem Device.modDlog_tb (d : Device) (i : Nat) (f : DirtyLog → DirtyLog) : (d.modDlog i f).tb = d.tb := rfl

@[simp] theorem Device.cfgErr_tb (d : Device) : d.cfgErr.tb = d.tb := rfl

@[simp] theorem Device.modGroup_tb (d : Device) (g : Nat) (f : FGroup → FGroup) : (d.modGroup g f).tb = d.tb := rfl

@[simp] theorem Device.groupSet_tb (d : Device) (g : Nat) (f : FGroup → FGroup) : (d.groupSet g f).tb = d.tb := by
  simp [Device.groupSet]

@[simp] theorem Device.groupCtrl_tb (d : Device) (g v : Nat) : (d.groupCtrl g v).tb = d.tb := by simp [Device.groupCtrl]

@[simp] theorem Device.portGroup_tb (d : Device) (p v : Nat) : (d.portGroup p v).tb = d.tb := by simp [Device.portGroup]

/-! ### Accesses -/

@[simp] theorem Device.refuse_tb (d : Device) (w : Who) (a : Nat) (write log : Bool) :
    (d.refuse w a write log).1.tb = d.tb := by
  simp [Device.refuse]

@[simp] theorem Device.memAccess_tb (d : Device) (w : Who) (r : BusReq) (a n : Nat) (bs : List Byte) :
    (d.memAccess w r a n bs).1.tb = d.tb := by
  unfold Device.memAccess
  repeat' split
  all_goals simp

@[simp] theorem Device.fieldRead_tb (d : Device) (r : BusReq) (a n : Nat) : (d.fieldRead r a n).1.tb = d.tb := by
  unfold Device.fieldRead
  split <;> simp

@[simp] theorem Device.remoteAccess_tb (d : Device) (w : Who) (id level : Nat) (write : Bool) (a n : Nat) (bs : List Byte) :
    (d.remoteAccess w id level write a n bs).1.tb = d.tb := by
  unfold Device.remoteAccess
  repeat' split
  all_goals simp

@[simp] theorem Device.countHeld_tb (d : Device) (p : Port) : (d.countHeld p).tb = d.tb := rfl

@[simp] theorem Device.rcRead_tb (d : Device) (a : Nat) (debug : Bool) (hw : Nat) : (d.rcRead a debug hw).tb = d.tb := rfl

/-! ### Boundaries -/

@[simp] theorem Device.tempoCounts_tb (d : Device) : d.tempoCounts.tb = d.tb := by simp [Device.tempoCounts]

@[simp] theorem Device.tempoJobs_tb (d : Device) (bad : List (Nat × Nat)) : (d.tempoJobs bad).tb = d.tb := by
  simp [Device.tempoJobs]

@[simp] theorem Device.recordMissing_tb (d : Device) : d.recordMissing.tb = d.tb := by simp [Device.recordMissing]

@[simp] theorem Device.tempoWorlds_tb (d : Device) : d.tempoWorlds.tb = d.tb := by simp [Device.tempoWorlds]

@[simp] theorem Device.errorSample_tb (d : Device) : d.errorSample.tb = d.tb := by simp [Device.errorSample]

@[simp] theorem Device.linkRound_tb (d : Device) (delays : List Nat) : (d.linkRound delays).tb = d.tb := by
  simp [Device.linkRound]

@[simp] theorem Device.takeTemps_tb (d : Device) (ts : List Int) : (d.takeTemps ts).tb = d.tb := rfl

/-! ### Debug -/

@[simp] theorem Device.drawChallenge_tb (d : Device) : d.drawChallenge.tb = d.tb := rfl

@[simp] theorem Device.challengeRead_tb (d : Device) : d.challengeRead.tb = d.tb := by simp [Device.challengeRead]

@[simp] theorem Device.unlock_tb (d : Device) (v : Nat) : (d.unlock v).tb = d.tb := by simp [Device.unlock]

@[simp] theorem Device.unlockVerified_tb (d : Device) (r : UnlockOutcome) : (d.unlockVerified r).tb = d.tb := by
  simp [Device.unlockVerified]

@[simp] theorem Device.dbgClose_tb (d : Device) : d.dbgClose.tb = d.tb := rfl

@[simp] theorem Device.jobEngines_tb (d : Device) (j : Nat) (f : Eng → Eng) : (d.jobEngines j f).tb = d.tb := by
  simp [Device.jobEngines]

@[simp] theorem Device.edbgCmd_tb (d : Device) (j : Nat) (f : Eng → Eng) : (d.edbgCmd j f).tb = d.tb := by simp [Device.edbgCmd]

theorem Device.edbgWrite_tb {d e : Device} {o v hw : Nat} (h : d.edbgWrite o v hw = some e) : e.tb = d.tb := by
  simp only [Device.edbgWrite] at h
  split_ifs at h <;> try cases h <;> rfl
  split at h <;> cases h <;> simp

@[simp] theorem Device.portWrite_tb (d : Device) (o v hw : Nat) : (d.portWrite o v hw).tb = d.tb := by simp [Device.portWrite]

@[simp] theorem Device.dbgFrame_tb (d : Device) (h : DbgHeader) (again access : Device → Device)
    (hagain : ∀ e, (again e).tb = e.tb) (haccess : ∀ e, (access e).tb = e.tb) : (d.dbgFrame h again access).tb = d.tb := by
  unfold Device.dbgFrame
  repeat' split
  all_goals simp_all

@[simp] theorem Device.dbgDeliver_tb (d : Device) : d.dbgDeliver.tb = d.tb := by
  unfold Device.dbgDeliver
  repeat' split
  all_goals simp

@[simp] theorem Device.dbgComplete_tb (d : Device) (ns : Nat) : (d.dbgComplete ns).tb = d.tb := by
  unfold Device.dbgComplete
  split <;> simp

@[simp] theorem Device.dbgGot_tb (d : Device) (h : DbgHeader) (f : Nat → BusResp) : (d.dbgGot h f).tb = d.tb := rfl

@[simp] theorem Device.dmiPut_tb (d : Device) (a v : Nat) : (d.dmiPut a v).tb = d.tb := rfl

@[simp] theorem Device.dbgCancel_tb (d : Device) : d.dbgCancel.tb = d.tb := rfl

@[simp] theorem Device.dbgTimeout_tb (d : Device) : d.dbgTimeout.tb = d.tb := by simp [Device.dbgTimeout]

@[simp] theorem Device.dbgRefused_tb (d : Device) : d.dbgRefused.tb = d.tb := by
  unfold Device.dbgRefused
  split <;> simp

@[simp] theorem Device.tapLoad_tb (d : Device) (t : TapInstr) : (d.tapLoad t).tb = d.tb := rfl

/-! ### Flits -/

@[simp] theorem Device.gap_tb (d : Device) (p : Nat) : (d.gap p).tb = d.tb := by simp [Device.gap]

@[simp] theorem Device.takeHeader_tb (d : Device) (p : Nat) (h : FlitHead) : (d.takeHeader p h).tb = d.tb := by
  simp [Device.takeHeader]

/-! ### Opcodes -/

@[simp] theorem Device.checkSources_tb (d : Device) (w : Runner) (i : Issued) : (d.checkSources w i).1.tb = d.tb := by
  refine foldl_fst_tb (fun p x => foldl_fst_tb (fun p r => ?_) _ _) _ _
  split <;> simp

@[simp] theorem Device.checkWrites_tb (d : Device) (w : Runner) (ws : List (Nat × List Byte)) :
    (d.checkWrites w ws).1.tb = d.tb := by
  simp [Device.checkWrites]

@[simp] theorem Device.sendWrites_tb (d : Device) (w : Runner) (i : Issued) (ws : List (Nat × List Byte)) :
    (d.sendWrites w i ws).tb = d.tb := by
  simp [Device.sendWrites]

@[simp] theorem Device.finish_tb (d : Device) (w : Runner) (i : Issued) (st : NumStatus) (produced : Option Nat) :
    (d.finish w i st produced).tb = d.tb := rfl

@[simp] theorem Device.readTraffic_tb (d : Device) (w : Runner) (i : Issued) : (d.readTraffic w i).tb = d.tb := by
  simp [Device.readTraffic]

@[simp] theorem Device.dataOp_tb (d : Device) (e : Nat) (o : Op) (run : Issued → (Nat → Option View) → (Nat → Nat) → ExecRes) :
    (d.dataOp e o run).tb = d.tb := by
  unfold Device.dataOp
  split
  · next w i _ _ =>
    have hsrc := d.checkSources_tb w i
    split
    · rfl
    · split
      · next h => simpa [h] using hsrc
      · next d1 h =>
        rw [h] at hsrc
        split
        · simpa using hsrc
        · next out _ =>
          have hwr := (d1.checkWrites_tb w (out.writes.filter fun x => spaceOf x.1 != 4)).trans hsrc
          split <;> next h => rw [h] at hwr; simpa using hwr
  · rfl

@[simp] theorem Device.frontOp_tb (d : Device) (e : Nat) (o : Op) (ready : Device → Runner → Issued → Bool) :
    (d.frontOp e o ready).tb = d.tb := by
  unfold Device.frontOp
  split <;> simp

@[simp] theorem Device.publishOp_tb (d : Device) (e : Nat) : (d.publishOp e).tb = d.tb := by
  unfold Device.publishOp
  split <;> simp

@[simp] theorem Device.fenceOp_tb (d : Device) (e : Nat) : (d.fenceOp e).tb = d.tb := by
  unfold Device.fenceOp
  split <;> simp

@[simp] theorem Device.checkpointOp_tb (d : Device) (e : Nat) : (d.checkpointOp e).tb = d.tb := by
  unfold Device.checkpointOp
  split
  · dsimp only
    split
    · simp
    · split
      · refine foldl_tb (fun d p => ?_) _ d
        split <;> rfl
      · rfl
  · rfl

/-! ### Transfers of the field -/

@[simp] theorem Device.sendXfer_tb (d : Device) (n : Nat) (rsp auth : Bool) (b : List Byte) :
    (d.sendXfer n rsp auth b).tb = d.tb := by
  simp [Device.sendXfer]

@[simp] theorem Device.sendAbort_tb (d : Device) (n : Nat) (rsp auth : Bool) (ix sub code : Nat) :
    (d.sendAbort n rsp auth ix sub code).tb = d.tb := by
  simp [Device.sendAbort]

@[simp] theorem Device.xferIn_tb (d : Device) (f : CFrame) (core : Device → XferIn → Device)
    (hcore : ∀ e x, (core e x).tb = e.tb) : (d.xferIn f core).tb = d.tb := by
  unfold Device.xferIn
  split <;> simp_all

@[simp] theorem Device.xferReq_tb (d : Device) (f : CFrame) (core : Device → XferIn → Device)
    (hcore : ∀ e x, (core e x).tb = e.tb) : (d.xferReq f core).tb = d.tb := by
  simp_all [Device.xferReq]

@[simp] theorem Device.closeXfer_tb (d : Device) (n : Nat) : (d.closeXfer n).tb = d.tb := rfl

@[simp] theorem Device.setXfer_tb (d : Device) (n : Nat) (x : Xfer) : (d.setXfer n x).tb = d.tb := rfl

@[simp] theorem Device.freshReq_tb (d : Device) (q : XferIn) (f : Device → Device) (hf : ∀ e, (f e).tb = e.tb) :
    (d.freshReq q f).tb = d.tb := by
  unfold Device.freshReq
  split <;> simp_all

@[simp] theorem Device.confirm_tb (d : Device) (q : XferIn) (cmd code : Nat) : (d.confirm q cmd code).tb = d.tb := by
  simp [Device.confirm]

@[simp] theorem Device.xferRead_tb (d : Device) (q : XferIn) : (d.xferRead q).tb = d.tb := by simp [Device.xferRead]

@[simp] theorem Device.xferInit_tb (d : Device) (q : XferIn) : (d.xferInit q).tb = d.tb := by simp [Device.xferInit]

@[simp] theorem Device.xferNext_tb (d : Device) (q : XferIn) : (d.xferNext q).tb = d.tb := by
  unfold Device.xferNext
  split <;> simp

@[simp] theorem Device.closeClient_tb (d : Device) (n : Nat) : (d.closeClient n).tb = d.tb := rfl

@[simp] theorem Device.setClient_tb (d : Device) (n : Nat) (x : ClientXfer) : (d.setClient n x).tb = d.tb := rfl

@[simp] theorem Device.xferAbort_tb (d : Device) (q : XferIn) : (d.xferAbort q).tb = d.tb := by simp [Device.xferAbort]

@[simp] theorem Device.clientSegment_tb (d : Device) (n : Nat) (x : ClientXfer) : (d.clientSegment n x).tb = d.tb := by
  simp [Device.clientSegment]

@[simp] theorem Device.clientFails_tb (d : Device) (n : Nat) (x : ClientXfer) (code : Nat) :
    (d.clientFails n x code).tb = d.tb := by
  simp [Device.clientFails]

@[simp] theorem Device.xferRsp_tb (d : Device) (q : XferIn) : (d.xferRsp q).tb = d.tb := by
  unfold Device.xferRsp
  split <;> simp

@[simp] theorem Device.xferTimeout_tb (d : Device) (seg client : Nat) (server : Bool) :
    (d.xferTimeout seg client server).tb = d.tb := by
  unfold Device.xferTimeout
  repeat' split
  all_goals simp

end Sys2Proof.Machine

/-! SUPPORT. Device time (spec chapter 02): what the registers, the dictionary, the accesses and the links leave of the counter, what
the boundaries do to it, and that DT goes on from boundary to boundary alone. -/

namespace Sys2Proof.Machine

open Sys2Proof

/-! ### Registers -/

/-- A read and a write of the register leave the counter of device time. -/
def Reg.KeepsClock (r : Reg) : Prop :=
  (∀ d, (r.onRead d).tb.clock = d.tb.clock) ∧ ∀ d v hw, (r.put d v hw).tb.clock = d.tb.clock

@[simp] theorem Reg.keepsClock_mk (get : Device → Nat) (onRead : Device → Device) (put : Device → Nat → Nat → Device) :
    (Reg.mk get onRead put).KeepsClock ↔
      (∀ d, (onRead d).tb.clock = d.tb.clock) ∧ ∀ d v hw, (put d v hw).tb.clock = d.tb.clock := Iff.rfl

@[simp] theorem Reg.keepsClock_hole : Reg.hole.KeepsClock := ⟨fun _ => rfl, fun _ _ _ => rfl⟩

@[simp] theorem Reg.keepsClock_ro (f : Device → Nat) : (Reg.ro f).KeepsClock := ⟨fun _ => rfl, fun _ _ _ => rfl⟩

@[simp] theorem Reg.keepsClock_part (f : Device → Nat) (o : Nat) : (Reg.part f o).KeepsClock := Reg.keepsClock_ro _

@[simp] theorem Reg.keepsClock_bytes (f : Device → List Byte) (o : Nat) : (Reg.bytes f o).KeepsClock := Reg.keepsClock_ro _

@[simp] theorem Reg.keepsClock_live (a : Nat) (f : Device → Nat) (o : Nat) : (Reg.live a f o).KeepsClock := by
  unfold Reg.live
  split <;> simp

@[simp] theorem Reg.keepsClock_counterRo (a o : Nat) : (Reg.counterRo a o).KeepsClock := Reg.keepsClock_live _ _ _

@[simp] theorem Reg.keepsClock_counter (a o : Nat) : (Reg.counter a o).KeepsClock :=
  ⟨(Reg.keepsClock_counterRo a o).1, fun d _ _ => congrArg TimeBase.clock (d.modCounter_tb a _)⟩

@[simp] theorem Reg.keepsClock_rwIf (ok : Device → Bool) (a mask : Nat) : (Reg.rwIf ok a mask).KeepsClock := by
  simp [Reg.rwIf]

@[simp] theorem Reg.keepsClock_rw (a mask : Nat) : (Reg.rw a mask).KeepsClock := Reg.keepsClock_rwIf _ _ _

@[simp] theorem Reg.keepsClock_sw (b : BlockId) (a mask : Nat) : (Reg.sw b a mask).KeepsClock := by
  simp [Reg.sw]

@[simp] theorem Reg.keepsClock_wo (f : Device → Nat → Device) :
    (Reg.wo f).KeepsClock ↔ ∀ d v, (f d v).tb.clock = d.tb.clock := by
  simp [Reg.wo]

/-- A window reads its offset against one register after another. -/
theorem Reg.keepsClock_ite {c : Prop} [Decidable c] {r s : Reg} (hr : r.KeepsClock) (hs : s.KeepsClock) :
    (if c then r else s).KeepsClock := by
  split
  · exact hr
  · exact hs

@[simp] theorem moveReg_keepsClock (b : BlockId) (o : Nat) : (moveReg b o).KeepsClock := by
  unfold moveReg
  repeat' with_reducible refine Reg.keepsClock_ite ?_ ?_
  all_goals simp

@[simp] theorem moveAtReg_keepsClock (b : BlockId) (o : Nat) : (moveAtReg b o).KeepsClock := by
  simp [moveAtReg]

@[simp] theorem calReg_keepsClock (o : Nat) : (calReg o).KeepsClock := by
  unfold calReg
  split <;> simp

@[simp] theorem tbReg_keepsClock (o : Nat) : (tbReg o).KeepsClock := by
  unfold tbReg
  have hlive := Reg.keepsClock_live tbBase (fun d => d.stamp.1) o
  repeat' with_reducible refine Reg.keepsClock_ite ?_ ?_
  all_goals simp [hlive.1, hlive.2]

@[simp] theorem teReg_keepsClock (e o : Nat) : (teReg e o).KeepsClock := by
  unfold teReg
  repeat' with_reducible refine Reg.keepsClock_ite ?_ ?_
  all_goals simp

@[simp] theorem ringWord_keepsClock (n o : Nat) : (ringWord n o).KeepsClock := by
  unfold ringWord
  repeat' with_reducible refine Reg.keepsClock_ite ?_ ?_
  all_goals simp

@[simp] theorem rgnWord_keepsClock (set r o : Nat) : (rgnWord set r o).KeepsClock := by
  simp only [rgnWord]
  repeat' with_reducible refine Reg.keepsClock_ite ?_ ?_
  all_goals simp

@[simp] theorem flagsReg_keepsClock (a n : Nat) : (flagsReg a n).KeepsClock := by
  refine ⟨fun _ => rfl, fun d _ _ => congrArg TimeBase.clock ?_⟩
  exact foldl_tb (fun d k => d.modCounter_tb _ _) _ d

@[simp] theorem snapReg_keepsClock (a at' o : Nat) : (snapReg a at' o).KeepsClock := Reg.keepsClock_live _ _ _

@[simp] theorem stackReg_keepsClock (h o : Nat) : (stackReg h o).KeepsClock := by
  simp only [stackReg]
  repeat' with_reducible refine Reg.keepsClock_ite ?_ ?_
  all_goals simp

@[simp] theorem jobReg_keepsClock (j o : Nat) : (jobReg j o).KeepsClock := by
  simp only [jobReg]
  repeat' with_reducible refine Reg.keepsClock_ite ?_ ?_
  all_goals simp

@[simp] theorem portWord_keepsClock (p : Port) (o : Nat) : (portWord p o).KeepsClock := by
  simp only [portWord]
  repeat' with_reducible refine Reg.keepsClock_ite ?_ ?_
  all_goals simp

@[simp] theorem nocReg_keepsClock (die : Die) (o : Nat) : (nocReg die o).KeepsClock := by
  simp only [nocReg]
  repeat' with_reducible refine Reg.keepsClock_ite ?_ ?_
  all_goals simp

@[simp] theorem commonReg_keepsClock (k o : Nat) : (commonReg k o).KeepsClock := by
  unfold commonReg
  repeat' with_reducible refine Reg.keepsClock_ite ?_ ?_
  all_goals simp

@[simp] theorem tlPort_keepsClock (p o : Nat) : (tlPort p o).KeepsClock := by
  unfold tlPort
  repeat' with_reducible refine Reg.keepsClock_ite ?_ ?_
  all_goals simp

@[simp] theorem tlReg_keepsClock (o : Nat) : (tlReg o).KeepsClock := by
  unfold tlReg
  repeat' with_reducible refine Reg.keepsClock_ite ?_ ?_
  all_goals simp

@[simp] theorem mceReg_keepsClock (o : Nat) : (mceReg o).KeepsClock := by
  unfold mceReg
  repeat' with_reducible refine Reg.keepsClock_ite ?_ ?_
  all_goals simp

@[simp] theorem gpxReg_keepsClock (o : Nat) : (gpxReg o).KeepsClock := by
  simp only [gpxReg]
  repeat' with_reducible refine Reg.keepsClock_ite ?_ ?_
  all_goals simp

@[simp] theorem pipeReg_keepsClock (p o : Nat) : (pipeReg p o).KeepsClock := by
  simp only [pipeReg]
  repeat' with_reducible refine Reg.keepsClock_ite ?_ ?_
  all_goals simp

@[simp] theorem dlogReg_keepsClock (i o : Nat) : (dlogReg i o).KeepsClock := by
  unfold dlogReg
  repeat' with_reducible refine Reg.keepsClock_ite ?_ ?_
  all_goals simp

@[simp] theorem iommuReg_keepsClock (o : Nat) : (iommuReg o).KeepsClock := by
  have hinval (f : Device → Nat → Nat) : (Reg.wo fun d v => d.inval (f d v)).KeepsClock :=
    (Reg.keepsClock_wo _).mpr fun d v => congrArg TimeBase.clock (d.inval_tb _)
  have hhold (f : Device → Nat → Tab Word) : (Reg.wo fun d v => { d with holds := f d v }).KeepsClock :=
    (Reg.keepsClock_wo _).mpr fun _ _ => rfl
  unfold iommuReg
  extract_lets a
  repeat' with_reducible refine Reg.keepsClock_ite ?_ ?_
  · simp
  · simp
  · simp
  · simp
  · simp
  · exact hhold _
  · exact hinval _
  · simp
  · simp
  · exact ⟨fun _ => rfl, fun d v _ => congrArg TimeBase.clock (d.modProc_tb _)⟩
  · simp
  · simp
  · simp

@[simp] theorem aliasReg_keepsClock (d : Device) (o : Nat) : (aliasReg d o).KeepsClock := by
  unfold aliasReg
  extract_lets hidden
  split <;> simp

@[simp] theorem viewReg_keepsClock (i n o : Nat) : (viewReg i n o).KeepsClock := by
  have hro (f : Device → Nat) := Reg.keepsClock_ro f
  have hpart (f : Device → Nat) (k : Nat) := Reg.keepsClock_part f k
  simp only [viewReg]
  repeat' with_reducible refine Reg.keepsClock_ite ?_ ?_
  all_goals simp [(hro _).1, (hpart _ _).1]

@[simp] theorem msixReg_keepsClock (i o : Nat) : (msixReg i o).KeepsClock := by
  simp only [msixReg]
  repeat' with_reducible refine Reg.keepsClock_ite ?_ ?_
  all_goals simp

@[simp] theorem pendingReg_keepsClock (i k : Nat) : (pendingReg i k).KeepsClock := by
  simp [pendingReg]

@[simp] theorem groupReg_keepsClock (g o : Nat) : (groupReg g o).KeepsClock := by
  unfold groupReg
  repeat' with_reducible refine Reg.keepsClock_ite ?_ ?_
  all_goals simp

@[simp] theorem fportReg_keepsClock (p o : Nat) : (fportReg p o).KeepsClock := by
  unfold fportReg
  repeat' with_reducible refine Reg.keepsClock_ite ?_ ?_
  all_goals simp

@[simp] theorem fgwReg_keepsClock (o : Nat) : (fgwReg o).KeepsClock := by
  unfold fgwReg
  repeat' with_reducible refine Reg.keepsClock_ite ?_ ?_
  all_goals simp

@[simp] theorem arbReg_keepsClock (o : Nat) : (arbReg o).KeepsClock := by
  unfold arbReg
  repeat' with_reducible refine Reg.keepsClock_ite ?_ ?_
  all_goals simp

@[simp] theorem secReg_keepsClock (secure : Bool) (o : Nat) : (secReg secure o).KeepsClock := by
  unfold secReg
  repeat' with_reducible refine Reg.keepsClock_ite ?_ ?_
  all_goals simp

@[simp] theorem watReg_keepsClock (u : Nat) : (watReg u).KeepsClock := Reg.keepsClock_ro _

@[simp] theorem cruReg_keepsClock (o : Nat) : (cruReg o).KeepsClock := by
  unfold cruReg
  have hsw := Reg.keepsClock_sw .cru (cruBase + o) 0x10F
  repeat' with_reducible refine Reg.keepsClock_ite ?_ ?_
  all_goals simp [hsw.1, hsw.2]

/-! ### Loops -/

/-- Every step of a loop over the device leaves the counter of device time. -/
def KeepsClock {β : Type} (f : Device → β → Device) : Prop := ∀ d x, (f d x).tb.clock = d.tb.clock

@[simp] theorem keepsClock_iff {β : Type} (f : Device → β → Device) : KeepsClock f ↔ ∀ d x, (f d x).tb.clock = d.tb.clock :=
  Iff.rfl

@[simp] theorem foldl_clock {β : Type} {f : Device → β → Device} (h : KeepsClock f) (l : List β) (d : Device) :
    (l.foldl f d).tb.clock = d.tb.clock :=
  foldl_keeps (f := f) (fun d : Device => d.tb.clock) h l d

theorem foldl_fst_clock {α β : Type} {f : Device × α → β → Device × α} (h : ∀ p x, (f p x).1.tb.clock = p.1.tb.clock)
    (l : List β) (p : Device × α) : (l.foldl f p).1.tb.clock = p.1.tb.clock := foldl_keeps (fun p => p.1.tb.clock) h l p

/-! ### Sealed moves that take effect -/

@[simp] theorem TimeBase.offsetMove_clock (t : TimeBase) (target : Int) (tn : Nat) : (t.offsetMove target tn).1.clock = t.clock := by
  unfold TimeBase.offsetMove
  extract_lets diff
  split <;> rfl

@[simp] theorem TimeBase.slew_started (t : TimeBase) (ppm : Nat) : (t.slew ppm).started = t.started := by
  unfold TimeBase.slew
  split
  · rfl
  · dsimp only
    split <;> rfl

@[simp] theorem Device.timeMove_clock (d old : Device) : (d.timeMove old).tb.clock = d.tb.clock := by
  simp only [Device.timeMove]
  split <;> split <;> simp

@[simp] theorem Device.applyBlk_clock (d : Device) (b : BlockId) : (d.applyBlk b).tb.clock = d.tb.clock := by
  simp only [Device.applyBlk]
  split <;> simp

@[simp] theorem Device.serveMoves_clock (d : Device) (k : Kind) (n : Nat) : (d.serveMoves k n).tb.clock = d.tb.clock := by
  refine foldl_clock (fun d a => ?_) _ d
  split <;> simp

@[simp] theorem Device.takeValues_clock (d : Device) (es : List (Nat × Nat)) (val : Nat → Nat → List Byte) (wait : Bool) :
    (d.takeValues es val wait).tb.clock = d.tb.clock := by
  unfold Device.takeValues
  extract_lets seq stage d1
  have hstage (d : Device) (e : Nat × Nat) (k : BKind) (h : Option Nat) : (stage d e k h).tb = d.tb := d.modDict_tb _
  have h1 : d1.tb = d.tb := by
    refine foldl_tb (fun d e => ?_) _ d
    split_ifs <;> simp [hstage]
  refine (foldl_clock (fun e b => ?_) _ d1).trans (congrArg TimeBase.clock h1)
  extract_lets mine x
  have hx : x.tb = e.tb := by
    simp only [x]
    split <;> simp
  split
  · rfl
  · split
    · rw [Device.applyBlk_clock, hx]
    · rw [Device.fwPump_tb, foldl_tb fun d m => hstage d _ _ _, hx]

@[simp] theorem Device.profileApply_clock (d : Device) : d.profileApply.tb.clock = d.tb.clock := by
  unfold Device.profileApply
  split
  · extract_lets x
    have hx : x.tb = d.tb := (d.dropReplaced.modDict_tb _).trans d.dropReplaced_tb
    rw [Device.event_tb, Device.profileIn_tb, Device.takeValues_clock, hx]
  · rfl

@[simp] theorem Device.profileLoad_clock (d : Device) : d.profileLoad.tb.clock = d.tb.clock := by
  unfold Device.profileLoad
  split
  · rfl
  · dsimp only
    rw [Device.fieldReady_tb]
    split
    · rw [Device.profileIn_tb, Device.takeValues_clock, Device.modPwr_tb]
    · rw [Device.arbGate_tb, Device.event_tb, Device.takeValues_clock, Device.modPwr_tb]

/-! ### Resets and the dictionary's writes -/

/-- A system reset keeps the counter of device time (R36, R461). -/
@[simp] theorem Device.systemReset_clock (d : Device) (straps : StrapSamples) (cause : Nat) (pin : Bool) :
    (d.systemReset straps cause pin).tb.clock = d.tb.clock := by
  unfold Device.systemReset
  split <;> rfl

@[simp] theorem Device.ownerWrite_clock (d : Device) (p : DPath) (ix sub : Nat) (v : List Byte) :
    (d.ownerWrite p ix sub v).1.tb.clock = d.tb.clock := by
  unfold Device.ownerWrite
  extract_lets n
  split
  case h_13 =>
    split
    · split
      · rw [Device.instCreate_tb]
      · dsimp only
        rw [Device.modInst_tb]
    · split
      · split
        · rw [Device.jobCreate_tb]
        · rw [Device.jobControl_tb]
      · split
        · rfl
        · rw [Device.takeEffect_tb]
  case h_12 =>
    dsimp only
    split
    · exact d.systemReset_clock _ _ _
    · rfl
  case h_8 =>
    split
    · simp
    · rfl
  all_goals simp

@[simp] theorem Device.dictWrite_clock (d : Device) (p : DPath) (ix sub : Nat) (v : List Byte) :
    (d.dictWrite p ix sub v).1.tb.clock = d.tb.clock := by
  have hown := d.ownerWrite_clock p ix sub v
  unfold Device.dictWrite
  extract_lets c noted
  have hnoted (d : Device) : (noted d).tb = d.tb := d.modDict_tb _
  split
  · rfl
  · split
    · split <;> simp [hnoted]
    · dsimp only
      split
      · exact hown
      · split
        · rw [hnoted]; exact hown
        · exact hown

@[simp] theorem Device.firmwareCall_clock (d : Device) (h : Nat) (r : DictReq) : (d.firmwareCall h r).tb.clock = d.tb.clock := by
  simp only [Device.firmwareCall]
  split <;> simp

@[simp] theorem Device.mboxDoorbell_clock (d : Device) (i len op : Nat) : (d.mboxDoorbell i len op).tb.clock = d.tb.clock := by
  simp only [Device.mboxDoorbell]
  split_ifs
  · rfl
  · simp
  · simp
  · split <;> simp
  · simp

@[simp] theorem Device.mboxWrite_clock (d : Device) (i v : Nat) : (d.mboxWrite i v).tb.clock = d.tb.clock :=
  d.mboxDoorbell_clock _ _ _

@[simp] theorem Device.mgmt_clock (d : Device) (m : FMsg) : (d.mgmt m).tb.clock = d.tb.clock := by
  simp only [Device.mgmt]
  split_ifs
  · simp
  · simp
  · split <;> simp
  · simp

@[simp] theorem Device.xferWrite_clock (d : Device) (q : XferIn) : (d.xferWrite q).tb.clock = d.tb.clock := by
  unfold Device.xferWrite Device.freshReq
  split <;> simp

@[simp] theorem Device.xferSegment_clock (d : Device) (q : XferIn) : (d.xferSegment q).tb.clock = d.tb.clock := by
  unfold Device.xferSegment
  split
  · rfl
  · dsimp only
    split_ifs <;> simp

/-! ### Configurations of the fabric -/

@[simp] theorem Device.adoptConfig_clock (d : Device) (c : FabConfig) : (d.adoptConfig c).tb.clock = d.tb.clock := by
  unfold Device.adoptConfig
  extract_lets mine me king ks wasResigned st d1 d2 t d3 d4 d5
  have h3 : d3.tb.clock = d.tb.clock := rfl
  have h4 : d4.tb = d3.tb := by
    simp only [d4]
    split <;> simp
  have h5 : d5.tb = d4.tb := foldl_tb (fun d p => by dsimp only; split <;> simp) _ _
  rw [Device.flush_tb, h5, h4, h3]

@[simp] theorem Device.applyConfig_clock (d : Device) : d.applyConfig.tb.clock = d.tb.clock := by
  simp only [Device.applyConfig]
  refine (foldl_clock (fun d c => ?_) _ _).trans (congrArg TimeBase.clock (d.modFab_tb _))
  split <;> simp

@[simp] theorem Device.resign_clock (d : Device) : d.resign.tb.clock = d.tb.clock := by
  unfold Device.resign
  extract_lets d1 t d2 d3
  split
  · rfl
  · have h3 : d3.tb = d2.tb := foldl_tb (fun d j => by simp) _ _
    rw [Device.event_tb, h3]
    rfl

/-! ### Boundaries -/

@[simp] theorem Device.tempoMoves_clock (d : Device) : d.tempoMoves.tb.clock = d.tb.clock := by
  simp only [Device.tempoMoves]
  split <;> simp

@[simp] theorem Device.tempoFabric_clock (d : Device) : d.tempoFabric.tb.clock = d.tb.clock := by
  simp [Device.tempoFabric]

@[simp] theorem Device.fieldCycle_clock (d : Device) (g : Nat) : (d.fieldCycle g).tb.clock = d.tb.clock := by
  simp only [Device.fieldCycle]
  split <;> simp

@[simp] theorem Device.cycleBoundary_clock (d : Device) (g : Nat) : (d.cycleBoundary g).tb.clock = d.tb.clock := by
  unfold Device.cycleBoundary
  split <;> simp

@[simp] theorem Device.frameBoundary_clock (d : Device) (p : Nat) : (d.frameBoundary p).tb.clock = d.tb.clock := by
  simp only [Device.frameBoundary]
  split <;> simp

@[simp] theorem Device.checkpointBoundary_clock (d : Device) (j : Nat) : (d.checkpointBoundary j).tb.clock = d.tb.clock := by
  unfold Device.checkpointBoundary
  extract_lets x d1 d2 d3
  split
  · have h1 : d1.tb = d.tb := (Device.modJob_tb _ _ _).trans (d.checkpointMoves_tb j)
    have h3 : d3.tb = d2.tb := foldl_tb (fun d t => by dsimp only; split <;> rfl) _ _
    rw [Device.decideVariant_tb, h3, Device.serveMoves_clock, h1]
  · rfl

/-! ### The register windows -/

@[simp] theorem instReg_keepsClock (i o : Nat) : (instReg i o).KeepsClock := by
  unfold instReg
  split
  case h_3 =>
    refine (Reg.keepsClock_wo _).mpr fun d v => ?_
    split <;> simp
  all_goals simp

@[simp] theorem pageReg_keepsClock (i o : Nat) : (pageReg i o).KeepsClock := by
  unfold pageReg
  repeat' with_reducible refine Reg.keepsClock_ite ?_ ?_
  all_goals simp

/-- A window hands out a register of its unit or none. -/
theorem Reg.keepsClock_of_only {ok : Bool} {r s : Reg} (hr : r.KeepsClock) (h : r.only ok = some s) : s.KeepsClock := by
  unfold Reg.only at h
  split at h <;> cases h
  exact hr

theorem secWindow_keepsClock {w : Who} {write : Bool} {o : Nat} {r : Reg} (h : secWindow w write o = some r) : r.KeepsClock := by
  unfold secWindow at h
  split_ifs at h
  · exact Reg.keepsClock_of_only (watReg_keepsClock _) h
  · exact Option.some.inj h ▸ secReg_keepsClock _ _
  · exact Reg.keepsClock_of_only (secReg_keepsClock _ _) h
  · exact Reg.keepsClock_of_only Reg.keepsClock_hole h

theorem fwcWindow_keepsClock {w : Who} {write : Bool} {o : Nat} {r : Reg} (h : fwcWindow w write o = some r) : r.KeepsClock := by
  unfold fwcWindow at h
  split at h
  · exact Reg.keepsClock_of_only (jobReg_keepsClock _ _) h
  · exact Reg.keepsClock_of_only Reg.keepsClock_hole h

theorem gpxWindow_keepsClock {d : Device} {w : Who} {write : Bool} {o : Nat} {r : Reg} (h : gpxWindow d w write o = some r) :
    r.KeepsClock := by
  unfold gpxWindow at h
  split_ifs at h <;> exact Reg.keepsClock_of_only (gpxReg_keepsClock _) h

theorem dcuWindow_keepsClock {d : Device} {w : Who} {o : Nat} {r : Reg} (h : dcuWindow d w o = some r) : r.KeepsClock := by
  unfold dcuWindow at h
  extract_lets p at h
  split_ifs at h
  · exact Reg.keepsClock_of_only (pipeReg_keepsClock _ _) h
  · exact Reg.keepsClock_of_only (pipeReg_keepsClock _ _) h
  · exact Reg.keepsClock_of_only Reg.keepsClock_hole h

theorem fgwWindow_keepsClock {d : Device} {w : Who} {o : Nat} {r : Reg} (h : fgwWindow d w o = some r) : r.KeepsClock := by
  unfold fgwWindow at h
  extract_lets p at h
  split_ifs at h <;> exact Reg.keepsClock_of_only (fgwReg_keepsClock _) h

theorem iommuWindow_keepsClock {d : Device} {w : Who} {o : Nat} {r : Reg} (h : iommuWindow d w o = some r) : r.KeepsClock := by
  unfold iommuWindow at h
  split at h
  · exact Option.some.inj h ▸ aliasReg_keepsClock _ _
  · exact Reg.keepsClock_of_only (iommuReg_keepsClock _) h

theorem hubWindow_keepsClock {d : Device} {w : Who} {write : Bool} {n o : Nat} {r : Reg}
    (h : hubWindow d w write n o = some r) : r.KeepsClock := by
  unfold hubWindow at h
  split at h
  · exact Reg.keepsClock_of_only (cruReg_keepsClock _) h
  · exact Reg.keepsClock_of_only (arbReg_keepsClock _) h
  · exact secWindow_keepsClock h
  · exact fwcWindow_keepsClock h
  · exact Reg.keepsClock_of_only (nocReg_keepsClock _ _) h
  · exact Reg.keepsClock_of_only (mceReg_keepsClock _) h
  · exact gpxWindow_keepsClock h
  · exact dcuWindow_keepsClock h
  · exact fgwWindow_keepsClock h
  · exact Reg.keepsClock_of_only (tlReg_keepsClock _) h
  · exact iommuWindow_keepsClock h
  · exact Reg.keepsClock_of_only (tbReg_keepsClock _) h
  · cases h
    exact Reg.keepsClock_hole

theorem cdWindow_keepsClock {w : Who} {k o : Nat} {r : Reg} (h : cdWindow w k o = some r) : r.KeepsClock := by
  refine Reg.keepsClock_of_only ?_ h
  split
  · exact teReg_keepsClock _ _
  · exact commonReg_keepsClock _ _

/-- No register of any window moves the counter of device time. -/
theorem regOf_keepsClock {d : Device} {w : Who} {write : Bool} {a : Nat} {r : Reg} (h : regOf d w write a = some r) :
    r.KeepsClock := by
  unfold regOf at h
  split at h
  · exact Reg.keepsClock_of_only (pageReg_keepsClock _ _) h
  · split_ifs at h
    · exact hubWindow_keepsClock h
    · exact cdWindow_keepsClock h
    · exact cdWindow_keepsClock h
    · exact Reg.keepsClock_of_only (stackReg_keepsClock _ _) h
  · cases h

/-! ### Accesses -/

theorem Device.wordRead_clock {d e : Device} {w : Who} {a v : Nat} (h : d.wordRead w a = some (v, e)) : e.tb.clock = d.tb.clock := by
  obtain ⟨r, hr, hv⟩ := Option.map_eq_some_iff.mp h
  cases hv
  exact (regOf_keepsClock hr).1 d

theorem Device.wordWrite_clock {d e : Device} {w : Who} {a v hw : Nat} (h : d.wordWrite w a v hw = some e) :
    e.tb.clock = d.tb.clock := by
  obtain ⟨r, hr, rfl⟩ := Option.map_eq_some_iff.mp h
  exact (regOf_keepsClock hr).2 d _ _

@[simp] theorem Device.wordsRead_clock (d : Device) (w : Who) (as : List Nat) : (d.wordsRead w as).2.2.tb.clock = d.tb.clock := by
  induction as generalizing d with
  | nil => rfl
  | cons a as ih =>
    unfold Device.wordsRead
    split
    · next h => exact (ih _).trans (Device.wordRead_clock h)
    · exact ih d

@[simp] theorem Device.wordsWrite_clock (d : Device) (w : Who) (hw : Nat) (as : List (Nat × Nat)) :
    (d.wordsWrite w hw as).2.tb.clock = d.tb.clock := by
  induction as generalizing d hw with
  | nil => rfl
  | cons a as ih =>
    unfold Device.wordsWrite
    split
    · next h => exact (ih _ _).trans (Device.wordWrite_clock h)
    · exact ih d _

@[simp] theorem Device.regAccess_clock (d : Device) (w : Who) (write : Bool) (a n : Nat) (bs : List Byte) (whole : Bool) :
    (d.regAccess w write a n bs whole).1.tb.clock = d.tb.clock := by
  unfold Device.regAccess
  extract_lets as r q
  split
  · rfl
  · split
    · exact d.wordsWrite_clock _ _ _
    · dsimp only
      split <;> exact d.wordsRead_clock w as

@[simp] theorem Device.pageAccess_clock (d : Device) (w : Who) (id i : Nat) (write : Bool) (a n : Nat) (bs : List Byte)
    (whole : Bool) : (d.pageAccess w id i write a n bs whole).1.tb.clock = d.tb.clock := by
  unfold Device.pageAccess
  extract_lets o ks
  split_ifs
  · rfl
  · exact congrArg TimeBase.clock (foldl_tb (fun d k => d.emuWrite_tb _ _ _) _ _)
  · exact congrArg TimeBase.clock (foldl_tb (fun d k => d.emuRead_tb _ _ _) _ _)
  · rfl
  · simp
  · rfl
  · exact d.regAccess_clock _ _ _ _ _ _

@[simp] theorem Device.localAccess_clock (d : Device) (w : Who) (id : Nat) (r : BusReq) (a n : Nat) (bs : List Byte) :
    (d.localAccess w id r a n bs).1.tb.clock = d.tb.clock := by
  unfold Device.localAccess
  extract_lets write whole
  split
  · rfl
  · split
    case h_3 => dsimp only; split <;> simp
    case h_8 => exact d.pageAccess_clock _ _ _ _ _ _ _ _
    case h_9 => exact d.regAccess_clock _ _ _ _ _ _
    case h_10 => simp
    all_goals split_ifs <;> simp

@[simp] theorem Device.partAccess_clock (d : Device) (w : Who) (ctx : Option Nat) (id level : Nat) (r : BusReq) (a n : Nat)
    (bs : List Byte) : (d.partAccess w ctx id level r a n bs).1.tb.clock = d.tb.clock := by
  unfold Device.partAccess
  extract_lets t
  have ht : t.2.tb = d.tb := by
    simp only [t]
    split <;> simp
  obtain ⟨p, e⟩ := t
  change e.tb = d.tb at ht
  rw [← ht]
  cases p with
  | none => rfl
  | some p =>
    dsimp only
    split
    · exact e.localAccess_clock _ _ _ _ _ _
    · split_ifs <;> simp

@[simp] theorem Device.serve_clock (d : Device) (w : Who) (id level : Nat) (r : BusReq) : (d.serve w id level r).1.tb.clock = d.tb.clock := by
  unfold Device.serve
  refine foldl_fst_clock (fun p x => ?_) _ _
  exact p.1.partAccess_clock _ _ _ _ _ _ _ _

@[simp] theorem Device.issueBus_clock (d : Device) (r : BusReq) (tag : Option Nat) : (d.issueBus r tag).tb.clock = d.tb.clock := by
  simp only [Device.issueBus]
  split <;> simp

@[simp] theorem Device.launch_clock (d : Device) (r : BusReq) : (d.launch r).tb.clock = d.tb.clock := by
  simp only [Device.launch]
  split
  · simp
  · split <;> simp

@[simp] theorem Device.offer_clock (d : Device) (r : BusReq) : (d.offer r).tb.clock = d.tb.clock := by
  simp only [Device.offer]
  split_ifs <;> simp

@[simp] theorem Device.heldIssue_clock (d : Device) (p : Port) : (d.heldIssue p).tb.clock = d.tb.clock := by
  simp only [Device.heldIssue]
  split
  · rfl
  · split_ifs <;> simp

@[simp] theorem Device.tagGrant_clock (d : Device) (die : Die) : (d.tagGrant die).tb.clock = d.tb.clock := by
  unfold Device.tagGrant
  split
  · split <;> simp
  · rfl

@[simp] theorem Device.registerWrite_clock (d : Device) (r : RegReq) : (d.registerWrite r).tb.clock = d.tb.clock := by
  unfold Device.registerWrite
  extract_lets w n o ws x q
  have hq : q.1.tb.clock = d.tb.clock := by
    simp only [q]
    split
    · exact d.pageAccess_clock _ _ _ _ _ _ _ _
    · split
      · rfl
      · exact d.wordsWrite_clock _ _ _
  split
  · rfl
  · split
    · exact hq
    · exact hq
    · rfl

@[simp] theorem Device.counterLowRead_clock (d : Device) (a : Nat) : (d.counterLowRead a).tb.clock = d.tb.clock := by
  unfold Device.counterLowRead
  split
  · next e h => exact (congrArg TimeBase.clock (e.note_tb _)).trans (Device.wordRead_clock h)
  · rfl

/-! ### Debug -/

@[simp] theorem Device.dbgAsk_clock (d : Device) (h : DbgHeader) (r : DbgArrival) : (d.dbgAsk h r).tb.clock = d.tb.clock := by
  unfold Device.dbgAsk
  split
  · split
    · rfl
    · dsimp only
      rw [foldl_tb fun d n => d.dbgComplete_tb n]
      exact foldl_clock (fun d a => d.offer_clock _) _ _
  · split <;> simp
  · split <;> simp
  · dsimp only
    split_ifs <;> simp

@[simp] theorem Device.dbgAgain_clock (d : Device) (h : DbgHeader) (r : DbgArrival) : (d.dbgAgain h r).tb.clock = d.tb.clock := by
  unfold Device.dbgAgain
  split <;> simp

@[simp] theorem Device.dbgRead_clock (d : Device) (h : DbgHeader) (r : DbgArrival) : (d.dbgRead h r).tb.clock = d.tb.clock := by
  simp only [Device.dbgRead]
  split_ifs <;> simp

theorem Device.dbgPut_clock {d e : Device} {h : DbgHeader} {a : Nat} {bs : List Byte} {hw : Nat} (hp : d.dbgPut h a bs hw = some e) :
    e.tb.clock = d.tb.clock := by
  unfold Device.dbgPut at hp
  split at hp
  · cases hp
    split <;> simp
  · cases hp
    split <;> simp
  · split at hp
    · cases hp
      rfl
    · exact congrArg TimeBase.clock (Device.edbgWrite_tb hp)
  · cases hp
    split <;> simp

@[simp] theorem Device.dbgWrite_clock (d : Device) (h : DbgHeader) (x : DbgData) : (d.dbgWrite h x).tb.clock = d.tb.clock := by
  simp only [Device.dbgWrite]
  split
  · simp
  · rw [Device.dbgAck_tb]
    refine (foldl_fst_clock (fun p a => ?_) _ _).trans (congrArg TimeBase.clock (d.note_tb _))
    split
    · next hp => exact Device.dbgPut_clock hp
    · rfl

/-- A frame of the debug port leads to one of two continuations or to an answer. -/
theorem Device.dbgFrame_clock (d : Device) (h : DbgHeader) {again access : Device → Device}
    (hagain : ∀ e, (again e).tb.clock = e.tb.clock) (haccess : ∀ e, (access e).tb.clock = e.tb.clock) :
    (d.dbgFrame h again access).tb.clock = d.tb.clock := by
  unfold Device.dbgFrame
  split
  · rfl
  · split
    · simp
    · split
      · simp
      · split
        · simp
        · split
          · split
            · exact hagain d
            · simp
          · split
            · simp
            · split
              · simp
              · exact haccess d

@[simp] theorem Device.readFrame_clock (d : Device) (w : BitVec 72) (r : DbgArrival) : (d.readFrame w r).tb.clock = d.tb.clock :=
  d.dbgFrame_clock _ (fun e => e.dbgAgain_clock _ _) fun e => by split <;> simp

@[simp] theorem Device.writeFrame_clock (d : Device) (w : BitVec 72) (x : DbgData) (late : Bool) :
    (d.writeFrame w x late).tb.clock = d.tb.clock :=
  d.dbgFrame_clock _ (fun e => e.dbgAgain_clock _ _) fun e => by split <;> simp

@[simp] theorem Device.dmiFrame_clock (d : Device) (w : BitVec 72) (x : DbgData) (o : DmiOutcome) :
    (d.dmiFrame w x o).tb.clock = d.tb.clock := by
  simp only [Device.dmiFrame]
  split_ifs <;> simp

/-! ### Once time has started, neither TIME_START nor a TIME message moves the counter -/

theorem Device.startTime_clock {d : Device} (stamp : Option Nat) (h : d.tb.started = true) :
    (d.startTime stamp).tb.clock = d.tb.clock := by
  rw [Device.startTime, Device.fieldReady_tb, Device.timeStart_of_started stamp h]

theorem Device.timeMsg_clock {d : Device} (p stamp : Nat) (h : d.tb.started = true) :
    (d.timeMsg p stamp).tb.clock = d.tb.clock := by
  unfold Device.timeMsg
  rw [if_neg (by simp [h])]
  split_ifs <;> rfl

/-- What leaves the counter of device time leaves it running. -/
theorem started_of_clock {t u : TimeBase} (h : t.clock = u.clock) (hu : u.started = true) : t.started = true :=
  (congrArg Prod.fst h).trans hu

theorem Device.dispatch_clock {d : Device} (p : Nat) (m : FMsg) (h : d.tb.started = true) :
    (d.dispatch p m).tb.clock = d.tb.clock := by
  unfold Device.dispatch
  split
  · split_ifs
    · simp
    · exact Device.timeMsg_clock p _ h
    · rfl
  · split
    case h_13 => exact Device.timeMsg_clock p _ h
    all_goals simp

theorem Device.takeMsgs_clock {d : Device} (p : Nat) (ms : List FMsg) (h : d.tb.started = true) :
    (d.takeMsgs p ms).tb.clock = d.tb.clock := by
  refine List.foldlRecOn (motive := fun e : Device => e.tb.clock = d.tb.clock) ms _ rfl fun e he m _ => ?_
  split
  · exact he
  · exact (Device.dispatch_clock p m (started_of_clock he h)).trans he

theorem Device.deliver_clock {d : Device} (p : Nat) (fs : List (FlitHead × List Byte)) (h : d.tb.started = true) :
    (d.deliver p fs).tb.clock = d.tb.clock := by
  unfold Device.deliver
  extract_lets r d1
  have h1 : d1.tb = d.tb := (Device.modFab_tb _ _).trans (d.modLink_tb _ _)
  rw [Device.takeMsgs_clock p _ (h1 ▸ h), h1]

theorem Device.blockEnd_clock {d : Device} (p : Nat) (k : LinkKey) (h : d.tb.started = true) :
    (d.blockEnd p k).tb.clock = d.tb.clock := by
  unfold Device.blockEnd
  extract_lets x
  split
  · rw [Device.deliver_clock p _ (by rwa [Device.modLink_tb]), Device.modLink_tb]
  · simp

theorem Device.acceptFlit_clock {d : Device} (p : Nat) (f : FlitHead) (payload : List Byte) (h : d.tb.started = true) :
    (d.acceptFlit p f payload).tb.clock = d.tb.clock := by
  unfold Device.acceptFlit
  extract_lets x d1 d2
  have h1 : d1.tb = d.tb := d.modLink_tb _ _
  split
  · rw [Device.deliver_clock p _ (h1 ▸ h), h1]
  · have h2 : d2.tb = d.tb := (d1.modLink_tb _ _).trans h1
    split
    · rw [Device.blockEnd_clock p _ (h2 ▸ h), h2]
    · rw [h2]

theorem Device.takeFlit_clock {d : Device} (p : Nat) (f : Flit) (h : d.tb.started = true) :
    (d.takeFlit p f).tb.clock = d.tb.clock := by
  unfold Device.takeFlit
  extract_lets x hd
  have hhead := d.takeHeader_tb p hd
  split_ifs
  · rw [Device.acceptFlit_clock p _ _ (hhead ▸ h), hhead]
  all_goals simp

theorem Device.flitReceive_clock {d : Device} (p : Nat) (f : Flit) (h : d.tb.started = true) :
    (d.flitReceive p f).tb.clock = d.tb.clock := by
  unfold Device.flitReceive
  extract_lets x
  split_ifs
  · rfl
  · simp
  · rw [Device.settle_tb, Device.takeFlit_clock p f h]

/-! ### The boundaries themselves (R34 to R36) -/

/-- The tempo boundary's first step takes DT to the next whole multiple of 1,000. -/
theorem Device.tempoClock_clock (d : Device) (env : TempoEnv) :
    (d.tempoClock env).tb.clock = (d.tb.started, (d.tn + 1) * 1000, (d.tn + 1) % 1000 == 0) := by
  simp [Device.tempoClock, TimeBase.clock]

theorem Device.tn_of_tb {d e : Device} (h : d.tb = e.tb) : d.tn = e.tn := congrArg (fun t => t.dt / 1000) h

/-- A tempo boundary that is due advances DT, and nothing that it does afterwards moves it again. -/
theorem Device.tempo_clock {d : Device} (env : TempoEnv) (hstart : d.tb.started = true) (hdue : d.tb.roundDue = false) :
    (d.tempo env).tb.clock = (true, (d.tn + 1) * 1000, (d.tn + 1) % 1000 == 0) := by
  unfold Device.tempo
  extract_lets d1 d2 d3 d4 d5
  have h1 : d1.tb = d.tb := foldl_tb (fun d a => d.memError_tb a _) _ _
  have h2 : d2.tb.clock = (true, (d.tn + 1) * 1000, (d.tn + 1) % 1000 == 0) := by
    have hcounts : d1.tempoCounts.tb = d.tb := d1.tempoCounts_tb.trans h1
    rw [Device.tempoMoves_clock, Device.tempoClock_clock, Device.tn_of_tb hcounts, hcounts, hstart]
  have h4 : d4.tb = d2.tb := by
    simp only [d4]
    split <;> simp [d3]
  have h5 : d5.tb.clock = d2.tb.clock := by
    rw [Device.errorSample_tb, Device.taskPeriods_tb, Device.tempoFabric_clock, h4]
  rw [if_neg (by simp [hstart, hdue]), Device.settleRails_tb, Device.modPwr_tb, h5, h2]

theorem Device.tempo_idle {d : Device} (env : TempoEnv) (h : d.tb.started = false ∨ d.tb.roundDue = true) : d.tempo env = d :=
  if_pos (by simpa using h)

/-- While a thermal trip holds the dies DT goes on all the same. -/
theorem Device.heldTempo_clock {d : Device} (env : TempoEnv) (hstart : d.tb.started = true) :
    (d.heldTempo env).tb.clock = (true, (d.tn + 1) * 1000, d.tb.roundDue) := by
  simp [Device.heldTempo, TimeBase.clock, hstart]

/-- A round boundary that is due is served, and DT stays. -/
theorem Device.round_clock {d : Device} (env : RoundEnv) (hdue : d.tb.roundDue = true) :
    (d.round env).tb.clock = (d.tb.started, d.tb.dt, false) := by
  unfold Device.round
  extract_lets t d1 d2 d3 d4 d5
  have h1 : d1.tb.clock = (d.tb.started, d.tb.dt, false) := rfl
  have h2 : d2.tb.clock = d1.tb.clock := by rw [Device.serveMoves_clock, Device.takeTemps_tb]
  have h3 : d3.tb.clock = d2.tb.clock := by
    rw [Device.mceTempo_tb, Device.fwPumpAll_tb, Device.dictBoundary_tb, Device.profileApply_clock]
  have h4 : d4.tb.clock = d3.tb.clock := by rw [Device.applyConfig_clock, Device.linkRound_tb, Device.remapRows_tb]
  have h5 : d5.tb.clock = d4.tb.clock := by rw [Device.modPwr_tb, Device.capRound_tb, Device.fieldRound_tb]
  rw [if_neg (by simp [hdue]), Device.settleRails_tb, Device.stackRound_tb, Device.stackRound_tb, h5, h4, h3, h2, h1]

theorem Device.round_idle {d : Device} (env : RoundEnv) (hdue : d.tb.roundDue = false) : d.round env = d :=
  if_pos (by simp [hdue])

/-- A thermal trip takes a round boundary that is due away, and leaves DT. -/
theorem Device.thermalTrip_dt (d : Device) (sensor : Nat) :
    (d.thermalTrip sensor).tb.started = d.tb.started ∧ (d.thermalTrip sensor).tb.dt = d.tb.dt := by
  unfold Device.thermalTrip
  split
  · exact ⟨rfl, rfl⟩
  · have htb := d.safeCause_tb 0x08 (some sensor)
    exact ⟨(congrArg TimeBase.started htb :), (congrArg TimeBase.dt htb :)⟩

theorem dt_of_clock {t u : TimeBase} (h : t.clock = u.clock) : t.dt = u.dt := congrArg (fun c => c.2.1) h

/-- TEMPO_BOUNDARY goes on in the keep-alive domain alone while a thermal trip holds the dies. -/
theorem Runs.tempoBoundary {s : State} {env : TempoEnv} {Q : Device → Prop}
    (hQ : Q (if s.dev.pwr.held then s.dev.heldTempo env else s.dev.tempo env)) : Runs (.tempoBoundary env) s Q :=
  ⟨_, exec_tempoBoundary env s, hQ⟩

theorem TimeBase.clock_eq_iff (t : TimeBase) (started : Bool) (dt : Nat) (due : Bool) :
    t.clock = (started, dt, due) ↔ t.started = started ∧ t.dt = dt ∧ t.roundDue = due := by
  simp [TimeBase.clock]

/-- TN counts the whole multiples of 1,000 in DT. -/
theorem Device.tn_eq {d : Device} {n : Nat} (h : d.tb.dt = n * 1000) : d.tn = n :=
  (congrArg (· / 1000) h).trans (Nat.mul_div_cancel n (by decide))

/-- Settles O16, from what the boundaries do to the counter of device time. -/
theorem tempoAdvances : Obligations.TempoAdvances := by
  intro s env renv
  refine ⟨fun hs hstart hdue => Runs.tempoBoundary ?_, fun hheld hstart => Runs.tempoBoundary ?_,
    fun hs hdue => Runs.of_on hs (exec_roundBoundary renv s) ?_, fun hs hstart => Runs.tempoBoundary ?_⟩
  · obtain ⟨hstart', hdt, hdue'⟩ := (TimeBase.clock_eq_iff _ _ _ _).mp (Device.tempo_clock env hstart hdue)
    rw [if_neg (by simp [show s.dev.pwr.held = false from hs])]
    exact ⟨hstart', hdt, Device.tn_eq hdt, hdue'⟩
  · obtain ⟨-, hdt, -⟩ := (TimeBase.clock_eq_iff _ _ _ _).mp (Device.heldTempo_clock env hstart)
    rw [if_pos hheld]
    exact ⟨Device.tn_eq hdt, by simp [Device.heldTempo, hstart]⟩
  · obtain ⟨-, hdt, hdue'⟩ := (TimeBase.clock_eq_iff _ _ _ _).mp (Device.round_clock renv hdue)
    exact ⟨hdue', hdt⟩
  · rw [if_neg (by simp [show s.dev.pwr.held = false from hs])]
    exact Device.tempo_idle env (.inl hstart)

@[simp] theorem Device.wordWrite_getD_clock (d : Device) (w : Who) (a v hw : Nat) :
    ((d.wordWrite w a v hw).getD d).tb.clock = d.tb.clock := by
  cases h : d.wordWrite w a v hw with
  | none => rfl
  | some e => exact Device.wordWrite_clock h

@[simp] theorem Device.gptpGain_clock (d : Device) : d.gptpGain.tb.clock = d.tb.clock := by
  unfold Device.gptpGain
  split <;> rfl

@[simp] theorem Device.gptpLoss_clock (d : Device) : d.gptpLoss.tb.clock = d.tb.clock := by
  unfold Device.gptpLoss
  split <;> rfl

/-- A transfer request of a node leads to the transfer's own meaning, or to a failed authentication. -/
theorem Device.xferIn_clock (d : Device) (f : CFrame) {core : Device → XferIn → Device}
    (hcore : ∀ e q, (core e q).tb.clock = e.tb.clock) : (d.xferIn f core).tb.clock = d.tb.clock := by
  unfold Device.xferIn
  split
  · rfl
  · dsimp only
    split
    · rfl
    · split
      · exact hcore d _
      · split
        · exact (hcore _ _).trans (congrArg TimeBase.clock (d.modNode_tb _ _))
        · exact congrArg TimeBase.clock (d.authFail_tb _)

theorem Device.received_clock (d : Device) (f : CFrame) (func : Nat) {core : Device → CFrame → Device}
    (hcore : ∀ e g, (core e g).tb.clock = e.tb.clock) : (d.received f func core).tb.clock = d.tb.clock := by
  unfold Device.received
  have hin := d.ingress_tb { f with func := func }
  dsimp only
  split
  · rw [hcore, hin]
  · rw [hin]

theorem Device.xferReq_clock (d : Device) (f : CFrame) {core : Device → XferIn → Device}
    (hcore : ∀ e q, (core e q).tb.clock = e.tb.clock) : (d.xferReq f core).tb.clock = d.tb.clock := by
  refine d.received_clock f _ fun e g => e.xferIn_clock g fun e q => ?_
  split
  · exact hcore e q
  · exact congrArg TimeBase.clock (e.sendAbort_tb _ _ _ _ _ _)

/-- A meaning that leaves the counter on the device leaves it on the state. -/
theorem State.onKeep_clock {s t : State} {f : Device → Device} (h : s.onKeep f = .next t)
    (hf : (f s.dev).tb.clock = s.dev.tb.clock) : t.dev.tb.clock = s.dev.tb.clock := by
  cases h
  exact hf

theorem State.on_clock {s t : State} {f : Device → Device} (h : s.on f = .next t)
    (hf : (f s.dev).tb.clock = s.dev.tb.clock) : t.dev.tb.clock = s.dev.tb.clock := by
  refine State.onKeep_clock h ?_
  split
  · rfl
  · exact hf

/-- Outside the keep-alive domain only a round boundary touches the counter of device time that has started. -/
theorem exec_clock_of_dies {c : Instr} {s t : State} (hstart : s.dev.tb.started = true) (hround : ∀ env, c ≠ .roundBoundary env)
    (hkeep : keepAliveCommand c = false) (h : exec c s = .next t) : t.dev.tb.clock = s.dev.tb.clock := by
  cases c
  case roundBoundary env => exact absurd rfl (hround env)
  case xferWrite f =>
    rw [exec_xferWrite] at h
    exact State.on_clock h (s.dev.xferReq_clock f fun e q => e.xferWrite_clock q)
  case xferSegment f =>
    rw [exec_xferSegment] at h
    exact State.on_clock h (s.dev.xferReq_clock f fun e q => e.xferSegment_clock q)
  all_goals cases hkeep
  all_goals simp at h
  all_goals refine State.on_clock h ?_
  all_goals simp [hstart, Device.startTime_clock, Device.timeMsg_clock, Device.flitReceive_clock]

theorem exec_clock_of_keepAlive {c : Instr} {s t : State} (hpor : ∀ x b, c ≠ .powerOnReset x b)
    (htempo : ∀ env, c ≠ .tempoBoundary env) (htrip : ∀ n, c ≠ .thermalTrip n)
    (hkeep : keepAliveCommand c = true) (h : exec c s = .next t) : t.dev.tb.clock = s.dev.tb.clock := by
  cases c
  case powerOnReset x b => exact absurd rfl (hpor x b)
  case tempoBoundary env => exact absurd rfl (htempo env)
  case thermalTrip n => exact absurd rfl (htrip n)
  case supplyFault n overMax =>
    cases overMax
    · exact State.onKeep_clock h (congrArg TimeBase.clock (s.dev.supplyFault_tb n))
    · cases h
  all_goals cases hkeep
  all_goals simp at h
  all_goals refine State.onKeep_clock h ?_
  all_goals simp

theorem next_dev {o : Out} {d : Device} {s t : State} (ho : o = .next { s with dev := d }) (h : o = .next t) : t.dev = d := by
  cases ho.symm.trans h
  rfl

/-- Settles O17: beside the boundaries and the trip, no command touches the counter of device time. -/
theorem dtNeverBack : Obligations.DtNeverBack := by
  intro c s t hstart hpor h
  by_cases htempo : ∃ env, c = .tempoBoundary env
  · obtain ⟨env, rfl⟩ := htempo
    cases h
    rw [apply_ite Device.tb]
    split
    · obtain ⟨hstart', hdt, -⟩ := (TimeBase.clock_eq_iff _ _ _ _).mp (Device.heldTempo_clock env hstart)
      exact ⟨hstart', .inr hdt⟩
    · cases hdue : s.dev.tb.roundDue with
      | true => simp [Device.tempo_idle env (.inr hdue), hstart]
      | false =>
        obtain ⟨hstart', hdt, -⟩ := (TimeBase.clock_eq_iff _ _ _ _).mp (Device.tempo_clock env hstart hdue)
        exact ⟨hstart', .inr hdt⟩
  by_cases hround : ∃ env, c = .roundBoundary env
  · obtain ⟨env, rfl⟩ := hround
    cases h
    rw [apply_ite Device.tb]
    split
    · exact ⟨hstart, .inl rfl⟩
    · cases hdue : s.dev.tb.roundDue with
      | true =>
        obtain ⟨hstart', hdt, -⟩ := (TimeBase.clock_eq_iff _ _ _ _).mp (Device.round_clock env hdue)
        exact ⟨hstart'.trans hstart, .inl hdt⟩
      | false => simp [Device.round_idle env hdue, hstart]
  by_cases htrip : ∃ n, c = .thermalTrip n
  · obtain ⟨n, rfl⟩ := htrip
    cases h
    obtain ⟨hstart', hdt⟩ := s.dev.thermalTrip_dt n
    exact ⟨hstart'.trans hstart, .inl hdt⟩
  have hclock : t.dev.tb.clock = s.dev.tb.clock := by
    cases hkeep : keepAliveCommand c
    · exact exec_clock_of_dies hstart (fun env henv => hround ⟨env, henv⟩) hkeep h
    · exact exec_clock_of_keepAlive hpor (fun env henv => htempo ⟨env, henv⟩) (fun n hn => htrip ⟨n, hn⟩) hkeep h
  exact ⟨started_of_clock hclock hstart, .inl (dt_of_clock hclock)⟩

end Sys2Proof.Machine

/-! SUPPORT. Boundaries of field cycles, frames and checkpoints (R37, R202, R328, R361): what the steps of each leave of its count. -/

namespace Sys2Proof.Machine

open Sys2Proof

/-! ### Moves served at a boundary -/

/-- A boundary whose kind no block has serves no move. -/
theorem Device.serveMoves_of_no_block {k : Kind} (h : ∀ b : BlockId, b.kind ≠ k) (d : Device) (n : Nat) : d.serveMoves k n = d := by
  have hnone : (BlockId.all.filter fun b => b.kind == k) = [] := List.filter_eq_nil_iff.mpr fun b _ => by simp [h b]
  simp [Device.serveMoves, hnone]

theorem BlockId.kind_ne_fieldCycle (b : BlockId) (g : Nat) : b.kind ≠ .fieldCycle g := by
  cases b <;> simp [BlockId.kind]

theorem BlockId.kind_ne_checkpoint (b : BlockId) (j : Nat) : b.kind ≠ .checkpoint j := by
  cases b <;> simp [BlockId.kind]

/-- The moves of a frame are those of the two pipes, whose move is the block's alone. -/
theorem Device.serveMoves_frame_gfx (d : Device) (p n : Nat) : (d.serveMoves (.frame p) n).gfx = d.gfx := by
  have hkind : ∀ a ∈ (BlockId.all.filter fun b => b.kind == .frame p).map fun b => (b, d.moveAct b), a.1 = .pipe0 ∨ a.1 = .pipe1 := by
    intro a ha
    obtain ⟨b, hb, rfl⟩ := List.mem_map.mp ha
    have hb := (List.mem_filter.mp hb).2
    cases b <;> simp_all [BlockId.kind]
  refine List.foldlRecOn (motive := fun e : Device => e.gfx = d.gfx) _ _ rfl fun e he a ha => ?_
  split
  · rcases hkind a ha with h | h <;> simpa [Device.applyBlk, h] using he
  · exact he
  · exact he

/-! ### The cycle counts of the port groups -/

@[simp] theorem Device.served_fgw (d : Device) (p : Port) (write : Bool) (a n : Nat) : (d.served p write a n).fgw = d.fgw := by
  simp only [Device.served]
  split
  · rfl
  · split <;> rfl

@[simp] theorem Device.hubPut_fgw (d : Device) (p : Port) (secure : Bool) (a : Nat) (bs : List Byte) :
    (d.hubPut p secure a bs).fgw = d.fgw := by
  unfold Device.hubPut
  split_ifs
  · rfl
  · rw [Device.served_fgw, Device.put_eq]
  · rfl

@[simp] theorem Device.writeBuffer_fgw (d : Device) (c : MapCfg) (stale : Bool) (data : Option (List Byte)) :
    (d.writeBuffer c stale data).fgw = d.fgw := by
  unfold Device.writeBuffer
  cases data <;> simp

theorem Device.takeBack_fgw (d : Device) (j : Nat) : (d.takeBack j).fgw = d.fgw := by
  by_cases h : (d.job j).st = .running
  · obtain ⟨x, hsans, -, he⟩ := Device.takeBack_running h
    rw [he]
    exact (congrArg Device.fgw hsans :)
  · rw [Device.takeBack_idle h]

theorem Device.takeEffect_fgroups (d : Device) (ix sub : Nat) (v : List Byte) :
    (d.takeEffect ix sub v).fgw.groups = d.fgw.groups := by
  have hreserve (n : Nat) : (d.reserve sub n).fgw = d.fgw := foldl_keeps Device.fgw Device.takeBack_fgw _ _
  have hregs (a : Nat) : (d.putRegs a v).fgw = d.fgw := by
    unfold Device.putRegs
    refine foldl_keeps Device.fgw (fun d i => ?_) _ _
    rfl
  unfold Device.takeEffect
  split_ifs
  · rw [hreserve]
  · rfl
  · rfl
  · rw [hregs]
  · rw [hregs]
  · rfl
  · rfl

theorem Device.dictCycle_fgroups (d : Device) (g : Nat) : (d.dictCycle g).fgw.groups = d.fgw.groups :=
  foldl_keeps (fun d : Device => d.fgw.groups) (fun d _ => d.takeEffect_fgroups _ _ _) _ _

theorem Device.updateMaps_fgroups (d : Device) (g : Nat) : (d.updateMaps g).fgw.groups = d.fgw.groups := by
  unfold Device.updateMaps
  refine foldl_keeps (fun d : Device => d.fgw.groups) (fun d m => ?_) _ _
  split
  · split
    · split
      · exact (congrArg Gateway.groups (d.writeBuffer_fgw _ _ _) :)
      · rfl
    · rfl
  · rfl

@[simp] theorem Device.handFrame_fgw (d : Device) (p : Nat) (f : CFrame) : (d.handFrame p f).fgw = d.fgw := by
  unfold Device.handFrame
  split <;> rfl

theorem Device.sendTime_fgw (d : Device) (g : Nat) : (d.sendTime g).fgw = d.fgw := by
  unfold Device.sendTime
  refine foldl_keeps Device.fgw (fun d p => ?_) _ _
  dsimp only
  split
  · exact d.handFrame_fgw _ _
  · rfl

theorem Device.sendEmcy_fgw (d : Device) : d.sendEmcy.fgw = d.fgw := by
  unfold Device.sendEmcy
  exact foldl_keeps Device.fgw (fun d p => d.handFrame_fgw _ _) _ _

theorem Device.newestEntry_fgw (d : Device) (n len : Nat) : (d.newestEntry n len).1.fgw = d.fgw := by
  unfold Device.newestEntry
  extract_lets r k b
  split
  · rfl
  · split
    · exact (congrArg Device.fgw (d.moveRing_sansRings n _) :)
    · rfl

@[simp] theorem Device.queueGated_fgroups (d : Device) (m p : Nat) (f : CFrame) :
    (d.queueGated m p f).fgw.groups = d.fgw.groups := by
  unfold Device.queueGated
  extract_lets starts d1
  split
  · exact congrArg Gateway.groups (d1.handFrame_fgw p f)
  · rfl

@[simp] theorem Device.wearKey_fgroups (d : Device) (n : Node) : (d.wearKey n).fgw.groups = d.fgw.groups := by
  unfold Device.wearKey
  rw [Device.sendEmcy_fgw]
  rfl

theorem Device.sendMapOf_fgroups (d : Device) (m : Nat) (c : MapCfg) (node : Node) :
    (d.sendMapOf m c node).fgw.groups = d.fgw.groups := by
  unfold Device.sendMapOf
  rcases hnew : d.newestEntry c.ring c.len with ⟨d1, e, skip⟩
  have h1 : d1.fgw.groups = d.fgw.groups := by
    have hfgw := d.newestEntry_fgw c.ring c.len
    rw [hnew] at hfgw
    exact congrArg Gateway.groups hfgw
  dsimp -zeta only
  extract_lets d2 x gated held func auth ok data id payload f d3
  have h2 : d2.fgw.groups = d.fgw.groups := by
    simp only [d2]
    split <;> exact h1
  have h3 : d3.fgw.groups = d.fgw.groups := by
    simp only [d3]
    split <;> exact h2
  split
  · exact h2
  · split
    · exact h2
    · split
      · rw [Device.wearKey_fgroups, h2]
      · split
        · rw [Device.handFrame_fgw, h3]
        · split
          · rw [Device.queueGated_fgroups, h3]
          · exact (congrArg Gateway.groups (d3.handFrame_fgw _ _)).trans h3

theorem Device.sendMaps_fgroups (d : Device) (g : Nat) : (d.sendMaps g).fgw.groups = d.fgw.groups := by
  unfold Device.sendMaps
  refine foldl_keeps (fun d : Device => d.fgw.groups) (fun d m => ?_) _ _
  split
  · split
    · unfold Device.sendMap
      extract_lets node
      split
      · exact d.sendMapOf_fgroups _ _ _
      · rfl
    · rfl
  · rfl

theorem Device.triggerBy_fgw (d : Device) (p : Nat → Bool) : (d.triggerBy p).fgw = d.fgw :=
  Device.triggerBy_keeps Device.fgw (fun _ _ _ _ => rfl) d p

/-- What a field cycle does after it has counted leaves every count. -/
theorem Device.fieldCycle_counted (d : Device) (g : Nat) :
    (d.fieldCycle g).fgw.groups = (d.fgw.setGroup g { d.fgw.group g with
      cycles := ((d.fgw.group g).cycles + 1) % 2 ^ 64, lastTn := some d.tn }).groups := by
  have hsteps (e : Device) (p : Nat → Bool) : (((e.updateMaps g).triggerBy p).sendMaps g).fgw.groups = e.fgw.groups := by
    rw [Device.sendMaps_fgroups, Device.triggerBy_fgw, Device.updateMaps_fgroups]
  simp only [Device.fieldCycle, Device.serveMoves_of_no_block fun b => b.kind_ne_fieldCycle g]
  split
  · rw [Device.sendTime_fgw, hsteps]
    rfl
  · rw [hsteps]
    rfl

/-- A field cycle counts once. -/
theorem Device.fieldCycle_cycles (d : Device) (g : Nat) :
    ((d.fieldCycle g).fgw.group g).cycles = ((d.fgw.group g).cycles + 1) % 2 ^ 64 := by
  have hgroup (x : Gateway) (h : (d.fieldCycle g).fgw.groups = x.groups) : (d.fieldCycle g).fgw.group g = x.group g :=
    congrArg (fun t => tget fgroupDef t g) h
  rw [hgroup _ (d.fieldCycle_counted g), Gateway.setGroup_group]

/-! ### Frames and checkpoints -/

@[simp] theorem Device.served_gfx (d : Device) (p : Port) (write : Bool) (a n : Nat) : (d.served p write a n).gfx = d.gfx := by
  simp only [Device.served]
  split
  · rfl
  · split <;> rfl

/-- A frame counts once, and what it serves and begins leaves the count. -/
theorem Device.frameBoundary_frame {d : Device} {p : Nat} (h : d.frameDue p = true) :
    ((d.frameBoundary p).gfx.pipe p).frame = ((d.gfx.pipe p).frame + 1) % 2 ^ 64 := by
  unfold Device.frameBoundary
  rw [if_pos h]
  extract_lets n d1 d2
  have h1 : (d1.gfx.pipe p).frame = n := by
    simp [d1, Device.servedFree, Device.modPipe, Device.modGfx, Gfx.pipe, Gfx.setPipe]
  have h2 : d2.gfx = d1.gfx := d1.serveMoves_frame_gfx p n
  have htasks : (d2.beginTasks fun _ t => t.kind == 4 && t.id == p).gfx = d2.gfx :=
    foldl_keeps Device.gfx (fun d t => by split <;> rfl) _ _
  rw [htasks, h2, h1]

theorem Device.scrambles_jobs (d : Device) (lo hi : Nat → Nat) (es : List Nat) :
    (es.foldl (fun d e => d.scramble (lo e) (hi e)) d).jobs = d.jobs :=
  foldl_keeps Device.jobs (fun d e => by rw [Device.scramble_eq]) es d

theorem Device.switchVariant_ckptOwed (d : Device) (j v : Nat) : ((d.switchVariant j v).job j).ckptOwed = (d.job j).ckptOwed := by
  unfold Device.switchVariant
  extract_lets old want kept gone fresh es d1 d2 d3 held
  have h1 : d1.jobs = d.jobs := foldl_keeps Device.jobs (fun d e => d.modEng_jobs e _) _ _
  have h2 : d2.jobs = d1.jobs := Device.scrambles_jobs d1 opSlabBase (fun e => opSlabBase e + 0x40_0000) kept
  have h3 : d3.jobs = d2.jobs := foldl_keeps Device.jobs (fun d p => d.modEng_jobs _ _) _ _
  have hjob : d3.job j = d.job j := congrArg (fun t => tget jobDef t j) (h3.trans (h2.trans h1))
  rw [Device.modJob_job, hjob]

theorem Device.decideVariant_ckptOwed (d : Device) (j : Nat) : ((d.decideVariant j).job j).ckptOwed = (d.job j).ckptOwed := by
  unfold Device.decideVariant
  extract_lets x set free cur target d1
  split
  · have h1 : d1.jobs = d.jobs := foldl_keeps Device.jobs (fun d e => d.modEng_jobs e _) _ _
    have hjob : d1.job j = d.job j := congrArg (fun t => tget jobDef t j) h1
    rw [Device.modJob_job, hjob]
  · dsimp only
    split
    · exact d.switchVariant_ckptOwed j _
    · rw [Device.modJob_job]

/-- A checkpoint boundary that is due clears the checkpoint that the job owed. -/
theorem Device.checkpointBoundary_ckptOwed {d : Device} {j : Nat} (h : d.tb.started ∧ (d.job j).ckptOwed = true ∧
    (d.job j).st = .running ∧ (d.job j).ckptAt ≤ d.tn) : ((d.checkpointBoundary j).job j).ckptOwed = false := by
  unfold Device.checkpointBoundary
  extract_lets x d1 d2 d3
  rw [if_pos h]
  have h1 : (d1.job j).ckptOwed = false := congrArg Job.ckptOwed (Device.modJob_job _ j _)
  have h2 : d2 = d1 := d1.serveMoves_of_no_block (fun b => b.kind_ne_checkpoint j) _
  have h3 : d3.jobs = d2.jobs := by
    refine foldl_keeps Device.jobs (fun d t => ?_) _ _
    dsimp only
    split <;> rfl
  have hjob : d3.job j = d1.job j := congrArg (fun t => tget jobDef t j) (h3.trans (congrArg Device.jobs h2))
  rw [Device.decideVariant_ckptOwed, hjob, h1]

/-- Settles O23: each boundary counts or clears once, and no step of it moves the counter of device time. -/
theorem otherBoundaries : Obligations.OtherBoundaries := by
  refine fun s hs => ⟨fun g hdue => Runs.of_on hs (exec_fieldCycleBoundary g s) ⟨?_, dt_of_clock (s.dev.cycleBoundary_clock g)⟩,
    fun p hdue => Runs.of_on hs (exec_frameBoundary p s) ⟨?_, dt_of_clock (s.dev.frameBoundary_clock p)⟩,
    fun j hstart howed hrun hat => Runs.of_on hs (exec_checkpointBoundary j s) ⟨?_, dt_of_clock (s.dev.checkpointBoundary_clock j)⟩⟩
  · rw [Device.cycleBoundary, if_pos hdue, Device.fieldCycle_cycles, Gateway.group, Gateway.group, Device.dictCycle_fgroups]
  · exact Device.frameBoundary_frame hdue
  · exact Device.checkpointBoundary_ckptOwed ⟨hstart, howed, hrun, hat⟩

end Sys2Proof.Machine

/-! SUPPORT. Sealed moves (R39 to R46): what a seal, the end of loading, a withdrawal and a revert make of a block. -/

namespace Sys2Proof.Machine

open Sys2Proof

/-! ### What the commands leave outside the block -/

/-- A record that the MCE loads, or is refused, touches the regulation's error log and the outputs alone. -/
theorem Device.mceLoad_frame (d : Device) (a n : Nat) : ∃ noc out, (d.mceLoad a n).1 = { d with noc := noc, out := out } := by
  unfold Device.mceLoad
  split
  · exact ⟨d.noc, d.out, rfl⟩
  · exact ⟨_, _, rfl⟩

theorem Device.modelLoad_frame (d : Device) (a : Nat) : ∃ noc out, (d.modelLoad a).1 = { d with noc := noc, out := out } := by
  unfold Device.modelLoad
  split
  · exact ⟨d.noc, d.out, rfl⟩
  · have hload := d.mceLoad_frame a 64
    split
    · next e h => rwa [h] at hload
    · next e bs _ h =>
      rw [h] at hload
      obtain ⟨noc, out, rfl⟩ : ∃ noc out, e = { d with noc := noc, out := out } := hload
      exact Device.mceLoad_frame _ _ _

theorem Device.planLoad_frame (d : Device) (a n : Nat) : ∃ noc out, (d.planLoad a n).1 = { d with noc := noc, out := out } := by
  unfold Device.planLoad
  split
  · exact ⟨d.noc, d.out, rfl⟩
  · exact d.mceLoad_frame _ _

/-- Where R46 allows it, a seal changes the block's move and what the block loads with it. -/
theorem Device.sealBlk_allowed {d : Device} {b : BlockId} {g : Nat} (h : d.sealAllowed b g = true) :
    ∃ fgw mce noc out, d.sealBlk b g = { d.setBlk b ((d.blk b).seal g) with fgw := fgw, mce := mce, noc := noc, out := out }
      ∧ (b ≠ .mceModel → b ≠ .mceCore → mce = d.mce ∧ noc = d.noc ∧ out = d.out) := by
  simp only [Device.sealBlk, if_pos h]
  have hmodel (a : Nat) := (d.setBlk b ((d.blk b).seal g)).modelLoad_frame a
  have hplan (a n : Nat) := (d.setBlk b ((d.blk b).seal g)).planLoad_frame a n
  split
  · exact ⟨_, d.mce, d.noc, d.out, rfl, fun _ _ => ⟨rfl, rfl, rfl⟩⟩
  · obtain ⟨noc, out, hload⟩ := hmodel _
    rw [hload]
    exact ⟨d.fgw, _, noc, out, rfl, fun hne => absurd rfl hne⟩
  · obtain ⟨noc, out, hload⟩ := hplan _ _
    rw [hload]
    exact ⟨d.fgw, _, noc, out, rfl, fun _ hne => absurd rfl hne⟩
  · exact ⟨d.fgw, d.mce, d.noc, d.out, rfl, fun _ _ => ⟨rfl, rfl, rfl⟩⟩

theorem Device.setRail_frame (d : Device) (die step : Nat) : ∃ pwr out, d.setRail die step = { d with pwr := pwr, out := out } := by
  simp only [Device.setRail]
  split
  · exact ⟨d.pwr, d.out, rfl⟩
  · exact ⟨_, _, rfl⟩

theorem Device.raiseRails_frame (d : Device) : ∃ pwr out, d.raiseRails = { d with pwr := pwr, out := out } := by
  unfold Device.raiseRails
  refine List.foldlRecOn (motive := fun e : Device => ∃ pwr out, e = { d with pwr := pwr, out := out }) _ _
    ⟨d.pwr, d.out, rfl⟩ fun e he die _ => ?_
  obtain ⟨pwr, out, rfl⟩ := he
  dsimp only
  split
  · exact Device.setRail_frame _ _ _
  · exact ⟨pwr, out, rfl⟩

/-- The end of loading of a block without region checkers is the block's; the rails rise with the clocks' block. -/
theorem Device.moveLoaded_frame {d : Device} {b : BlockId} (h : b.rgnSet = none) :
    ∃ pwr out, d.moveLoaded b = { d.setBlk b ((d.blk b).loaded (d.moveValid b)) with pwr := pwr, out := out }
      ∧ (b ≠ .cru → pwr = d.pwr ∧ out = d.out) := by
  simp only [Device.moveLoaded, h]
  split
  · next hcru =>
    obtain ⟨pwr, out, he⟩ := (d.setBlk b ((d.blk b).loaded (d.moveValid b))).raiseRails_frame
    refine ⟨pwr, out, he, fun hne => ?_⟩
    simp [hne] at hcru
  · exact ⟨d.pwr, d.out, rfl, fun _ => ⟨rfl, rfl⟩⟩

/-- A revert changes the block's move, and the gateway's open rules with its own. -/
theorem Device.revertBlk_frame (d : Device) (b : BlockId) :
    ∃ fgw, d.revertBlk b = { d.setBlk b (d.blk b).revert with fgw := fgw } := by
  simp only [Device.revertBlk]
  split
  · exact ⟨_, rfl⟩
  · exact ⟨d.fgw, rfl⟩

/-- Where no value of the dictionary waits for the block, the firmware seals nothing. -/
theorem Device.fwPump_of_none_waiting {d : Device} {b : BlockId} (h : d.waitingFor b = []) : d.fwPump b = d := by
  simp [Device.fwPump, h]

/-! ### What the end of loading makes of the move -/

theorem MoveBlk.loaded_of_loading {m : MoveBlk} (valid : Bool) (h : m.st = .loading) :
    (m.loaded valid).eff = m.eff ∧ (m.loaded valid).opn = m.opn
      ∧ if valid then (m.loaded valid).st = .ready else (m.loaded valid).st = .idle ∧ (m.loaded valid).refused = true := by
  cases valid <;> simp [MoveBlk.loaded, h]

/-- Settles O18, from the frame of each command and what it makes of the block's move. -/
theorem sealedMoves : Obligations.SealedMoves := by
  refine fun s b hs => ⟨fun g hallowed => Runs.of_on hs (exec_seal b g s) ?_, fun hwait =>
    ⟨fun hset hloading => Runs.of_on hs (exec_moveLoaded b s) ?_, Runs.of_on hs (exec_withdraw b s) ?_,
      Runs.of_on hs (exec_revert b s) ?_⟩⟩
  · obtain ⟨fgw, mce, noc, out, he, hrest⟩ := Device.sealBlk_allowed hallowed
    have hblk : (s.dev.sealBlk b g).blk b = (s.dev.blk b).seal g := by
      rw [he]
      exact Device.setBlk_blk s.dev b _
    rw [hblk]
    refine ⟨rfl, rfl, rfl, rfl, rfl, rfl, fun hpending => by simp [MoveBlk.seal, hpending], by rw [he]; rfl, fun hm hc => ?_⟩
    obtain ⟨rfl, rfl, rfl⟩ := hrest hm hc
    rw [he]
    rfl
  · obtain ⟨pwr, out, he, hrest⟩ := Device.moveLoaded_frame (d := s.dev) hset
    have hpump : (s.dev.moveLoaded b).fwPump b = s.dev.moveLoaded b :=
      Device.fwPump_of_none_waiting (by rw [he]; exact hwait)
    have hblk : (s.dev.moveLoaded b).blk b = (s.dev.blk b).loaded (s.dev.moveValid b) := by
      rw [he]
      exact Device.setBlk_blk s.dev b _
    obtain ⟨heff, hopn, hst⟩ := MoveBlk.loaded_of_loading (s.dev.moveValid b) hloading
    rw [hpump, hblk]
    refine ⟨by rw [he], fun hcru => ?_, heff, hopn, hst⟩
    obtain ⟨rfl, rfl⟩ := hrest hcru
    exact he
  · exact Device.fwPump_of_none_waiting hwait
  · obtain ⟨fgw, he⟩ := s.dev.revertBlk_frame b
    have hpump : (s.dev.revertBlk b).fwPump b = s.dev.revertBlk b :=
      Device.fwPump_of_none_waiting (by rw [he]; exact hwait)
    have hblk : (s.dev.revertBlk b).blk b = (s.dev.blk b).revert := by
      rw [he]
      exact Device.setBlk_blk s.dev b _
    rw [hpump, hblk]
    exact ⟨rfl, rfl, rfl, by rw [he]; rfl⟩

end Sys2Proof.Machine

/-! SUPPORT. Ports of the field, the switch and the rules (R346, R359, R360, R378, R381, R382). -/

namespace Sys2Proof.Machine

open Sys2Proof

/-! ### Changes of one port -/

@[simp] theorem Device.modFport_port (d : Device) (p : Nat) (f : FPort → FPort) :
    (d.modFport p f).fgw.port p = f (d.fgw.port p) := Gateway.setPort_port _ _ _

/-- A bus that is left alone: the active CAN port is in the alone state. -/
theorem Device.busAlone_of_active {d : Device} {p : Nat} (hp : p < 16) (hst : (d.fgw.port p).st = .active) :
    d.busAlone p = d.modFport p fun x => { x with st := .alone, busAlone := true, queue := [], probeTn := d.tn, errPassive := true,
                                                  tec := if x.tec < 128 then 128 + x.tec % 8 else x.tec } :=
  if_pos ⟨hp, hst⟩

theorem Device.probe_of_due {d : Device} {p : Nat} (acked : Bool) (hst : (d.fgw.port p).st = .alone)
    (hdue : (d.fgw.port p).probeTn + 100000 ≤ d.tn) :
    d.probe p acked = ((d.note (.frame p (d.ownFrame p fnProbe 0xFFF 0 0x21 []))).count (fportBase p + 0x18) 1).modFport p
      fun x => { x with probeTn := d.tn, st := if acked then .active else .alone } :=
  if_pos ⟨hst, hdue⟩

theorem Device.probe_of_not_due {d : Device} {p : Nat} (acked : Bool)
    (h : (d.fgw.port p).st ≠ .alone ∨ d.tn < (d.fgw.port p).probeTn + 100000) : d.probe p acked = d :=
  if_neg fun ⟨hst, hdue⟩ => h.elim (fun hne => hne hst) fun hlt => absurd hdue (Nat.not_le.mpr hlt)

theorem Device.busOff_of_on {d : Device} {p : Nat} (hp : p < 16) (hst : (d.fgw.port p).st ≠ .off) :
    d.busOff p = { d with fresh := d.fresh + 1 }.modFport p
      fun x => { x with st := .busOff, tec := (Config.freeWord d.fresh).toNat % 256 } :=
  if_pos ⟨hp, by simpa using hst⟩

theorem isT1s_of_mem {p : Nat} (hlo : 16 ≤ p) (hhi : p ≤ 23) : isT1s p = true := by
  simp [isT1s, hlo, hhi]

theorem Device.setPlca_of_follower {d : Device} {p : Nat} (up : Bool) (ht1s : isT1s p = true) (hid : (d.fgw.port p).plcaId ≠ 0) :
    d.setPlca p up = d.modFport p fun x => { x with plca := up } :=
  if_pos (by simp [ht1s, hid])

theorem Device.setPlca_of_coordinator {d : Device} {p : Nat} (up : Bool) (hid : (d.fgw.port p).plcaId = 0) : d.setPlca p up = d :=
  if_neg (by simp [hid])

theorem Device.gateCycle_of_due {d : Device} {p now : Nat} {l : GateList} (hl : (d.fgw.port p).gatesPending = some l)
    (hbase : l.base ≤ now) (hok : l.ok = true) :
    d.gateCycle p now = d.modFport p fun x => { x with gates := some l, gatesPending := none } := by
  simp [Device.gateCycle, hl, hbase, hok]

theorem Device.gateCycle_of_not_due {d : Device} {p now : Nat} {l : GateList} (hl : (d.fgw.port p).gatesPending = some l)
    (h : now < l.base ∨ l.ok = false) : d.gateCycle p now = d := by
  have hno : ¬(l.base ≤ now ∧ l.ok = true) := by
    rintro ⟨hbase, hok⟩
    rcases h with h | h
    · omega
    · simp [hok] at h
  simp [Device.gateCycle, hl, hno]

theorem Device.gateCycle_of_none {d : Device} {p : Nat} (now : Nat) (h : (d.fgw.port p).gatesPending = none) :
    d.gateCycle p now = d := by
  simp [Device.gateCycle, h]

/-! ### The switch -/

/-- The stamps of a frame's ways out: one per port, in the order of the ports, and nothing but the outputs and the free values
moves. -/
theorem Device.egress_stamps (d : Device) (ps : List Nat) : ∃ ts fresh, ts.length = ps.length ∧
    ps.foldl (fun d p => d.stampEvent (.egress p)) d =
      { d with out := ((ps.zip ts).map fun x => .stamp (.egress x.1) x.2).reverse ++ d.out, fresh := fresh } := by
  induction ps generalizing d with
  | nil => exact ⟨[], d.fresh, rfl, rfl⟩
  | cons p ps ih =>
    obtain ⟨ts, fresh, hlen, he⟩ := ih (d.stampEvent (.egress p))
    refine ⟨d.stamp.1 :: ts, fresh, by simp [hlen], ?_⟩
    have hout : (d.stampEvent (.egress p)).out = .stamp (.egress p) d.stamp.1 :: d.out := rfl
    rw [List.foldl_cons, he, hout]
    simp only [List.zip_cons_cons, List.map_cons, List.reverse_cons, List.append_assoc, List.singleton_append]
    rfl

theorem Gateway.learn_eq (g : Gateway) (f : EtherFrame) : g.learn f = { g with macs := (g.learn f).macs } := by
  simp only [Gateway.learn]
  split <;> rfl

/-- The frame as it came in: stamped, its sender's address learned. -/
def Device.bridged (d : Device) (f : EtherFrame) : Device := (d.stampEvent (.ingress f.port)).modFgw fun g => g.learn f

/-- Where a frame's destination is known to be. -/
def Device.bridgeKnown (d : Device) (f : EtherFrame) : Option (Nat × Nat × Nat) :=
  if bitOf f.dst 40 then none else (d.fgw.learn f).macs.find? fun m => m.1 == f.dst && m.2.1 == f.vlan

/-- The ports that a frame goes out on. -/
def Device.bridgeOut (d : Device) (f : EtherFrame) : List Nat :=
  (match d.bridgeKnown f with
    | some m => if m.2.2 = f.port then [] else [m.2.2]
    | none => switchPorts.filter fun p => p != f.port).filter fun p => !d.portShut p

theorem mem_switchPorts {p : Nat} : p ∈ switchPorts ↔ 24 ≤ p ∧ p < 36 := by
  simp only [switchPorts, List.mem_map, List.mem_range]
  exact ⟨fun ⟨a, ha, he⟩ => by omega, fun h => ⟨p - 24, by omega, by omega⟩⟩

theorem Device.bridge_of_stopped {d : Device} {f : EtherFrame} (h : 2000 < f.bytes.length ∨ d.portShut f.port = true) :
    d.bridge f = d := by
  unfold Device.bridge
  rw [if_pos]
  rcases h with h | h <;> simp [h]

theorem Device.bridge_of_passed {d : Device} {f : EtherFrame} (hlo : 24 ≤ f.port) (hhi : f.port < 36)
    (hlen : f.bytes.length ≤ 2000) (hshut : d.portShut f.port = false) :
    d.bridge f = if (d.bridgeOut f).isEmpty then d.bridged f
      else ((d.bridgeOut f).foldl (fun d p => d.stampEvent (.egress p)) (d.bridged f)).note (.ether (d.bridgeOut f) f.bytes) := by
  have hport : f.port ∈ switchPorts := mem_switchPorts.mpr ⟨hlo, hhi⟩
  unfold Device.bridge
  rw [if_neg (by simp [hport, hshut, hlen])]
  rfl

/-- A bridged frame touches the addresses, the outputs and the free values alone. -/
theorem Device.bridge_frame {d : Device} {f : EtherFrame} (hlo : 24 ≤ f.port) (hhi : f.port < 36)
    (hlen : f.bytes.length ≤ 2000) (hshut : d.portShut f.port = false) :
    d.bridge f = { d with fgw := { d.fgw with macs := (d.fgw.learn f).macs }, out := (d.bridge f).out, fresh := (d.bridge f).fresh } := by
  rw [Device.bridge_of_passed hlo hhi hlen hshut, ← Gateway.learn_eq]
  split
  · rfl
  · obtain ⟨ts, fresh, -, he⟩ := (d.bridged f).egress_stamps (d.bridgeOut f)
    rw [he]
    rfl

/-- A frame that goes out on some port leaves its stamps and itself. -/
theorem Device.bridge_sent {d : Device} {f : EtherFrame} {ps : List Nat} (hlo : 24 ≤ f.port) (hhi : f.port < 36)
    (hlen : f.bytes.length ≤ 2000) (hshut : d.portShut f.port = false) (hout : d.bridgeOut f = ps) (hne : ps ≠ []) :
    ∃ ts : List Nat, ts.length = ps.length ∧
      (d.bridge f).out = .ether ps f.bytes :: (((ps.zip ts).map fun x => .stamp (.egress x.1) x.2).reverse
        ++ .stamp (.ingress f.port) d.stamp.1 :: d.out) := by
  obtain ⟨ts, fresh, htl, he⟩ := (d.bridged f).egress_stamps ps
  refine ⟨ts, htl, ?_⟩
  rw [Device.bridge_of_passed hlo hhi hlen hshut, hout, if_neg (by simpa using hne), he]
  rfl

theorem Device.bridge_dropped {d : Device} {f : EtherFrame} (hlo : 24 ≤ f.port) (hhi : f.port < 36)
    (hlen : f.bytes.length ≤ 2000) (hshut : d.portShut f.port = false) (hout : d.bridgeOut f = []) :
    (d.bridge f).out = .stamp (.ingress f.port) d.stamp.1 :: d.out := by
  rw [Device.bridge_of_passed hlo hhi hlen hshut, hout]
  rfl

theorem Device.bridgeOut_of_flood {d : Device} {f : EtherFrame} (h : d.bridgeKnown f = none) :
    d.bridgeOut f = switchPorts.filter fun p => p != f.port && !d.portShut p := by
  simp only [Device.bridgeOut, h, List.filter_filter]
  exact List.filter_congr fun p _ => Bool.and_comm _ _

theorem Device.bridgeOut_of_known {d : Device} {f : EtherFrame} {m : Nat × Nat × Nat} (h : d.bridgeKnown f = some m)
    (hport : m.2.2 ≠ f.port) (hshut : d.portShut m.2.2 = false) : d.bridgeOut f = [m.2.2] := by
  simp [Device.bridgeOut, h, hport, hshut]

theorem Device.bridgeOut_of_home {d : Device} {f : EtherFrame} {m : Nat × Nat × Nat} (h : d.bridgeKnown f = some m)
    (hport : m.2.2 = f.port) : d.bridgeOut f = [] := by
  simp [Device.bridgeOut, h, hport]

/-- A flooded frame finds a port: no castling shuts the last ones. -/
theorem Device.flood_nonempty (d : Device) (n : Nat) : (switchPorts.filter fun p => p != n && !d.portShut p) ≠ [] := by
  have hmem (p : Nat) (hp : 32 ≤ p) (hp' : p < 36) (hne : p ≠ n) : p ∈ switchPorts.filter fun p => p != n && !d.portShut p := by
    refine List.mem_filter.mpr ⟨mem_switchPorts.mpr ⟨by omega, hp'⟩, ?_⟩
    simp [Device.portShut, hne, Nat.not_lt.mpr hp]
  by_cases h : n = 32
  · exact List.ne_nil_of_mem (hmem 33 (by omega) (by omega) (by omega))
  · exact List.ne_nil_of_mem (hmem 32 (by omega) (by omega) (by omega))

/-! ### The rules -/

theorem Device.ruleCreate_made {d : Device} {b : List Byte} {r : Rule} (hlen : b.length = 16) (hroom : d.fgw.rulesOpen.length < 8192)
    (hr : Rule.ofBytes b d.fgw.nextHandle d.fgw.nextOrder = some r) :
    d.ruleCreate b = (d.modFgw fun g => { g with rulesOpen := g.rulesOpen ++ [r], nextHandle := (g.nextHandle + 1) % 2 ^ 16,
                                                 nextOrder := g.nextOrder + 1 }, 0) := by
  simp [Device.ruleCreate, hlen, Nat.not_le.mpr hroom, hr]

theorem Device.ruleCreate_full {d : Device} {b : List Byte} (hlen : b.length = 16) (hfull : 8192 ≤ d.fgw.rulesOpen.length) :
    d.ruleCreate b = (d.exhausted 0x0A, abResource) := by
  simp [Device.ruleCreate, hlen, hfull]

theorem Device.ruleCreate_malformed {d : Device} {b : List Byte} (hlen : b.length = 16)
    (hroom : d.fgw.rulesOpen.length < 8192) (hr : Rule.ofBytes b d.fgw.nextHandle d.fgw.nextOrder = none) :
    d.ruleCreate b = (d, abRange) := by
  simp [Device.ruleCreate, hlen, Nat.not_le.mpr hroom, hr]

/-- Settles O52, command by command. -/
theorem fieldPorts' : Obligations.FieldPorts := by
  refine fun s hs => ⟨fun p => ⟨fun hp hst => ?_, fun acked hst hdue => ?_, fun acked hno => ?_, fun hp hst => ?_, fun hst => ?_,
    fun hlo hhi => ⟨?_, fun hid => ⟨?_, ?_⟩, fun hid => ⟨?_, ?_⟩⟩, fun l now hl => ⟨fun hbase hok => ?_, fun hno => ?_⟩,
    fun now hnone => ?_⟩, fun f => ⟨fun hstop => ?_, fun hlo hhi hlen hshut => ?_⟩, fun b => ⟨fun r hlen hroom hr => ?_,
      fun hlen => ?_, fun hlen hfull => ?_, fun hlen hroom hr => ?_⟩, fun h => ⟨fun hany => ?_, fun hany => ?_⟩⟩
  · refine Runs.of_on hs (exec_busAlone p s) ?_
    rw [Device.busAlone_of_active hp hst, Device.modFport_port]
    exact ⟨rfl, rfl, rfl, rfl, rfl, rfl⟩
  · refine Runs.of_on hs (exec_probe p acked s) ?_
    rw [Device.probe_of_due acked hst hdue, Device.modFport_port]
    exact ⟨rfl, ⟨_, rfl, rfl, rfl⟩, rfl⟩
  · exact Runs.of_on hs (exec_probe p acked s) (Device.probe_of_not_due acked hno)
  · refine Runs.of_on hs (exec_busOff p s) ?_
    rw [Device.busOff_of_on hp hst, Device.modFport_port]
    exact ⟨rfl, rfl⟩
  · exact Runs.of_on hs (exec_busOffRecovery p s) (if_pos hst)
  · exact Runs.of_on hs (exec_t1sAlone p s) (if_pos (isT1s_of_mem hlo hhi))
  · exact Runs.of_on hs (exec_plcaFallback p s) (Device.setPlca_of_follower false (isT1s_of_mem hlo hhi) hid)
  · exact Runs.of_on hs (exec_beacon p s) (Device.setPlca_of_follower true (isT1s_of_mem hlo hhi) hid)
  · exact Runs.of_on hs (exec_plcaFallback p s) (Device.setPlca_of_coordinator false hid)
  · exact Runs.of_on hs (exec_beacon p s) (Device.setPlca_of_coordinator true hid)
  · exact Runs.of_on hs (exec_gateCycleStart p now s) (Device.gateCycle_of_due hl hbase hok)
  · exact Runs.of_on hs (exec_gateCycleStart p now s) (Device.gateCycle_of_not_due hl hno)
  · exact Runs.of_on hs (exec_gateCycleStart p now s) (Device.gateCycle_of_none now hnone)
  · exact Runs.of_on hs (exec_ethernetFrame f s) (Device.bridge_of_stopped hstop)
  · have hknown (hdst : bitOf f.dst 40 = false) :
        s.dev.bridgeKnown f = (s.dev.fgw.learn f).macs.find? fun m => m.1 == f.dst && m.2.1 == f.vlan := if_neg (by simp [hdst])
    refine Runs.of_on hs (exec_ethernetFrame f s) ⟨fun hflood => ?_, fun m hdst hm hport hopen => ?_, fun m hdst hm hport => ?_,
      Device.bridge_frame hlo hhi hlen hshut⟩
    · have hnone : s.dev.bridgeKnown f = none := by
        rcases hflood with h | h
        · exact if_pos h
        · simp only [Device.bridgeKnown, h, ite_self]
      exact Device.bridge_sent hlo hhi hlen hshut (Device.bridgeOut_of_flood hnone) (s.dev.flood_nonempty f.port)
    · exact Device.bridge_sent hlo hhi hlen hshut (Device.bridgeOut_of_known ((hknown hdst).trans hm) hport hopen)
        (List.cons_ne_nil _ _)
    · exact Device.bridge_dropped hlo hhi hlen hshut (Device.bridgeOut_of_home ((hknown hdst).trans hm) hport)
  · refine Runs.of_on hs (exec_ruleCreate b s) ?_
    rw [Device.ruleCreate_made hlen hroom hr]
    exact ⟨rfl, rfl⟩
  · exact Runs.of_on hs (exec_ruleCreate b s) (congrArg answer (if_pos (by simpa using hlen)))
  · refine Runs.of_on hs (exec_ruleCreate b s) ?_
    rw [Device.ruleCreate_full hlen hfull]
    exact ⟨rfl, rfl, rfl⟩
  · refine Runs.of_on hs (exec_ruleCreate b s) ?_
    rw [Device.ruleCreate_malformed hlen hroom hr]
    rfl
  · exact Runs.of_on hs (exec_ruleDelete h s) (congrArg answer (if_pos hany))
  · exact Runs.of_on hs (exec_ruleDelete h s) (congrArg answer (if_neg (by simp [hany])))

end Sys2Proof.Machine

/-! SUPPORT. Received frames and the rules (R56, R361, R363, R378, R379, R381). -/

namespace Sys2Proof.Machine

open Sys2Proof

/-! ### A frame that enters an open port -/

/-- The device after the frame is stamped and counted at its port, which is active again if it was alone (R56, R382). -/
def Device.enteredBy (d : Device) (f : CFrame) : Device :=
  let rx := (d.stampEvent (.ingress f.port)).count (fportBase f.port + 0x10) 1
  if (d.fgw.port f.port).st = .alone then rx.modFport f.port fun x => { x with st := .active } else rx

theorem Device.enteredBy_frame (d : Device) (f : CFrame) :
    ∃ ports noc out, d.enteredBy f = { d with fgw := { d.fgw with ports := ports }, noc := noc, out := out, fresh := d.fresh + 1 } := by
  unfold Device.enteredBy
  split
  · exact ⟨_, _, _, rfl⟩
  · exact ⟨_, _, _, rfl⟩

theorem Device.enteredBy_rules (d : Device) (f : CFrame) : (d.enteredBy f).fgw.rules = d.fgw.rules := by
  obtain ⟨ports, noc, out, h⟩ := d.enteredBy_frame f
  rw [h]

theorem Device.enteredBy_node (d : Device) (f : CFrame) (n : Nat) : (d.enteredBy f).fgw.node n = d.fgw.node n := by
  obtain ⟨ports, noc, out, h⟩ := d.enteredBy_frame f
  rw [h]
  rfl

theorem Device.enteredBy_nodeOf (d : Device) (f g : CFrame) : (d.enteredBy f).nodeOf g = d.nodeOf g := by
  obtain ⟨ports, noc, out, h⟩ := d.enteredBy_frame f
  rw [h]
  rfl

theorem Device.enteredBy_frameFits (d : Device) (f g : CFrame) : (d.enteredBy f).frameFits g = d.frameFits g := by
  obtain ⟨ports, noc, out, h⟩ := d.enteredBy_frame f
  rw [h]
  rfl

theorem Device.enteredBy_portShut (d : Device) (f : CFrame) (p : Nat) : (d.enteredBy f).portShut p = d.portShut p := by
  obtain ⟨ports, noc, out, h⟩ := d.enteredBy_frame f
  rw [h]
  rfl

theorem Device.enteredBy_forwardVersion (d : Device) (f g : CFrame) (p : Nat) :
    (d.enteredBy f).forwardVersion g p = d.forwardVersion g p := by
  obtain ⟨ports, noc, out, h⟩ := d.enteredBy_frame f
  rw [h]
  rfl

theorem Device.enteredBy_canMode (d : Device) (f : CFrame) (p : Nat) :
    ((d.enteredBy f).fgw.port p).canMode = (d.fgw.port p).canMode := by
  unfold Device.enteredBy
  split
  · show ((d.fgw.setPort _ _).port p).canMode = _
    rw [Gateway.setPort_port_if]
    split
    · next h => rw [h]; rfl
    · rfl
  · rfl

/-- A port that is active stays so: only the frame's own port changes, and it becomes active. -/
theorem Device.enteredBy_port_active {d : Device} (f : CFrame) {p : Nat} (hp : (d.fgw.port p).st = .active) :
    ((d.enteredBy f).fgw.port p).st = .active := by
  unfold Device.enteredBy
  split
  · show ((d.fgw.setPort _ _).port p).st = _
    rw [Gateway.setPort_port_if]
    split
    · rfl
    · exact hp
  · exact hp

/-! ### The token of a node (R379) -/

theorem Device.takeToken_of_unlimited {d : Device} {f : CFrame} {n : Nat} (hn : d.nodeOf f = some n)
    (h : (d.fgw.node n).rate = 0 ∨ f.func = fnHeartbeat) : d.takeToken f = (d, true) := by
  simp [Device.takeToken, hn, h.symm]

theorem Device.takeToken_of_token {d : Device} {f : CFrame} {n : Nat} (hn : d.nodeOf f = some n) (hrate : (d.fgw.node n).rate ≠ 0)
    (hfunc : f.func ≠ fnHeartbeat) (htok : 0 < (d.fgw.node n).tokens) :
    d.takeToken f = (d.modNode n fun x => { x with tokens := x.tokens - 1 }, true) := by
  simp [Device.takeToken, hn, hrate, hfunc, htok]

theorem Device.takeToken_of_empty {d : Device} {f : CFrame} {n : Nat} (hn : d.nodeOf f = some n) (hrate : (d.fgw.node n).rate ≠ 0)
    (hfunc : f.func ≠ fnHeartbeat) (htok : (d.fgw.node n).tokens = 0) :
    d.takeToken f = ((d.modNode n fun x => { x with rateDrops := (x.rateDrops + 1) % 2 ^ 32 }).count fgwRateDrops 1, false) := by
  simp [Device.takeToken, hn, hrate, hfunc, htok]

/-! ### The way of a frame through the rules (R378, R381) -/

/-- What the first rule does with a frame that has its token. -/
def Device.obeyRule (d : Device) (f : CFrame) (r : Rule) : Device × Bool :=
  match r.act with
  | .forward => (d.forwardFrame f r.arg, false)
  | .ring =>
    ((d.hubPublish Port.fgw true (r.arg % 512)
      (leBytes 4 (celetId f.func f.dst f.src) ++ leBytes 2 f.payload.length ++ zeros 2 ++ f.payload)).getD d.ruleDrop, false)
  | _ => (d, true)

/-- The port takes frames: it is neither OFF nor BUS_OFF nor being castled. -/
def Device.portOpen (d : Device) (p : Nat) : Prop :=
  (d.fgw.port p).st ≠ .off ∧ (d.fgw.port p).st ≠ .busOff ∧ d.portShut p = false

theorem Device.ingress_of_closed {d : Device} {f : CFrame}
    (h : (d.fgw.port f.port).st = .off ∨ (d.fgw.port f.port).st = .busOff ∨ d.portShut f.port = true) :
    d.ingress f = (d, false) := if_pos h

theorem Device.ingress_of_open {d : Device} {f : CFrame} (hopen : d.portOpen f.port) :
    d.ingress f = if !d.frameFits f then ((d.enteredBy f).ruleDrop, false) else
      match firstRule d.fgw.rules f with
      | none => ((d.enteredBy f).ruleDrop, false)
      | some r => if r.act = .drop then ((d.enteredBy f).ruleDrop, false) else
        if !((d.enteredBy f).takeToken f).2 then (((d.enteredBy f).takeToken f).1, false)
        else ((d.enteredBy f).takeToken f).1.obeyRule f r := by
  obtain ⟨hoff, hbus, hshut⟩ := hopen
  rw [← d.enteredBy_frameFits f, ← d.enteredBy_rules f]
  exact if_neg (by simp [hoff, hbus, hshut])

theorem Device.ingress_of_misfit {d : Device} {f : CFrame} (hopen : d.portOpen f.port) (h : d.frameFits f = false) :
    d.ingress f = ((d.enteredBy f).ruleDrop, false) := by
  rw [d.ingress_of_open hopen]
  simp [h]

theorem Device.ingress_of_no_rule {d : Device} {f : CFrame} (hopen : d.portOpen f.port) (hfits : d.frameFits f = true)
    (h : firstRule d.fgw.rules f = none) : d.ingress f = ((d.enteredBy f).ruleDrop, false) := by
  rw [d.ingress_of_open hopen]
  simp [hfits, h]

theorem Device.ingress_of_drop {d : Device} {f : CFrame} {r : Rule} (hopen : d.portOpen f.port) (hfits : d.frameFits f = true)
    (hr : firstRule d.fgw.rules f = some r) (h : r.act = .drop) : d.ingress f = ((d.enteredBy f).ruleDrop, false) := by
  rw [d.ingress_of_open hopen]
  simp [hfits, hr, h]

theorem Device.ingress_of_limited {d e : Device} {f : CFrame} {r : Rule} (hopen : d.portOpen f.port) (hfits : d.frameFits f = true)
    (hr : firstRule d.fgw.rules f = some r) (hact : r.act ≠ .drop) (htok : (d.enteredBy f).takeToken f = (e, false)) :
    d.ingress f = (e, false) := by
  rw [d.ingress_of_open hopen]
  simp [hfits, hr, hact, htok]

theorem Device.ingress_of_token {d e : Device} {f : CFrame} {r : Rule} (hopen : d.portOpen f.port) (hfits : d.frameFits f = true)
    (hr : firstRule d.fgw.rules f = some r) (hact : r.act ≠ .drop) (htok : (d.enteredBy f).takeToken f = (e, true)) :
    d.ingress f = e.obeyRule f r := by
  rw [d.ingress_of_open hopen]
  simp [hfits, hr, hact, htok]

/-! ### A forwarded frame (R381) -/

theorem Device.forwardFrame_of_long {d : Device} {f : CFrame} {p : Nat}
    (h : (portMedium p (d.fgw.port p).canMode).limit < f.payload.length) : d.forwardFrame f p = d.ruleDrop := if_pos h

theorem Device.forwardFrame_of_open {d : Device} {f : CFrame} {p : Nat}
    (hlen : f.payload.length ≤ (portMedium p (d.fgw.port p).canMode).limit) (hst : (d.fgw.port p).st = .active)
    (hshut : d.portShut p = false) :
    d.forwardFrame f p = (d.note (.frame p { f with port := p, medium := portMedium p (d.fgw.port p).canMode
                                                    version := d.forwardVersion f p })).count (fportBase p + 0x18) 1 := by
  rw [Device.forwardFrame, if_neg (Nat.not_lt.mpr hlen), Device.handFrame, if_pos (by simp [FPort.sends, hst, hshut])]

/-! ### The commands of the field -/

/-- Every command of a received frame but JOIN_REQ lets the frame through the rules under its function code, and does nothing more
with a frame that the rules do not deliver. -/
theorem fieldRows_received {s : State} {f0 : CFrame} {row : Nat × Instr} (hrow : row ∈ fieldRows f0) :
    ∃ core, exec row.2 s = s.on fun d => d.received f0 row.1 core := by
  simp only [fieldRows, List.mem_cons, List.not_mem_nil, or_false] at hrow
  rcases hrow with rfl | rfl | rfl | rfl | rfl | rfl | rfl | rfl | rfl | rfl | rfl
  all_goals exact ⟨_, rfl⟩

theorem Runs.of_not_delivered {s : State} {f0 : CFrame} {row : Nat × Instr} {e : Device} {Q : Device → Prop} (hs : s.live)
    (hrow : row ∈ fieldRows f0) (h : s.dev.ingress { f0 with func := row.1 } = (e, false)) (hQ : Q e) : Runs row.2 s Q := by
  obtain ⟨core, hexec⟩ := fieldRows_received (s := s) hrow
  have heq : s.dev.received f0 row.1 core = e := by simp [Device.received, h]
  exact Runs.of_on hs hexec (heq.symm ▸ hQ)

/-- A frame whose node has no token left: one drop more in the node's record and in the die's counter. -/
theorem Device.limited_frame (d : Device) (f : CFrame) (n : Nat) :
    let e := ((d.enteredBy f).modNode n fun x => { x with rateDrops := (x.rateDrops + 1) % 2 ^ 32 }).count fgwRateDrops 1
    (e.fgw.node n).rateDrops = ((d.fgw.node n).rateDrops + 1) % 2 ^ 32 ∧ (∀ k, k ≠ n → e.fgw.node k = d.fgw.node k)
      ∧ e = { d with fgw := e.fgw, noc := e.noc, out := e.out, fresh := e.fresh }
      ∧ e.fgw = { d.fgw with nodes := e.fgw.nodes, ports := e.fgw.ports } := by
  intro e
  obtain ⟨ports, noc, out, h⟩ := d.enteredBy_frame f
  have hnode : ∀ k, e.fgw.node k
      = if k = n then { (d.enteredBy f).fgw.node n with rateDrops := (((d.enteredBy f).fgw.node n).rateDrops + 1) % 2 ^ 32 }
        else (d.enteredBy f).fgw.node k := fun k => Gateway.setNode_node_if _ _ _ _
  simp only [Device.enteredBy_node] at hnode
  refine ⟨by rw [hnode, if_pos rfl], fun k hk => by rw [hnode, if_neg hk], ?_, ?_⟩
  · simp only [e, h]; rfl
  · simp only [e, h]; rfl

/-- Settles O49, by the way of a frame through the rules. -/
theorem fieldIngress : Obligations.FieldIngress := by
  intro s f0 hs row hrow f c p rx e
  refine ⟨fun h => Runs.of_not_delivered hs hrow (Device.ingress_of_closed h) rfl, fun hoff hbus hshut => ?_⟩
  have hopen : s.dev.portOpen f.port := ⟨hoff, hbus, hshut⟩
  refine ⟨fun h => Runs.of_not_delivered hs hrow (Device.ingress_of_misfit hopen h) rfl, fun hfits => ?_⟩
  refine ⟨fun h => Runs.of_not_delivered hs hrow (Device.ingress_of_no_rule hopen hfits h) rfl, fun r hr => ?_⟩
  refine ⟨fun h => Runs.of_not_delivered hs hrow (Device.ingress_of_drop hopen hfits hr h) rfl, fun n hn => ?_⟩
  intro x
  have hnode : (s.dev.enteredBy f).nodeOf f = some n := (s.dev.enteredBy_nodeOf f f).trans hn
  have hrec : (s.dev.enteredBy f).fgw.node n = x := s.dev.enteredBy_node f n
  have free (h : x.rate = 0 ∨ f.func = fnHeartbeat) (hact : r.act ≠ .drop) : s.dev.ingress f = (s.dev.enteredBy f).obeyRule f r :=
    Device.ingress_of_token hopen hfits hr hact (Device.takeToken_of_unlimited hnode (by rwa [hrec]))
  refine ⟨fun h hact => ?_, fun hrate hfunc hact => ⟨fun htok hdel => ?_, fun htok => ?_⟩,
    fun hrate hact => ⟨fun hlen => ?_, fun hlen hst hsh => ?_⟩,
    fun hrate hact => ?_⟩
  · rw [free h (by simp [hact]), Device.obeyRule, hact]
    rfl
  · rw [Device.ingress_of_token hopen hfits hr hact
      (Device.takeToken_of_token hnode (by rwa [hrec]) hfunc (by rwa [hrec])), Device.obeyRule, hdel]
    rfl
  · exact Runs.of_not_delivered hs hrow (Device.ingress_of_limited hopen hfits hr hact
      (Device.takeToken_of_empty hnode (by rwa [hrec]) hfunc (by rwa [hrec]))) (s.dev.limited_frame f n)
  · have h := free (.inl hrate) (by simp [hact])
    rw [Device.obeyRule, hact] at h
    exact Runs.of_not_delivered hs hrow h (Device.forwardFrame_of_long (by rwa [Device.enteredBy_canMode]))
  · have h := free (.inl hrate) (by simp [hact])
    rw [Device.obeyRule, hact] at h
    refine Runs.of_not_delivered hs hrow h ?_
    dsimp only
    rw [Device.forwardFrame_of_open (by rwa [Device.enteredBy_canMode]) (Device.enteredBy_port_active f hst)
      ((s.dev.enteredBy_portShut f r.arg).trans hsh), Device.enteredBy_canMode, Device.enteredBy_forwardVersion]
    refine ⟨rfl, ?_⟩
    obtain ⟨ports, noc, out, hframe⟩ := s.dev.enteredBy_frame f
    have he : e = s.dev.enteredBy f := rfl
    rw [he, hframe]
    rfl
  · have h := free (.inl hrate) (by simp [hact])
    rw [Device.obeyRule, hact] at h
    exact Runs.of_not_delivered hs hrow h rfl

end Sys2Proof.Machine

/-! SUPPORT. Release, teardown and triggers (R196, R206 to R214, R347). -/

namespace Sys2Proof.Machine

open Sys2Proof

/-! ### An engine is given back (R196) -/

/-- An engine that nobody holds. -/
def Eng.freed (g : Eng) : Eng :=
  { g with bound := none, leaving := false, noSave := false, killing := false, wcb := [], stq := [] }

/-- A job that an engine has left. -/
def Job.without (e : Nat) (x : Job) : Job := { x with held := x.held.filter fun n => n != e }

/-- The engine and its job without each other. -/
def Device.unbind (d : Device) (e j : Nat) : Device := (d.modEng e Eng.freed).modJob j (Job.without e)

/-- The engine, its slab and its job after the release. -/
def Device.givenBack (d : Device) (e j : Nat) : Device := (d.clearSlab e).unbind e j

/-- Rows of the engine are to be saved: the job is suspended and has some, and no variant switch dropped the engine (R196, R203). -/
def Device.saves (d : Device) (e j : Nat) : Prop :=
  (d.job j).release = .suspend ∧ (d.engine e).noSave = false ∧ 0 < (d.job j).rc.saveRows

section

variable {d : Device} {e j l : Nat} (hbound : (d.engine e).bound = some (j, l)) (hleave : (d.engine e).leaving = true)
  (hdone : (d.engine e).issued = [])

include hbound hleave hdone

theorem Device.engineReleased_unsaved (bad : Option Nat) (h : ¬d.saves e j) : d.engineReleased e bad = d.givenBack e j := by
  have hno : ((d.job j).release == .suspend && !(d.engine e).noSave && decide (0 < (d.job j).rc.saveRows)) = false := by
    simpa [Device.saves, and_assoc] using h
  simp only [Device.engineReleased, hbound, hleave, hdone, hno]
  rfl

theorem Device.engineReleased_saved (h : d.saves e j) : d.engineReleased e none = (d.saveRows j e l).givenBack e j := by
  obtain ⟨hsus, hsave, hrows⟩ := h
  simp only [Device.engineReleased, hbound, hleave, hdone, hsus, hsave, hrows, decide_true]
  rfl

theorem Device.engineReleased_failed (a : Nat) (h : d.saves e j) : d.engineReleased e (some a)
    = (((d.jobFault j 0x82 l).logRefusal (Port.engine e) a false (d.job j).rc.world).memError a .uncorrectable).givenBack e j := by
  obtain ⟨hsus, hsave, hrows⟩ := h
  simp only [Device.engineReleased, hbound, hleave, hdone, hsus, hsave, hrows, decide_true]
  rfl

end

theorem Device.unbind_frame (d : Device) (e j : Nat) :
    d.unbind e j = { d with eng := (d.modEng e Eng.freed).eng, jobs := (d.modJob j (Job.without e)).jobs } := rfl

theorem Device.unbind_byte (d : Device) (e j a : Nat) : (d.unbind e j).byte a = d.byte a := rfl

theorem Device.unbind_engine (d : Device) (e j k : Nat) :
    (d.unbind e j).engine k = if k = e then (d.engine e).freed else d.engine k := d.modEng_engine_if e k _

theorem Device.unbind_job (d : Device) (e j k : Nat) :
    (d.unbind e j).job k = if k = j then (d.job j).without e else d.job k := (d.modEng e Eng.freed).modJob_job_if j k _

theorem Device.clearSlab_frame (d : Device) (e : Nat) : ∃ m sc, d.clearSlab e = { d with mem := m, scrambles := sc } := by
  rw [Device.clearSlab, Device.zero_frame]
  exact ⟨_, _, rfl⟩

theorem Device.clearSlab_byte (d : Device) (e a : Nat) :
    (d.clearSlab e).byte a = if opSlabBase e ≤ a ∧ a < opSlabBase e + 0x40_0000 then 0 else d.byte a :=
  d.byte_zero (Nat.lt_add_of_pos_right (Nat.zero_lt_succ _)) a

theorem Device.givenBack_byte (d : Device) (e j a : Nat) :
    (d.givenBack e j).byte a = if opSlabBase e ≤ a ∧ a < opSlabBase e + 0x40_0000 then 0 else d.byte a := by
  rw [Device.givenBack, Device.unbind_byte, Device.clearSlab_byte]

theorem Device.givenBack_engine (d : Device) (e j k : Nat) :
    (d.givenBack e j).engine k = if k = e then (d.engine e).freed else d.engine k := by
  obtain ⟨m, sc, h⟩ := d.clearSlab_frame e
  rw [Device.givenBack, Device.unbind_engine, h]
  rfl

theorem Device.givenBack_job (d : Device) (e j k : Nat) :
    (d.givenBack e j).job k = if k = j then (d.job j).without e else d.job k := by
  obtain ⟨m, sc, h⟩ := d.clearSlab_frame e
  rw [Device.givenBack, Device.unbind_job, h]
  rfl

theorem Device.givenBack_frame (d : Device) (e j : Nat) :
    ∃ m sc g jobs, d.givenBack e j = { d with mem := m, scrambles := sc, eng := g, jobs := jobs } := by
  obtain ⟨m, sc, h⟩ := d.clearSlab_frame e
  rw [Device.givenBack, Device.unbind_frame, h]
  exact ⟨_, _, _, _, rfl⟩

/-- What a release without a fault leaves, on a device that differs from the one before in memory alone. -/
theorem Device.givenBack_leaves {d x : Device} (e j : Nat) (h : x = { d with mem := x.mem }) :
    let r := x.givenBack e j
    (r.engine e).bound = none ∧ (r.engine e).leaving = false ∧ (r.job j).held = (d.job j).held.filter (fun k => k != e)
      ∧ (∀ a, opSlabBase e ≤ a → a < opSlabBase e + 0x40_0000 → r.byte a = 0)
      ∧ (∀ k, k ≠ e → r.engine k = d.engine k) ∧ (∀ k, k ≠ j → r.job k = d.job k)
      ∧ r = { d with mem := r.mem, scrambles := r.scrambles, eng := r.eng, jobs := r.jobs } := by
  intro r
  have hjob (k : Nat) : x.job k = d.job k := by rw [h]; rfl
  have heng (k : Nat) : x.engine k = d.engine k := by rw [h]; rfl
  refine ⟨?_, ?_, ?_, fun a hlo hhi => ?_, fun k hk => ?_, fun k hk => ?_, ?_⟩
  · rw [x.givenBack_engine, if_pos rfl]; rfl
  · rw [x.givenBack_engine, if_pos rfl]; rfl
  · rw [x.givenBack_job, if_pos rfl, hjob]; rfl
  · rw [x.givenBack_byte, if_pos ⟨hlo, hhi⟩]
  · rw [x.givenBack_engine, if_neg hk, heng]
  · rw [x.givenBack_job, if_neg hk, hjob]
  · obtain ⟨m, sc, g, jobs, hr⟩ := x.givenBack_frame e j
    rw [show r = _ from hr, h]

/-! ### The saved rows (R196) -/

theorem Device.bytes_length (d : Device) (a n : Nat) : (d.bytes a n).length = n := by simp [Device.bytes]

theorem Device.bytes_getD (d : Device) (a : Nat) {n k : Nat} (h : k < n) : (d.bytes a n).getD k 0 = d.byte (a + k) := by
  simp [Device.bytes, h]

/-- A save that the region checker allows copies the first rows of the slab to the job's save area. -/
theorem Device.saveRows_allowed {d : Device} {j e l : Nat} (h : d.saveRefused j e l true = none) :
    d.saveRows j e l = d.put ((d.job j).saveRange l).1 (d.bytes (opSlabBase e) ((d.job j).saveRange l).2) := by
  rw [Device.saveRows, h]
  rfl

/-! ### A fault of the job (R211, R212) -/

/-- A job that a fault reaches: it exists, is neither down nor being deleted. -/
def Job.mayFault (x : Job) : Prop := x.st ≠ .free ∧ x.st ≠ .teardown ∧ x.st ≠ .failed ∧ x.release ≠ .delete

theorem Device.jobFault_of_mayFault {d : Device} {j : Nat} (code logical : Nat) (h : (d.job j).mayFault) :
    ∃ x : Device, d.jobFault j code logical = x.modJob j fun y =>
      { y with st := .teardown, nextSt := none, release := .teardown, faultCode := code, faultLogical := logical, faultReason := 0
               dormant := false, faults := x.tn :: (y.faults.filter fun t => decide (x.tn < t + 1000)), idleSince := none } := by
  obtain ⟨hfree, hdown, hfailed, hdel⟩ := h
  refine ⟨_, if_neg ?_⟩
  simp [hfree, hdown, hfailed, hdel]

theorem Device.jobFault_faulted {d : Device} {j : Nat} (code logical : Nat) (h : (d.job j).mayFault) :
    JobFaulted (d.jobFault j code logical) j code logical := by
  obtain ⟨x, hx⟩ := Device.jobFault_of_mayFault code logical h
  rw [hx, JobFaulted, Device.modJob_job]
  exact ⟨rfl, rfl, rfl⟩

theorem JobFaulted.of_job {d e : Device} {j code logical : Nat} (h : JobFaulted d j code logical)
    (hjob : (e.job j).calm = (d.job j).calm) :
    JobFaulted e j code logical := by
  obtain ⟨hst, hcode, hlogical⟩ := h
  exact ⟨(congrArg Job.st hjob :).trans hst, (congrArg Job.faultCode hjob :).trans hcode,
    (congrArg Job.faultLogical hjob :).trans hlogical⟩

/-- A fault of another job leaves a job but for its counters. -/
theorem Device.jobFault_other (d : Device) {j k : Nat} (code logical : Nat) (hk : k ≠ j) :
    ((d.jobFault j code logical).job k).calm = (d.job k).calm := by
  unfold Device.jobFault
  dsimp only
  split
  · rfl
  · rw [Device.modJob_job_if, if_neg hk]
    have hleave (x : Device) : (x.leaveAll (d.job j).held).job k = x.job k :=
      (congrArg (fun y : Device => y.job k) (x.leaveAll_sansKills (d.job j).held) :)
    rw [hleave]
    refine (foldl_keeps (fun x : Device => (x.job k).calm) (fun x n => x.moveRing_calm n _ k) _ _).trans ?_
    refine foldl_keeps (fun x : Device => (x.job k).calm) (fun x n => ?_) _ _
    exact (congrArg (fun y : Device => (y.job k).calm) ((Device.fenceEngine_sansKills _ n).trans (x.killEngine_sansKills n true)) :)

/-- A later fault, of this job or another, leaves the first one's code. -/
theorem JobFaulted.jobFault {d : Device} {j code logical : Nat} (h : JobFaulted d j code logical) (k code' logical' : Nat) :
    JobFaulted (d.jobFault k code' logical') j code logical := by
  by_cases hk : j = k
  · subst hk
    rwa [show d.jobFault j code' logical' = d from if_pos (.inr (.inl h.1))]
  · exact h.of_job (d.jobFault_other code' logical' hk)

theorem Device.engineOut_jobs (d : Device) (e : Nat) : (d.engineOut e).jobs = d.jobs := by
  unfold Device.engineOut
  split <;> rfl

theorem Device.retireRange_jobs (d : Device) (die a : Nat) : (d.retireRange die a).jobs = d.jobs := by
  unfold Device.retireRange
  dsimp only
  split <;> rfl

theorem Device.scheduleRow_jobs (d : Device) (r : RowId) (bad : Bool) : (d.scheduleRow r bad).jobs = d.jobs := by
  unfold Device.scheduleRow
  split
  · rfl
  · split
    · rfl
    · split
      · exact d.engineOut_jobs _
      · exact d.retireRange_jobs _ _

theorem Device.stackError_jobs (d : Device) (h a : Nat) (o : EccOutcome) : (d.stackError h a o).jobs = d.jobs := by
  cases o <;> rfl

theorem Device.job_of_jobs {d e : Device} (h : e.jobs = d.jobs) (k : Nat) : e.job k = d.job k := by
  simp only [Device.job, h]

/-- An uncorrectable error of the slab faults at most the row's owner. -/
theorem JobFaulted.slabError {d : Device} {j code logical : Nat} (h : JobFaulted d j code logical) (a : Nat) :
    JobFaulted (d.slabError a true) j code logical := by
  unfold Device.slabError
  split
  · exact h
  · next r _ =>
    rw [if_pos rfl]
    dsimp only
    have hrow : JobFaulted ((d.modStk fun s => { s with slabUncorr := (s.slabUncorr + 1) % 2 ^ 64, anyUncorr := true }).scheduleRow r true)
        j code logical := h.of_job (congrArg Job.calm (Device.job_of_jobs (Device.scheduleRow_jobs _ r true) j))
    split
    · exact hrow.jobFault _ _ _
    · exact hrow

theorem JobFaulted.memError {d : Device} {j code logical : Nat} (h : JobFaulted d j code logical) (a : Nat) :
    JobFaulted (d.memError a .uncorrectable) j code logical := by
  unfold Device.memError
  split
  · exact h
  · exact h.of_job (congrArg Job.calm (Device.job_of_jobs (Device.stackError_jobs _ _ _ _) j))
  · next heq _ => cases heq
  · exact h.slabError a

/-! ### Trigger inputs (R208, R209) -/

/-- The counter of trigger input `t`. -/
def Job.trigAt (x : Job) (t : Nat) : Nat := x.trig.getD t 0

theorem Job.trigger_trig {x : Job} (h : x.st ≠ .free) (t : Nat) : (x.trigger t 0 1).trig = x.trig.set t (min 255 (x.trigAt t + 1)) := by
  rw [Job.trigger, if_neg h]
  rfl

/-- One event at an input of a job whose setting satisfies `p`. -/
def Job.triggerIf (p : Nat → Bool) (x : Job) (t : Nat) : Job := if p (x.rc.trigCfg.getD t 0) then x.trigger t 0 1 else x

/-- One event at each of the inputs `l` whose setting satisfies `p`. -/
def Job.triggered (p : Nat → Bool) (l : List Nat) (x : Job) : Job := l.foldl (Job.triggerIf p) x

theorem Job.triggerIf_calm (p : Nat → Bool) (x : Job) (t : Nat) : (x.triggerIf p t).calm = x.calm := by
  unfold Job.triggerIf
  split
  · exact x.trigger_calm t 0 1
  · rfl

theorem Job.triggerIf_st (p : Nat → Bool) (x : Job) (t : Nat) : (x.triggerIf p t).st = x.st :=
  (congrArg Job.st (x.triggerIf_calm p t) :)

theorem Job.triggerIf_trig {x : Job} (p : Nat → Bool) (h : x.st ≠ .free) (t : Nat) :
    (x.triggerIf p t).trig = if p (x.rc.trigCfg.getD t 0) then x.trig.set t (min 255 (x.trigAt t + 1)) else x.trig := by
  unfold Job.triggerIf
  split
  · exact Job.trigger_trig h t
  · rfl

theorem Job.triggerIf_length {x : Job} (p : Nat → Bool) (h : x.st ≠ .free) (t : Nat) :
    (x.triggerIf p t).trig.length = x.trig.length := by
  rw [Job.triggerIf_trig p h]
  split
  · exact List.length_set
  · rfl

theorem Job.triggerIf_trigAt_same {x : Job} (p : Nat → Bool) (h : x.st ≠ .free) {t : Nat} (ht : t < x.trig.length) :
    (x.triggerIf p t).trigAt t = if p (x.rc.trigCfg.getD t 0) then min 255 (x.trigAt t + 1) else x.trigAt t := by
  rw [Job.trigAt, Job.triggerIf_trig p h]
  split
  · simp [List.getD_eq_getElem?_getD, ht]
  · rfl

theorem Job.triggerIf_trigAt_other {x : Job} (p : Nat → Bool) (h : x.st ≠ .free) {t u : Nat} (hne : u ≠ t) :
    (x.triggerIf p u).trigAt t = x.trigAt t := by
  rw [Job.trigAt, Job.triggerIf_trig p h]
  split
  · rw [List.getD_eq_getElem?_getD, List.getElem?_set_ne hne, Job.trigAt, List.getD_eq_getElem?_getD]
  · rfl

theorem Job.triggered_trigAt_of_notMem (p : Nat → Bool) {x : Job} (h : x.st ≠ .free) {l : List Nat} {t : Nat} (hl : t ∉ l) :
    (x.triggered p l).trigAt t = x.trigAt t := by
  induction l generalizing x with
  | nil => rfl
  | cons u l ih =>
    rw [List.mem_cons, not_or] at hl
    exact (ih (Job.triggerIf_st p x u ▸ h) hl.2).trans (Job.triggerIf_trigAt_other p h (Ne.symm hl.1))

/-- An input of the list that is its own counter takes one event exactly where its setting satisfies `p`. -/
theorem Job.triggered_trigAt (p : Nat → Bool) {x : Job} (h : x.st ≠ .free) {l : List Nat} (hl : l.Nodup) {t : Nat} (hmem : t ∈ l)
    (ht : t < x.trig.length) :
    (x.triggered p l).trigAt t = if p (x.rc.trigCfg.getD t 0) then min 255 (x.trigAt t + 1) else x.trigAt t := by
  induction l generalizing x with
  | nil => cases hmem
  | cons u l ih =>
    have hst : (x.triggerIf p u).st ≠ .free := Job.triggerIf_st p x u ▸ h
    have hrc : (x.triggerIf p u).rc = x.rc := (congrArg Job.rc (x.triggerIf_calm p u) :)
    obtain ⟨hu, hl⟩ := List.nodup_cons.mp hl
    by_cases hut : u = t
    · subst hut
      exact (Job.triggered_trigAt_of_notMem p hst hu).trans (Job.triggerIf_trigAt_same p h ht)
    · have hin : t ∈ l := (List.mem_cons.mp hmem).resolve_left (Ne.symm hut)
      have hnext := ih hst hl hin (by rwa [Job.triggerIf_length p h])
      rwa [hrc, Job.triggerIf_trigAt_other p h hut] at hnext

/-- One event at each input of job `j` that satisfies `p`. -/
def Device.triggerEach (p : Nat → Bool) (d : Device) (j : Nat) : Device :=
  (List.range 4).foldl (fun d t => if p ((d.job j).rc.trigCfg.getD t 0) then d.modJob j fun x => x.trigger t 0 1 else d) d

theorem Device.triggerEach_job_same (p : Nat → Bool) (d : Device) (j : Nat) :
    (d.triggerEach p j).job j = (d.job j).triggered p (List.range 4) := by
  refine (List.foldl_hom (fun d : Device => d.job j) (fun d t => ?_)).symm
  unfold Job.triggerIf
  split
  · exact (d.modJob_job j fun x => x.trigger t 0 1).symm
  · rfl

theorem Device.triggerEach_job_other (p : Nat → Bool) (d : Device) {j k : Nat} (h : j ≠ k) : (d.triggerEach p k).job j = d.job j := by
  refine foldl_keeps (fun d : Device => d.job j) (fun d t => ?_) _ d
  split
  · rw [Device.modJob_job_if, if_neg h]
  · rfl

theorem Device.triggerAll_job (p : Nat → Bool) (d : Device) {l : List Nat} (hl : l.Nodup) (j : Nat) :
    (l.foldl (Device.triggerEach p) d).job j = if j ∈ l then (d.job j).triggered p (List.range 4) else d.job j := by
  induction l generalizing d with
  | nil => rfl
  | cons k l ih =>
    obtain ⟨hk, hl⟩ := List.nodup_cons.mp hl
    rw [List.foldl_cons, ih _ hl]
    by_cases hjk : j = k
    · subst hjk
      rw [if_neg hk, if_pos List.mem_cons_self, Device.triggerEach_job_same]
    · rw [Device.triggerEach_job_other p d hjk]
      simp [hjk]

theorem tget_notMem {α : Type} (f : Nat → α) {t : Tab α} {k : Nat} (h : k ∉ t.map Prod.fst) : tget f t k = f k := by
  induction t with
  | nil => rfl
  | cons x t ih =>
    rw [List.map_cons, List.mem_cons, not_or] at h
    rw [tget, if_neg (Ne.symm h.1), ih h.2]

/-- A job that exists has a number. -/
theorem Device.mem_jobNums {d : Device} {j : Nat} (h : (d.job j).st ≠ .free) : j ∈ d.jobNums := by
  have hkey : j ∈ d.jobs.map Prod.fst := by
    by_contra hno
    exact h (congrArg Job.st (tget_notMem jobDef hno))
  simpa [Device.jobNums, h] using hkey

theorem Device.triggerBy_job (p : Nat → Bool) {d : Device} {j : Nat} (h : (d.job j).st ≠ .free) :
    (d.triggerBy p).job j = (d.job j).triggered p (List.range 4) :=
  (Device.triggerAll_job p d (List.nodup_dedup _) j).trans (if_pos (Device.mem_jobNums h))

theorem Device.triggerBy_frame (d : Device) (p : Nat → Bool) : d.triggerBy p = { d with jobs := (d.triggerBy p).jobs } :=
  (congrArg (fun x : Device => { x with jobs := (d.triggerBy p).jobs })
    (Device.triggerBy_keeps (fun x : Device => { x with jobs := [] }) (fun _ _ _ _ => rfl) d p) :)

/-! ### Frames of a camera (R208, R347) -/

theorem Device.frameDone_of_moving {d : Device} {rx : Nat} (vc : Nat) (h : (d.proc.watEntry (0x20 + rx)).moving = true) :
    d.frameDone rx vc = d := if_pos h

theorem Device.frameDone_of_still {d : Device} {rx : Nat} (vc : Nat) (h : (d.proc.watEntry (0x20 + rx)).moving = false) :
    d.frameDone rx vc = (d.stampEvent (.camera rx vc)).triggerBy fun w => w % 8 == 2 && bits w 9 8 == rx && bits w 13 10 == vc :=
  if_neg (by simp [h])

/-! ### Teardown and idleness (R206, R213, R214) -/

/-- The job is down, its engines are all released, and no state awaits it (R213). -/
def Job.tornDown (x : Job) : Prop := x.st = .teardown ∧ x.release = .teardown ∧ x.held = [] ∧ x.nextSt = none

/-- The job of a completed teardown goes to FAILED (R214). -/
def Job.failing (reason : Nat) (x : Job) : Job := { x with nextSt := some .failed, faultReason := reason, release := .none }

theorem Device.teardownComplete_eq {d : Device} {j : Nat} (h : (d.job j).tornDown) :
    d.teardownComplete j = if !(d.job j).autoRestart || (d.job j).faultCode = 0x83 then d.modJob j (Job.failing 1)
      else if (d.job j).parks ((d.job j).faults.headD d.tn) then d.modJob j (Job.failing 2) else d.restart j := if_pos h

theorem Device.idleRelease_eq {d : Device} {j t : Nat} (hidle : (d.job j).idleSince = some t) (hnow : d.idleNow j = true)
    (hhalt : d.jobHalted j = false) (ht : t + 100 ≤ d.tn) :
    d.idleRelease j = (d.takeBack j).modJob j fun x => { x with dormant := true } := by
  simp [Device.idleRelease, hidle, hnow, hhalt, ht]

theorem Device.running_of_idleNow {d : Device} {j : Nat} (h : d.idleNow j = true) : (d.job j).st = .running := by
  simp only [Device.idleNow, Bool.and_eq_true, beq_iff_eq] at h
  exact h.1.1.1

/-- The save area lies below every slab. -/
theorem Device.saved_bytes {d : Device} {e j l n area : Nat} (hn : n = (d.job j).rc.saveRows * 512)
    (harea : area = (d.job j).rc.saveArea + l * n) (hlow : area + n ≤ opSlabBase 0) (hok : d.saveRefused j e l true = none) :
    let r := (d.saveRows j e l).givenBack e j
    (∀ k, k < n → r.byte (area + k) = d.byte (opSlabBase e + k))
      ∧ ∀ a, a < opSlabBase e ∨ opSlabBase e + 0x40_0000 ≤ a → a < area ∨ area + n ≤ a → r.byte a = d.byte a := by
  intro r
  have hbase : opSlabBase 0 ≤ opSlabBase e := Nat.add_le_add_left (Nat.mul_le_mul_right _ (Nat.zero_le e)) _
  have hbyte (a : Nat) (ha : a < opSlabBase e ∨ opSlabBase e + 0x40_0000 ≤ a) :
      r.byte a = if area ≤ a ∧ a < area + n then (d.bytes (opSlabBase e) n).getD (a - area) 0 else d.byte a := by
    have hput : d.saveRows j e l = d.put area (d.bytes (opSlabBase e) n) := by
      rw [Device.saveRows_allowed hok, harea, hn]
      rfl
    rw [show r.byte a = _ from Device.givenBack_byte _ e j a, if_neg (by omega), hput, Device.byte_put, Device.bytes_length]
  refine ⟨fun k hk => ?_, fun a hslab ha => ?_⟩
  · rw [hbyte _ (.inl (by omega)), if_pos ⟨Nat.le_add_right _ _, by omega⟩, Nat.add_sub_cancel_left, Device.bytes_getD d _ hk]
  · rw [hbyte a hslab, if_neg (by omega)]

theorem Device.saveRows_frame {d : Device} {j e l : Nat} (hok : d.saveRefused j e l true = none) :
    d.saveRows j e l = { d with mem := (d.saveRows j e l).mem } := by
  rw [Device.saveRows_allowed hok]
  exact d.put_eq _ _

/-- Settles O33, clause by clause. -/
theorem releaseTriggers : Obligations.ReleaseTriggers := by
  intro s hs
  refine ⟨fun e bad j l hbound hleave hdone => ?_, fun j hst hrel hheld hnext => ?_, fun j t hidle hnow hhalt ht => ?_,
    fun rx vc hmove => ?_, fun rx vc hstill => ?_, fun j mask => Runs.of_on hs (exec_trigClr j mask s) rfl⟩
  · intro n area gone
    refine ⟨fun hno => Runs.of_on hs (exec_engineReleased e bad s) ?_, fun hsus hsave hrows => ⟨fun hlow hok => ?_, fun a hback => ?_⟩⟩
    · have hsaves : ¬s.dev.saves e j := by
        rintro ⟨hsus, hsave, hrows⟩
        rcases hno with h | h | h
        · exact h hsus
        · exact absurd (hsave.symm.trans h) (by decide)
        · exact absurd h (Nat.ne_of_gt hrows)
      rw [Device.engineReleased_unsaved hbound hleave hdone bad hsaves]
      exact ⟨Device.givenBack_leaves e j rfl, fun a ha => by rw [Device.givenBack_byte, if_neg (by omega)]⟩
    · refine Runs.of_on hs (exec_engineReleased e none s) ?_
      rw [Device.engineReleased_saved hbound hleave hdone ⟨hsus, hsave, hrows⟩]
      exact ⟨Device.givenBack_leaves e j (Device.saveRows_frame hok), Device.saved_bytes rfl rfl hlow hok⟩
    · refine Runs.of_on hs (exec_engineReleased e (some a) s) ?_
      rw [Device.engineReleased_failed hbound hleave hdone a ⟨hsus, hsave, hrows⟩]
      have hmay : (s.dev.job j).mayFault := by simp [Job.mayFault, hback, hsus]
      have hlogged : JobFaulted ((s.dev.jobFault j 0x82 l).logRefusal (Port.engine e) a false (s.dev.job j).rc.world) j 0x82 l :=
        (Device.jobFault_faulted 0x82 l hmay).of_job rfl
      have hfault : JobFaulted (((s.dev.jobFault j 0x82 l).logRefusal (Port.engine e) a false (s.dev.job j).rc.world).memError a
          .uncorrectable) j 0x82 l := hlogged.memError a
      generalize ((s.dev.jobFault j 0x82 l).logRefusal (Port.engine e) a false (s.dev.job j).rc.world).memError a .uncorrectable = x at *
      refine ⟨?_, ?_, fun a hlo hhi => by rw [Device.givenBack_byte, if_pos ⟨hlo, hhi⟩]⟩
      · rw [JobFaulted, Device.givenBack_job, if_pos rfl]
        exact hfault
      · rw [Device.givenBack_engine, if_pos rfl]
        rfl
  · have heq := Device.teardownComplete_eq (d := s.dev) (j := j) ⟨hst, hrel, hheld, hnext⟩
    refine ⟨fun hwhy => Runs.of_on hs (exec_teardownComplete j s) ?_,
      fun hauto hfab hparks => Runs.of_on hs (exec_teardownComplete j s) ?_,
      fun hauto hfab hparks hopen => Runs.of_on hs (exec_teardownComplete j s) ?_⟩
    · rw [heq, if_pos (by simpa using hwhy)]
      rfl
    · rw [heq, if_neg (by simp [hauto, hfab]), if_pos hparks]
      rfl
    · rw [heq, if_neg (by simp [hauto, hfab]), if_neg (by rw [hparks]; exact Bool.false_ne_true)]
      obtain ⟨⟨y, hcalm, hjob⟩, hheads, -⟩ := Device.restart_leaves hopen
      rw [hjob]
      have hrestarts : y.restarts = (s.dev.job j).restarts := (congrArg Job.restarts hcalm :)
      refine ⟨rfl, rfl, ?_, hheads⟩
      rw [← hrestarts]
      rfl
  · refine Runs.of_on hs (exec_idleRelease j s) ?_
    rw [Device.idleRelease_eq hidle hnow hhalt ht]
    obtain ⟨⟨t', hjob⟩, hleave, hother, -⟩ := Device.takeBack_leaves (Device.running_of_idleNow hnow)
    rw [Device.modJob_job, hjob]
    exact ⟨rfl, rfl, rfl, hleave, fun k hk => by rw [Device.modJob_job_if, if_neg hk, hother k hk]⟩
  · exact Runs.of_on hs (exec_cameraFrameDone rx vc s) (Device.frameDone_of_moving vc hmove)
  · refine Runs.of_on hs (exec_cameraFrameDone rx vc s) ?_
    rw [Device.frameDone_of_still vc hstill]
    refine ⟨Device.triggerBy_frame _ _, fun j t ht hst hlen => ?_⟩
    intro w
    rw [Device.triggerBy_job (d := s.dev.stampEvent (.camera rx vc)) _ hst]
    refine (Job.triggered_trigAt _ hst List.nodup_range (List.mem_range.mpr ht) hlen).trans ?_
    simp only [Bool.and_eq_true, beq_iff_eq, and_assoc]
    rfl

end Sys2Proof.Machine

/-! SUPPORT. Links of the fabric (R36, R242 to R251, R255, R256, R263, R272, R275). -/

namespace Sys2Proof.Machine

open Sys2Proof

/-! ### What sending on a port leaves of it (R244 to R248) -/

/-- A port without what sending changes: its queues, its retry buffer, its credits and its sending key. -/
def LPort.receiver (x : LPort) : LPort :=
  { x with txSeq := 0, kept := [], queue := [], rest := [], ready := [], credits := [], due := [], ackDue := false, txKey := none
           txNext := none, txPhase := false, txBlocks := 0 }

theorem LPort.nextFlit_receiver (x : LPort) (now : Nat) : (x.nextFlit now).1.receiver = x.receiver := by
  unfold LPort.nextFlit
  dsimp only
  split <;> rfl

theorem LPort.nextFlits_receiver (now n : Nat) (x : LPort) (fs : List (FlitHead × List Byte)) :
    (LPort.nextFlits now n x fs).1.receiver = x.receiver := by
  induction n generalizing x fs with
  | zero => rfl
  | succ n ih => exact (ih _ _).trans (x.nextFlit_receiver now)

theorem LPort.switchKey_receiver (x : LPort) : x.switchKey.receiver = x.receiver := by
  unfold LPort.switchKey
  split
  · split <;> rfl
  · rfl

theorem LPort.compose_receiver (x : LPort) (now : Nat) : (x.compose now).receiver = x.receiver := by
  unfold LPort.compose
  dsimp only
  split
  · have h := LPort.nextFlits_receiver now 1 x.switchKey []
    generalize LPort.nextFlits now 1 x.switchKey [] = r at *
    exact h.trans x.switchKey_receiver
  · have h := LPort.nextFlits_receiver now 8 x.switchKey []
    generalize LPort.nextFlits now 8 x.switchKey [] = r at *
    exact h.trans x.switchKey_receiver

theorem LPort.emit_sends {x : LPort} {r : LPort × Flit} (h : x.emit = some r) : r.1.receiver = x.receiver ∧ r.1.keyed = x.keyed := by
  unfold LPort.emit at h
  split at h
  · cases h
  · split at h
    · cases h
    · obtain rfl := Option.some.inj h
      exact ⟨rfl, rfl⟩

theorem LPort.nextFlit_keyed (x : LPort) (now : Nat) : (x.nextFlit now).1.keyed = x.keyed := by
  unfold LPort.nextFlit
  dsimp only
  split <;> rfl

theorem LPort.nextFlits_keyed (now n : Nat) (x : LPort) (fs : List (FlitHead × List Byte)) :
    (LPort.nextFlits now n x fs).1.keyed = x.keyed := by
  induction n generalizing x fs with
  | zero => rfl
  | succ n ih => exact (ih _ _).trans (x.nextFlit_keyed now)

theorem LPort.switchKey_keyed (x : LPort) : x.switchKey.keyed = x.keyed := by
  unfold LPort.switchKey
  split
  · next k hk => split <;> simp [LPort.keyed, hk]
  · rfl

theorem LPort.compose_keyed (x : LPort) (now : Nat) : (x.compose now).keyed = x.keyed := by
  unfold LPort.compose
  dsimp only
  split
  · have h := LPort.nextFlits_keyed now 1 x.switchKey []
    generalize LPort.nextFlits now 1 x.switchKey [] = r at *
    exact h.trans x.switchKey_keyed
  · have h := LPort.nextFlits_keyed now 8 x.switchKey []
    generalize LPort.nextFlits now 8 x.switchKey [] = r at *
    exact h.trans x.switchKey_keyed

/-- What leaving flits and made flits keep, sending keeps. -/
theorem LPort.pump_keeps {γ : Type} (φ : LPort → γ) (now : Nat) (hemit : ∀ (x : LPort) (r : LPort × Flit), x.emit = some r → φ r.1 = φ x)
    (hcompose : ∀ x : LPort, φ (x.compose now) = φ x) (n : Nat) (x : LPort) (sent : List Flit) :
    φ (LPort.pump now n x sent).1 = φ x := by
  induction n generalizing x sent with
  | zero => rfl
  | succ n ih =>
    rw [LPort.pump]
    split
    · next r hr => exact (ih _ _).trans (hemit x r hr)
    · split
      · exact (ih _ _).trans (hcompose x)
      · rfl

/-! ### Changes of one port -/

theorem Device.modLink_port (d : Device) (p q : Nat) (f : LPort → LPort) :
    (d.modLink p f).fab.port q = if q = p then f (d.fab.port p) else d.fab.port q := Fab.setPort_port_if _ _ _ _

@[simp] theorem Device.modLink_port_same (d : Device) (p : Nat) (f : LPort → LPort) :
    (d.modLink p f).fab.port p = f (d.fab.port p) := Fab.setPort_port _ _ _

theorem Device.pump_fab (d : Device) (p : Nat) : ∃ now, (d.pump p).fab = (d.modLink p fun x => (LPort.pump now x.fuel x []).1).fab := by
  unfold Device.pump
  dsimp only
  split
  · exact ⟨d.stamp.1, foldl_keeps Device.fab (f := fun (d : Device) b => d.note (.flit p b)) (fun _ _ => rfl) _ _⟩
  · exact ⟨0, foldl_keeps Device.fab (f := fun (d : Device) b => d.note (.flit p b)) (fun _ _ => rfl) _ _⟩

theorem Device.pump_port_other (d : Device) {p q : Nat} (h : q ≠ p) : (d.pump p).fab.port q = d.fab.port q := by
  obtain ⟨now, hfab⟩ := d.pump_fab p
  rw [hfab, Device.modLink_port, if_neg h]

theorem Device.pump_port_keeps {γ : Type} (φ : LPort → γ)
    (hemit : ∀ (x : LPort) (r : LPort × Flit), x.emit = some r → φ r.1 = φ x)
    (hcompose : ∀ (x : LPort) (now : Nat), φ (x.compose now) = φ x)
    (d : Device) (p q : Nat) : φ ((d.pump p).fab.port q) = φ (d.fab.port q) := by
  obtain ⟨now, hfab⟩ := d.pump_fab p
  rw [hfab, Device.modLink_port]
  split
  · next h => rw [h, LPort.pump_keeps φ now hemit fun x => hcompose x now]
  · rfl

theorem Device.pump_receiver (d : Device) (p q : Nat) : ((d.pump p).fab.port q).receiver = (d.fab.port q).receiver :=
  d.pump_port_keeps LPort.receiver (fun _ _ h => (LPort.emit_sends h).1) LPort.compose_receiver p q

theorem Device.pump_keyed (d : Device) (p q : Nat) : ((d.pump p).fab.port q).keyed = (d.fab.port q).keyed :=
  d.pump_port_keeps LPort.keyed (fun _ _ h => (LPort.emit_sends h).2) LPort.compose_keyed p q

theorem Device.tx_port_other (d : Device) {p q : Nat} (m : FMsg) (h : q ≠ p) : (d.tx p m).fab.port q = d.fab.port q := by
  rw [Device.tx, Device.pump_port_other _ h]
  exact (d.modLink_port p q _).trans (if_neg h)

theorem Device.modLink_receiver (d : Device) (p q : Nat) {f : LPort → LPort} (hf : ∀ x : LPort, (f x).receiver = x.receiver) :
    ((d.modLink p f).fab.port q).receiver = (d.fab.port q).receiver := by
  rw [Device.modLink_port]
  split
  · next h => rw [hf, h]
  · rfl

theorem Device.tx_receiver (d : Device) (p q : Nat) (m : FMsg) : ((d.tx p m).fab.port q).receiver = (d.fab.port q).receiver := by
  rw [Device.tx, Device.pump_receiver]
  exact d.modLink_receiver p q fun _ => rfl

theorem Device.settle_receiver (d : Device) (p q : Nat) : ((d.settle p).fab.port q).receiver = (d.fab.port q).receiver := by
  unfold Device.settle
  dsimp only
  split
  · rfl
  · exact d.modLink_receiver p q fun _ => rfl

theorem Device.takeHeader_receiver (d : Device) (p q : Nat) (h : FlitHead) :
    ((d.takeHeader p h).fab.port q).receiver = (d.fab.port q).receiver := by
  rw [Device.takeHeader, Device.pump_receiver]
  refine d.modLink_receiver p q fun x => ?_
  split
  · unfold LPort.ackTo
    split <;> rfl
  · rfl

/-! ### Messages to every ACTIVE link (R259, R263) -/

/-- The device without the fabric, outputs and free values. -/
def Device.sansFabric (d : Device) : Device := { d with fab := Fab.init, out := [], fresh := 0 }

@[simp] theorem Device.modLink_sansFabric (d : Device) (p : Nat) (f : LPort → LPort) : (d.modLink p f).sansFabric = d.sansFabric := rfl

theorem Device.eq_of_sansFabric {d e : Device} (h : e.sansFabric = d.sansFabric) :
    e = { d with fab := e.fab, out := e.out, fresh := e.fresh } :=
  congrArg (fun x : Device => { x with fab := e.fab, out := e.out, fresh := e.fresh }) h

theorem Device.sansFabric_of_sansSends {d e : Device} (h : e.sansSends = d.sansSends) : e.sansFabric = d.sansFabric :=
  (congrArg Device.sansFabric h :)

theorem Device.links_of_sansSends {d e : Device} (h : e.sansSends = d.sansSends) : e.fab.links = d.fab.links :=
  (congrArg (fun x : Device => x.fab.links) h :)

/-- From `d` to `e` no more than the fabric, outputs and free values change; no port but an ACTIVE one, which sends; and the set of
ACTIVE links becomes `ls`. -/
structure Device.Told (d e : Device) (ls : List FLink) : Prop where
  frame : e.sansFabric = d.sansFabric
  receiver : ∀ q, (e.fab.port q).receiver = (d.fab.port q).receiver
  idle : ∀ q, d.linkActive q = false → e.fab.port q = d.fab.port q
  links : e.fab.links = ls

theorem Device.Told.active {d e : Device} {ls : List FLink} (h : d.Told e ls) (q : Nat) : e.linkActive q = d.linkActive q := by
  have hst : (e.fab.port q).st = (d.fab.port q).st := (congrArg LPort.st (h.receiver q) :)
  rw [Device.linkActive, Device.linkActive, hst]

theorem Device.Told.refl (d : Device) : d.Told d d.fab.links := ⟨rfl, fun _ => rfl, fun _ _ => rfl, rfl⟩

theorem Device.Told.trans {d e f : Device} {ls ls' : List FLink} (h : d.Told e ls) (h' : e.Told f ls') : d.Told f ls' :=
  ⟨h'.frame.trans h.frame, fun q => (h'.receiver q).trans (h.receiver q),
    fun q hq => (h'.idle q ((h.active q).trans hq)).trans (h.idle q hq), h'.links⟩

/-- Then a change of the fabric that keeps ports and links. -/
theorem Device.Told.modFab {d e : Device} {ls : List FLink} (h : d.Told e ls) {f : Fab → Fab} (hports : (f e.fab).ports = e.fab.ports)
    (hlinks : (f e.fab).links = e.fab.links) : d.Told (e.modFab f) ls := by
  have hport (q : Nat) : (e.modFab f).fab.port q = e.fab.port q := congrArg (fun t => tget lportDef t q) hports
  exact ⟨h.frame, fun q => by rw [hport, h.receiver q], fun q hq => by rw [hport, h.idle q hq], hlinks.trans h.links⟩

theorem Device.Told.tx {d e : Device} {ls : List FLink} (h : d.Told e ls) {p : Nat} (m : FMsg) (hp : d.linkActive p = true) :
    d.Told (e.tx p m) ls := by
  refine ⟨(Device.sansFabric_of_sansSends (e.tx_sansSends p m)).trans h.frame, fun q => (e.tx_receiver p q m).trans (h.receiver q),
    fun q hq => ?_, (Device.links_of_sansSends (e.tx_sansSends p m)).trans h.links⟩
  have hne : q ≠ p := fun heq => by simp [heq, hp] at hq
  exact (e.tx_port_other m hne).trans (h.idle q hq)

theorem Device.Told.flood {d e : Device} {ls : List FLink} (h : d.Told e ls) (except : Nat) (m : FMsg) :
    d.Told (e.flood except m) ls := by
  unfold Device.flood
  refine List.foldlRecOn (motive := fun b => d.Told b ls) _ _ h fun b hb p hp => hb.tx m ?_
  simp only [List.mem_filter, Bool.and_eq_true] at hp
  exact (h.active p).symm.trans hp.2.2

theorem Device.Told.sendConfig {d e : Device} {ls : List FLink} (h : d.Told e ls) (c : FabConfig) : d.Told (e.sendConfig c) ls :=
  List.foldlRecOn (motive := fun b => d.Told b ls) _ _ h fun _ hb _ _ => ⟨hb.frame, hb.receiver, hb.idle, hb.links⟩

theorem Device.Told.commitIfAcked {d e : Device} {ls : List FLink} (h : d.Told e ls) : d.Told e.commitIfAcked ls := by
  unfold Device.commitIfAcked
  split
  · exact h
  · dsimp only
    split
    · exact (h.modFab rfl rfl).flood _ _
    · exact h

theorem Device.Told.proposeConfig {d e : Device} {ls : List FLink} (h : d.Told e ls) (members : List Member) (membership : Bool)
    (applyTn : Nat) : d.Told (e.proposeConfig members membership applyTn) ls :=
  Device.Told.commitIfAcked (Device.Told.sendConfig ((h.modFab rfl rfl).modFab rfl rfl) _)

theorem Device.Told.membershipConfig {d e : Device} {ls : List FLink} (h : d.Told e ls) : d.Told e.membershipConfig ls :=
  Device.Told.proposeConfig (h.modFab rfl rfl) _ _ _

theorem Device.Told.kingConfig {d e : Device} {ls : List FLink} (h : d.Told e ls) : d.Told e.kingConfig ls := by
  have hacked : d.Told (if e.fab.pending.isSome then e.commitIfAcked else e) ls := by
    split
    · exact h.commitIfAcked
    · exact h
  unfold Device.kingConfig
  generalize (if e.fab.pending.isSome then e.commitIfAcked else e) = x at hacked
  dsimp only
  split
  · exact hacked
  · split
    · exact hacked
    · split
      · exact Device.Told.proposeConfig (hacked.modFab rfl rfl) _ _ _
      · split
        · exact Device.Told.membershipConfig (hacked.modFab rfl rfl)
        · exact hacked

/-- A report of a link that changes nothing. -/
theorem Device.linkChange_of_known {d : Device} (p : Nat) {l : FLink} {up : Bool}
    (h : linksAfter d.fab.links l up = d.fab.links ∨ up = true ∧ l.flip ∈ d.fab.links) : d.linkChange p l up = d :=
  if_pos (by simpa using h)

/-- A change of a link is recorded, and told to the ACTIVE links (R263, R275). -/
theorem Device.linkChange_told_new {d : Device} (p : Nat) {l : FLink} {up : Bool}
    (h : ¬(linksAfter d.fab.links l up = d.fab.links ∨ up = true ∧ l.flip ∈ d.fab.links)) :
    d.Told (d.linkChange p l up) (linksAfter d.fab.links l up) := by
  have hset : d.Told (d.modFab fun f => { f with links := linksAfter d.fab.links l up }) (linksAfter d.fab.links l up) :=
    ⟨rfl, fun _ => rfl, fun _ _ => rfl, rfl⟩
  have hflood := hset.flood p (linkStateMsg l up)
  unfold Device.linkChange
  dsimp only
  rw [if_neg (by simpa using h)]
  split
  · exact Device.Told.kingConfig (Device.Told.kingConfig (hflood.modFab rfl rfl))
  · exact hflood

theorem Device.linkChange_told (d : Device) (p : Nat) (l : FLink) (up : Bool) : ∃ ls, d.Told (d.linkChange p l up) ls := by
  by_cases h : linksAfter d.fab.links l up = d.fab.links ∨ up = true ∧ l.flip ∈ d.fab.links
  · rw [Device.linkChange_of_known p h]
    exact ⟨_, .refl d⟩
  · exact ⟨_, Device.linkChange_told_new p h⟩

/-! ### Training, refusal and the fall of a link (R242, R275) -/

theorem Device.linkTraining_eq {d : Device} {p : Nat} (o : TrainOutcome) (hon : d.linkEnabled p = true)
    (hst : (d.fab.port p).st = .off ∨ (d.fab.port p).st = .training) (htried : (d.fab.port p).tried = false) :
    d.linkTraining p o = match o with
      | .x8 => d.modLink p fun x => x.reset .hello
      | .x4 high => if d.fab.version = 1 then d.modLink p LPort.failed
        else d.modLink p fun x => { x.reset .hello with x4 := true, x4High := high }
      | .none => d.modLink p LPort.failed := by
  have hidle : ((d.fab.port p).st == .off || (d.fab.port p).st == .training) = true := by simpa using hst
  exact if_neg (by simp [hon, hidle, htried])

theorem Device.linkTraining_of_tried {d : Device} {p : Nat} (o : TrainOutcome) (htried : (d.fab.port p).tried = true) :
    d.linkTraining p o = d := if_pos (by simp [htried])

/-- A link that is up: trained, and not refused. -/
def LPort.isUp (x : LPort) : Prop := x.st ≠ .off ∧ x.st ≠ .training ∧ x.st ≠ .refused

theorem LPort.isUp_of_st {x : LPort} {st : LinkSt} (h : x.st = st) (hup : st ≠ .off ∧ st ≠ .training ∧ st ≠ .refused) : x.isUp := by
  rwa [LPort.isUp, h]

/-- The port of a link that went down. -/
def LPort.fallen (x : LPort) : LPort := { x.reset .training with downs := (x.downs + b2n (x.st == .active)) % 2 ^ 32 }

theorem Device.linkDown_eq {d : Device} {p : Nat} (hup : (d.fab.port p).isUp) :
    d.linkDown p = if (d.fab.port p).st = .active then (d.modLink p LPort.fallen).linkChange p (d.portLink p) false
      else d.modLink p LPort.fallen := by
  obtain ⟨hoff, htrain, href⟩ := hup
  have hset : (d.modLink p fun x => { x.reset .training with downs := (x.downs + b2n ((d.fab.port p).st == .active)) % 2 ^ 32 })
      = d.modLink p LPort.fallen := rfl
  unfold Device.linkDown
  dsimp only
  rw [if_neg (by simp [hoff, htrain, href]), hset]
  simp only [beq_iff_eq]

/-- A link that was not ACTIVE goes down without a report. -/
theorem Device.linkDown_of_inactive {d : Device} {p : Nat} (hup : (d.fab.port p).isUp) (h : (d.fab.port p).st ≠ .active) :
    d.linkDown p = d.modLink p LPort.fallen := by
  rw [Device.linkDown_eq hup, if_neg h]

/-- The port of a link that goes down is reset; beside the fabric, outputs and free values may change. -/
theorem Device.linkDown_leaves {d : Device} {p : Nat} (hup : (d.fab.port p).isUp) :
    (d.linkDown p).fab.port p = (d.fab.port p).fallen ∧ (d.linkDown p).sansFabric = d.sansFabric := by
  rw [Device.linkDown_eq hup]
  split
  · obtain ⟨ls, htold⟩ := (d.modLink p LPort.fallen).linkChange_told p (d.portLink p) false
    refine ⟨(htold.idle p ?_).trans (d.modLink_port_same p _), htold.frame⟩
    rw [Device.linkActive, Device.modLink_port_same]
    rfl
  · exact ⟨d.modLink_port_same p _, rfl⟩

/-- The link is refused with a reason (R249, R250, R255, R256). -/
def Device.Refused (d : Device) (p reason : Nat) : Prop := (d.fab.port p).st = .refused ∧ (d.fab.port p).refuse = reason

theorem Device.refuseLink_refused (d : Device) (p reason : Nat) : (d.refuseLink p reason).Refused p reason := by
  unfold Device.refuseLink Device.Refused
  dsimp only
  rw [Device.modLink_port_same]
  exact ⟨rfl, rfl⟩

theorem Device.refuseLink_frame {d : Device} {p : Nat} (reason : Nat) (hup : (d.fab.port p).isUp) :
    (d.refuseLink p reason).sansFabric = d.sansFabric :=
  (show (d.refuseLink p reason).sansFabric = (d.linkDown p).sansFabric from rfl).trans (Device.linkDown_leaves hup).2

/-- A link that was not ACTIVE is refused without a report. -/
theorem Device.refuseLink_of_inactive {d : Device} {p : Nat} (reason : Nat) (hup : (d.fab.port p).isUp)
    (h : (d.fab.port p).st ≠ .active) : d.refuseLink p reason = { d with fab := (d.refuseLink p reason).fab } := by
  unfold Device.refuseLink
  rw [Device.linkDown_of_inactive hup h]
  rfl

/-! ### HELLO (R255, R256) -/

/-- What a HELLO tells of the partner. -/
def LPort.meets (h : Hello) (x : LPort) : LPort :=
  { x with peerSerial := h.serial, peerId := if h.holdsId then some h.curId else none, peerKing := h.king, peerPort := h.port % 8
           peerResigned := h.resigned, peerGen := h.cfgGen, peerMin := h.vmin, peerMax := h.vmax }

/-- The handshake begins with the highest common version. -/
def LPort.shakes (v tn : Nat) (x : LPort) : LPort := { x with st := .handshake, version := v, hsAt := tn }

/-- No version is common to both ends and the fabric. -/
def Device.noVersion (d : Device) (h : Hello) : Prop :=
  min ownVmax h.vmax < max ownVmin h.vmin ∨ (d.fab.version ≠ 0 ∧ (d.fab.version < h.vmin ∨ h.vmax < d.fab.version))

theorem Device.version_of_common {d : Device} {h : Hello} (hv : max 1 h.vmin ≤ min 2 h.vmax)
    (hfab : d.fab.version = 0 ∨ h.vmin ≤ d.fab.version ∧ d.fab.version ≤ h.vmax) : ¬d.noVersion h := by
  rintro (hlt | ⟨hset, hout⟩)
  · exact absurd hv (Nat.not_le.mpr hlt)
  · omega

theorem Device.contribute_port (d : Device) (p : Nat) : (d.contribute p).fab.port p = { d.fab.port p with eph := d.fresh } :=
  Device.modLink_port_same { d with fresh := d.fresh + 1 } p _

theorem Device.contribute_sansFabric (d : Device) (p : Nat) : (d.contribute p).sansFabric = d.sansFabric := rfl

theorem Device.contribute_out (d : Device) (p : Nat) :
    (d.contribute p).out = .share p (Config.linkShare (Config.random d.fresh)) (leBytes 48 (Config.random d.fresh)) :: d.out := rfl

section

variable {d : Device} {p : Nat} {h : Hello} (hst : (d.fab.port p).st = .hello)

include hst

theorem Device.hello_of_version (hno : d.noVersion h) : d.hello p h = (d.modLink p (LPort.meets h)).refuseLink p 1 := by
  unfold Device.hello
  rw [if_neg (by simp [hst])]
  exact if_pos hno

theorem Device.hello_of_profile (hver : ¬d.noVersion h) (hhash : h.profileHash ≠ d.profileHash) :
    d.hello p h = (d.modLink p (LPort.meets h)).refuseLink p 2 := by
  unfold Device.hello
  rw [if_neg (by simp [hst])]
  exact (if_neg hver).trans (if_pos hhash)

/-- A HELLO that suits begins the handshake; it may name the candidate of an election. -/
theorem Device.hello_of_match (hver : ¬d.noVersion h) (hhash : h.profileHash = d.profileHash)
    (hlanes : min 2 h.vmax ≠ 1 ∨ (d.fab.port p).x4 = false) :
    let e := ((d.modLink p (LPort.meets h)).modLink p (LPort.shakes (min 2 h.vmax) d.tn)).contribute p
    d.hello p h = if e.fab.st = .alone ∧ h.kingSerial ≠ 0 then e.modFab fun f => { f with candidate := h.kingSerial, parent := some p }
      else e := by
  intro e
  have hwide : ¬(min ownVmax h.vmax = 1 ∧ ((d.modLink p (LPort.meets h)).fab.port p).x4 = true) := by
    rw [Device.modLink_port_same]
    rintro ⟨hv, hx4⟩
    exact hlanes.elim (fun hne => hne hv) fun hfalse => absurd (hfalse.symm.trans hx4) (by decide)
  unfold Device.hello
  rw [if_neg (by simp [hst])]
  exact (if_neg hver).trans ((if_neg (not_not.mpr hhash)).trans (if_neg hwide))

theorem Device.hello_match_leaves (hver : ¬d.noVersion h) (hhash : h.profileHash = d.profileHash)
    (hlanes : min 2 h.vmax ≠ 1 ∨ (d.fab.port p).x4 = false) : let e := d.hello p h
    e.fab.port p = { LPort.shakes (min 2 h.vmax) d.tn (LPort.meets h (d.fab.port p)) with eph := d.fresh } ∧ e.sansFabric = d.sansFabric
      ∧ e.out = .share p (Config.linkShare (Config.random d.fresh)) (leBytes 48 (Config.random d.fresh)) :: d.out := by
  intro e
  have hport := Device.contribute_port ((d.modLink p (LPort.meets h)).modLink p (LPort.shakes (min 2 h.vmax) d.tn)) p
  rw [Device.modLink_port_same, Device.modLink_port_same] at hport
  rw [show e = _ from Device.hello_of_match hst hver hhash hlanes]
  have hleaves : (((d.modLink p (LPort.meets h)).modLink p (LPort.shakes (min 2 h.vmax) d.tn)).contribute p).sansFabric = d.sansFabric
      ∧ (((d.modLink p (LPort.meets h)).modLink p (LPort.shakes (min 2 h.vmax) d.tn)).contribute p).out
        = .share p (Config.linkShare (Config.random d.fresh)) (leBytes 48 (Config.random d.fresh)) :: d.out := by
    rw [Device.contribute_sansFabric, Device.contribute_out, Device.modLink_sansFabric, Device.modLink_sansFabric, Device.modLink_out,
      Device.modLink_out, Device.modLink_fresh, Device.modLink_fresh]
    exact ⟨rfl, rfl⟩
  generalize ((d.modLink p (LPort.meets h)).modLink p (LPort.shakes (min 2 h.vmax) d.tn)).contribute p = y at *
  obtain ⟨hframe, hout⟩ := hleaves
  split
  · exact ⟨hport, hframe, hout⟩
  · exact ⟨hport, hframe, hout⟩

theorem Device.refused_hello (reason : Nat) : let e := (d.modLink p (LPort.meets h)).refuseLink p reason
    e.Refused p reason ∧ e = { d with fab := e.fab } := by
  intro e
  have hmeets : ((d.modLink p (LPort.meets h)).fab.port p).st = .hello := by
    rw [Device.modLink_port_same]
    exact hst
  refine ⟨Device.refuseLink_refused _ p reason, ?_⟩
  exact (Device.refuseLink_of_inactive reason (LPort.isUp_of_st hmeets (by decide)) (by rw [hmeets]; decide)).trans rfl

end


/-! ### The handshake and the attestation (R249 to R251) -/

theorem Device.pump_sansFabric (d : Device) (p : Nat) : (d.pump p).sansFabric = d.sansFabric :=
  Device.sansFabric_of_sansSends (d.pump_sansSends p)

/-- The port of a handshake whose keys are in place. -/
def LPort.attests (share : List Byte) (x : LPort) : LPort := { x.newKeys share with st := .attesting }

theorem LPort.newKeys_keyed (x : LPort) (share : List Byte) : (x.newKeys share).keyed = true := Bool.or_true _

theorem Device.handshake_of_first {d : Device} {p : Nat} {m : HandshakeMsg} (hst : (d.fab.port p).st = .handshake)
    (hm : m.signed = true) : d.handshake p m
      = ((((d.modLink p (LPort.attests m.share)).modLink p LPort.alignBlocks).attestation m.nonce).2.pump p).note
        (.report p (((d.modLink p (LPort.attests m.share)).modLink p LPort.alignBlocks).attestation m.nonce).1) := by
  simp only [Device.handshake, hst, hm]
  rfl

theorem Device.handshake_of_rekey {d : Device} {p : Nat} {m : HandshakeMsg} (hst : (d.fab.port p).st = .active)
    (hm : m.signed = true) : d.handshake p m = (if (d.fab.port p).rekeyAt = 0 then d.beginRekey p else d).modLink p fun x =>
      { x.newKeys m.share with rekeyAt := 0 } := by
  simp only [Device.handshake, hst, hm]
  rfl

theorem Device.handshake_of_bad {d : Device} {p : Nat} {m : HandshakeMsg}
    (hst : (d.fab.port p).st = .handshake ∨ (d.fab.port p).st = .active) (hm : m.signed = false) :
    d.handshake p m = d.refuseLink p 3 := by
  rcases hst with hst | hst
  · simp only [Device.handshake, hst, hm]
    rfl
  · simp only [Device.handshake, hst, hm]
    rfl

theorem Device.handshake_first_leaves {d : Device} {p : Nat} {m : HandshakeMsg} (hst : (d.fab.port p).st = .handshake)
    (hm : m.signed = true) : let e := d.handshake p m
    (e.fab.port p).st = .attesting ∧ (e.fab.port p).keyed = true ∧ e.sansFabric = d.sansFabric := by
  intro e
  have hfab : (((d.modLink p (LPort.attests m.share)).modLink p LPort.alignBlocks).attestation m.nonce).2.fab
      = ((d.modLink p (LPort.attests m.share)).modLink p LPort.alignBlocks).fab := rfl
  have hframe : (((d.modLink p (LPort.attests m.share)).modLink p LPort.alignBlocks).attestation m.nonce).2.sansFabric
      = ((d.modLink p (LPort.attests m.share)).modLink p LPort.alignBlocks).sansFabric := rfl
  rw [Device.modLink_sansFabric, Device.modLink_sansFabric] at hframe
  have hport : ((d.modLink p (LPort.attests m.share)).modLink p LPort.alignBlocks).fab.port p
      = (LPort.attests m.share (d.fab.port p)).alignBlocks := by rw [Device.modLink_port_same, Device.modLink_port_same]
  rw [show e = _ from Device.handshake_of_first hst hm]
  generalize ((d.modLink p (LPort.attests m.share)).modLink p LPort.alignBlocks).attestation m.nonce = y at *
  have hrec := y.2.pump_receiver p p
  have hkey := y.2.pump_keyed p p
  rw [hfab, hport] at hrec hkey
  exact ⟨(congrArg LPort.st hrec :), hkey.trans (LPort.newKeys_keyed _ m.share), (y.2.pump_sansFabric p).trans hframe⟩

theorem Device.beginRekey_port (d : Device) (p : Nat) :
    (d.beginRekey p).fab.port p = { d.fab.port p with rekeyAt := d.tn + 1, hsAt := d.tn, eph := d.fresh } := by
  rw [Device.beginRekey, Device.contribute_port, Device.modLink_port_same]
  rfl

theorem Device.beginRekey_sansFabric (d : Device) (p : Nat) : (d.beginRekey p).sansFabric = d.sansFabric := by
  rw [Device.beginRekey, Device.contribute_sansFabric, Device.modLink_sansFabric]

theorem Device.handshake_rekey_leaves {d : Device} {p : Nat} {m : HandshakeMsg} (hst : (d.fab.port p).st = .active)
    (hm : m.signed = true) : let e := d.handshake p m
    (e.fab.port p).st = .active ∧ (e.fab.port p).rekeyAt = 0 ∧ (e.fab.port p).keyed = true ∧ e.sansFabric = d.sansFabric := by
  intro e
  rw [show e = _ from Device.handshake_of_rekey hst hm, Device.modLink_port_same, Device.modLink_sansFabric]
  split
  · have hrekey : ((d.beginRekey p).fab.port p).st = .active := by
      rw [Device.beginRekey_port]
      exact hst
    exact ⟨hrekey, rfl, LPort.newKeys_keyed _ m.share, d.beginRekey_sansFabric p⟩
  · exact ⟨hst, rfl, LPort.newKeys_keyed _ m.share, rfl⟩

/-- A handshake, or a fresh one of an ACTIVE link, is under way. -/
def LPort.shaking (x : LPort) : Prop := x.st = .handshake ∨ x.st = .active ∧ x.rekeyAt ≠ 0

theorem Device.handshakeTimeout_of_late {d : Device} {p : Nat} (h : (d.fab.port p).shaking)
    (hlate : (d.fab.port p).hsAt + 20000 ≤ d.tn) :
    d.handshakeTimeout p = d.refuseLink p 3 := if_pos ⟨h, hlate⟩

theorem Device.handshakeTimeout_of_early {d : Device} {p : Nat} (h : d.tn < (d.fab.port p).hsAt + 20000) :
    d.handshakeTimeout p = d := if_neg fun hlate => Nat.not_le.mpr h hlate.2

/-- The port of a link that has become ACTIVE. -/
def LPort.raised (x : LPort) : LPort := { x with st := .active, hbMiss := 0, hbSeen := true }

/-- A device without a fabric begins discovery (R257). -/
def Device.discovers (d : Device) : Device :=
  if d.fab.st = .alone then d.modFab fun f =>
    { f with st := .discovering, electing := true, stable := 0, candidate := if f.candidate = 0 then ownSerial else f.candidate }
  else d

theorem Device.discovers_told (d : Device) : d.Told d.discovers d.fab.links := by
  unfold Device.discovers
  split
  · exact (Device.Told.refl d).modFab rfl rfl
  · exact .refl d

theorem Device.linkUp_eq (d : Device) (p : Nat) :
    d.linkUp p = ((d.modLink p LPort.raised).discovers.linkChange p ((d.modLink p LPort.raised).discovers.portLink p) true).pump p := rfl

theorem Device.linkUp_leaves (d : Device) (p : Nat) :
    ((d.linkUp p).fab.port p).st = .active ∧ (d.linkUp p).sansFabric = d.sansFabric := by
  have hup : (d.modLink p LPort.raised).fab.port p = (d.fab.port p).raised := d.modLink_port_same p _
  have hframe := d.modLink_sansFabric p LPort.raised
  rw [Device.linkUp_eq]
  generalize d.modLink p LPort.raised = x at *
  obtain ⟨ls, hchange⟩ := x.discovers.linkChange_told p (x.discovers.portLink p) true
  have htold := x.discovers_told.trans hchange
  generalize x.discovers.linkChange p (x.discovers.portLink p) true = y at *
  have hst := (y.pump_receiver p p).trans (htold.receiver p)
  rw [hup] at hst
  exact ⟨(congrArg LPort.st hst :), (y.pump_sansFabric p).trans (htold.frame.trans hframe)⟩

/-- Both ends accept the attestation (R250). -/
def Device.agrees (d : Device) (r : PartnerReport) : Prop :=
  r.signed = true ∧ r.fresh = true ∧ d.policyMet r = true ∧ r.accepts = true

theorem Device.attestationCheck_of_accepted {d : Device} {p : Nat} {r : PartnerReport} (hst : (d.fab.port p).st = .attesting)
    (h : d.agrees r) : d.attestationCheck p r = d.linkUp p := by
  obtain ⟨hsigned, hfresh, hpolicy, haccepts⟩ := h
  simp [Device.attestationCheck, hst, hsigned, hfresh, hpolicy, haccepts]

theorem Device.attestationCheck_of_refused {d : Device} {p : Nat} {r : PartnerReport} (hst : (d.fab.port p).st = .attesting)
    (h : ¬d.agrees r) : d.attestationCheck p r = (d.refuseLink p 4).note (.integrity (d.fab.port p).peerSerial) := by
  have hno : ¬((r.signed && r.fresh && d.policyMet r && r.accepts) = true) := by
    simpa only [Device.agrees, Bool.and_eq_true, and_assoc] using h
  exact (if_neg (not_not.mpr hst)).trans (if_neg hno)

theorem Device.startRekey_of_due {d : Device} {p : Nat} (hst : (d.fab.port p).st = .active)
    (h : (d.fab.port p).hsAt + 60000000 ≤ d.tn ∨ 2 ^ 32 ≤ (d.fab.port p).txBlocks + 1000000) : d.startRekey p = d.beginRekey p :=
  if_pos ⟨hst, h⟩

/-! ### Flits (R243 to R246) -/

/-- A DATA or PAD flit. -/
def FlitHead.numbered (h : FlitHead) : Prop := h.type = 1 ∨ h.type = 2

section

variable {d : Device} {p : Nat} {f : Flit} (hup : (d.fab.port p).isUp)

include hup

theorem Device.flitReceive_of_bad (h : f.good = false) : d.flitReceive p f = d.gap p := by
  obtain ⟨hoff, htrain, href⟩ := hup
  unfold Device.flitReceive
  dsimp only
  rw [if_neg (by simp [hoff, htrain, href]), if_pos (by simp [h])]

theorem Device.flitReceive_of_good (h : f.good = true) : d.flitReceive p f = (d.takeFlit p f).settle p := by
  obtain ⟨hoff, htrain, href⟩ := hup
  unfold Device.flitReceive
  dsimp only
  rw [if_neg (by simp [hoff, htrain, href]), if_neg (by simp [h])]

theorem Device.retryReq_eq (seq : Nat) : d.retryReq p seq
    = (d.modLink p fun x => { x with replays := (x.replays + 1) % 2 ^ 64 }).note
      (.resend p (((d.fab.port p).kept.dropWhile fun k => k.seq != seq).map KeptFlit.bytes)) := by
  obtain ⟨hoff, htrain, href⟩ := hup
  unfold Device.retryReq
  dsimp only
  rw [if_neg (by simp [hoff, htrain, href])]

end

theorem Device.takeFlit_in_sequence {d : Device} {p : Nat} {f : Flit} (h : f.head.numbered) (hseq : f.head.seq = (d.fab.port p).rxSeq) :
    d.takeFlit p f = (d.takeHeader p f.head).acceptFlit p f.head f.payload := (if_pos h).trans (if_pos hseq)

theorem Device.takeFlit_out_of_sequence {d : Device} {p : Nat} {f : Flit} (h : f.head.numbered)
    (hseq : f.head.seq ≠ (d.fab.port p).rxSeq) : d.takeFlit p f = d.gap p := (if_pos h).trans (if_neg hseq)

/-- Inside a gap every flit but a numbered one is discarded (R244). -/
theorem Device.takeFlit_in_gap {d : Device} {p : Nat} {f : Flit} (h : ¬f.head.numbered) (hgap : (d.fab.port p).gap = true) :
    d.takeFlit p f = d := (if_neg h).trans (if_pos hgap)

theorem LPort.expects_of_receiver {x y : LPort} (h : x.receiver = y.receiver) :
    x.rxSeq = y.rxSeq ∧ x.gap = y.gap ∧ x.rxKey = y.rxKey ∧ x.rxNext = y.rxNext :=
  ⟨(congrArg LPort.rxSeq h :), (congrArg LPort.gap h :), (congrArg LPort.rxKey h :), (congrArg LPort.rxNext h :)⟩

theorem LPort.rxSwitch_of_none {x : LPort} (phase : Bool) (h : x.rxNext = none) : x.rxSwitch phase = x := by
  simp [LPort.rxSwitch, h]

/-- A PAD flit carries nothing (R248). -/
theorem Device.deliver_pad_port (d : Device) (p : Nat) {h : FlitHead} (payload : List Byte) (hpad : h.type = 2) :
    (d.deliver p [(h, payload)]).fab.port p = d.fab.port p := by
  have hnone : ([(h, payload)].filter fun f => f.1.type == 1) = [] := by simp [hpad]
  unfold Device.deliver
  rw [hnone]
  exact d.modLink_port_same p fun _ => d.fab.port p

/-- A PAD flit in clear text counts and closes a gap. -/
theorem Device.acceptFlit_pad {d : Device} {p : Nat} {h : FlitHead} (payload : List Byte) (hpad : h.type = 2)
    (hkey : (d.fab.port p).rxKey = none) (hnext : (d.fab.port p).rxNext = none) :
    (d.acceptFlit p h payload).fab.port p
      = { d.fab.port p with rxSeq := ((d.fab.port p).rxSeq + 1) % 4096, rxSeen := true, ackDue := true, gap := false } := by
  have hswitch : (if (d.fab.port p).rxSeq % 8 = 0 then (d.fab.port p).rxSwitch h.keyphase else d.fab.port p) = d.fab.port p := by
    rw [LPort.rxSwitch_of_none _ hnext, ite_self]
  unfold Device.acceptFlit
  dsimp only
  simp only [Device.modLink_port_same, hswitch, hkey]
  rw [Device.deliver_pad_port _ _ _ hpad, Device.modLink_port_same, hswitch, hkey]

/-- What a PAD flit in sequence leaves, in clear text (R244, R248). -/
theorem Device.pad_leaves {d : Device} {p : Nat} {h : FlitHead} (payload : List Byte) (hpad : h.type = 2)
    (hkey : (d.fab.port p).rxKey = none) (hnext : (d.fab.port p).rxNext = none) :
    let e := ((d.takeHeader p h).acceptFlit p h payload).settle p
    (e.fab.port p).rxSeq = ((d.fab.port p).rxSeq + 1) % 4096 ∧ (e.fab.port p).gap = false := by
  intro e
  obtain ⟨hseq, -, hk, hn⟩ := LPort.expects_of_receiver (d.takeHeader_receiver p p h)
  have he := Device.settle_receiver ((d.takeHeader p h).acceptFlit p h payload) p p
  rw [Device.acceptFlit_pad payload hpad (hk.trans hkey) (hn.trans hnext), hseq] at he
  obtain ⟨heseq, hegap, -⟩ := LPort.expects_of_receiver he
  exact ⟨heseq, hegap⟩

/-! ### Time and link states (R36, R263, R272) -/

theorem Device.timeMsg_before_start {d : Device} {p stamp : Nat} (hdt : d.tb.started = false) (hgood : d.pwr.good = true)
    (hwaits : d.portWaits = true) (hking : d.fab.king = false) :
    (d.timeMsg p stamp).tb.started = true ∧ (d.timeMsg p stamp).tb.dt = stamp % 2 ^ 64 := by
  simp [Device.timeMsg, Device.timeStart, hdt, hgood, hwaits, hking]

/-- The size of a free trim (R50). -/
theorem natAbs_trim_le (c : Prop) [Decidable c] (n : Nat) :
    (if c then -((n % 201 : Nat) : Int) else ((n % 201 : Nat) : Int)).natAbs ≤ 200 := by
  split <;> omega

/-- The device after a sample of the servo (R50, R272). -/
def Device.trimmed (d : Device) (p stamp : Nat) : Device :=
  let diff : Int := (stamp : Int) + (d.stamp.2.fab.port p).delay - d.stamp.1
  let ppm : Int := ((Config.freeWord d.stamp.2.fresh).toNat % 201 : Nat)
  { d.stamp.2 with fresh := d.stamp.2.fresh + 1,
                   tb := { d.stamp.2.tb with fabricPpm := if diff < 0 then -ppm else ppm, inStep := decide (diff.natAbs ≤ 20) } }

/-- A device that does not follow this link's partner takes no sample. -/
theorem Device.timeMsg_started {d : Device} (p stamp : Nat) (hdt : d.tb.started = true) :
    d.timeMsg p stamp = d ∨ d.timeMsg p stamp = d.trimmed p stamp := by
  unfold Device.timeMsg
  rw [if_neg (by simp [hdt])]
  exact ite_eq_or_eq _ _ _

/-- A sample of the servo trims the rate by at most 200 ppm and leaves DT alone (R50, R272). -/
theorem Device.timeMsg_running {d : Device} (p stamp : Nat) (hdt : d.tb.started = true) : let e := d.timeMsg p stamp
    e = { d with tb := { d.tb with fabricPpm := e.tb.fabricPpm, inStep := e.tb.inStep }, fresh := e.fresh }
      ∧ e.tb.fabricPpm.natAbs ≤ max 200 d.tb.fabricPpm.natAbs := by
  rcases Device.timeMsg_started p stamp hdt with h | h
  · rw [h]
    exact ⟨rfl, Nat.le_max_right _ _⟩
  · rw [h]
    exact ⟨rfl, Nat.le_trans (natAbs_trim_le _ _) (Nat.le_max_left _ _)⟩

/-- Settles O40, clause by clause. -/
theorem fabricLinks : Obligations.FabricLinks := by
  intro s p hs x refused frame
  refine ⟨fun hon hst => ⟨fun htried => ?_, fun o htried => ?_⟩, fun h hst => ?_, fun m hst => ⟨fun hm => ?_, fun hm => ?_⟩,
    fun m hst => ⟨fun hm => ?_, fun hm => ?_⟩, fun hshake => ⟨fun hlate => ?_, fun hearly => ?_⟩,
    fun r hst => ⟨fun hsigned hfresh hpolicy haccepts => ?_, fun hno => ?_⟩, fun hst hdue => ?_, fun hoff htrain href => ?_,
    fun hgap => ?_, fun hgap => ?_, fun hst => ?_, fun stamp hoff => ?_, fun m hst => ?_⟩
  · have heq (o : TrainOutcome) := Device.linkTraining_eq o hon hst htried
    exact ⟨Runs.of_on hs (exec_linkTraining p .x8 s) (heq .x8),
      fun high hver => Runs.of_on hs (exec_linkTraining p (.x4 high) s) ((heq (.x4 high)).trans (if_neg hver)),
      fun high hver => Runs.of_on hs (exec_linkTraining p (.x4 high) s) ((heq (.x4 high)).trans (if_pos hver)),
      Runs.of_on hs (exec_linkTraining p .none s) (heq .none)⟩
  · exact Runs.of_on hs (exec_linkTraining p o s) (Device.linkTraining_of_tried o htried)
  · intro v fv
    refine ⟨fun hv hfv => ⟨fun hhash hlanes => Runs.of_on hs (exec_hello p h s) ?_, fun hhash => Runs.of_on hs (exec_hello p h s) ?_⟩,
      fun hver => Runs.of_on hs (exec_hello p h s) ?_⟩
    · obtain ⟨hport, hframe, hout⟩ := Device.hello_match_leaves hst (Device.version_of_common hv hfv) hhash hlanes
      exact ⟨(congrArg LPort.st hport :), (congrArg LPort.version hport :), (congrArg LPort.peerSerial hport :),
        (congrArg LPort.hsAt hport :), Device.eq_of_sansFabric hframe, hout⟩
    · rw [Device.hello_of_profile hst (Device.version_of_common hv hfv) hhash]
      exact Device.refused_hello hst 2
    · rw [Device.hello_of_version hst hver]
      exact Device.refused_hello hst 1
  · obtain ⟨hatt, hkey, hframe⟩ := Device.handshake_first_leaves hst hm
    exact Runs.of_on hs (exec_handshake p m s) ⟨hatt, hkey, Device.eq_of_sansFabric hframe⟩
  · refine Runs.of_on hs (exec_handshake p m s) ?_
    rw [Device.handshake_of_bad (.inl hst) hm]
    exact ⟨s.dev.refuseLink_refused p 3, Device.eq_of_sansFabric (Device.refuseLink_frame 3 (LPort.isUp_of_st hst (by decide)))⟩
  · obtain ⟨hact, hrekey, hkey, hframe⟩ := Device.handshake_rekey_leaves hst hm
    exact Runs.of_on hs (exec_handshake p m s) ⟨hact, hrekey, hkey, Device.eq_of_sansFabric hframe⟩
  · refine Runs.of_on hs (exec_handshake p m s) ?_
    rw [Device.handshake_of_bad (.inr hst) hm]
    exact ⟨s.dev.refuseLink_refused p 3, Device.eq_of_sansFabric (Device.refuseLink_frame 3 (LPort.isUp_of_st hst (by decide)))⟩
  · refine Runs.of_on hs (exec_handshakeTimeout p s) ?_
    rw [Device.handshakeTimeout_of_late hshake hlate]
    exact s.dev.refuseLink_refused p 3
  · exact Runs.of_on hs (exec_handshakeTimeout p s) (Device.handshakeTimeout_of_early hearly)
  · refine Runs.of_on hs (exec_attestationCheck p r s) ?_
    rw [Device.attestationCheck_of_accepted hst ⟨hsigned, hfresh, hpolicy, haccepts⟩]
    exact ⟨(s.dev.linkUp_leaves p).1, Device.eq_of_sansFabric (s.dev.linkUp_leaves p).2⟩
  · have hdis : ¬s.dev.agrees r := by
      rintro ⟨hsigned, hfresh, hpolicy, haccepts⟩
      simp [hsigned, hfresh, hpolicy, haccepts] at hno
    refine Runs.of_on hs (exec_attestationCheck p r s) ?_
    rw [Device.attestationCheck_of_refused hst hdis]
    have hquiet := Device.refuseLink_of_inactive 4 (LPort.isUp_of_st hst (by decide)) (by rw [hst]; decide)
    exact ⟨s.dev.refuseLink_refused p 4, congrArg (Note.integrity x.peerSerial :: ·) (congrArg Device.out hquiet :)⟩
  · refine Runs.of_on hs (exec_rekey p s) ?_
    rw [Device.startRekey_of_due hst hdue]
    have hport := s.dev.beginRekey_port p
    exact ⟨congrArg LPort.rekeyAt hport, congrArg LPort.hsAt hport, (congrArg LPort.st hport).trans hst,
      Device.eq_of_sansFabric (s.dev.beginRekey_sansFabric p)⟩
  · intro gap
    have hup : (s.dev.fab.port p).isUp := ⟨hoff, htrain, href⟩
    refine ⟨fun f hbad => ?_, fun f hgood htype hseq => ?_, fun f hgood htype hseq => ?_, fun f hgood hdata hpad hgap => ?_,
      fun seq => ?_, ?_⟩
    · exact Runs.of_on hs (exec_flitReceive p f s) (Device.flitReceive_of_bad hup hbad)
    · refine Runs.of_on hs (exec_flitReceive p f s) ?_
      rw [Device.flitReceive_of_good hup hgood, Device.takeFlit_out_of_sequence htype hseq]
      rfl
    · refine Runs.of_on hs (exec_flitReceive p f s) ?_
      rw [Device.flitReceive_of_good hup hgood, Device.takeFlit_in_sequence htype hseq]
      exact ⟨rfl, fun hpad hkey hnext => Device.pad_leaves f.payload hpad hkey hnext⟩
    · refine Runs.of_on hs (exec_flitReceive p f s) ?_
      rw [Device.flitReceive_of_good hup hgood, Device.takeFlit_in_gap (by simp [FlitHead.numbered, hdata, hpad]) hgap]
    · refine Runs.of_on hs (exec_retryReq p seq s) ?_
      rw [Device.retryReq_eq hup]
      have hport := s.dev.modLink_port_same p fun x => { x with replays := (x.replays + 1) % 2 ^ 64 }
      exact ⟨(congrArg LPort.replays hport :), rfl, (congrArg LPort.kept hport :), rfl⟩
    · obtain ⟨hport, hframe⟩ := Device.linkDown_leaves hup
      exact Runs.of_on hs (exec_linkDown p s) ⟨congrArg LPort.st hport, congrArg LPort.queue hport, congrArg LPort.kept hport,
        congrArg LPort.downs hport, Device.eq_of_sansFabric hframe⟩
  · exact Runs.of_on hs (exec_retryReqResend p s) (if_pos hgap)
  · exact Runs.of_on hs (exec_retryReqResend p s) (if_neg (by rw [show (s.dev.fab.port p).gap = false from hgap]; decide))
  · have hact : s.dev.linkActive p = true := by rw [Device.linkActive, hst]; rfl
    exact Runs.of_on hs (exec_heartbeat p s) (if_pos hact)
  · have heq : (if (s.dev.fab.port p).st = .off then s.dev else s.dev.timeMsg p stamp) = s.dev.timeMsg p stamp := if_neg hoff
    refine ⟨fun hdt hgood hwaits hking => Runs.of_on hs (exec_time p stamp s) ?_, fun hdt => Runs.of_on hs (exec_time p stamp s) ?_⟩
    · rw [heq]
      exact Device.timeMsg_before_start hdt hgood hwaits hking
    · rw [heq]
      exact Device.timeMsg_running p stamp hdt
  · intro up ls
    have hact : s.dev.linkActive p = true := by rw [Device.linkActive, hst]; rfl
    have heq : (if s.dev.linkActive p then s.dev.linkChange p m.linkOf (m.arg % 2 == 1) else s.dev) = s.dev.linkChange p m.linkOf up :=
      if_pos hact
    refine ⟨fun hls hflip => Runs.of_on hs (exec_linkState p m s) ?_, fun hknown => Runs.of_on hs (exec_linkState p m s) ?_⟩
    · rw [heq]
      have htold := s.dev.linkChange_told_new p (l := m.linkOf) (up := up) (by
        rintro (h | ⟨hup, hin⟩)
        · exact hls h
        · exact hflip.elim (fun hdown => absurd (hdown.symm.trans hup) (by decide)) fun hout => hout hin)
      exact ⟨htold.links, Device.eq_of_sansFabric htold.frame⟩
    · rw [heq]
      exact Device.linkChange_of_known p hknown

end Sys2Proof.Machine

/-! SUPPORT. Tensor engines (spec chapter 04): moves of rings, what a change of an engine leaves of its runner and its commands, and what
the sending of a message touches. -/

namespace Sys2Proof.Machine

open Sys2Proof

/-! ### Publishing and consuming entries (R166 to R168) -/

theorem Ring.publish_of_fits {r : Ring} {n : Nat} (hon : r.enable = true) (hfits : n ≤ r.free) :
    r.publish n = some { r with tail := r.tail.move r.count n } := by
  simp [Ring.publish, hon, hfits]

theorem Ring.publish_eq_none_iff (r : Ring) (n : Nat) : r.publish n = none ↔ r.enable = false ∨ r.free < n := by
  simp [Ring.publish, or_iff_not_imp_left]

theorem Ring.advance_of_filled {r : Ring} {n : Nat} (hon : r.enable = true) (hfill : n ≤ r.fill) :
    r.advance n = some { r with head := r.head.move r.count n } := by
  simp [Ring.advance, hon, hfill]

/-! ### Runners and issued commands -/

theorem Device.runner_e {d : Device} {e : Nat} {w : Runner} (h : d.runner e = some w) : w.e = e := by
  obtain ⟨b, -, rfl⟩ := Option.map_eq_some_iff.mp h
  rfl

theorem Eng.modIssued_head? (g : Eng) (seq : Nat) (f : Issued → Issued) :
    (g.modIssued seq f).issued.head? = g.issued.head?.map fun i => if i.cmd.seq = seq then f i else i := by
  simp [Eng.modIssued]

theorem Device.modEng_eq (d : Device) (e : Nat) (f : Eng → Eng) : d.modEng e f = { d with eng := (d.modEng e f).eng } := rfl

/-- A change of an engine that leaves what it is bound to leaves every runner. -/
theorem Device.modEng_runner (d : Device) (e k : Nat) {f : Eng → Eng} (hf : ∀ g, (f g).bound = g.bound) :
    (d.modEng e f).runner k = d.runner k := by
  have hbound : ((d.modEng e f).engine k).bound = (d.engine k).bound := by
    rw [Device.modEng_engine_if]
    split
    · next h => rw [hf, h]
    · rfl
  simp only [Device.runner, hbound]
  rfl

/-! ### What the sending of a message touches (R252 to R254, R262, R266) -/

theorem Device.tx_sansFabric (d : Device) (p : Nat) (m : FMsg) : (d.tx p m).sansFabric = d.sansFabric :=
  Device.sansFabric_of_sansSends (d.tx_sansSends p m)

theorem Device.modFab_sansFabric (d : Device) (f : Fab → Fab) : (d.modFab f).sansFabric = d.sansFabric := rfl

theorem Device.logBridge_sansFabric (d : Device) (addr kind dev tag reason : Nat) :
    (d.logBridge addr kind dev tag reason).sansFabric = d.sansFabric := rfl

/-- A message that is no read request leaves all but the fabric, outputs and free values. -/
theorem Device.noRoute_sansFabric (d : Device) {m : FMsg} (ring : Nat) (own : Bool) (h : (m.type == .rdReq) = false) :
    (d.noRoute m ring own).sansFabric = d.sansFabric := by
  unfold Device.noRoute
  split
  · next heq => exact absurd (heq ▸ h) (by decide)
  · split
    · exact (Device.logBridge_sansFabric _ _ _ _ _ _).trans (d.modFab_sansFabric _)
    · exact d.logBridge_sansFabric _ _ _ _ _
  · split
    · exact (Device.logBridge_sansFabric _ _ _ _ _ _).trans (d.modFab_sansFabric _)
    · exact d.logBridge_sansFabric _ _ _ _ _
  · exact d.logBridge_sansFabric _ _ _ _ _
  · rfl

theorem Device.depart_sansFabric (d : Device) (m : FMsg) (ring q : Nat) (down alt own : Bool) :
    (d.depart m ring q down alt own).sansFabric = d.sansFabric := by
  simp only [Device.depart]
  split
  · rw [Device.tx_sansFabric, Device.modFab_sansFabric, Device.modFab_sansFabric]
  · rw [Device.tx_sansFabric, Device.modFab_sansFabric]

theorem Device.send_sansFabric (d : Device) {m : FMsg} (ring : Nat) (h : (m.type == .rdReq) = false) :
    (d.send m ring).sansFabric = d.sansFabric := by
  unfold Device.send
  extract_lets own wait
  have hwait : (wait d).sansFabric = d.sansFabric := rfl
  split
  · exact hwait
  · split
    · exact hwait
    · exact d.noRoute_sansFabric ring own h
    · split
      · exact hwait
      · exact d.depart_sansFabric m ring _ _ _ own

end Sys2Proof.Machine

/-! SUPPORT. The front-end commands (R113 to R118): what is carried out, engine by engine. -/

namespace Sys2Proof.Machine

open Sys2Proof

/-! ### Commands that are carried out (R113 to R118) -/

theorem Device.finish_engine (d : Device) (w : Runner) (i : Issued) (st : NumStatus) (n : Option Nat) (k : Nat) :
    (d.finish w i st n).engine k = if k = w.e
      then (d.engine w.e).modIssued i.cmd.seq fun x => { x with done := true, st := st, produced := n } else d.engine k :=
  d.modEng_engine_if w.e k _

theorem Device.finish_carriedOut (d : Device) {w : Runner} {e : Nat} (i : Issued) (st : NumStatus) (n : Option Nat) (hw : w.e = e) :
    CarriedOut d (d.finish w i st n) e i st n := by
  subst hw
  exact ⟨rfl, fun k hk => by rw [Device.finish_engine, if_neg hk], by rw [Device.finish_engine, if_pos rfl]; rfl⟩

theorem Device.frontOp_eq {d : Device} {e : Nat} {o : Op} {w : Runner} {i : Issued} (ready : Device → Runner → Issued → Bool)
    (hw : d.runner e = some w) (hi : (d.engine e).pendingOp o = some i) :
    d.frontOp e o ready = if ready d w i then d.finish w i 0 none else d := by
  simp only [Device.frontOp, hw, hi]

/-- One engine's checkpoint is ready to commit (R117). -/
def Device.finishFront (d : Device) (p : Nat × Option Issued) : Device :=
  match d.runner p.1, p.2 with
  | some w, some y => d.finish w y 0 none
  | _, _ => d

theorem Device.finishFront_eq {d : Device} {w : Runner} {p : Nat × Option Issued} {y : Issued} (hw : d.runner p.1 = some w)
    (hy : p.2 = some y) : d.finishFront p = d.finish w y 0 none := by
  simp only [Device.finishFront, hw, hy]

/-- What no engine touches, and no change of an engine's issued commands, a checkpoint that is ready leaves. -/
theorem Device.finishFront_keeps {γ : Type} (φ : Device → γ) (p : Nat × Option Issued) (d : Device)
    (h : ∀ (w : Runner) (y : Issued), w.e = p.1 → φ (d.finish w y 0 none) = φ d) : φ (d.finishFront p) = φ d := by
  unfold Device.finishFront
  split
  · next w y hw _ => exact h w y (Device.runner_e hw)
  · rfl

/-- What stays of an engine while checkpoints become ready: its runner, and the descriptor of the command at its front. -/
def Device.frontOf (d : Device) (e : Nat) : Option Runner × Option Cmd := (d.runner e, (d.engine e).issued.head?.map Issued.cmd)

theorem Device.finishFront_frontOf (d : Device) (p : Nat × Option Issued) (e : Nat) : (d.finishFront p).frontOf e = d.frontOf e := by
  refine Device.finishFront_keeps (fun d => d.frontOf e) p d fun w y _ => Prod.ext (d.modEng_runner w.e e fun _ => rfl) ?_
  dsimp only [Device.frontOf]
  rw [Device.finish_engine]
  split
  · next h =>
    rw [Eng.modIssued_head?, Option.map_map, h]
    refine congrArg (fun f => Option.map f _) (funext fun i => ?_)
    exact (apply_ite Issued.cmd _ _ _).trans (ite_self _)
  · rfl

theorem Device.finishFront_done (d : Device) (p : Nat × Option Issued) (e : Nat)
    (h : (d.engine e).issued.head?.map Issued.done = some true) :
    ((d.finishFront p).engine e).issued.head?.map Issued.done = some true := by
  unfold Device.finishFront
  split
  · next w y _ _ =>
    rw [Device.finish_engine]
    split
    · next he =>
      obtain ⟨x, hx, hdone⟩ := Option.map_eq_some_iff.mp h
      rw [Eng.modIssued_head?, ← he, hx]
      simp only [Option.map_some]
      split
      · rfl
      · rw [hdone]
    · exact h
  · exact h

/-- Of the engines at the front of a job whose runner is known, each has its checkpoint ready afterwards. -/
theorem Device.finishFronts_done {d : Device} {l : List (Nat × Option Issued)} {p : Nat × Option Issued} {y : Issued} (hp : p ∈ l)
    (hw : (d.runner p.1).isSome = true) (hy : p.2 = some y) (hfront : (d.engine p.1).issued.head? = some y) :
    ((l.foldl Device.finishFront d).engine p.1).issued.head?.map Issued.done = some true := by
  obtain ⟨w, hw⟩ := Option.isSome_iff_exists.mp hw
  have hfrontOf : d.frontOf p.1 = (some w, some y.cmd) := by simp [Device.frontOf, hw, hfront]
  refine foldl_establishes (f := Device.finishFront) (P := fun a => a.frontOf p.1 = (some w, some y.cmd) →
    (a.engine p.1).issued.head?.map Issued.done = some true) hp (fun a ha => ?_) (fun a q h ha => ?_) d ?_
  · rw [Device.finishFront_frontOf] at ha
    obtain ⟨hrun, hcmd⟩ := Prod.mk.inj ha
    obtain ⟨x, hx, hxy⟩ := Option.map_eq_some_iff.mp hcmd
    rw [Device.finishFront_eq hrun hy, Device.finish_engine, if_pos (Device.runner_e hrun).symm, Eng.modIssued_head?,
      Device.runner_e hrun, hx]
    simp [hxy]
  · rw [Device.finishFront_frontOf] at ha
    exact a.finishFront_done q p.1 (h ha)
  · exact (foldl_keeps (fun a : Device => a.frontOf p.1) (fun a q => a.finishFront_frontOf q p.1) l d).trans hfrontOf

theorem Device.finishFronts_eq (d : Device) (l : List (Nat × Option Issued)) :
    l.foldl Device.finishFront d = { d with eng := (l.foldl Device.finishFront d).eng } :=
  (congrArg (fun x : Device => { x with eng := (l.foldl Device.finishFront d).eng })
    (foldl_keeps (fun x : Device => { x with eng := [] }) (f := Device.finishFront)
      (fun d p => Device.finishFront_keeps (fun x : Device => { x with eng := [] }) p d fun _ _ _ => rfl) l d) :)

theorem Device.finishFronts_engine_other (d : Device) {l : List (Nat × Option Issued)} {k : Nat} (hk : k ∉ l.map Prod.fst) :
    (l.foldl Device.finishFront d).engine k = d.engine k := by
  refine List.foldlRecOn (motive := fun b : Device => b.engine k = d.engine k) l _ rfl fun b hb p hp => ?_
  refine (Device.finishFront_keeps (fun x : Device => x.engine k) p b fun w y hw => ?_).trans hb
  rw [Device.finish_engine, if_neg fun h => hk (List.mem_map.mpr ⟨p, hp, (h.trans hw).symm⟩)]

theorem Device.checkpointOp_ready {d : Device} {e : Nat} {w : Runner} {i : Issued} (hw : d.runner e = some w)
    (hi : (d.engine e).pendingOp .checkpoint = some i) (hnext : i.cmd.p1 % 2 ^ 32 = (d.job w.j).ckpt + 1)
    (hall : ∀ p ∈ d.fronts w.j, (d.runner p.1).isSome = true ∧ ∃ y, p.2 = some y ∧ y.started = true ∧ y.op = .checkpoint
      ∧ y.cmd.p1 % 2 ^ 32 = i.cmd.p1 % 2 ^ 32) :
    d.checkpointOp e = (d.fronts w.j).foldl Device.finishFront d := by
  simp only [Device.checkpointOp, hw, hi, hnext, ne_eq, not_true_eq_false, if_false]
  refine if_pos (List.all_eq_true.mpr fun p hp => ?_)
  obtain ⟨-, y, hy, hstarted, hop, hnum⟩ := hall p hp
  simp only [hy, hstarted, hop, hnum.trans hnext, beq_self_eq_true, Bool.and_self]

/-- A command at the front of an engine, as `fronts` lists it. -/
theorem Device.head?_of_mem_fronts {d : Device} {j : Nat} {p : Nat × Option Issued} (hp : p ∈ d.fronts j) :
    (d.engine p.1).issued.head? = p.2 := by
  obtain ⟨e, -, rfl⟩ := List.mem_map.mp hp
  rfl

/-- Settles O28, command by command. -/
theorem frontEnd : Obligations.FrontEnd := by
  intro s e w i hs hw
  have hcarried := s.dev.finish_carriedOut i 0 none (Device.runner_e hw)
  refine ⟨fun hi => ⟨fun hholds => ?_, fun hholds => ?_⟩, fun hi => ?_, fun hi => ?_, fun hi hon hfits => ?_, fun hi hputs => ?_,
    fun hi hnext hall => ?_⟩
  · refine Runs.of_on hs (exec_wait e s) ?_
    rwa [Device.frontOp_eq _ hw hi, if_pos hholds]
  · refine Runs.of_on hs (exec_wait e s) ?_
    rw [Device.frontOp_eq _ hw hi, hholds, if_neg Bool.false_ne_true]
  · refine Runs.of_on hs (exec_signal e s) ?_
    rwa [Device.frontOp_eq _ hw hi]
  · refine Runs.of_on hs (exec_nop e s) ?_
    rwa [Device.frontOp_eq _ hw hi]
  · refine Runs.of_on hs (exec_publish e s) ?_
    rwa [show s.dev.publishOp e = s.dev.finish w i 0 none by simp [Device.publishOp, hw, hi, Ring.publish_of_fits hon hfits]]
  · refine Runs.of_on hs (exec_fence e s) ?_
    have heq : s.dev.fenceOp e = s.dev.finish w i 0 none := by
      cases hbit : bitOf i.cmd.p1 0 with
      | false => simp [Device.fenceOp, hw, hi, hbit]
      | true =>
        obtain ⟨hgood, hclosed⟩ := hputs hbit
        simp [Device.fenceOp, hw, hi, hbit, hgood, hclosed]
    rwa [heq]
  · refine Runs.of_on hs (exec_checkpoint e s) ?_
    rw [Device.checkpointOp_ready hw hi hnext hall]
    refine ⟨Device.finishFronts_eq _ _, fun p hp => ?_, fun k hk => Device.finishFronts_engine_other _ hk⟩
    obtain ⟨hrun, y, hy, -⟩ := hall p hp
    exact Device.finishFronts_done hp hrun hy ((Device.head?_of_mem_fronts hp).trans hy)

end Sys2Proof.Machine

/-! SUPPORT. The data opcodes (R95, R102 to R112, R118, R119, R127, R158, R174): access checks, stores, and what a completed command
leaves. -/

namespace Sys2Proof.Machine

open Sys2Proof

/-! ### Translation (R338 to R340, R357, R358) -/

/-- The device without what a translation changes: page tables, processors and free values. -/
def Device.sansWalk (d : Device) : Device := { d with mem := [], proc := Proc.init, fresh := 0 }

theorem Device.put_sansWalk (d : Device) (a : Nat) (bs : List Byte) : (d.put a bs).sansWalk = d.sansWalk := by
  rw [Device.put_eq]
  rfl

/-- A walk that finds a page has touched nothing but what `sansWalk` leaves out. -/
def Device.WalkLeaves (d : Device) (r : WalkRes) : Prop := ∀ h, r = .ok h → h.2.sansWalk = d.sansWalk

theorem Device.walkLeaves_error (d : Device) (n : Nat) : d.WalkLeaves (.error n) := fun _ h => by cases h

theorem Device.WalkLeaves.ite {d : Device} {c : Prop} [Decidable c] {r s : WalkRes} (hr : d.WalkLeaves r) (hs : d.WalkLeaves s) :
    d.WalkLeaves (if c then r else s) := by
  split
  · exact hr
  · exact hs

theorem Device.WalkLeaves.trans {d e : Device} {r : WalkRes} (hr : e.WalkLeaves r) (he : e.sansWalk = d.sansWalk) : d.WalkLeaves r :=
  fun h hh => (hr h hh).trans he

theorem Device.useLeaf_leaves (d : Device) (write glob : Bool) (fault pa p level va : Nat) :
    d.WalkLeaves (d.useLeaf write fault pa p level va glob) := by
  refine .ite (d.walkLeaves_error _) fun h hh => ?_
  rw [← Except.ok.inj hh]
  exact (apply_ite Device.sansWalk _ _ _).trans (by rw [Device.put_sansWalk, ite_self])

theorem Device.walkStep_leaves (d : Device) (write : Bool) (gpa level pa : Nat) {next : Nat → WalkRes}
    (hnext : ∀ p, d.WalkLeaves (next p)) : d.WalkLeaves (d.walkStep write gpa level pa next) :=
  .ite (d.walkLeaves_error _) (.ite (d.walkLeaves_error _) (.ite (d.useLeaf_leaves _ _ _ _ _ _ _) (hnext _)))

theorem Device.walkG_leaves (d : Device) (write : Bool) (gpa n base idx : Nat) : d.WalkLeaves (d.walkG write gpa n base idx) := by
  induction n generalizing base idx with
  | zero => exact d.walkStep_leaves write gpa 0 _ fun _ => d.walkLeaves_error _
  | succ n ih => exact d.walkStep_leaves write gpa (n + 1) _ fun _ => ih _ _

theorem Device.walkLeaves_here (d : Device) (x : WalkHit) : d.WalkLeaves (.ok (x, d)) := fun h hh => by rw [← Except.ok.inj hh]

theorem Device.stage2_leaves (d : Device) (c : Nat) (write : Bool) (gpa : Nat) : d.WalkLeaves (d.stage2 c write gpa) :=
  .ite (d.walkLeaves_here _) (.ite (.ite (d.walkLeaves_error _) (d.walkG_leaves _ _ _ _ _)) (d.walkLeaves_error _))

theorem Device.walkS_leaves (d : Device) (c : Nat) (write : Bool) (va n base : Nat) (glob : Bool) :
    d.WalkLeaves (d.walkS c write va n base glob) := by
  induction n generalizing d base glob with
  | zero =>
    rw [Device.walkS]
    split
    · exact d.walkLeaves_error _
    · next t e he =>
      refine .trans ?_ (d.stage2_leaves _ _ _ _ he)
      refine .ite (e.walkLeaves_error _) (.ite (e.walkLeaves_error _) (.ite ?_ (e.walkLeaves_error _)))
      split
      · exact e.walkLeaves_error _
      · next t' f hf => exact .trans (f.useLeaf_leaves _ _ _ _ _ _ _) (e.stage2_leaves _ _ _ _ hf)
  | succ n ih =>
    rw [Device.walkS]
    split
    · exact d.walkLeaves_error _
    · next t e he =>
      refine .trans ?_ (d.stage2_leaves _ _ _ _ he)
      refine .ite (e.walkLeaves_error _) (.ite (e.walkLeaves_error _) (.ite ?_ (ih e _ _)))
      split
      · exact e.walkLeaves_error _
      · next t' f hf => exact .trans (f.useLeaf_leaves _ _ _ _ _ _ _) (e.stage2_leaves _ _ _ _ hf)

theorem Device.stage1_leaves (d : Device) (c : Nat) (write : Bool) (va : Nat) : d.WalkLeaves (d.stage1 c write va) :=
  .ite (d.walkLeaves_here _) (.ite (.ite (d.walkS_leaves _ _ _ _ _ _) (d.walkLeaves_error _)) (d.walkLeaves_error _))

theorem Device.walkBoth_leaves {d e : Device} {c a p : Nat} {write : Bool} (hw : d.walkBoth c write a = .ok (p, e)) :
    e.sansWalk = d.sansWalk := by
  simp only [Device.walkBoth] at hw
  split at hw
  · cases hw
  · next h1 d1 hd1 =>
    have h1 := d.stage1_leaves _ _ _ _ hd1
    split at hw
    · cases hw
    · next h2 d2 hd2 =>
      have h2 := (d1.stage2_leaves _ _ _ _ hd2).trans h1
      split_ifs at hw <;> cases hw <;> exact h2

theorem Device.setProc_sansWalk (d : Device) (p : Proc) : ({ d with proc := p } : Device).sansWalk = d.sansWalk := rfl

theorem Device.dirty_sansWalk (d : Device) (c : Nat) (world : Bool) (a : Nat) : (d.dirty c world a).sansWalk = d.sansWalk := by
  simp only [Device.dirty]
  split
  · rfl
  · split
    · exact d.setProc_sansWalk _
    · exact (Device.setProc_sansWalk _ _).trans (d.put_sansWalk _ _)

theorem Device.translate_sansWalk (d : Device) (c : Nat) (world write : Bool) (a : Nat) :
    (d.translate c world write a).2.sansWalk = d.sansWalk := by
  unfold Device.translate
  extract_lets tc hit r
  have hr : r.2.sansWalk = d.sansWalk := by
    simp only [r]
    cases hit with
    | some x => rfl
    | none =>
      dsimp only
      split
      · next hw => exact Device.walkBoth_leaves hw
      · rfl
  split
  · rfl
  · split
    · exact (Device.dirty_sansWalk _ _ _ _).trans hr
    · exact hr

/-! ### Access checks that pass (R102, R126, R340) -/

/-- A check that finds no fault refuses nothing, so it logs no refusal. -/
theorem Device.checkPage_passes {d e : Device} {w : Runner} {write sealedT weight : Bool} {u n : Nat}
    (h : d.checkPage w write sealedT weight u n = (e, none)) : e.sansWalk = d.sansWalk := by
  have hat (x : Device) (p : Nat) (hx : (match x.placeFault w.world write sealedT weight p with
      | some c =>
        (if x.refusalLogged w.world write weight p then x.logRefusal (Port.engine w.e) p write w.world else x, some (c, p))
      | none => (x, none)) = (e, none)) : e = x := by
    split at hx
    · cases hx
    · cases hx
      rfl
  have htr := d.translate_sansWalk w.ctx w.world write (u % 2 ^ 56)
  unfold Device.checkPage at h
  dsimp only at h
  split at h
  · split at h
    · next p x hx =>
      rw [hx] at htr
      rw [hat x p h]
      exact htr
    · cases h
  · rw [hat d _ h]
  all_goals rw [← (Prod.mk.inj h).1]

theorem Device.checkRanges_passes {d e : Device} {w : Runner} {write sealedT weight : Bool} {rs : List (Nat × Nat)}
    (h : d.checkRanges w write sealedT weight rs = (e, none)) : e.sansWalk = d.sansWalk := by
  have hfold : (d.checkRanges w write sealedT weight rs).2 = none →
      (d.checkRanges w write sealedT weight rs).1.sansWalk = d.sansWalk := by
    refine List.foldlRecOn (motive := fun p : Device × Option (Nat × Nat) => p.2 = none → p.1.sansWalk = d.sansWalk) _ _
      (fun _ => rfl) fun p hp r _ => ?_
    split
    · next c hc => exact fun hno => absurd (hc.symm.trans hno) (by simp)
    · next hnone => exact fun hno => (Device.checkPage_passes (Prod.ext rfl hno)).trans (hp hnone)
  rw [h] at hfold
  exact hfold rfl

theorem Device.checkSources_passes {d e : Device} {w : Runner} {i : Issued} (h : d.checkSources w i = (e, none)) :
    e.sansWalk = d.sansWalk := by
  let ok (p : Device × Option (Nat × Nat × Nat)) : Prop := p.2 = none → p.1.sansWalk = d.sansWalk
  have hfold : ok (d.checkSources w i) := by
    refine List.foldlRecOn (motive := ok) _ _ (fun _ => rfl) fun p hp x _ => List.foldlRecOn (motive := ok) _ _ hp fun p hp r _ => ?_
    split
    · next c hc => exact fun hno => absurd (hc.symm.trans hno) (by simp)
    · next hnone =>
      exact fun hno => (Device.checkRanges_passes (Prod.ext rfl (Option.map_eq_none_iff.mp hno))).trans (hp hnone)
  rw [h] at hfold
  exact hfold rfl

/-! ### Stores of a command (R158, R174) -/

theorem Eng.store_issued (g : Eng) (line : Nat) (bytes : Tab Byte) (seq : Nat) : (g.store line bytes seq).issued = g.issued := by
  simp only [Eng.store]
  split
  · rfl
  · split <;> rfl

/-- A store to a stack changes the engine's buffer, and another one memory and the port's counts. -/
theorem Device.storePage_keeps {γ : Type} (φ : Device → γ) {w : Runner} {seq : Nat}
    (hbuf : ∀ (d : Device) (line : Nat) (bytes : Tab Byte), φ (d.modEng w.e fun g => g.store line bytes seq) = φ d)
    (hput : ∀ (d : Device) (a : Nat) (bs : List Byte), φ (d.put a bs) = φ d)
    (hserved : ∀ (d : Device) (c : Noc) (n : Nat), φ { d with noc := c, fresh := n } = φ d) (d : Device) (u : Nat) (bs : List Byte) :
    φ (d.storePage w seq u bs) = φ d := by
  unfold Device.storePage
  split
  · rfl
  · next p _ =>
    have hport : φ ((d.put p bs).served (Port.engine w.e) true p bs.length) = φ d := by
      rw [Device.served_eq, hserved, hput]
    split
    · exact foldl_keeps φ (fun d (x : Nat × Tab Byte) => hbuf d x.1 x.2) _ d
    · exact hport
    · exact hport
    · exact hput d p bs

/-- The pages of a list of byte strings, stored one after the other. -/
def Device.storePages (d : Device) (w : Runner) (seq : Nat) (ws : List (Nat × List Byte)) : Device :=
  ws.foldl (fun d x => d.storePage w seq x.1 x.2) d

theorem Device.storeBytes_eq (d : Device) (w : Runner) (seq : Nat) (x : Nat × List Byte) :
    d.storeBytes w seq x.1 x.2 = d.storePages w seq (pageWrites x) := by
  rw [Device.storePages, pageWrites, List.foldl_map]
  rfl

theorem Device.foldl_storeBytes (d : Device) (w : Runner) (seq : Nat) (ws : List (Nat × List Byte)) :
    ws.foldl (fun d x => d.storeBytes w seq x.1 x.2) d = d.storePages w seq (ws.flatMap pageWrites) := by
  induction ws generalizing d with
  | nil => rfl
  | cons x ws ih =>
    rw [List.foldl_cons, ih, Device.storeBytes_eq, List.flatMap_cons, Device.storePages, Device.storePages, Device.storePages,
      List.foldl_append]

/-- The device without what stores change. -/
def Device.sansStores (d : Device) : Device := { d with mem := [], eng := [], noc := Noc.init, fresh := 0 }

theorem Device.storePages_sansStores (d : Device) (w : Runner) (seq : Nat) (ws : List (Nat × List Byte)) :
    (d.storePages w seq ws).sansStores = d.sansStores := by
  refine foldl_keeps Device.sansStores (fun d x => ?_) ws d
  refine Device.storePage_keeps Device.sansStores (fun _ _ _ => rfl) (fun d a bs => ?_) (fun _ _ _ => rfl) d x.1 x.2
  rw [Device.put_eq]
  rfl

theorem Device.put_engine (d : Device) (a k : Nat) (bs : List Byte) : (d.put a bs).engine k = d.engine k := by
  rw [Device.put_eq]
  rfl

theorem Device.storePages_engine_other (d : Device) {w : Runner} {k : Nat} (seq : Nat) (ws : List (Nat × List Byte)) (hk : k ≠ w.e) :
    (d.storePages w seq ws).engine k = d.engine k := by
  refine foldl_keeps (fun d : Device => d.engine k) (fun d x => ?_) ws d
  exact Device.storePage_keeps (fun d : Device => d.engine k) (fun d _ _ => by rw [Device.modEng_engine_if, if_neg hk])
    (fun d a bs => d.put_engine a k bs) (fun _ _ _ => rfl) d x.1 x.2

theorem Device.storePages_issued (d : Device) (w : Runner) (seq : Nat) (ws : List (Nat × List Byte)) :
    ((d.storePages w seq ws).engine w.e).issued = (d.engine w.e).issued := by
  refine foldl_keeps (fun d : Device => (d.engine w.e).issued) (fun d x => ?_) ws d
  exact Device.storePage_keeps (fun d : Device => (d.engine w.e).issued)
    (fun d _ _ => by rw [Device.modEng_engine, Eng.store_issued]) (fun d a bs => by rw [Device.put_engine]) (fun _ _ _ => rfl) d x.1 x.2

/-- A store of a page changes no byte outside the page's place. -/
theorem Device.storePage_byte {d : Device} {w : Runner} {u a : Nat} {bs : List Byte} (seq : Nat)
    (h : ∀ p, d.place w u = some p → a < p ∨ p + bs.length ≤ a) : (d.storePage w seq u bs).byte a = d.byte a := by
  unfold Device.storePage
  split
  · rfl
  · next p hp =>
    have hput : (d.put p bs).byte a = d.byte a := by
      rw [Device.byte_put, if_neg (by have := h p hp; omega)]
    have hport : ((d.put p bs).served (Port.engine w.e) true p bs.length).byte a = d.byte a := by
      rw [Device.served_eq]
      exact hput
    split
    · exact foldl_keeps (fun d : Device => d.byte a)
        (f := fun (d : Device) (x : Nat × Tab Byte) => d.modEng w.e fun g => g.store x.1 x.2 seq) (fun _ _ => rfl) _ d
    · exact hport
    · exact hport
    · exact hput

theorem Device.storePages_byte {d : Device} {w : Runner} {seq a : Nat} {ws : List (Nat × List Byte)}
    (h : ∀ r ∈ Device.storedRanges w seq d ws, a < r.1 ∨ r.2 ≤ a) : (d.storePages w seq ws).byte a = d.byte a := by
  induction ws generalizing d with
  | nil => rfl
  | cons x ws ih =>
    have hpage : (d.storePage w seq x.1 x.2).byte a = d.byte a := by
      refine Device.storePage_byte seq fun p hp => h (p, p + x.2.length) ?_
      simp [Device.storedRanges, hp]
    exact (ih fun r hr => h r (List.mem_append_right _ hr)).trans hpage

/-! ### Requests and messages of a command (R118, R223, R235, R253) -/

theorem Device.servedFree_eq (d : Device) (p : Port) (write : Bool) (a : Nat) :
    d.servedFree p write a = { d with noc := (d.servedFree p write a).noc, fresh := (d.servedFree p write a).fresh } := by
  rw [Device.servedFree, Device.served_eq]

theorem Device.readTraffic_keeps {γ : Type} (φ : Device → γ)
    (h : ∀ (d : Device) (c : Noc) (n : Nat), φ { d with noc := c, fresh := n } = φ d) (d : Device) (w : Runner) (i : Issued) :
    φ (d.readTraffic w i) = φ d :=
  foldl_keeps φ (fun d p => by rw [Device.servedFree_eq, h]) _ d

theorem Device.sendWrites_keeps {γ : Type} (φ : Device → γ)
    (h : ∀ (d : Device) (c : Noc) (f : Fab) (o : List Note) (n : Nat), φ { d with noc := c, fab := f, out := o, fresh := n } = φ d)
    (d : Device) (w : Runner) (i : Issued) (ws : List (Nat × List Byte)) : φ (d.sendWrites w i ws) = φ d := by
  have hsend (e : Device) (m : FMsg) (ring : Nat) (hm : (m.type == .rdReq) = false) : φ (e.send m ring) = φ e := by
    rw [Device.eq_of_sansFabric (e.send_sansFabric ring hm)]
    exact h e e.noc _ _ _
  refine foldl_keeps φ (fun d x => (foldl_keeps φ (fun e p => hsend e _ _ ?_) _ _).trans ?_) ws d
  · simp only [Device.writeMsg]
    split <;> rfl
  · rw [Device.served_eq]
    exact h d _ d.fab d.out _

theorem Device.sendWrites_nil (d : Device) (w : Runner) (i : Issued) : d.sendWrites w i [] = d := rfl

/-! ### The data opcodes (R102 to R112, R118, R127) -/

/-- The device while a command stores its results: its reads counted, its local writes made. -/
def Device.dataStored (d : Device) (w : Runner) (i : Issued) (out : ExecOut) : Device :=
  (d.readTraffic w i).storePages w i.cmd.seq (out.local'.flatMap pageWrites)

/-- The device after a command's results have been stored or sent and the command marked. -/
def Device.dataDone (d : Device) (w : Runner) (i : Issued) (out : ExecOut) : Device :=
  ((d.dataStored w i out).sendWrites w i (out.writes.filter fun x => spaceOf x.1 == 4)).finish w i out.st out.produced

theorem Device.dataOp_completes {d d1 d2 : Device} {e : Nat} {o : Op} {w : Runner} {i : Issued} {out : ExecOut}
    {run : Issued → (Nat → Option View) → (Nat → Nat) → ExecRes} (hw : d.runner e = some w)
    (hi : (d.engine e).pendingOp o = some i) (hanswered : d.fab.answered e i.cmd.seq = true) (hmay : d.mayRun w i = true)
    (hsources : d.checkSources w i = (d1, none)) (hrun : run i (d1.views w i) (d1.read w i.fetched) = .ok out)
    (hwrites : d1.checkWrites w out.local' = (d2, none)) : d.dataOp e o run = d2.dataDone w i out := by
  rw [ExecOut.local'] at hwrites
  simp only [Device.dataOp, hw, hi, hanswered, hmay, hsources, hrun, hwrites, Bool.not_true, Bool.or_self, Bool.false_eq_true, if_false,
    Device.dataDone, Device.dataStored, ExecOut.local', Device.foldl_storeBytes]

/-- The device without what a data opcode may change. -/
def Device.sansData (d : Device) : Device :=
  { d with mem := [], proc := Proc.init, eng := [], noc := Noc.init, fab := Fab.init, out := [], fresh := 0 }

theorem Device.eq_of_sansData {d e : Device} (h : e.sansData = d.sansData) :
    e = { d with mem := e.mem, proc := e.proc, eng := e.eng, noc := e.noc, fab := e.fab, out := e.out, fresh := e.fresh } :=
  congrArg (fun x : Device => { x with
    mem := e.mem, proc := e.proc, eng := e.eng, noc := e.noc, fab := e.fab, out := e.out, fresh := e.fresh }) h

theorem Device.dataStored_sansStores (d : Device) (w : Runner) (i : Issued) (out : ExecOut) :
    (d.dataStored w i out).sansStores = d.sansStores :=
  (Device.storePages_sansStores _ _ _ _).trans (Device.readTraffic_keeps Device.sansStores (fun _ _ _ => rfl) d w i)

theorem Device.dataDone_sansData (d : Device) (w : Runner) (i : Issued) (out : ExecOut) : (d.dataDone w i out).sansData = d.sansData :=
  (Device.sendWrites_keeps Device.sansData (fun _ _ _ _ _ => rfl) _ w i _).trans
    (congrArg Device.sansData (d.dataStored_sansStores w i out) :)

/-- Of the engines a data opcode touches its own: the mark of the command, and the buffer of its stores. -/
theorem Device.dataDone_engine (d : Device) (w : Runner) (i : Issued) (out : ExecOut) (k : Nat) :
    (d.dataDone w i out).engine k = if k = w.e
      then ((d.dataStored w i out).engine w.e).modIssued i.cmd.seq fun x =>
        { x with done := true, st := out.st, produced := out.produced }
      else d.engine k := by
  have hsends (k : Nat) := Device.sendWrites_keeps (fun x : Device => x.engine k) (fun _ _ _ _ _ => rfl) (d.dataStored w i out) w i
    (out.writes.filter fun x => spaceOf x.1 == 4)
  rw [Device.dataDone, Device.finish_engine]
  split
  · rw [hsends]
  · next hk =>
    exact (hsends k).trans ((Device.storePages_engine_other _ _ _ hk).trans
      (Device.readTraffic_keeps (fun x : Device => x.engine k) (fun _ _ _ => rfl) d w i))

theorem Device.dataStored_issued (d : Device) (w : Runner) (i : Issued) (out : ExecOut) :
    ((d.dataStored w i out).engine w.e).issued = (d.engine w.e).issued :=
  (Device.storePages_issued _ _ _ _).trans
    (Device.readTraffic_keeps (fun x : Device => (x.engine w.e).issued) (fun _ _ _ => rfl) d w i)

theorem Device.dataDone_mem (d : Device) (w : Runner) (i : Issued) (out : ExecOut) :
    (d.dataDone w i out).mem = (d.dataStored w i out).mem :=
  Device.sendWrites_keeps Device.mem (fun _ _ _ _ _ => rfl) _ w i _

theorem Device.dataDone_byte {d : Device} {w : Runner} {i : Issued} {out : ExecOut} {a : Nat}
    (h : ∀ r ∈ Device.storedRanges w i.cmd.seq (d.readTraffic w i) (out.local'.flatMap pageWrites), a < r.1 ∨ r.2 ≤ a) :
    (d.dataDone w i out).byte a = d.byte a :=
  (Device.sendWrites_keeps (fun x : Device => x.byte a) (fun _ _ _ _ _ => rfl) _ w i _).trans
    ((Device.storePages_byte h).trans (Device.readTraffic_keeps (fun x : Device => x.byte a) (fun _ _ _ => rfl) d w i))

/-- Without a write to another device no message leaves. -/
theorem Device.dataDone_local {d : Device} {w : Runner} {i : Issued} {out : ExecOut}
    (h : out.writes.all (fun x => spaceOf x.1 != 4) = true) : (d.dataDone w i out).fab = d.fab ∧ (d.dataDone w i out).out = d.out := by
  have hnone : (out.writes.filter fun x => spaceOf x.1 == 4) = [] :=
    List.filter_eq_nil_iff.mpr fun x hx => by simpa using List.all_eq_true.mp h x hx
  have hstored := d.dataStored_sansStores w i out
  rw [Device.dataDone, hnone, Device.sendWrites_nil]
  exact ⟨(congrArg Device.fab hstored :), (congrArg Device.out hstored :)⟩

/-- A command whose meaning is a data opcode completes. -/
theorem DataRuns.of_dataOp {c : Fin 32 → Instr} {o : Op} {run : Issued → (Nat → Option View) → (Nat → Nat) → ExecRes}
    (hc : ∀ e s, exec (c e) s = s.on fun d => d.dataOp e o run) : DataRuns c o run := by
  intro s e w i d1 d2 out hs hw hi hanswered hmay hsources hrun hwrites
  refine Runs.of_on hs (hc e s) ?_
  rw [Device.dataOp_completes hw hi hanswered hmay hsources hrun hwrites]
  intro from' stored
  have hchecks : d2.sansWalk = s.dev.sansWalk := (Device.checkRanges_passes hwrites).trans (Device.checkSources_passes hsources)
  have heng (k : Nat) : d2.engine k = s.dev.engine k := (congrArg (fun x : Device => x.engine k) hchecks :)
  have hstored : stored = d2.dataStored w i out := Device.foldl_storeBytes _ _ _ _
  have hown : (d2.dataDone w i out).engine e = _ := (d2.dataDone_engine w i out e).trans (if_pos (Device.runner_e hw).symm)
  rw [hstored, hown, ← Device.runner_e hw]
  refine ⟨?_, fun k hk => ?_, d2.dataDone_mem w i out, rfl, rfl, fun a ha => Device.dataDone_byte ha,
    Device.eq_of_sansData ((d2.dataDone_sansData w i out).trans (congrArg Device.sansData hchecks :)), fun hlocal => ?_⟩
  · rw [← heng, ← d2.dataStored_issued w i out]
    rfl
  · rw [Device.dataDone_engine, if_neg hk, heng]
  · obtain ⟨hfab, hout⟩ := Device.dataDone_local (d := d2) (w := w) (i := i) hlocal
    exact ⟨hfab.trans (congrArg Device.fab hchecks :), hout.trans (congrArg Device.out hchecks :)⟩

/-- Settles O27: every data opcode is `dataOp` with its own computation. -/
theorem dataOps : Obligations.DataOps :=
  ⟨.of_dataOp exec_mma, .of_dataOp exec_attn, .of_dataOp exec_spmm, .of_dataOp exec_vprog, .of_dataOp exec_cvt, .of_dataOp exec_copy,
    .of_dataOp exec_remote, .of_dataOp exec_gather, .of_dataOp exec_scatter, .of_dataOp exec_segred, .of_dataOp exec_sort,
    .of_dataOp exec_merge, .of_dataOp exec_topk, .of_dataOp exec_setop, .of_dataOp exec_hashb, .of_dataOp exec_hashp⟩

end Sys2Proof.Machine

/-! SUPPORT. Faults of commands (R121, R126, R211, R212), and issue, breakpoint and start (R91 to R96, R477). -/

namespace Sys2Proof.Machine

open Sys2Proof

/-! ### What a fault of a command leaves (R121, R126, R211, R212) -/

/-- The fault registers of an engine. -/
def Eng.faultWords (g : Eng) : Nat × Nat × Nat := (g.faultInfo, g.faultSeq, g.faultAddr)

theorem FaultRegs.of_faultWords {g : Eng} {code slot seq addr : Nat} {atIssue : Bool}
    (h : g.faultWords = (code + 2 ^ 8 * slot + 2 ^ 12 * b2n atIssue, seq, addr)) : FaultRegs g code slot seq addr atIssue :=
  ⟨congrArg Prod.fst h, congrArg (fun x => x.2.1) h, congrArg (fun x => x.2.2) h⟩

theorem Device.modEng_faultWords (d : Device) (k e : Nat) {f : Eng → Eng} (hf : ∀ g, (f g).faultWords = g.faultWords) :
    ((d.modEng k f).engine e).faultWords = (d.engine e).faultWords := by
  rw [Device.modEng_engine_if]
  split
  · next h => rw [hf, h]
  · rfl

theorem Device.killEngine_faultWords (d : Device) (k e : Nat) (atomicToo : Bool) :
    ((d.killEngine k atomicToo).engine e).faultWords = (d.engine e).faultWords := by
  by_cases he : e = k
  · subst he
    exact (congrArg Eng.faultWords (Device.setEng_engine _ e _)).trans rfl
  · obtain ⟨x, g, hx, -, hkill⟩ := d.killEngine_eq k atomicToo
    rw [hkill, Device.setEng_engine_if, if_neg he, Device.eng_of_sansNet hx]

theorem Device.leaveAll_faultWords (d : Device) (es : List Nat) (e : Nat) :
    ((d.leaveAll es).engine e).faultWords = (d.engine e).faultWords :=
  foldl_keeps (fun x : Device => (x.engine e).faultWords) (f := fun (x : Device) k => x.modEng k fun g => { g with leaving := true })
    (fun x k => x.modEng_faultWords k e fun _ => rfl) es d

/-- A job fault kills and gives back engines, and leaves their fault registers. -/
theorem Device.jobFault_faultWords (d : Device) (j code logical e : Nat) :
    ((d.jobFault j code logical).engine e).faultWords = (d.engine e).faultWords := by
  unfold Device.jobFault
  dsimp only
  split
  · rfl
  · refine (Device.leaveAll_faultWords _ _ e).trans ?_
    refine (foldl_keeps (fun x : Device => (x.engine e).faultWords) (fun x n => ?_) _ _).trans
      (foldl_keeps (fun x : Device => (x.engine e).faultWords) (f := fun (x : Device) k => (x.killEngine k true).fenceEngine k)
        (fun x k => x.killEngine_faultWords k e true) _ d)
    exact (congrArg (fun y : Device => (y.engine e).faultWords) (x.moveRing_sansRings n _) :)

theorem Device.put_jobs (d : Device) (a : Nat) (bs : List Byte) : (d.put a bs).jobs = d.jobs := by rw [Device.put_eq]

/-- A completion record writes memory and moves a ring; where the region checkers refuse it, it is logged instead. -/
theorem Device.record_calm (d : Device) (w : Runner) (seq status : Nat) (st : NumStatus) (j : Nat) :
    ((d.record w seq status st).job j).calm = (d.job j).calm := by
  simp only [Device.record]
  split
  · rfl
  · rw [Device.moveRing_calm, Device.job_of_jobs (Device.put_jobs _ _ _)]
    rfl
  · rfl

theorem Device.engineOut_eng (d : Device) (e : Nat) : (d.engineOut e).eng = d.eng := by
  unfold Device.engineOut
  split <;> rfl

theorem Device.reportCause_leaves (d : Device) (cause : Nat) (source : Option Nat) :
    d.reportCause cause source = { d with arb := (d.reportCause cause source).arb, fresh := (d.reportCause cause source).fresh } := by
  cases h : d.arb.valid
  · simp [Device.reportCause, h]
  · obtain ⟨t, s, a, n, heq⟩ := d.reportCause_eq cause source h
    rw [heq]

theorem Device.checkFault_leaves (d : Device) (k : Nat) :
    (d.checkFault k).jobs = d.jobs ∧ ∀ e, ((d.checkFault k).engine e).faultWords = (d.engine e).faultWords := by
  simp only [Device.checkFault]
  split
  · rw [Device.reportCause_leaves]
    refine ⟨Device.engineOut_jobs _ _, fun e => ?_⟩
    refine (congrArg (fun t => (tget engDef t e).faultWords) (Device.engineOut_eng _ _)).trans ?_
    exact d.modEng_faultWords k e fun _ => rfl
  · exact ⟨rfl, fun e => d.modEng_faultWords k e fun _ => rfl⟩

theorem Device.faultRegs_jobs (d : Device) (f : FaultOf) : (d.faultRegs f).jobs = d.jobs := by
  simp only [Device.faultRegs]
  split
  · exact (Device.checkFault_leaves _ _).1
  · rfl

theorem Device.faultRegs_faultWords (d : Device) (f : FaultOf) :
    ((d.faultRegs f).engine f.w.e).faultWords = (f.code + 2 ^ 8 * f.slot + 2 ^ 12 * b2n f.atIssue, f.seq, f.addr) := by
  simp only [Device.faultRegs]
  split
  · rw [(Device.checkFault_leaves _ _).2, Device.modEng_engine]
    rfl
  · rw [Device.modEng_engine]
    rfl

theorem Job.mayFault_of_calm {x y : Job} (h : x.calm = y.calm) (hy : y.mayFault) : x.mayFault := by
  have hst : x.st = y.st := (congrArg Job.st h :)
  have hrelease : x.release = y.release := (congrArg Job.release h :)
  rwa [Job.mayFault, hst, hrelease]

theorem Job.mayFault_of_running {x : Job} (hst : x.st = .running) (hkept : x.release ≠ .delete) : x.mayFault := by
  simp [Job.mayFault, hst, hkept]

/-- A fault of one command: its record, its engine's registers, its job. -/
theorem Device.cmdFault_eq (d : Device) (w : Runner) (seq code slot addr : Nat) (atIssue : Bool) :
    d.cmdFault w seq code slot addr atIssue
      = ((d.record w seq code 0).faultRegs ⟨w, seq, code, slot, addr, atIssue⟩).jobFault w.j code w.l := rfl

theorem Device.cmdFault_faulted {d : Device} {w : Runner} (seq code slot addr : Nat) (atIssue : Bool) (h : (d.job w.j).mayFault) :
    JobFaulted (d.cmdFault w seq code slot addr atIssue) w.j code w.l := by
  rw [Device.cmdFault_eq]
  refine Device.jobFault_faulted code w.l (Job.mayFault_of_calm ?_ h)
  exact (congrArg Job.calm (Device.job_of_jobs (Device.faultRegs_jobs _ _) w.j)).trans (d.record_calm w seq code 0 w.j)

theorem Device.cmdFault_faultRegs (d : Device) {w : Runner} {e : Nat} (seq code slot addr : Nat) (atIssue : Bool) (hw : w.e = e) :
    FaultRegs ((d.cmdFault w seq code slot addr atIssue).engine e) code slot seq addr atIssue := by
  subst hw
  rw [Device.cmdFault_eq]
  exact .of_faultWords ((Device.jobFault_faultWords _ _ _ _ _).trans (Device.faultRegs_faultWords _ _))

/-! ### Issue and breakpoints (R91 to R96, R477) -/

section Issue

variable {d : Device} {e n : Nat} {w : Runner} {c : Cmd} (hnext : d.nextCommand e = some (w, n, c))
include hnext

theorem Device.nextCommand_runner : d.runner e = some w ∧ (d.job w.j).st = .running := by
  unfold Device.nextCommand at hnext
  split at hnext
  · cases hnext
  · next v hv =>
    dsimp only at hnext
    obtain ⟨⟨hst, -⟩, heq⟩ | ⟨-, hno⟩ := ite_eq_iff.mp hnext
    · cases heq
      exact ⟨hv, hst⟩
    · cases hno

theorem Device.nextCommand_expectedSeq :
    d.expectedSeq w n = (tget doneDef (d.job w.j).doneSeq n + (d.engine e).issued.length + 1) % 2 ^ 32 := by
  rw [Device.expectedSeq, Device.runner_e (Device.nextCommand_runner hnext).1]

theorem Device.issue_unfetched {a : Nat} (h : d.fetchRefused w n = some a) :
    d.issue e = (d.logRefusal (Port.engine e) a false w.world).cmdFault w (d.expectedSeq w n) fcWorld slotNone a true := by
  simp only [Device.issue, hnext, h]

theorem Device.breakpoint_hit {b : Nat} (hstep : (d.engine e).step = none) (h : d.dbg.hits w.j w.l c.seq = some b) :
    d.breakpoint e = d.breakHit w b := by
  simp only [Device.breakpoint, hnext, hstep, Option.isNone_none, if_true, h]

variable (hfetch : d.fetchRefused w n = none) (hpass : (d.engine e).step.isSome = true ∨ d.dbg.hits w.j w.l c.seq = none)
include hfetch hpass

omit hnext hfetch in
theorem Device.no_breakpoint : (if (d.engine e).step.isNone then d.dbg.hits w.j w.l c.seq else none) = none := by
  rcases hpass with h | h
  · obtain ⟨m, hm⟩ := Option.isSome_iff_exists.mp h
    simp [hm]
  · simp [h]

theorem Device.issue_passed {o : Op} {ops : List Operand} (h : d.issueCheck w.j c (d.expectedSeq w n) = .ok (o, ops)) :
    d.issue e = d.modEng e fun g =>
      { g with issued := g.issued ++ [d.issued e n c o ops], issueSeq := c.seq }.stepTaken := by
  simp only [Device.issue, hnext, hfetch, Device.no_breakpoint hpass, h]

/-- A check that fails faults the command; the refusal of a descriptor's read is logged first (R93, R240). -/
theorem Device.issue_failed {code slot : Nat} (h : d.issueCheck w.j c (d.expectedSeq w n) = .error (code, slot)) :
    ∃ x : Device, x.jobs = d.jobs ∧ d.issue e = x.cmdFault w c.seq code slot 0 true := by
  simp only [Device.issue, hnext, hfetch, Device.no_breakpoint hpass, h]
  refine ⟨_, ?_, rfl⟩
  split
  · split <;> rfl
  · rfl

end Issue

theorem Eng.stepTaken_issued (g : Eng) : g.stepTaken.issued = g.issued ∧ g.stepTaken.issueSeq = g.issueSeq := by
  unfold Eng.stepTaken
  split
  · exact ⟨rfl, rfl⟩
  · split <;> exact ⟨rfl, rfl⟩

/-- An issue appends one command to the engine and touches nothing else (R93). -/
theorem Device.issued_leaves (d : Device) (e n : Nat) (c : Cmd) (o : Op) (ops : List Operand) :
    let f := d.modEng e fun g => { g with issued := g.issued ++ [d.issued e n c o ops], issueSeq := c.seq }.stepTaken
    f = { d with eng := f.eng } ∧ (∀ k, k ≠ e → f.engine k = d.engine k)
      ∧ (f.engine e).issueSeq = c.seq ∧ ∃ i : Issued, (f.engine e).issued = (d.engine e).issued ++ [i]
      ∧ i.cmd = c ∧ i.op = o ∧ i.ops = ops ∧ i.ring = n ∧ i.started = false ∧ i.done = false := by
  intro f
  have hengine : f.engine e = _ := d.modEng_engine e _
  refine ⟨rfl, fun k hk => by rw [Device.modEng_engine_if, if_neg hk], ?_, d.issued e n c o ops, ?_, rfl, rfl, rfl, rfl, rfl, rfl⟩
  · rw [hengine, (Eng.stepTaken_issued _).2]
  · rw [hengine, (Eng.stepTaken_issued _).1]

/-- Engines halted one after the other (R477). -/
def Device.haltAll (d : Device) (es : List Nat) : Device := es.foldl (fun d e => d.modEng e Eng.halt) d

theorem Device.haltAll_eq (d : Device) (es : List Nat) : d.haltAll es = { d with eng := (d.haltAll es).eng } :=
  (congrArg (fun x : Device => { x with eng := (d.haltAll es).eng })
    (foldl_keeps (fun x : Device => { x with eng := [] }) (f := fun (d : Device) e => d.modEng e Eng.halt) (fun _ _ => rfl) es d) :)

/-- The engines that a breakpoint halts (R477). -/
def Device.breakSet (d : Device) (w : Runner) (b : Nat) : List Nat :=
  if bitOf (d.dbg.bpWord b) 12 then (d.job w.j).held.filter fun e => !(d.engine e).leaving else [w.e]

theorem Device.breakHit_eq (d : Device) (w : Runner) (b : Nat) :
    d.breakHit w b = { d.haltAll (d.breakSet w b) with dbg := { d.dbg with hit := w.j + 64 * w.l + 2 ^ 31 } } := by
  rw [Device.haltAll_eq]
  exact congrArg (fun x : Device => { x with dbg := { x.dbg with hit := w.j + 64 * w.l + 2 ^ 31 } }) (d.haltAll_eq _)

/-- A breakpoint halts engines and records where it hit (R477). -/
theorem Device.breakHit_leaves (d : Device) {w : Runner} {e : Nat} (b : Nat) (hw : w.e = e) :
    let f := d.breakHit w b
    f.dbg = { d.dbg with hit := w.j + 64 * w.l + 2 ^ 31 } ∧ f = { d with eng := f.eng, dbg := f.dbg }
      ∧ (bitOf (d.dbg.bpWord b) 12 = false → f.engine e = (d.engine e).halt ∧ ∀ k, k ≠ e → f.engine k = d.engine k) := by
  subst hw
  rw [Device.breakHit_eq]
  refine ⟨rfl, by rw [Device.haltAll_eq], fun hone => ?_⟩
  have hset : d.breakSet w b = [w.e] := if_neg (by simp [hone])
  rw [hset]
  exact ⟨d.modEng_engine w.e Eng.halt, fun k hk => (d.modEng_engine_if w.e k Eng.halt).trans (if_neg hk)⟩

/-! ### Start (R94, R95, R267, R270) -/

section Start

variable {d : Device} {e k : Nat} {w : Runner} {i : Issued} (hw : d.runner e = some w)
  (hidx : (d.engine e).issued.findIdx? (fun i => !i.started) = some k) (hi : (d.engine e).issued[k]? = some i)
  (hst : (d.job w.j).st = .running) (hmay : d.mayStart (d.engine e) k i = true)
  (hreach : ∀ x ∈ i.ops, d.isRemote x.t = true → d.unreachable (x.t.addr / 2 ^ 40) = false)
include hw hidx hi hst hmay hreach

omit hw hidx hi hst hmay in
theorem Device.none_unreachable : i.ops.find? (fun x => d.isRemote x.t && d.unreachable (x.t.addr / 2 ^ 40)) = none := by
  refine List.find?_eq_none.mpr fun x hx => ?_
  cases hremote : d.isRemote x.t with
  | false => simp
  | true => rw [hreach x hx hremote]; decide

theorem Device.commandStart_begins (hring : d.remoteRing i = none) : d.commandStart e = d.begin w i := by
  simp only [Device.commandStart, hw, hidx, hi, hst, hmay, Device.none_unreachable hreach, hring, ne_eq, not_true_eq_false,
    Bool.not_true, Bool.false_eq_true, or_self, if_false]

theorem Device.commandStart_asks {dev ring m : Nat} (hring : d.remoteRing i = some (dev, ring, m))
    (hproxy : findProxy d.fab.proxies dev ring = none) : d.commandStart e = d.askProxy dev ring w.world := by
  simp only [Device.commandStart, hw, hidx, hi, hst, hmay, Device.none_unreachable hreach, hring, hproxy, ne_eq, not_true_eq_false,
    Bool.not_true, Bool.false_eq_true, or_self, if_false]

end Start

section Local

variable {d : Device} {i : Issued} (hlocal : ∀ x ∈ i.ops, d.isRemote x.t = false)
include hlocal

theorem Device.remoteRing_of_local : d.remoteRing i = none := by
  unfold Device.remoteRing
  split
  · next x hx => simp [hlocal x (List.mem_of_find?_eq_some hx)]
  · rfl

theorem Device.askSources_of_local (w : Runner) : d.askSources w i = d := by
  have hnone : (i.sources.filter fun x => d.isRemote x.t) = [] :=
    List.filter_eq_nil_iff.mpr fun x hx => by simp [hlocal x (List.mem_of_mem_filter hx)]
  simp [Device.askSources, hnone]

/-- A command without remote sources starts: its mark, and the free value of its time (R95). -/
theorem Device.begin_of_local (w : Runner) :
    d.begin w i = d.stamp.2.modEng w.e fun g => g.modIssued i.cmd.seq fun x =>
      { x with started := true, startTn := d.tn, startDt := d.stamp.1, plain := d.stamp.2.plainRanges w i.dests } :=
  Device.askSources_of_local (d := d.stamp.2.modEng w.e _) hlocal w

end Local

/-- Settles O29: a command at issue, at a breakpoint and at its start. -/
theorem issueStart : Obligations.IssueStart := by
  intro s e hs
  refine ⟨fun w n c hnext => ?_, fun w k i hw hidx hi hst hmay hlocal => ?_, fun w k i hw hidx hi hst hmay hreach => ⟨fun hring => ?_,
    fun dev ring m hring hproxy => ?_⟩⟩
  · intro expected
    have hseq : s.dev.expectedSeq w n = expected := Device.nextCommand_expectedSeq hnext
    obtain ⟨hw, hst⟩ := Device.nextCommand_runner hnext
    have hwe := Device.runner_e hw
    refine ⟨fun a hfetch hkept => ?_, fun hfetch hpass => ⟨fun o ops hok => ?_, fun code slot hfail hkept => ?_⟩,
      fun b hstep hhit => ?_⟩
    · refine Runs.of_on hs (exec_commandIssue e s) ?_
      rw [Device.issue_unfetched hnext hfetch, hseq]
      exact ⟨Device.cmdFault_faulted _ _ _ _ _ (Job.mayFault_of_running hst hkept), Device.cmdFault_faultRegs _ _ _ _ _ _ hwe⟩
    · refine Runs.of_on hs (exec_commandIssue e s) ?_
      rw [Device.issue_passed hnext hfetch hpass (hseq ▸ hok)]
      exact s.dev.issued_leaves e n c o ops
    · refine Runs.of_on hs (exec_commandIssue e s) ?_
      obtain ⟨x, hjobs, heq⟩ := Device.issue_failed hnext hfetch hpass (hseq ▸ hfail)
      have hmay : (x.job w.j).mayFault := by
        rw [Device.job_of_jobs hjobs]
        exact Job.mayFault_of_running hst hkept
      rw [heq]
      exact ⟨Device.cmdFault_faulted _ _ _ _ _ hmay, Device.cmdFault_faultRegs _ _ _ _ _ _ hwe⟩
    · refine Runs.of_on hs (exec_breakpointHit e s) ?_
      rw [Device.breakpoint_hit hnext hstep hhit]
      exact s.dev.breakHit_leaves b hwe
  · refine Runs.of_on hs (exec_commandStart e s) ?_
    rw [Device.commandStart_begins hw hidx hi hst hmay (fun x hx hremote => absurd (hlocal x hx) (by simp [hremote]))
      (Device.remoteRing_of_local hlocal), Device.begin_of_local hlocal, Device.runner_e hw]
    exact ⟨rfl, fun k hk => by rw [Device.modEng_engine_if, if_neg hk]; rfl, by rw [Device.modEng_engine]; rfl⟩
  · exact Runs.of_on hs (exec_commandStart e s) (Device.commandStart_begins hw hidx hi hst hmay hreach hring)
  · exact Runs.of_on hs (exec_commandStart e s) (Device.commandStart_asks hw hidx hi hst hmay hreach hring hproxy)

end Sys2Proof.Machine

/-! SUPPORT. Commit and drain (R92, R119, R169, R174, R219, R224): what each stage of a commit can touch. -/

namespace Sys2Proof.Machine

open Sys2Proof

/-! ### What messages, interrupts and triggers touch (R114, R208, R252 to R262, R343) -/

/-- What `φ` shows of the device is neither the fabric, processors, outputs and free values, nor the counters of a job. -/
structure BesideNews {γ : Type} (φ : Device → γ) : Prop where
  news : ∀ (d : Device) (p : Proc) (f : Fab) (o : List Note) (n : Nat),
    φ { d with proc := p, fab := f, out := o, fresh := n } = φ d
  counters : ∀ (d : Device) (j : Nat) (f : Job → Job), (∀ x : Job, (f x).calm = x.calm) → φ (d.modJob j f) = φ d

section News

variable {γ : Type} {φ : Device → γ} (hφ : BesideNews φ)
include hφ

theorem BesideNews.fabric {d e : Device} (h : e.sansFabric = d.sansFabric) : φ e = φ d := by
  rw [Device.eq_of_sansFabric h]
  exact hφ.news d d.proc e.fab e.out e.fresh

theorem BesideNews.instIrq (d : Device) (k id : Nat) : φ (d.instIrq k id) = φ d := by
  simp only [Device.instIrq]
  split
  · split
    · exact hφ.news d _ d.fab _ d.fresh
    · rfl
  · rfl
  · split
    · rfl
    · exact hφ.fabric (d.send_sansFabric _ rfl)
  · split
    · exact hφ.news d d.proc d.fab _ d.fresh
    · exact hφ.news d _ d.fab d.out d.fresh

theorem BesideNews.triggerBy (d : Device) (p : Nat → Bool) : φ (d.triggerBy p) = φ d :=
  Device.triggerBy_keeps φ hφ.counters d p

theorem BesideNews.deliverSignal (d : Device) (w : Runner) (i : Issued) : φ (d.deliverSignal w i) = φ d := by
  simp only [Device.deliverSignal]
  split
  · exact hφ.counters d _ _ fun x => x.trigger_calm _ 0 1
  · split
    · exact hφ.triggerBy d _
    · exact hφ.fabric (d.send_sansFabric _ rfl)
  · unfold Device.signalIrq
    split
    · exact hφ.instIrq d _ _
    · exact hφ.news d _ d.fab d.out d.fresh

theorem BesideNews.sendTails (d : Device) (i : Issued) (world : Bool) : φ (d.sendTails i world) = φ d := by
  unfold Device.sendTails
  split
  · rfl
  · refine (foldl_keeps φ (fun d k => ?_) _ _).trans (hφ.news d d.proc _ d.out d.fresh)
    exact hφ.fabric (d.send_sansFabric _ rfl)

theorem BesideNews.sendHeads (d : Device) : φ d.sendHeads = φ d :=
  (hφ.fabric (Device.sansFabric_of_sansSends d.sendHeads_sansSends)).trans (hφ.news d d.proc _ d.out d.fresh)

theorem BesideNews.moveRing (d : Device) (n : Nat) (r : Ring) : φ (d.moveRing n r) = φ (d.setRing n r) :=
  Device.moveRing_keeps φ (fun d _ => hφ.news d d.proc _ d.out d.fresh) hφ.counters d n r

end News

theorem Job.besideNews (j : Nat) : BesideNews fun d : Device => (d.job j).calm :=
  ⟨fun _ _ _ _ _ => rfl, fun d k _ hf => d.modJob_calm k hf j⟩

/-- The device without what a commit touches beside engines and undefined bytes. -/
def Device.sansNews (d : Device) : Device :=
  { d with mem := [], rings := [], jobs := [], noc := Noc.init, proc := Proc.init, fab := Fab.init, out := [], fresh := 0 }

theorem Device.sansNews_besideNews : BesideNews Device.sansNews := ⟨fun _ _ _ _ _ => rfl, fun _ _ _ _ => rfl⟩

theorem Device.moveRing_sansNews (d : Device) (n : Nat) (r : Ring) : (d.moveRing n r).sansNews = d.sansNews :=
  Device.sansNews_besideNews.moveRing d n r

theorem Device.record_sansNews (d : Device) (w : Runner) (seq status : Nat) (st : NumStatus) :
    (d.record w seq status st).sansNews = d.sansNews := by
  simp only [Device.record]
  split
  · rfl
  · rw [Device.moveRing_sansNews, Device.put_eq]
    rfl
  · rfl

/-- A completion record moves a tail, no head (R121). -/
theorem Device.record_head (d : Device) (w : Runner) (seq status : Nat) (st : NumStatus) (n : Nat) :
    ((d.record w seq status st).ring n).head = (d.ring n).head := by
  simp only [Device.record]
  split
  · rfl
  · next r hpub =>
    rw [Device.moveRing_ring]
    split
    · next hn =>
      subst hn
      obtain ⟨-, heq⟩ | ⟨-, hno⟩ := ite_eq_iff.mp hpub
      · rw [← Option.some.inj heq]
        rfl
      · cases hno
    · rw [Device.ring_congr (congrArg Device.rings (Device.put_eq _ _ _))]
      rfl
  · rfl

/-! ### The stages of a commit (R119) -/

/-- Entries that a second producer writes become undefined (R169). -/
def Device.commitClashes (d : Device) (w : Runner) (i : Issued) : Device :=
  let two (n : Nat) : Bool := i.clash || (List.range 32).any fun e => e != w.e && (d.engine e).produces n
  (d.published i).foldl (fun d p => if two p.1 then d.ringClash p.1 p.2 else d) d

/-- Published entries move the tails of their rings. -/
def Device.commitPublishes (d : Device) (i : Issued) : Device :=
  (d.published i).foldl (fun d p => match (d.ring p.1).publish p.2 with
    | some r => d.moveRing p.1 r
    | none => d) d

/-- DONE_SEQ of the command's ring takes its SEQ. -/
def Device.commitSeq (d : Device) (w : Runner) (i : Issued) : Device :=
  d.modJob w.j fun x => { x with doneSeq := tput doneDef x.doneSeq i.ring i.cmd.seq, idleSince := none }

/-- Consumed entries move the head of a ring. -/
def Device.advanceRing (d : Device) (p : Nat × Nat) : Device :=
  match (d.ring p.1).advance p.2 with
  | some r => d.moveRing p.1 r
  | none => d

/-- The completion record and the interrupt that a command asks for. -/
def Device.commitReport (d : Device) (w : Runner) (i : Issued) : Device :=
  let d := if i.cmd.cr then d.record w i.cmd.seq 0 i.st else d
  if i.cmd.irq then d.instIrq w.ctx (64 + w.j) else d

/-- The event that a WAIT consumes or a SIGNAL delivers. -/
def Device.commitEvent (d : Device) (w : Runner) (i : Issued) : Device :=
  match i.op with
  | .wait => if i.cmd.p1 % 4 = 0 then d.modJob w.j fun x => x.trigger (bits i.cmd.p1 3 2) 1 0 else d
  | .signal => d.deliverSignal w i
  | _ => d

/-- A command leaves the issued commands; an engine that waits for its last one halts (R477). -/
def Eng.dropIssued (seq : Nat) (g : Eng) : Eng :=
  let g := { g with issued := g.issued.filter fun x => x.cmd.seq != seq }
  if g.halting then g.halt else g

/-- What a commit does between the clashes and the engine. -/
def Device.commitMoves (d : Device) (w : Runner) (i : Issued) : Device :=
  let d := ((d.commitPublishes i).sendTails i w.world).commitSeq w i
  let d := ((i.ring, 1) :: i.ins).foldl Device.advanceRing d
  ((d.commitReport w i).commitEvent w i).count (teBase w.e + 0x40) 1

theorem Device.commitOne_eq (d : Device) (w : Runner) (i : Issued) :
    d.commitOne w i = ((d.commitClashes w i).commitMoves w i).modEng w.e (Eng.dropIssued i.cmd.seq) := rfl

/-! ### Clashes (R169) -/

/-- A command whose mark of clashing entries is left out. -/
def Issued.unclashed (x : Issued) : Issued := { x with clash := false }

theorem Eng.markClash_unclashed (g : Eng) (p : Issued → Bool) :
    (g.issued.map fun x => if p x then { x with clash := true } else x).map Issued.unclashed = g.issued.map Issued.unclashed := by
  rw [List.map_map]
  refine List.map_congr_left fun x _ => ?_
  dsimp only [Function.comp]
  split <;> rfl

/-- A clash marks issued commands and leaves bytes undefined; what shows neither stays. -/
theorem Device.ringClash_unclashed (d : Device) (n m k : Nat) :
    ((d.ringClash n m).engine k).issued.map Issued.unclashed = (d.engine k).issued.map Issued.unclashed := by
  unfold Device.ringClash
  refine (foldl_keeps (fun d : Device => (d.engine k).issued.map Issued.unclashed) (fun d e => ?_) _ _).trans
    (foldl_keeps (fun d : Device => (d.engine k).issued.map Issued.unclashed) (fun d i => ?_) _ _)
  · split
    · rw [Device.modEng_engine_if]
      split
      · next h => rw [h, Eng.markClash_unclashed]
      · rfl
    · rfl
  · rw [Device.scramble_eq]
    rfl

theorem Device.commitClashes_keeps {γ : Type} (φ : Device → γ) (h : ∀ (d : Device) n k, φ (d.ringClash n k) = φ d) (d : Device)
    (w : Runner) (i : Issued) : φ (d.commitClashes w i) = φ d := by
  refine foldl_keeps φ (fun d p => ?_) _ d
  split
  · exact h d _ _
  · rfl

theorem Device.commitClashes_published (d : Device) (w : Runner) (i x : Issued) : (d.commitClashes w i).published x = d.published x :=
  Device.commitClashes_keeps (fun d => d.published x) (fun d n k => Device.ringClash_keeps (fun d => d.published x)
    (fun d lo hi => by rw [Device.scramble_eq]; rfl) (fun _ _ _ => rfl) d n k) d w i

/-- Without a second producer of what the command publishes nothing clashes. -/
theorem Device.commitClashes_alone {d : Device} {w : Runner} {i : Issued} (hi : i.clash = false)
    (halone : ∀ p ∈ d.published i, ∀ k, k < 32 → k ≠ w.e → (d.engine k).produces p.1 = false) : d.commitClashes w i = d := by
  refine List.foldlRecOn (motive := fun x => x = d) _ _ rfl fun x hx p hp => (if_neg ?_).trans hx
  have hnone : ((List.range 32).any fun e => e != w.e && (d.engine e).produces p.1) = false := by
    refine List.any_eq_false.mpr fun k hk => ?_
    rw [Bool.and_eq_true, bne_iff_ne]
    rintro ⟨hne, hprod⟩
    exact absurd ((halone p hp k (List.mem_range.mp hk) hne).symm.trans hprod) (by decide)
  rw [Bool.not_eq_true]
  exact (congrArg₂ or hi hnone :)

/-! ### What the stages leave (R119) -/

theorem Device.commitPublishes_sansNews (d : Device) (i : Issued) : (d.commitPublishes i).sansNews = d.sansNews := by
  refine foldl_keeps Device.sansNews (fun d p => ?_) _ d
  split
  · exact d.moveRing_sansNews _ _
  · rfl

theorem Device.commitPublishes_ring {d : Device} {i : Issued} {n : Nat} (h : ∀ p ∈ d.published i, p.1 ≠ n) :
    (d.commitPublishes i).ring n = d.ring n := by
  refine List.foldlRecOn (motive := fun x : Device => x.ring n = d.ring n) _ _ rfl fun x hx p hp => ?_
  split
  · rw [Device.moveRing_ring, if_neg (h p hp).symm, hx]
  · exact hx

theorem Device.advanceRing_sansNews (d : Device) (p : Nat × Nat) : (d.advanceRing p).sansNews = d.sansNews := by
  unfold Device.advanceRing
  split
  · exact d.moveRing_sansNews _ _
  · rfl

theorem Device.advanceRing_calm (d : Device) (p : Nat × Nat) (j : Nat) : ((d.advanceRing p).job j).calm = (d.job j).calm := by
  unfold Device.advanceRing
  split
  · exact d.moveRing_calm _ _ j
  · rfl

theorem Device.advanceRing_ring_other (d : Device) {p : Nat × Nat} {n : Nat} (h : p.1 ≠ n) : (d.advanceRing p).ring n = d.ring n := by
  unfold Device.advanceRing
  split
  · rw [Device.moveRing_ring, if_neg h.symm]
  · rfl

theorem Device.advanceRing_head {d : Device} {n m : Nat} (hon : (d.ring n).enable = true) (hfill : m ≤ (d.ring n).fill) :
    ((d.advanceRing (n, m)).ring n).head = (d.ring n).head.move (d.ring n).count m := by
  simp only [Device.advanceRing, Ring.advance_of_filled hon hfill]
  rw [Device.moveRing_ring, if_pos rfl]

theorem Device.commitReport_keeps {γ : Type} {φ : Device → γ} (hφ : BesideNews φ)
    (hrecord : ∀ (d : Device) (w : Runner) (seq status : Nat) (st : NumStatus), φ (d.record w seq status st) = φ d)
    (d : Device) (w : Runner) (i : Issued) : φ (d.commitReport w i) = φ d := by
  simp only [Device.commitReport]
  have hif : φ (if i.cmd.cr then d.record w i.cmd.seq 0 i.st else d) = φ d := by
    split
    · exact hrecord d w _ _ _
    · rfl
  split
  · exact (hφ.instIrq _ _ _).trans hif
  · exact hif

theorem BesideNews.commitEvent {γ : Type} {φ : Device → γ} (hφ : BesideNews φ) (d : Device) (w : Runner) (i : Issued) :
    φ (d.commitEvent w i) = φ d := by
  unfold Device.commitEvent
  split
  · split
    · exact hφ.counters d _ _ fun x => x.trigger_calm _ 1 0
    · rfl
  · exact hφ.deliverSignal d w i
  · rfl

/-- What shows of no commit's stage but the engines' and the clashes' stays. -/
theorem Device.commitMoves_sansNews (d : Device) (w : Runner) (i : Issued) : (d.commitMoves w i).sansNews = d.sansNews := by
  have hnews := Device.sansNews_besideNews
  refine (hnews.commitEvent _ w i).trans ((Device.commitReport_keeps hnews Device.record_sansNews _ w i).trans ?_)
  refine (foldl_keeps Device.sansNews (fun d p => d.advanceRing_sansNews p) _ _).trans ?_
  exact (hnews.sendTails _ i w.world).trans (d.commitPublishes_sansNews i)

theorem Device.commitMoves_doneSeq (d : Device) (w : Runner) (i : Issued) :
    tget doneDef ((d.commitMoves w i).job w.j).doneSeq i.ring = i.cmd.seq := by
  have hnews := Job.besideNews w.j
  let x := ((d.commitPublishes i).sendTails i w.world).commitSeq w i
  have hcalm : ((d.commitMoves w i).job w.j).calm = (x.job w.j).calm := by
    refine (hnews.commitEvent _ w i).trans
      ((Device.commitReport_keeps hnews (fun d w seq status st => d.record_calm w seq status st _) _ w i).trans ?_)
    exact foldl_keeps (fun d : Device => (d.job w.j).calm) (fun d p => d.advanceRing_calm p w.j) _ _
  have hx : x.job w.j = _ := Device.modJob_job _ w.j _
  refine (congrArg (fun y : Job => tget doneDef y.doneSeq i.ring) hcalm :).trans ?_
  rw [hx]
  exact tget_tput_same _ _ _ _

/-- The head of the command's own ring moves by one where no other part of the commit moves that ring. -/
theorem Device.commitMoves_head {d : Device} {w : Runner} {i : Issued} (hon : (d.ring i.ring).enable = true)
    (hfill : 1 ≤ (d.ring i.ring).fill) (hins : ∀ p ∈ i.ins, p.1 ≠ i.ring) (houts : ∀ p ∈ d.published i, p.1 ≠ i.ring) :
    ((d.commitMoves w i).ring i.ring).head = (d.ring i.ring).head.move (d.ring i.ring).count 1 := by
  let x := ((d.commitPublishes i).sendTails i w.world).commitSeq w i
  have hrings : BesideNews Device.rings := ⟨fun _ _ _ _ _ => rfl, fun _ _ _ _ => rfl⟩
  have hheads : BesideNews fun e : Device => (e.ring i.ring).head := ⟨fun _ _ _ _ _ => rfl, fun _ _ _ _ => rfl⟩
  have hx : x.ring i.ring = d.ring i.ring :=
    (Device.ring_congr (hrings.sendTails (d.commitPublishes i) i w.world) i.ring).trans (Device.commitPublishes_ring houts)
  have hadvances : (i.ins.foldl Device.advanceRing (x.advanceRing (i.ring, 1))).ring i.ring = (x.advanceRing (i.ring, 1)).ring i.ring :=
    List.foldlRecOn (motive := fun y : Device => y.ring i.ring = (x.advanceRing (i.ring, 1)).ring i.ring) _ _ rfl
      fun y hy p hp => (y.advanceRing_ring_other (hins p hp)).trans hy
  refine (hheads.commitEvent _ w i).trans
    ((Device.commitReport_keeps hheads (fun d w seq status st => d.record_head w seq status st _) _ w i).trans ?_)
  refine (congrArg Ring.head hadvances).trans ?_
  rw [Device.advanceRing_head (by rwa [hx]) (by rwa [hx]), hx]

/-! ### The commit of one command (R119) -/

theorem Device.modEng_ring (d : Device) (e n : Nat) (f : Eng → Eng) : (d.modEng e f).ring n = d.ring n := rfl

theorem Device.modEng_job (d : Device) (e j : Nat) (f : Eng → Eng) : (d.modEng e f).job j = d.job j := rfl

theorem Eng.dropIssued_issued (seq : Nat) (g : Eng) : (g.dropIssued seq).issued = g.issued.filter fun x => x.cmd.seq != seq := by
  simp only [Eng.dropIssued]
  split
  · unfold Eng.halt
    split <;> rfl
  · rfl

theorem Device.commitOne_engine (d : Device) (w : Runner) (i : Issued) (k : Nat) :
    (d.commitOne w i).engine k
      = if k = w.e then ((d.commitClashes w i).engine w.e).dropIssued i.cmd.seq else (d.commitClashes w i).engine k := by
  have heng (k : Nat) : ((d.commitClashes w i).commitMoves w i).engine k = (d.commitClashes w i).engine k :=
    (congrArg (fun x : Device => x.engine k) ((d.commitClashes w i).commitMoves_sansNews w i) :)
  rw [Device.commitOne_eq, Device.modEng_engine_if, heng, heng]

theorem Device.commitClashes_unclashed (d : Device) (w : Runner) (i : Issued) (k : Nat) :
    ((d.commitClashes w i).engine k).issued.map Issued.unclashed = (d.engine k).issued.map Issued.unclashed :=
  Device.commitClashes_keeps (fun d => (d.engine k).issued.map Issued.unclashed) (fun d n m => d.ringClash_unclashed n m k) d w i

theorem Issued.filter_unclashed (l : List Issued) (seq : Nat) :
    (l.filter fun x => x.cmd.seq != seq).map Issued.unclashed = (l.map Issued.unclashed).filter fun x => x.cmd.seq != seq :=
  (List.filter_map (f := Issued.unclashed) (p := fun x => x.cmd.seq != seq) (l := l)).symm

/-- What a commit leaves of the fields that no stage touches. -/
theorem Device.commitOne_frame (d : Device) (w : Runner) (i : Issued) :
    (d.commitOne w i).tb = d.tb ∧ (d.commitOne w i).arb = d.arb ∧ (d.commitOne w i).pwr = d.pwr ∧ (d.commitOne w i).fgw = d.fgw
      ∧ (d.commitOne w i).moves = d.moves := by
  have hclash := Device.commitClashes_keeps Device.sansClash Device.ringClash_sansClash d w i
  have hmoves := (d.commitClashes w i).commitMoves_sansNews w i
  exact ⟨(congrArg Device.tb hmoves :).trans (congrArg Device.tb hclash :),
    (congrArg Device.arb hmoves :).trans (congrArg Device.arb hclash :),
    (congrArg Device.pwr hmoves :).trans (congrArg Device.pwr hclash :),
    (congrArg Device.fgw hmoves :).trans (congrArg Device.fgw hclash :),
    (congrArg Device.moves hmoves :).trans (congrArg Device.moves hclash :)⟩

theorem Device.commitClashes_rings (d : Device) (w : Runner) (i : Issued) : (d.commitClashes w i).rings = d.rings :=
  Device.commitClashes_keeps Device.rings Device.ringClash_rings d w i

section Commit

variable {d : Device} {e : Nat} {w : Runner} {i : Issued} {rest : List Issued} (hw : d.runner e = some w)
  (hissued : (d.engine e).issued = i :: rest)
include hw hissued

theorem Device.commandCommit_commits (hstarted : i.started = true) (hdone : i.done = true) (hordered : d.ordered e i = true)
    (hrecord : i.cmd.cr = true → d.recordRefused w = none) (hckpt : i.op ≠ .checkpoint)
    (hwait : i.op = .wait → i.cmd.p1 % 4 = 0 → d.waitHolds w i = true)
    (hpublish : i.op = .publish → (d.ring (i.cmd.p1 % 512)).publish (bits i.cmd.p1 31 16) ≠ none) :
    d.commandCommit e = d.commitOne w i := by
  have hmayRecord : (i.cmd.cr && (d.recordRefused w).isSome) = false := by
    cases hcr : i.cmd.cr
    · rfl
    · rw [hrecord hcr]; rfl
  simp only [Device.commandCommit, hw, hissued, List.head?_cons, hstarted, hdone, hordered, hmayRecord, Bool.not_true, Bool.or_self,
    Bool.false_eq_true, if_false]
  split
  · next hop => exact absurd hop hckpt
  · next hop => exact if_pos (by by_cases h : i.cmd.p1 % 4 = 0 <;> simp [h, hwait hop])
  · next hop => exact if_neg (hpublish hop)
  · rfl

/-- The command leaves its engine; other commands stay, apart from the mark of a clash (R119, R169). -/
theorem Device.commitOne_issued :
    ((d.commitOne w i).engine e).issued.map Issued.unclashed
        = (rest.filter fun x => x.cmd.seq != i.cmd.seq).map Issued.unclashed
      ∧ (∀ k, k ≠ e → ((d.commitOne w i).engine k).issued.map Issued.unclashed = (d.engine k).issued.map Issued.unclashed)
      ∧ (i.clash = false → (∀ p ∈ d.published i, ∀ k, k < 32 → k ≠ e → (d.engine k).produces p.1 = false) →
          ((d.commitOne w i).engine e).issued = rest.filter (fun x => x.cmd.seq != i.cmd.seq)
          ∧ ∀ k, k ≠ e → ((d.commitOne w i).engine k).issued = (d.engine k).issued) := by
  have hwe := Device.runner_e hw
  have hown : ((d.engine e).issued.filter fun x => x.cmd.seq != i.cmd.seq) = rest.filter fun x => x.cmd.seq != i.cmd.seq := by
    simp [hissued]
  refine ⟨?_, fun k hk => ?_, fun hclash halone => ?_⟩
  · rw [Device.commitOne_engine, if_pos hwe.symm, Eng.dropIssued_issued, Issued.filter_unclashed, Device.commitClashes_unclashed,
      ← Issued.filter_unclashed, hwe, hown]
  · rw [Device.commitOne_engine, if_neg (by rwa [hwe]), Device.commitClashes_unclashed]
  · rw [← hwe] at halone
    have heng (k : Nat) := d.commitOne_engine w i k
    rw [Device.commitClashes_alone hclash halone] at heng
    exact ⟨by rw [heng, if_pos hwe.symm, Eng.dropIssued_issued, hwe, hown], fun k hk => by rw [heng, if_neg (by rwa [hwe])]⟩

end Commit

theorem Device.commitOne_doneSeq (d : Device) (w : Runner) (i : Issued) :
    tget doneDef ((d.commitOne w i).job w.j).doneSeq i.ring = i.cmd.seq := by
  rw [Device.commitOne_eq, Device.modEng_job]
  exact (d.commitClashes w i).commitMoves_doneSeq w i

theorem Device.commitOne_head {d : Device} (w : Runner) {i : Issued} (hon : (d.ring i.ring).enable = true)
    (hfill : 1 ≤ (d.ring i.ring).fill) (hins : ∀ p ∈ i.ins, p.1 ≠ i.ring) (houts : ∀ p ∈ d.published i, p.1 ≠ i.ring) :
    ((d.commitOne w i).ring i.ring).head = (d.ring i.ring).head.move (d.ring i.ring).count 1 := by
  have hring := Device.ring_congr (d.commitClashes_rings w i) i.ring
  rw [← d.commitClashes_published w i i] at houts
  rw [← hring] at hon hfill ⊢
  rw [Device.commitOne_eq, Device.modEng_ring]
  exact Device.commitMoves_head hon hfill hins houts

/-! ### The write-combining buffer drains (R174, R219, R224) -/

/-- The byte of an entry at one place of its line, written to memory where it is valid. -/
def Device.drainByte (x : WcbEntry) (d : Device) (k : Nat) : Device :=
  match x.byte (x.line * 64 + k) with
  | some b => d.putByte (x.line * 64 + k) b
  | none => d

/-- Memory with the valid bytes of an entry written to it. -/
def Device.drained (d : Device) (x : WcbEntry) : Device := (List.range 64).foldl (Device.drainByte x) d

theorem Device.drainByte_sansMem (x : WcbEntry) (d : Device) (k : Nat) :
    ({ Device.drainByte x d k with mem := [] } : Device) = { d with mem := [] } := by
  unfold Device.drainByte
  split <;> rfl

theorem Device.drained_eq (d : Device) (x : WcbEntry) : d.drained x = { d with mem := (d.drained x).mem } :=
  (congrArg (fun y : Device => { y with mem := (d.drained x).mem })
    (foldl_keeps (fun y : Device => { y with mem := [] }) (Device.drainByte_sansMem x) (List.range 64) d) :)

theorem WcbEntry.line_of_byte {x : WcbEntry} {a : Nat} {b : Byte} (h : x.byte a = some b) : x.line * 64 + a % 64 = a := by
  obtain ⟨hline, -⟩ | ⟨-, hno⟩ := ite_eq_iff.mp h
  · omega
  · cases hno

theorem Device.drained_byte (d : Device) (x : WcbEntry) (a : Nat) : (d.drained x).byte a = (x.byte a).getD (d.byte a) := by
  cases ha : x.byte a with
  | none =>
    refine foldl_keeps (fun d : Device => d.byte a) (fun d k => ?_) _ d
    unfold Device.drainByte
    split
    · next b hb =>
      refine Device.byte_putByte_other d b fun heq => ?_
      rw [heq, hb] at ha
      cases ha
    · rfl
  | some b =>
    have hplace := WcbEntry.line_of_byte ha
    refine foldl_establishes (P := fun d : Device => d.byte a = b) (List.mem_range.mpr (Nat.mod_lt a (by decide : 0 < 64)))
      (fun d => ?_) (fun d k hd => ?_) d
    · unfold Device.drainByte
      rw [hplace, ha]
      exact Device.byte_putByte_same d a b
    · unfold Device.drainByte
      split
      · next c hc =>
        by_cases hk : a = x.line * 64 + k
        · rw [← hk, ha] at hc
          rw [← hk, Device.byte_putByte_same, Option.some.inj hc]
        · rw [Device.byte_putByte_other d c hk, hd]
      · exact hd

theorem Eng.letIn_issued (n : Nat) (g : Eng) : (Eng.letIn n g).issued = g.issued := by
  induction n generalizing g with
  | zero => rfl
  | succ n ih =>
    unfold Eng.letIn
    split
    · rfl
    · split
      · rw [ih]
        simp only [Eng.store]
        split
        · rfl
        · split <;> rfl
      · split
        · exact ih _
        · rfl

theorem Eng.letIn_of_none_waiting {g : Eng} (n : Nat) (h : g.stq = []) : Eng.letIn n g = g := by
  cases n with
  | zero => rfl
  | succ n => simp only [Eng.letIn, h]

section Drain

variable {d : Device} {e : Nat} {x : WcbEntry} {rest : List WcbEntry} (hwcb : (d.engine e).wcb = x :: rest)
include hwcb

theorem Device.wcbDrain_waits (h : (d.mayIssue (Port.engine e) && d.reaches (Port.engine e).die (x.line * 64)) = false) :
    d.wcbDrain e = d := by
  simp only [Device.wcbDrain, hwcb]
  refine if_pos ?_
  rwa [← Bool.not_and, Bool.not_eq_true']

theorem Device.wcbDrain_drains (h : (d.mayIssue (Port.engine e) && d.reaches (Port.engine e).die (x.line * 64)) = true) :
    d.wcbDrain e = ((d.served (Port.engine e) true (x.line * 64) x.bytes.length).drained x).modEng e fun g =>
      Eng.letIn (g.stq.length + 1) { g with wcb := rest } := by
  simp only [Device.wcbDrain, hwcb]
  refine (if_neg ?_).trans rfl
  rw [← Bool.not_and, h]
  decide

theorem Device.wcbDrain_leaves (h : (d.mayIssue (Port.engine e) && d.reaches (Port.engine e).die (x.line * 64)) = true) :
    let f := d.wcbDrain e
    (∀ a, f.byte a = (x.byte a).getD (d.byte a))
      ∧ f = { d with mem := f.mem, eng := f.eng, noc := f.noc, fresh := f.fresh }
      ∧ (∀ k, k ≠ e → f.engine k = d.engine k) ∧ (f.engine e).issued = (d.engine e).issued
      ∧ ((d.engine e).stq = [] → (f.engine e).wcb = rest) := by
  intro f
  have hf : f = _ := Device.wcbDrain_drains hwcb h
  have hserved := d.served_eq (Port.engine e) true (x.line * 64) x.bytes.length
  generalize d.served (Port.engine e) true (x.line * 64) x.bytes.length = y at hf hserved
  have hbyte (a : Nat) : y.byte a = d.byte a := by rw [hserved]; rfl
  have hengine (k : Nat) : f.engine k
      = if k = e then Eng.letIn ((d.engine e).stq.length + 1) { d.engine e with wcb := rest } else d.engine k := by
    have hy (k : Nat) : (y.drained x).engine k = d.engine k := by rw [Device.drained_eq, hserved]; rfl
    rw [hf, Device.modEng_engine_if, hy, hy]
  refine ⟨fun a => ?_, ?_, fun k hk => by rw [hengine, if_neg hk], ?_, fun hstq => ?_⟩
  · rw [hf, ← hbyte a]
    exact y.drained_byte x a
  · rw [hf, Device.modEng_eq, Device.drained_eq, hserved]
  · rw [hengine, if_pos rfl, Eng.letIn_issued]
  · rw [hengine, if_pos rfl]
    exact congrArg Eng.wcb (Eng.letIn_of_none_waiting (g := { d.engine e with wcb := rest }) _ hstq)

end Drain

/-- Settles O30: the commit by its stages, the drain by what it writes. -/
theorem commitDrain : Obligations.CommitDrain := by
  intro s e hs
  refine ⟨fun w i rest hw hissued hstarted hdone hordered hrecord hckpt hwait hpublish => ?_, fun x rest hwcb => ?_⟩
  · refine Runs.of_on hs (exec_commandCommit e s) ?_
    intro plain
    rw [Device.commandCommit_commits hw hissued hstarted hdone hordered hrecord hckpt hwait hpublish]
    obtain ⟨hown, hother, halone⟩ := Device.commitOne_issued hw hissued
    have hseq := s.dev.commitOne_doneSeq w i
    have hhead := Device.commitOne_head (d := s.dev) w (i := i)
    obtain ⟨htb, harb, hpwr, hfgw, hmoves⟩ := s.dev.commitOne_frame w i
    generalize s.dev.commitOne w i = x at *
    have hheads := x.sendHeads_sansSends
    have heng (k : Nat) : x.sendHeads.engine k = x.engine k := (congrArg (fun d : Device => d.engine k) hheads :)
    simp only [heng]
    refine ⟨hown, hother, halone, (congrArg (fun d : Device => tget doneDef (d.job w.j).doneSeq i.ring) hheads :).trans hseq,
      fun hon hfill hins houts => ?_, (congrArg Device.tb hheads :).trans htb, (congrArg Device.arb hheads :).trans harb,
      (congrArg Device.pwr hheads :).trans hpwr, (congrArg Device.fgw hheads :).trans hfgw,
      (congrArg Device.moves hheads :).trans hmoves⟩
    exact (congrArg (fun d : Device => (d.ring i.ring).head) hheads :).trans (hhead hon hfill hins houts)
  · intro may
    refine ⟨fun hno => Runs.of_on hs (exec_wcbDrain e s) (Device.wcbDrain_waits hwcb hno), fun hmay => ?_⟩
    exact Runs.of_on hs (exec_wcbDrain e s) (Device.wcbDrain_leaves hwcb hmay)

end Sys2Proof.Machine

/-! SUPPORT. A fault whose registers a later fault of the same step takes (R126, R211, R212, R264). -/

namespace Sys2Proof.Machine

open Sys2Proof

/-! ### A fault whose registers a later one overwrites (R126, R264) -/

/-- A descriptor of SEQ 1 without operands. -/
def strayCmd : Cmd :=
  { opcode := 0, atomic := false, cr := false, irq := false, sr := false, strict := false, chk := false, chken := false, seq := 1,
    slots := [], seed := 0, p1 := 0, p2 := 0, epi := 0, work := 0, reservedOk := true, crcGood := true }

/-- A running MMA. -/
def strayIssued : Issued :=
  { cmd := strayCmd, op := .mma, ops := [], ring := 0, heldBack := false, started := true, startTn := 0, startDt := 0, done := false,
    st := 0, outs := [], ins := [], plain := [], produced := none, clash := false, fetched := [] }

/-- A read of that command from device 5, which waits for a tag. -/
def strayRead : RTag := ⟨.engine 0 1, 5, 5 * 2 ^ 40, 1, 0, false, 0, 0, 0⟩

/-- Engine 0 runs logical engine 0 of job 0, whose list of engines lacks it: no kill of the job reaches the engine's command. -/
def strayDevice : Device :=
  { Device.init with
    jobs := [(0, { Job.init with st := .running })]
    eng := [(0, { Eng.init with bound := some (0, 0), issued := [strayIssued] })]
    fab := { Fab.init with stalled := [strayRead] } }

/-- A bus error of that command. -/
def strayFault : CmdFault := ⟨0, 0, fcBounds, 0, 0, false⟩

/-- The waiting read takes a tag at the end of COMMAND_FAULT, finds no route, and its fault takes the registers (R264). -/
theorem strayDevice_faultInfo :
    ((strayDevice.commandFault strayFault []).engine 0).faultInfo = fcRemoteFail + 2 ^ 8 * slotNone := by decide

/-- Refutes O31: the statement asks nothing of the job's list of engines. Where the list lacks the engine, the teardown does not kill
the engine's command, a read of the command that waited for a tag gets one in the same step and fails without a route, and REMOTE_FAIL
overwrites the fault registers that should hold BOUNDS. -/
theorem not_commandFaults : ¬ Obligations.CommandFaults := by
  unfold Obligations.CommandFaults
  intro h
  obtain ⟨hfault, -⟩ := h ⟨strayDevice, []⟩ 0 ⟨0, 0, 0, false, 0⟩ strayIssued rfl rfl rfl (by decide)
  obtain ⟨⟨d, hexec, -, hinfo, -⟩, -⟩ := hfault strayFault rfl rfl rfl rfl rfl
  have hd : d = strayDevice.commandFault strayFault [] := by
    rw [exec_commandFault, execCommandFault, State.on_live _ _ rfl] at hexec
    cases hexec
    rfl
  rw [hd] at hinfo
  exact absurd (strayDevice_faultInfo.symm.trans hinfo) (by decide)

end Sys2Proof.Machine

/-! SUPPORT. Remote rings, signals and management (R114, R168, R268 to R271, R392). -/

namespace Sys2Proof.Machine

open Sys2Proof

/-! ### Remote rings (R168, R268 to R271) -/

section RemoteRing

variable {d : Device} {m : FMsg} (hown : d.isOwn m.dst = true)
include hown

theorem Device.tailAdv_taken {r : Ring} (hfrom : d.takesFrom m.src = true) (hbound : d.bound (m.addr % 512) m.src = true)
    (hpub : (d.ring (m.addr % 512)).publish m.arg = some r) : d.tailAdv m = (d.moveRing (m.addr % 512) r).landed m := by
  simp [Device.tailAdv, hown, hfrom, hbound, hpub]

theorem Device.tailAdv_refused (h : d.takesFrom m.src = false ∨ d.bound (m.addr % 512) m.src = false
      ∨ (d.ring (m.addr % 512)).publish m.arg = none) : d.tailAdv m = d.nack m := by
  rcases h with h | h | h <;> simp [Device.tailAdv, hown, h]

theorem Device.ringQuery_answered (hfrom : d.takesFrom m.src = true) (hbound : d.bound (m.addr % 512) m.src = true) :
    d.ringQuery m = d.send { FMsg.plain .ringState d.ownId m.src with
      addr := m.addr, len := 2,
      data := leBytes 8 (d.ring (m.addr % 512)).head.word ++ leBytes 8 (d.ring (m.addr % 512)).tail.word
        ++ leBytes 4 (d.ring (m.addr % 512)).count ++ leBytes 4 (d.ring (m.addr % 512)).entrySize ++ zeros 8 } noRing := by
  simp [Device.ringQuery, hown, hfrom, hbound]

theorem Device.modProxy_outside (f : Proxy → Proxy) (hfrom : d.takesFrom m.src = false) : d.modProxy m f = d := by
  simp [Device.modProxy, hown, hfrom]

/-- The proxy of the ring that a message of the part names takes the change; nothing but proxies changes (R270). -/
theorem Device.modProxy_taken (f : Proxy → Proxy) (hfrom : d.takesFrom m.src = true) {q : Proxy} (hq : q ∈ d.fab.proxies)
    (hdev : q.dev = m.src) (hring : q.ring = m.addr % 512) :
    d.modProxy m f = { d with fab := { d.fab with proxies := (d.modProxy m f).fab.proxies } }
      ∧ f q ∈ (d.modProxy m f).fab.proxies := by
  have heq : d.modProxy m f = d.modFab fun x => { x with
      proxies := x.proxies.map fun p => if p.dev = m.src ∧ p.ring = m.addr % 512 then f p else p } := by
    simp [Device.modProxy, hown, hfrom]
  rw [heq]
  exact ⟨rfl, List.mem_map.mpr ⟨q, hq, if_pos ⟨hdev, hring⟩⟩⟩

end RemoteRing

/-- Entries published for another device: its ring's tail moves, and the put counts as landed (R266, R271). -/
theorem Device.landed_moveRing (d : Device) (m : FMsg) (n : Nat) (r : Ring) :
    let e := (d.moveRing n r).landed m
    e.ring n = r ∧ (∀ k, k ≠ n → e.ring k = d.ring k)
      ∧ tget natDef e.fab.landed m.src = (tget natDef d.fab.landed m.src + 1) % 2 ^ 16 ∧ e.mem = d.mem := by
  have hlanded : (d.moveRing n r).fab.landed = d.fab.landed :=
    Device.moveRing_keeps (fun x => x.fab.landed) (fun _ _ => rfl) (fun _ _ _ _ => rfl) d n r
  have hmem : (d.moveRing n r).mem = d.mem := (congrArg Device.mem (d.moveRing_sansRings n r) :)
  have hring := d.moveRing_ring n (r := r)
  generalize d.moveRing n r = x at *
  have hsends := x.landed_sansSends m
  have hrings (k : Nat) : (x.landed m).ring k = x.ring k := Device.ring_congr (congrArg Device.rings hsends :) k
  refine ⟨by rw [hrings, hring, if_pos rfl], fun k hk => by rw [hrings, hring, if_neg hk], ?_,
    (congrArg Device.mem hsends :).trans hmem⟩
  rw [← hlanded]
  exact (congrArg (fun x : Device => tget natDef x.fab.landed m.src) hsends :).trans (tget_tput_same _ _ _ _)

/-- Settles O43: each message for another device is passed on; for this one, message by message. -/
theorem remoteRings : Obligations.RemoteRings := by
  intro s m hs
  refine ⟨fun hout => ?_, fun hown => ⟨⟨fun hfrom hbound hon hfits => ?_, fun hno => ?_, fun hfrom hbound => ?_⟩, fun hfrom => ?_,
    fun hfrom => ?_, fun hfrom => ?_, fun hfrom q hq hdev hring => ⟨fun hnew => ?_, ?_⟩⟩, fun hout => ?_,
    fun hid => ⟨fun hread => ?_, fun hread hwrite => ?_⟩⟩
  · exact ⟨Runs.of_on hs (exec_tailAdv m s) (by simp [Device.tailAdv, hout]),
      Runs.of_on hs (exec_fabricSignal m s) (by simp [Device.signalIn, hout]),
      Runs.of_on hs (exec_ringQuery m s) (by simp [Device.ringQuery, hout]),
      Runs.of_on hs (exec_ringState m s) (by simp [Device.ringState, Device.modProxy, hout]),
      Runs.of_on hs (exec_headUpd m s) (by simp [Device.headUpd, Device.modProxy, hout])⟩
  · refine Runs.of_on hs (exec_tailAdv m s) ?_
    rw [Device.tailAdv_taken hown hfrom hbound (Ring.publish_of_fits hon hfits)]
    exact s.dev.landed_moveRing m _ _
  · refine Runs.of_on hs (exec_tailAdv m s) ?_
    rw [Device.tailAdv_refused hown (hno.imp_right (Or.imp_right (Ring.publish_eq_none_iff _ _).mpr))]
    exact s.dev.nack_eq m
  · exact Runs.of_on hs (exec_ringQuery m s) (Device.ringQuery_answered hown hfrom hbound)
  · refine Runs.of_on hs (exec_fabricSignal m s) ?_
    have heq : s.dev.signalIn m = s.dev.triggerBy (trigNames 4 15 8 (m.arg % 256)) := by
      simp [Device.signalIn, Device.fabricSignal, hown, hfrom]
    rw [heq]
    exact ⟨rfl, s.dev.triggerBy_frame _⟩
  · exact Runs.of_on hs (exec_fabricSignal m s) (by simp [Device.signalIn, hown, hfrom])
  · exact ⟨Runs.of_on hs (exec_ringState m s) (Device.modProxy_outside hown _ hfrom),
      Runs.of_on hs (exec_headUpd m s) (Device.modProxy_outside hown _ hfrom)⟩
  · refine Runs.of_on hs (exec_ringState m s) ?_
    obtain ⟨hframe, hmem⟩ := Device.modProxy_taken hown _ hfrom hq hdev hring
    refine ⟨hframe, _, hmem, ?_⟩
    rw [if_neg (by simp [hnew])]
    exact ⟨rfl, rfl, rfl, rfl, rfl, rfl, rfl⟩
  · exact Runs.of_on hs (exec_headUpd m s) (Device.modProxy_taken hown _ hfrom hq hdev hring)
  · exact Runs.of_on hs (exec_mgmt m s) (if_pos (by simpa using hout))
  · refine Runs.of_on hs (exec_mgmt m s) ?_
    simp only [Device.mgmt, hid, bne_self_eq_false, Bool.false_eq_true, if_false, hread, if_true]
  · refine Runs.of_on hs (exec_mgmt m s) ?_
    simp only [Device.mgmt, hid, bne_self_eq_false, Bool.false_eq_true, if_false, hread, hwrite]

end Sys2Proof.Machine

/-! SUPPORT. Ring pointers (R166): one move of a pointer, and what the pointers say of the published entries. -/

namespace Sys2Proof.Machine

open Sys2Proof

/-! ### Ring pointers, fill and free space (R166) -/

theorem RPtr.move_one_inside {p : RPtr} {count : Nat} (h : p.index + 1 < count) :
    p.move count 1 = ⟨p.index + 1, p.wrap, (p.total + 1) % 2 ^ 32⟩ := if_pos h

theorem RPtr.move_one_last {p : RPtr} {count : Nat} (h : p.index + 1 = count) :
    p.move count 1 = ⟨0, !p.wrap, (p.total + 1) % 2 ^ 32⟩ := by
  simp [RPtr.move, h]

theorem RPtr.move_one_index_lt {p : RPtr} {count : Nat} (h : p.index < count) : (p.move count 1).index < count := by
  rcases Nat.lt_or_eq_of_le (Nat.succ_le_of_lt h) with hin | hlast
  · simpa only [RPtr.move_one_inside hin] using hin
  · rw [RPtr.move_one_last hlast]
    exact Nat.zero_lt_of_lt h

theorem Ring.fill_of_wrap_eq {g : Ring} (h : g.head.wrap = g.tail.wrap) : g.fill = g.tail.index - g.head.index := if_pos h

theorem Ring.fill_of_wrap_ne {g : Ring} (h : g.head.wrap ≠ g.tail.wrap) : g.fill = g.count - g.head.index + g.tail.index :=
  if_neg h

/-- A head that is not past the tail of its own wrap bit: the pointers tell how full the ring is. -/
theorem Ring.fill_ends {g : Ring} (hhead : g.head.index < g.count) (htail : g.tail.index < g.count)
    (horder : g.head.wrap = g.tail.wrap → g.head.index ≤ g.tail.index) :
    (g.fill = 0 ↔ g.head.index = g.tail.index ∧ g.head.wrap = g.tail.wrap)
      ∧ (g.fill = g.count ↔ g.head.index = g.tail.index ∧ g.head.wrap ≠ g.tail.wrap) := by
  by_cases hwrap : g.head.wrap = g.tail.wrap
  · have hle := horder hwrap
    simp only [Ring.fill_of_wrap_eq hwrap, hwrap, ne_eq, not_true_eq_false, and_true, and_false, iff_false]
    omega
  · simp only [Ring.fill_of_wrap_ne hwrap, hwrap, ne_eq, not_false_eq_true, and_true, and_false, iff_false]
    omega

theorem Runs.imp {c : Instr} {s : State} {P Q : Device → Prop} (h : Runs c s P) (hPQ : ∀ d, P d → Q d) : Runs c s Q := by
  obtain ⟨d, hexec, hd⟩ := h
  exact ⟨d, hexec, hPQ d hd⟩

/-- Settles O60: the move by one has a case for each end of it, and `ringMoves` says that the commands move their pointers so. -/
theorem ringPointers : Obligations.RingPointers := by
  unfold Obligations.RingPointers
  intro oneOn
  have hmove (p : RPtr) (count : Nat) (h : p.index < count) : oneOn p (p.move count 1) count :=
    ⟨RPtr.move_one_index_lt h, fun hin => by simp [RPtr.move_one_inside hin], fun hlast => by simp [RPtr.move_one_last hlast]⟩
  refine ⟨hmove, fun s r hs hon => ?_, fun g hhead htail =>
    ⟨Ring.fill_of_wrap_eq, Ring.fill_of_wrap_ne, Ring.fill_ends hhead htail, rfl⟩⟩
  obtain ⟨hadvance, hpublish, -⟩ := ringMoves s r hs
  constructor
  · refine fun hhead hfill => (hadvance 1).imp fun d ⟨_, hring⟩ => ?_
    rw [hring, if_pos ⟨hon, hfill⟩]
    exact ⟨hmove _ _ hhead, rfl⟩
  · refine fun htail hfree => (hpublish 1).imp fun d ⟨_, _, hring⟩ => ?_
    rw [hring, if_pos ⟨hon, hfree⟩]
    exact ⟨hmove _ _ htail, rfl⟩

end Sys2Proof.Machine

/-! SUPPORT. The patrol scrub of the stacks, and the repair and sparing of rows (R171, R177 to R181, R235). -/

namespace Sys2Proof.Machine

open Sys2Proof

/-! ### The patrol scrub (R177, R178, R235) -/

/-- Where the patrol scrub of a stack stands, and the stack's error counters. -/
structure ScrubState where
  pos : Nat
  tn : Nat
  corr : Nat
  uncorr : Nat

/-- The scrub state of stack `h`. -/
def Stk.scrub (s : Stk) (h : Nat) : ScrubState :=
  if h = 0 then ⟨s.scrubPos0, s.scrubTn0, s.corr0, s.uncorr0⟩ else ⟨s.scrubPos1, s.scrubTn1, s.corr1, s.uncorr1⟩

/-- The scrub has read the next burst in tempo `tn`. -/
def ScrubState.moved (v : ScrubState) (tn : Nat) : ScrubState :=
  { v with pos := if v.pos + 1 = burstCount then 0 else v.pos + 1, tn := tn }

/-- A read of the stack met the outcome. -/
def ScrubState.found (v : ScrubState) (o : EccOutcome) : ScrubState :=
  { v with corr := if o = .corrected then (v.corr + 1) % 2 ^ 64 else v.corr,
           uncorr := if o = .uncorrectable ∨ o = .tagMismatch then (v.uncorr + 1) % 2 ^ 64 else v.uncorr }

theorem Stk.scrub_fin (s : Stk) (h : Fin 2) : s.scrub h = ⟨if h = 0 then s.scrubPos0 else s.scrubPos1,
    if h = 0 then s.scrubTn0 else s.scrubTn1, if h = 0 then s.corr0 else s.corr1, if h = 0 then s.uncorr0 else s.uncorr1⟩ := by
  by_cases hh : h = 0 <;> simp [Stk.scrub, hh]

theorem Device.stackError_scrub (d : Device) (h a : Nat) (o : EccOutcome) :
    (d.stackError h a o).stk.scrub h = (d.stk.scrub h).found o := by
  by_cases hh : h = 0 <;> cases o <;>
    simp [Device.stackError, Device.modStk, Device.note, Stk.scrub, ScrubState.found, hh]

/-- The device without what a scrub read touches. -/
def Device.sansScrub (d : Device) : Device :=
  { d with stk := .init, dict := .init, noc := .init, fresh := 0, out := [] }

theorem Device.eq_of_sansScrub {d e : Device} (h : e.sansScrub = d.sansScrub) :
    e = { d with stk := e.stk, dict := e.dict, noc := e.noc, fresh := e.fresh, out := e.out } :=
  congrArg (fun x : Device => { x with stk := e.stk, dict := e.dict, noc := e.noc, fresh := e.fresh, out := e.out }) h

/-- What a scrub read of stack `h` settles: the scrub state, the networks with their counters, and what it leaves. -/
def Device.scrubView (d : Device) (h : Nat) : ScrubState × Noc × Device := (d.stk.scrub h, d.noc, d.sansScrub)

theorem Device.modStk_scrubView {d : Device} {h : Nat} {f : Stk → Stk} (hf : (f d.stk).scrub h = d.stk.scrub h) :
    (d.modStk f).scrubView h = d.scrubView h :=
  congrArg (fun v => (v, d.noc, d.sansScrub)) hf

theorem Device.stackError_scrubView (d : Device) (h a : Nat) (o : EccOutcome) :
    (d.stackError h a o).scrubView h = ((d.stk.scrub h).found o, d.noc, d.sansScrub) := by
  have hnoc : (d.stackError h a o).noc = d.noc := by cases o <;> rfl
  have hsans : (d.stackError h a o).sansScrub = d.sansScrub := by cases o <;> rfl
  rw [Device.scrubView, d.stackError_scrub, hnoc, hsans]

/-- The tempo of the last scrub read of a stack, as the model spells it. -/
theorem Stk.scrub_tn (s : Stk) (h : Nat) : (s.scrub h).tn = if h = 0 then s.scrubTn0 else s.scrubTn1 :=
  apply_ite ScrubState.tn _ _ _

theorem Device.scrubRead_early {d : Device} {h : Nat} (o : EccOutcome) (hearly : d.tn < (d.stk.scrub h).tn + d.scrubInterval) :
    d.scrubRead h o = d := by
  rw [Stk.scrub_tn] at hearly
  exact if_pos (Or.inr (Or.inr hearly))

/-- A due read moves on, counts its bytes and then what it finds; its records of rows and passes leave the scrub state. -/
theorem Device.scrubRead_due {d : Device} {h : Nat} (o : EccOutcome) (hstarted : d.tb.started = true)
    (htrained : d.pwr.hs h = .trained) (hdue : (d.stk.scrub h).tn + d.scrubInterval ≤ d.tn) :
    (d.scrubRead h o).scrubView h
      = (((d.stk.scrub h).moved d.tn).found o, d.noc.count (stackBase h + 0x2000 + 8 * classMG) 64, d.sansScrub) := by
  rw [Stk.scrub_tn] at hdue
  unfold Device.scrubRead
  extract_lets pos last a row wraps d1 d2 d3 d4 d5
  rw [if_neg (by simp [hstarted, htrained, last, hdue])]
  have hmoved : d1.scrubView h = ((d.stk.scrub h).moved d.tn, d.noc, d.sansScrub) := by
    have hscrub : d1.stk.scrub h = (d.stk.scrub h).moved d.tn := by
      by_cases hh : h = 0 <;> simp [d1, wraps, pos, Device.modStk, Stk.scrub, ScrubState.moved, hh]
    exact congrArg (fun v => (v, d.noc, d.sansScrub)) hscrub
  have hrow : d2.scrubView h = d1.scrubView h := by
    unfold d2
    split
    · exact Device.modStk_scrubView (by dsimp only; split <;> rfl)
    · rfl
  obtain ⟨hscrub, hnoc, hsans⟩ : d2.stk.scrub h = (d.stk.scrub h).moved d.tn ∧ d2.noc = d.noc ∧ d2.sansScrub = d.sansScrub := by
    simpa only [Device.scrubView, Prod.mk.injEq] using hrow.trans hmoved
  have hfound : d4.scrubView h
      = ((d2.stk.scrub h).found o, d2.noc.count (stackBase h + 0x2000 + 8 * classMG) 64, d2.sansScrub) :=
    d3.stackError_scrubView h a o
  have hevent : d5.scrubView h = d4.scrubView h := by
    unfold d5
    split <;> rfl
  have hpass (p : Bool) : (if p then d5.modStk fun s => { s with passes := (s.passes + 1) % 2 ^ 32 } else d5).scrubView h
      = d5.scrubView h := by
    cases p <;> rfl
  rw [hpass, hevent, hfound, hscrub, hnoc, hsans]

/-! ### Soft repair (R171, R179) -/

/-- The findings of a stack row are served. -/
def Device.rowServed (d : Device) (h row : Nat) : Device :=
  d.modStk fun s => { s with rowPasses := tput zeroDef s.rowPasses (rowKey h row) 0 }

/-- A stack row has taken a repair resource. -/
def Device.rowReplaced (d : Device) (h row : Nat) : Device :=
  (d.rowServed h row).modStk fun s => { s with repairs := ⟨h, row⟩ :: s.repairs }

/-- A page is retired, and an event names it. -/
def Device.retirePage (d : Device) (page : Nat) : Device :=
  (if d.stk.retiredPages.contains page then d else d.modStk fun s => { s with retiredPages := page :: s.retiredPages }).event
    evPagesRetired none page

theorem Device.needsRepair_of_rowPasses {d e : Device} {h row : Nat} (he : e.stk.rowPasses = (d.rowServed h row).stk.rowPasses) :
    e.needsRepair h row = false := by
  simp [Device.needsRepair, he, Device.rowServed, Device.modStk]

/-- Undefined bytes in ranges outside which the address lies leave its byte. -/
theorem Device.byte_foldl_scramble {α : Type} (lo hi : α → Nat) {l : List α} {a : Nat} (h : ∀ x ∈ l, a < lo x ∨ hi x ≤ a)
    (d : Device) : (l.foldl (fun d x => d.scramble (lo x) (hi x)) d).byte a = d.byte a := by
  refine List.foldlRecOn (motive := fun e : Device => e.byte a = d.byte a) l _ rfl fun e he x hx => ?_
  have hout : ¬ (lo x ≤ a ∧ a < hi x) := by
    have := h x hx
    omega
  rw [← he, Device.scramble]
  split
  · simp [Device.byte, scrambleAt, hout]
  · rfl

/-- Undefined bytes leave what neither they nor the free values are part of. -/
theorem Device.foldl_scramble_eq {α : Type} (lo hi : α → Nat) (l : List α) (d : Device) :
    ∃ scrambles fresh, l.foldl (fun d x => d.scramble (lo x) (hi x)) d = { d with scrambles := scrambles, fresh := fresh } := by
  refine List.foldlRecOn (motive := fun e : Device => ∃ scrambles fresh, e = { d with scrambles := scrambles, fresh := fresh }) l _
    ⟨d.scrambles, d.fresh, rfl⟩ fun e he x _ => ?_
  obtain ⟨scrambles, fresh, rfl⟩ := he
  rw [Device.scramble_eq]
  exact ⟨_, _, rfl⟩

theorem Device.mem_retirePage (d : Device) (page : Nat) : page ∈ (d.retirePage page).stk.retiredPages := by
  unfold Device.retirePage
  split
  · next h => exact List.contains_iff_mem.mp h
  · exact List.mem_cons_self

theorem Device.retirePage_keeps_retired {d : Device} {q : Nat} (page : Nat) (h : q ∈ d.stk.retiredPages) :
    q ∈ (d.retirePage page).stk.retiredPages := by
  unfold Device.retirePage
  split
  · exact h
  · exact List.mem_cons_of_mem _ h

/-- The device without what the retirement of a page touches. -/
def Device.sansRetired (d : Device) : Device :=
  { d with stk := { d.stk with retiredPages := [] }, dict := .init, fresh := 0 }

theorem Device.retirePage_sansRetired (d : Device) (page : Nat) : (d.retirePage page).sansRetired = d.sansRetired := by
  unfold Device.retirePage
  split <;> rfl

section Needed

variable {d : Device} {h row : Nat} (hneed : d.needsRepair h row = true) (htrained : d.pwr.hs h = .trained)
include hneed htrained

theorem Device.softRepair_resource (ok : Bool) : d.softRepair h row ok true = if ok then d.rowReplaced h row
    else (stackRowBlocks h row).foldl (fun d o => d.scramble (h * stackSize + o) (h * stackSize + o + 256)) (d.rowReplaced h row) :=
  (if_neg (by simp [hneed, htrained])).trans (if_pos rfl)

theorem Device.softRepair_noResource (ok : Bool) : d.softRepair h row ok false
    = (stackRowPages h row).foldl (fun d p => d.retirePage (h * stackSize / 4096 + p)) (d.rowServed h row) :=
  (if_neg (by simp [hneed, htrained])).trans (if_neg Bool.false_ne_true)

/-- With a repair resource the row is replaced; bytes outside its blocks keep their contents, and all do where they were copied. -/
theorem Device.softRepair_replaces (ok : Bool) : let e := d.softRepair h row ok true
    e.needsRepair h row = false ∧ e.mem = d.mem ∧ e.stk.repairs = ⟨h, row⟩ :: d.stk.repairs
      ∧ e.stk.retiredPages = d.stk.retiredPages ∧ (ok = true → e.scrambles = d.scrambles)
      ∧ (∀ a, (∀ o ∈ stackRowBlocks h row, a < h * stackSize + o ∨ h * stackSize + o + 256 ≤ a) → e.byte a = d.byte a) := by
  intro e
  have he : e = _ := Device.softRepair_resource hneed htrained ok
  cases ok
  · rw [if_neg (by simp)] at he
    have hbyte (a : Nat) (ha : ∀ o ∈ stackRowBlocks h row, a < h * stackSize + o ∨ h * stackSize + o + 256 ≤ a) :
        e.byte a = d.byte a := by
      rw [he]
      exact (Device.byte_foldl_scramble _ _ ha _).trans rfl
    obtain ⟨scrambles, fresh, hfold⟩ := Device.foldl_scramble_eq (fun o => h * stackSize + o) (fun o => h * stackSize + o + 256)
      (stackRowBlocks h row) (d.rowReplaced h row)
    have hframe := he.trans hfold
    refine ⟨Device.needsRepair_of_rowPasses (d := d) ?_, ?_, ?_, ?_, nofun, hbyte⟩ <;> rw [hframe] <;> rfl
  · rw [if_pos rfl] at he
    rw [he]
    exact ⟨Device.needsRepair_of_rowPasses (d := d) rfl, rfl, rfl, rfl, fun _ => rfl, fun _ _ => rfl⟩

/-- With no repair resource left every page that the row touches is retired, and no byte changes. -/
theorem Device.softRepair_retires (ok : Bool) : let e := d.softRepair h row ok false
    e.needsRepair h row = false ∧ e.mem = d.mem ∧ (∀ p ∈ stackRowPages h row, h * stackSize / 4096 + p ∈ e.stk.retiredPages)
      ∧ e.stk.repairs = d.stk.repairs ∧ e.scrambles = d.scrambles := by
  intro e
  have he : e = _ := Device.softRepair_noResource hneed htrained ok
  have hsans : e.sansRetired = (d.rowServed h row).sansRetired := by
    rw [he]
    exact foldl_keeps Device.sansRetired (fun x _ => x.retirePage_sansRetired _) _ _
  refine ⟨Device.needsRepair_of_rowPasses (congrArg (fun x : Device => x.stk.rowPasses) hsans :), (congrArg Device.mem hsans :),
    fun p hp => ?_, (congrArg (fun x : Device => x.stk.repairs) hsans :), (congrArg Device.scrambles hsans :)⟩
  rw [he]
  exact foldl_establishes (P := fun x : Device => h * stackSize / 4096 + p ∈ x.stk.retiredPages) hp
    (fun x => x.mem_retirePage _) (fun _ _ => Device.retirePage_keeps_retired _) _

end Needed

/-- Settles O35: a scrub read by what it makes of the scrub state, a repair with a resource and without one. -/
theorem scrubRepair : Obligations.ScrubRepair := by
  intro s hs
  refine ⟨fun h o => ?_, fun h row ok res hneed htrained => ?_, fun row => ?_⟩
  · have hfin := s.dev.stk.scrub_fin h
    refine ⟨fun hstarted htrained hdue => ?_, fun hearly => ?_⟩
    · refine Runs.of_on hs (exec_scrubRead h o s) ?_
      have hview := Device.scrubRead_due o hstarted htrained (by rw [hfin]; exact hdue)
      generalize s.dev.scrubRead h o = d at hview
      simp only [Device.scrubView, Prod.mk.injEq, hfin, d.stk.scrub_fin h, ScrubState.moved, ScrubState.found,
        ScrubState.mk.injEq] at hview
      obtain ⟨⟨hpos, htn, hcorr, huncorr⟩, hnoc, hsans⟩ := hview
      refine ⟨hpos, htn, hcorr, huncorr, ?_, Device.eq_of_sansScrub hsans⟩
      rw [hnoc]
      exact congrArg Counter.val (s.dev.count_counter_same _ _)
    · exact Runs.of_on hs (exec_scrubRead h o s) (Device.scrubRead_early o (by rw [hfin]; exact hearly))
  · refine Runs.of_on hs (exec_softRepair h row ok res s) ?_
    cases res
    · obtain ⟨hserved, hmem, hretired⟩ := Device.softRepair_retires hneed htrained ok
      exact ⟨hserved, hmem, nofun, fun _ => hretired⟩
    · obtain ⟨hserved, hmem, hreplaced⟩ := Device.softRepair_replaces hneed htrained ok
      exact ⟨hserved, hmem, fun _ => hreplaced, nofun⟩
  · exact Runs.of_on hs (exec_spareRowCopy row s) rfl

end Sys2Proof.Machine

/-! SUPPORT. Live counters of the ports and the error logs (R236 to R240). -/

namespace Sys2Proof.Machine

open Sys2Proof

/-! ### The snapshot of the counters (R236) -/

/-- A counter whose snapshot register holds its value. -/
def Counter.latched (c : Counter) : Counter := { c with snap := c.val }

/-- Unlisted counters read as zero with a snapshot of zero, so every counter is latched. -/
theorem Noc.snapshot_counter (n : Noc) (tn : Nat) (latch : Bool) (a : Nat) :
    (n.snapshot tn latch).counter a = (n.counter a).latched := by
  have hkeep (m : Noc) (k : Nat) (hm : m.counter a = (n.counter a).latched) :
      (m.setCounter k (n.counter k).latched).counter a = (n.counter a).latched := by
    rw [Noc.setCounter_counter_if]
    split
    · next heq => rw [heq]
    · exact hm
  by_cases hdef : n.counter a = Counter.init
  · exact List.foldlRecOn (motive := fun m : Noc => m.counter a = (n.counter a).latched) n.counters
      (fun m p => m.setCounter p.1 (n.counter p.1).latched) (by rw [hdef]; rfl) fun m hm p _ => hkeep m p.1 hm
  · obtain ⟨⟨k, v⟩, hlisted, rfl⟩ := List.mem_map.mp (mem_keys_of_tget_ne (d := counterDef) hdef)
    exact foldl_establishes (P := fun m : Noc => m.counter k = (n.counter k).latched) hlisted
      (fun m => m.setCounter_counter _ _) (fun m p => hkeep m p.1) n

theorem Noc.snapshot_eq (n : Noc) (tn : Nat) (latch : Bool) : n.snapshot tn latch =
    { n with counters := (n.snapshot tn latch).counters, snapTn := tn % 2 ^ 63 + 2 ^ 63 * b2n latch } :=
  (congrArg (fun m : Noc => { m with counters := (n.snapshot tn latch).counters, snapTn := tn % 2 ^ 63 + 2 ^ 63 * b2n latch })
    (foldl_keeps (fun m : Noc => { m with counters := [] })
      (f := fun (m : Noc) (p : Nat × Counter) => m.setCounter p.1 (n.counter p.1).latched) (fun _ _ => rfl) n.counters n) :)

/-! ### The words of a port's counters (R22, R235) -/

theorem nocReg_portWord {p : Port} {o : Nat} (hp : p.port < portCount p.die) (ho : o < 0x100) :
    nocReg p.die (0x1000 + p.port * 0x100 + o) = portWord p o := by
  have hin : 0x1000 ≤ 0x1000 + p.port * 0x100 + o ∧ 0x1000 + p.port * 0x100 + o < 0x1000 + portCount p.die * 0x100 :=
    ⟨by omega, by omega⟩
  have hport : (0x1000 + p.port * 0x100 + o - 0x1000) / 0x100 = p.port := by omega
  have hword : (0x1000 + p.port * 0x100 + o) % 0x100 = o := by omega
  unfold nocReg
  iterate 6 rw [if_neg (by omega)]
  rw [if_pos hin, hport, hword]

theorem portWord_counter (p : Port) {k o : Nat} (hk : k < 9) (ho : o < 8) :
    portWord p (0x40 + 8 * k + o) = .counter (portBase p + 0x40 + 8 * k) o := by
  have hbase : portBase p + (0x40 + 8 * k + o) / 8 * 8 = portBase p + 0x40 + 8 * k := by omega
  have hhalf : (0x40 + 8 * k + o) % 8 = o := by omega
  unfold portWord
  iterate 5 rw [if_neg (by omega)]
  rw [if_pos ⟨by omega, by omega⟩, hbase, hhalf]

theorem commonReg_noc {k o : Nat} (ho : o < 0x4000) :
    commonReg k (0x30_0000 + o) = nocReg (if k = 0 then .cd0 else .cd1) o := by
  unfold commonReg
  iterate 4 rw [if_neg (by omega)]
  rw [if_pos ⟨by omega, by omega⟩, Nat.add_sub_cancel_left]

theorem cdWindow_noc (w : Who) {k o : Nat} (ho : o < 0x4000) :
    cdWindow w k (0x130_0000 + o) = (nocReg (if k = 0 then .cd0 else .cd1) o).only w.secure := by
  have hcommon : 0x130_0000 + o - 0x100_0000 = 0x30_0000 + o := by omega
  rw [cdWindow, if_neg (by omega), hcommon, commonReg_noc ho]

section Windows

variable (d : Device) (w : Who) (write : Bool) {a : Nat}

theorem regOf_hub (hlo : 0xF0_0000_0000 ≤ a) (hhi : a < 0xF0_0F00_0000) :
    regOf d w write a = hubWindow d w write ((a - 0xF0_0000_0000) / 0x100_0000) (a % 0x100_0000) := by
  have hplace : placeOf a = .regs := (placeOf_eq_regs_iff a).mpr (Or.inl ⟨hlo, hhi⟩)
  have hhub : a < 0xF1_0000_0000 := by omega
  simp only [regOf, hplace, if_pos hhub]

theorem regOf_cd0 (hlo : 0xF1_0000_0000 ≤ a) (hhi : a < 0xF1_0200_0000) :
    regOf d w write a = cdWindow w 0 (a - 0xF1_0000_0000) := by
  have hplace : placeOf a = .regs := (placeOf_eq_regs_iff a).mpr (Or.inr (Or.inl ⟨hlo, hhi⟩))
  have hcd0 : a < 0xF2_0000_0000 := by omega
  simp only [regOf, hplace, if_neg (Nat.not_lt.mpr hlo), if_pos hcd0]

theorem regOf_cd1 (hlo : 0xF2_0000_0000 ≤ a) (hhi : a < 0xF2_0200_0000) :
    regOf d w write a = cdWindow w 1 (a - 0xF2_0000_0000) := by
  have hplace : placeOf a = .regs := (placeOf_eq_regs_iff a).mpr (Or.inr (Or.inr (Or.inl ⟨hlo, hhi⟩)))
  have hcd0 : ¬ a < 0xF1_0000_0000 := by omega
  have hcd1 : a < 0xF3_0000_0000 := by omega
  simp only [regOf, hplace, if_neg hcd0, if_neg (Nat.not_lt.mpr hlo), if_pos hcd1]

/-- The regulation blocks stand in the windows of their dies and answer the secure world (R20, R22). -/
theorem regOf_noc (die : Die) {o : Nat} (ho : o < 0x4000) :
    regOf d w write (nocBase die + o) = (nocReg die o).only w.secure := by
  cases die with
  | hub =>
    have hwindow : (0xF0_0400_0000 + o - 0xF0_0000_0000) / 0x100_0000 = 4 := by omega
    have hoffset : (0xF0_0400_0000 + o) % 0x100_0000 = o := by omega
    rw [nocBase, regOf_hub d w write (by omega) (by omega), hwindow, hoffset]
    rfl
  | cd0 =>
    have hoffset : 0xF1_0130_0000 + o - 0xF1_0000_0000 = 0x130_0000 + o := by omega
    rw [nocBase, regOf_cd0 d w write (by omega) (by omega), hoffset, cdWindow_noc w ho, if_pos rfl]
  | cd1 =>
    have hoffset : 0xF2_0130_0000 + o - 0xF2_0000_0000 = 0x130_0000 + o := by omega
    rw [nocBase, regOf_cd1 d w write (by omega) (by omega), hoffset, cdWindow_noc w ho, if_neg Nat.one_ne_zero]

end Windows

/-- The secure world finds the two words of a live counter at the address (R237, R239). -/
def CounterAt (a : Nat) : Prop :=
  ∀ (d : Device) (write : Bool) (o : Nat), o < 8 → regOf d secureWho write (a + o) = some (Reg.counter a o)

theorem portCount_le (die : Die) : portCount die ≤ 17 := by cases die <;> decide

theorem counterAt_port {p : Port} {k : Nat} (hp : p.port < portCount p.die) (hk : k < 9) :
    CounterAt (portBase p + 0x40 + 8 * k) := by
  intro d write o ho
  have hport := portCount_le p.die
  have haddr : portBase p + 0x40 + 8 * k + o = nocBase p.die + (0x1000 + p.port * 0x100 + (0x40 + 8 * k + o)) := by
    simp only [portBase]
    omega
  rw [haddr, regOf_noc d secureWho write p.die (by omega), nocReg_portWord hp (by omega), portWord_counter p hk ho]
  rfl

/-! ### Changes of one counter -/

theorem Device.modCounter_counter_same (d : Device) (a : Nat) (f : Counter → Counter) :
    (d.modCounter a f).noc.counter a = f (d.noc.counter a) := d.noc.setCounter_counter a _

theorem Device.modCounter_counter_other (d : Device) {a b : Nat} (f : Counter → Counter) (h : b ≠ a) :
    (d.modCounter a f).noc.counter b = d.noc.counter b := by
  rw [Device.modCounter, Noc.setCounter_counter_if, if_neg h]

/-- Of the device, the counter at the address alone may have changed. -/
def Device.OnlyCounter (a : Nat) (d e : Device) : Prop :=
  e = { d with noc := { d.noc with counters := e.noc.counters } } ∧ ∀ b, b ≠ a → e.noc.counter b = d.noc.counter b

theorem Device.modCounter_onlyCounter (d : Device) (a : Nat) (f : Counter → Counter) : d.OnlyCounter a (d.modCounter a f) :=
  ⟨rfl, fun _ hb => d.modCounter_counter_other f hb⟩

/-- The change that a 64-bit write makes: its low word is staged, then its high word is written (R8, R239). -/
def Device.writeCounter64 (d : Device) (a : Nat) (v : DWord) (inc : Bool) : Device :=
  (d.modCounter a fun c => c.writeLow (BitVec.ofNat 32 v.toNat)).modCounter a fun c =>
    c.writeHigh (BitVec.ofNat 32 (v.toNat / 2 ^ 32)) inc

theorem Device.writeCounter64_onlyCounter (d : Device) (a : Nat) (v : DWord) (inc : Bool) :
    d.OnlyCounter a (d.writeCounter64 a v inc) :=
  ⟨rfl, fun _ hb => (Device.modCounter_counter_other _ _ hb).trans (d.modCounter_counter_other _ hb)⟩

theorem Counter.writeHigh_writeLow (c : Counter) (v : DWord) (inc : Bool) :
    (c.writeLow (BitVec.ofNat 32 v.toNat)).writeHigh (BitVec.ofNat 32 (v.toNat / 2 ^ 32)) inc
      = { c with val := v.toNat, staged := none, lost := c.lost || inc } := by
  have hval : v.toNat / 2 ^ 32 % 2 ^ 32 * 2 ^ 32 + v.toNat % 2 ^ 32 = v.toNat := by omega
  simp only [Counter.writeHigh, Counter.writeLow, BitVec.toNat_ofNat, hval]

theorem Device.writeCounter64_counter (d : Device) (a : Nat) (v : DWord) (inc : Bool) :
    (d.writeCounter64 a v inc).noc.counter a
      = { d.noc.counter a with val := v.toNat, staged := none, lost := (d.noc.counter a).lost || inc } := by
  rw [Device.writeCounter64, Device.modCounter_counter_same, Device.modCounter_counter_same, Counter.writeHigh_writeLow]

/-! ### Reads and writes of a live counter (R237, R239) -/

theorem word_ofNat_mod (n : Nat) : BitVec.ofNat 32 (n % 2 ^ 32) = BitVec.ofNat 32 n := by
  apply BitVec.eq_of_toNat_eq
  simp

section Live

variable {a : Nat} (ha : CounterAt a) (s : State)
include ha

theorem Device.wordWrite_counterLow (d : Device) (v hw : Nat) :
    d.wordWrite secureWho a v hw = some (d.modCounter a fun c => c.writeLow (BitVec.ofNat 32 v)) := by
  rw [Device.wordWrite, show regOf d secureWho true a = _ from ha d true 0 (by decide), ← word_ofNat_mod v]
  rfl

theorem Device.wordWrite_counterHigh (d : Device) (v : Nat) (inc : Bool) : d.wordWrite secureWho (a + 4) v (b2n inc)
    = some (d.modCounter a fun c => c.writeHigh (BitVec.ofNat 32 v) inc) := by
  have hinc : (b2n inc != 0) = inc := by cases inc <;> rfl
  rw [Device.wordWrite, ha d true 4 (by decide), ← word_ofNat_mod v]
  exact congrArg some (congrArg (fun i => d.modCounter a fun c => c.writeHigh _ i) hinc)

theorem exec_counterLowRead_live : exec (.counterLowRead a) s = s.on fun d =>
    (d.holdHigh a (d.noc.counter a).val).note (.read a ((d.noc.counter a).val % 2 ^ 32)) := by
  have hread (d : Device) : d.wordRead secureWho a
      = some ((d.noc.counter a).val % 2 ^ 32 % 2 ^ 32, d.holdHigh a (d.noc.counter a).val) := by
    rw [Device.wordRead, show regOf d secureWho false a = _ from ha d false 0 (by decide)]
    rfl
  simp only [exec_counterLowRead, execCounterLowRead, Device.counterLowRead, hread, Nat.mod_mod]

theorem exec_counterLowWrite_live (v : Word) :
    exec (.counterLowWrite a v) s = s.on fun d => d.modCounter a fun c => c.writeLow v := by
  simp only [exec_counterLowWrite, execCounterLowWrite, Device.wordWrite_counterLow ha, Option.getD_some,
    BitVec.ofNat_toNat, BitVec.setWidth_eq]

theorem exec_counterHighWrite_live (v : Word) (inc : Bool) :
    exec (.counterHighWrite a v inc) s = s.on fun d => d.modCounter a fun c => c.writeHigh v inc := by
  simp only [exec_counterHighWrite, execCounterHighWrite, Device.wordWrite_counterHigh ha, Option.getD_some,
    BitVec.ofNat_toNat, BitVec.setWidth_eq]

theorem exec_counterWrite64_live (v : DWord) (inc : Bool) :
    exec (.counterWrite64 a v inc) s = s.on fun d => d.writeCounter64 a v inc := by
  have hhw : 2 ^ 32 * b2n inc / 2 ^ 32 = b2n inc := Nat.mul_div_cancel_left _ (by decide)
  simp only [exec_counterWrite64, execCounterWrite64, Device.wordsWrite, Device.wordWrite_counterLow ha, hhw,
    Device.wordWrite_counterHigh ha, word_ofNat_mod, Device.writeCounter64]

end Live

/-- The holding register keeps the high word (R237). -/
theorem Device.holdHigh_holds (d : Device) (a v : Nat) :
    (tget (fun _ => (0 : Word)) (d.holdHigh a v).holds a).toNat = v / 2 ^ 32 % 2 ^ 32 := by
  rw [Device.holdHigh, tget_tput_same, BitVec.toNat_ofNat]

/-- OVF is set by a wrap and stays (R238). -/
theorem Counter.add_ovf (c : Counter) (n : Nat) : (c.add n).ovf = true ↔ c.ovf = true ∨ 2 ^ 64 ≤ c.val + n := by
  simp [Counter.add]

/-! ### The error logs (R240) -/

theorem Noc.setErr_err_same (n : Noc) (die : Die) (v : ErrLog) : (n.setErr die v).err die = v := by cases die <;> rfl

theorem Noc.setErr_err_other (n : Noc) {die k : Die} (v : ErrLog) (h : k ≠ die) : (n.setErr die v).err k = n.err k := by
  cases die <;> cases k <;> simp [Noc.setErr, Noc.err] at h ⊢

/-- Settles O36: the snapshot by what it makes of each counter, an access to a counter by its word's `get` and `put`. -/
theorem liveCounters : Obligations.LiveCounters := by
  refine ⟨fun s hs => ?_, fun s p k hs hp hk => ?_, fun s die hs => ?_⟩
  · refine Runs.of_on hs (exec_latch s) ⟨fun a => ?_, rfl, ?_⟩
    · have hlatched : s.dev.latch.noc.counter a = (s.dev.noc.counter a).latched := s.dev.noc.snapshot_counter _ _ a
      rw [hlatched]
      exact ⟨rfl, rfl⟩
    · exact congrArg (fun n => { s.dev with noc := n }) (s.dev.noc.snapshot_eq s.dev.tn true)
  · have ha := counterAt_port hp hk
    refine ⟨?_, fun v => ?_, fun v inc => ?_, fun v inc => ?_, fun n => ?_⟩
    · exact Runs.of_on hs (exec_counterLowRead_live ha s) ⟨rfl, s.dev.holdHigh_holds _ _, rfl⟩
    · exact Runs.of_on hs (exec_counterLowWrite_live ha s v)
        ⟨s.dev.modCounter_onlyCounter _ _, s.dev.modCounter_counter_same _ _⟩
    · refine Runs.of_on hs (exec_counterHighWrite_live ha s v inc) ⟨s.dev.modCounter_onlyCounter _ _, ?_⟩
      rw [Device.modCounter_counter_same]
      exact ⟨rfl, rfl, rfl, rfl⟩
    · exact Runs.of_on hs (exec_counterWrite64_live ha s v inc)
        ⟨s.dev.writeCounter64_onlyCounter _ v inc, s.dev.writeCounter64_counter _ v inc⟩
    · rw [Device.count_counter_same]
      exact ⟨rfl, Counter.add_ovf _ n, rfl⟩
  · have hempty : (s.dev.errLogClear die).noc.err die = ErrLog.init := s.dev.noc.setErr_err_same die _
    refine Runs.of_on hs (exec_errLogClear die s) ⟨rfl, ?_, ?_, fun k hk => s.dev.noc.setErr_err_other _ hk⟩
    · rw [hempty]; rfl
    · rw [hempty]; rfl

end Sys2Proof.Machine

/-! SUPPORT. Membership of the fabric (R257 to R259, R263, R276 to R278): election, IDs, configurations and parts. -/

namespace Sys2Proof.Machine

open Sys2Proof

/-! ### Messages to many links, and toward the king (R257, R259) -/

@[simp] theorem Device.flood_sansSends (d : Device) (except : Nat) (m : FMsg) : (d.flood except m).sansSends = d.sansSends :=
  foldl_keeps Device.sansSends (fun d p => d.tx_sansSends p m) _ d

@[simp] theorem Device.sendConfig_sansSends (d : Device) (c : FabConfig) : (d.sendConfig c).sansSends = d.sansSends :=
  foldl_keeps Device.sansSends (fun d p => d.note_sansSends (.config p c)) _ d

@[simp] theorem Device.toKing_sansSends (d : Device) (king : Nat) (m : FMsg) : (d.toKing king m).sansSends = d.sansSends := by
  unfold Device.toKing
  split
  · exact d.tx_sansSends _ m
  · exact d.flood_sansSends 8 m

/-- Beside ports, routes and the messages that wait, the fabric is the same. -/
theorem Device.fab_of_sansSends {d e : Device} (h : e.sansSends = d.sansSends) :
    e.fab = { d.fab with ports := e.fab.ports, routes := e.fab.routes, waiting := e.fab.waiting } :=
  congrArg (fun x : Device => { x.fab with ports := e.fab.ports, routes := e.fab.routes, waiting := e.fab.waiting }) h

/-- A change of the fabric, then messages. -/
theorem Device.eq_of_sends {d x e : Device} (hsends : e.sansSends = x.sansSends) (hset : x.sansFabric = d.sansFabric) :
    e = { d with fab := e.fab, out := e.out, fresh := e.fresh } :=
  Device.eq_of_sansFabric ((Device.sansFabric_of_sansSends hsends).trans hset)

/-! ### Election and joins (R257) -/

theorem Device.elect_of_better {d : Device} (p : Nat) {m : FMsg} (hst : d.fab.st = .discovering) (hel : d.fab.electing = true)
    (hbetter : better (d.dict.num 0x2100 2) (field m.data 0 8) d.fab.candidate = true) :
    d.elect p m = d.modFab fun f => { f with candidate := field m.data 0 8, parent := some p, stable := 0 } :=
  if_pos ⟨hst, hel, hbetter⟩

theorem Device.elect_of_worse {d : Device} (p : Nat) {m : FMsg}
    (hworse : better (d.dict.num 0x2100 2) (field m.data 0 8) d.fab.candidate = false) : d.elect p m = d :=
  if_neg fun ⟨_, _, hbetter⟩ => Bool.false_ne_true (hworse.symm.trans hbetter)

theorem Device.join_of_king {d : Device} (m : FMsg) (hking : d.fab.king = true) :
    d.join m = d.modFab fun f => { f with
      joins := (f.joins.filter fun x => x.serial != (Hello.ofBytes m.data).serial) ++ [Hello.ofBytes m.data] } :=
  if_pos hking

theorem Device.join_of_parent {d : Device} (m : FMsg) {q : Nat} (hking : d.fab.king = false) (hparent : d.fab.parent = some q) :
    d.join m = d.tx q m := by
  simp [Device.join, hking, hparent]

theorem Device.electionEnd_of_unstable {d : Device} (h : d.fab.stable < 64) : d.electionEnd = d := if_pos (.inr h)

section ElectionEnd

variable {d : Device} (hel : d.fab.electing = true) (hstable : 64 ≤ d.fab.stable)
include hel hstable

theorem Device.electionEnd_of_candidate (h : d.fab.candidate = ownSerial) :
    d.electionEnd = d.modFab fun f => { f with electing := false, electedAt := d.tn, king := true, kingSerial := ownSerial } := by
  simp [Device.electionEnd, hel, Nat.not_lt.mpr hstable, h]

/-- Another candidate is joined: a HELLO leaves by the parent's port. -/
theorem Device.electionEnd_of_parent {q : Nat} (h : d.fab.candidate ≠ ownSerial) (hparent : d.fab.parent = some q) :
    d.electionEnd.sansSends = (d.modFab fun f => { f with electing := false, kingSerial := f.candidate }).sansSends := by
  simp [Device.electionEnd, hel, Nat.not_lt.mpr hstable, h, hparent]

end ElectionEnd

/-! ### The king commits (R259) -/

/-- Every active member that this device can reach has acknowledged. -/
def Fab.acked (f : Fab) (c : FabConfig) : Prop := ∀ i ∈ c.activeIds, i ∈ f.part → i ∈ f.acks

section Commit

variable {d : Device} {c : FabConfig} (hpending : d.fab.pending = some c)
include hpending

theorem Device.commitIfAcked_eq : d.commitIfAcked =
    if d.fab.king && (c.activeIds.filter fun i => d.fab.part.contains i).all fun i => d.fab.acks.contains i then
      (d.modFab fun f => f.commit c).flood 8 (commitMsg c)
    else d := by
  simp only [Device.commitIfAcked, hpending]

theorem Device.commitIfAcked_sends_commit (hking : d.fab.king = true) (h : d.fab.acked c) :
    d.commitIfAcked.sansSends = (d.modFab fun f => f.commit c).sansSends := by
  rw [Device.commitIfAcked_eq hpending, if_pos (by simpa [hking, Fab.acked, imp_iff_not_or] using h)]
  exact Device.flood_sansSends _ _ _

theorem Device.commitIfAcked_of_missing (h : ¬d.fab.acked c) : d.commitIfAcked = d := by
  rw [Device.commitIfAcked_eq hpending]
  refine if_neg fun hall => h ?_
  simp only [Bool.and_eq_true] at hall
  simpa [Fab.acked, imp_iff_not_or] using hall.2

/-- The pending configuration stays, or becomes the committed one. -/
theorem Device.commitIfAcked_sansSends :
    d.commitIfAcked.sansSends = d.sansSends ∨ d.commitIfAcked.sansSends = (d.modFab fun f => f.commit c).sansSends := by
  rw [Device.commitIfAcked_eq hpending]
  split
  · exact .inr (Device.flood_sansSends _ _ _)
  · exact .inl rfl

end Commit

theorem Device.commitConfig_of_gen {d : Device} {c : FabConfig} {m : FMsg} (hpending : d.fab.pending = some c)
    (h : c.gen = m.addr % 2 ^ 32) : d.commitConfig m = d.modFab fun f => f.commit c := by
  simp only [Device.commitConfig, hpending, if_pos h]

theorem Device.commitConfig_of_other {d : Device} {c : FabConfig} {m : FMsg} (hpending : d.fab.pending = some c)
    (h : c.gen ≠ m.addr % 2 ^ 32) : d.commitConfig m = d := by
  simp only [Device.commitConfig, hpending, if_neg h]

/-- The acknowledgements with that of the member `i`. -/
def Fab.acksWith (f : Fab) (i : Nat) : List Nat := if f.acks.contains i then f.acks else i :: f.acks

theorem Device.configAck_of_king {d : Device} {c : FabConfig} {m : FMsg} (hking : d.fab.king = true)
    (hpending : d.fab.pending = some c) (hgen : m.arg = c.gen % 2 ^ 16) :
    d.configAck m = (d.modFab fun f => { f with acks := d.fab.acksWith m.src }).commitIfAcked := by
  simp only [Device.configAck, hking, hpending, hgen, bne_self_eq_false, Bool.not_true, Bool.false_eq_true, if_false, Fab.acksWith]

/-! ### Configurations arrive (R259) -/

theorem Device.takeConfig_of_refused {d : Device} {c : FabConfig}
    (h : d.fab.king = true ∨ d.fab.st = .alone ∨ d.fab.newer c = false) : d.takeConfig c = d :=
  if_pos (by simpa [or_assoc] using h)

/-- A newer configuration is kept and passed on; a member acknowledges it. -/
theorem Device.takeConfig_of_newer {d : Device} {c : FabConfig} (hking : d.fab.king = false) (hst : d.fab.st ≠ .alone)
    (hnew : d.fab.newer c = true) : (d.takeConfig c).sansSends = (d.modFab fun f => { f with pending := some c }).sansSends := by
  unfold Device.takeConfig
  rw [if_neg (by simp [hking, hst, hnew])]
  dsimp only
  split
  · exact Device.sendConfig_sansSends _ _
  · exact (Device.toKing_sansSends _ _ _).trans (Device.sendConfig_sansSends _ _)

/-! ### The king proposes (R258, R259, R263) -/

/-- The generation of the next configuration. -/
def Fab.nextGen (f : Fab) : Nat := (max f.cfgGen ((f.pending.map FabConfig.gen).getD 0) + 1) % 2 ^ 32

/-- The configuration waits for its acknowledgements, or is committed and waits for its boundary. -/
def Fab.carries (f : Fab) (c : FabConfig) : Prop :=
  f.pending = some c ∨ f.pending = none ∧ f.stableConfig = some c ∧ c ∈ f.dueConfigs

theorem Fab.commit_carries (f : Fab) (c : FabConfig) : (f.commit c).carries c :=
  .inr ⟨rfl, rfl, List.mem_append_right _ (List.mem_singleton_self c)⟩

theorem Device.carries_of_sansSends {d e : Device} {c : FabConfig} (h : e.sansSends = d.sansSends) (hd : d.fab.carries c) :
    e.fab.carries c := by
  rwa [Device.fab_of_sansSends h]

theorem Device.commitIfAcked_carries {d : Device} {c : FabConfig} (hpending : d.fab.pending = some c) :
    d.commitIfAcked.fab.carries c := by
  rcases Device.commitIfAcked_sansSends hpending with h | h
  · exact Device.carries_of_sansSends h (.inl hpending)
  · exact Device.carries_of_sansSends h (d.fab.commit_carries c)

/-- A configuration is proposed: it becomes the pending one, with the next generation, and is sent to every member. -/
theorem Device.proposeConfig_pends (d : Device) (members : List Member) (membership : Bool) (applyTn : Nat) :
    ∃ (c : FabConfig) (e : Device), d.proposeConfig members membership applyTn = e.commitIfAcked ∧ e.fab.pending = some c
      ∧ c.gen = d.fab.nextGen ∧ c.applyTn = applyTn ∧ c.membership = membership
      ∧ e.sansSends = (d.modFab fun f => { f with known := members, pending := some c, acks := [c.king] }).sansSends := by
  have hsent := Device.sendConfig_sansSends
  refine ⟨_, _, rfl, ?_, ?_, ?_, ?_, hsent _ _⟩
  · exact congrArg Fab.pending (Device.fab_of_sansSends (hsent _ _))
  all_goals rfl

/-- What a step toward commit keeps: this device's office and the joins that wait. -/
def Fab.standing (f : Fab) : Fab := { Fab.init with king := f.king, resignDue := f.resignDue, joins := f.joins }

theorem Device.standing_of_sansSends {d e : Device} (h : e.sansSends = d.sansSends) : e.fab.standing = d.fab.standing :=
  (congrArg Fab.standing (Device.fab_of_sansSends h) :)

theorem Device.commitIfAcked_standing (d : Device) : d.commitIfAcked.fab.standing = d.fab.standing := by
  cases hpending : d.fab.pending with
  | none => simp only [Device.commitIfAcked, hpending]
  | some c =>
    rcases Device.commitIfAcked_sansSends hpending with h | h
    · exact Device.standing_of_sansSends h
    · exact Device.standing_of_sansSends (d := d.modFab fun f => f.commit c) h

theorem Device.proposeConfig_standing (d : Device) (members : List Member) (membership : Bool) (applyTn : Nat) :
    (d.proposeConfig members membership applyTn).fab.standing = d.fab.standing := by
  obtain ⟨c, e, heq, -, -, -, -, hsent⟩ := d.proposeConfig_pends members membership applyTn
  rw [heq, Device.commitIfAcked_standing, Device.standing_of_sansSends hsent]
  rfl

theorem Device.kingConfig_standing (d : Device) : d.kingConfig.fab.standing = d.fab.standing := by
  have hacked : (if d.fab.pending.isSome then d.commitIfAcked else d).fab.standing = d.fab.standing := by
    split
    · exact d.commitIfAcked_standing
    · rfl
  unfold Device.kingConfig
  generalize (if d.fab.pending.isSome then d.commitIfAcked else d) = e at hacked
  dsimp only
  rw [← hacked]
  split
  · rfl
  · split
    · rfl
    · split
      · exact Device.proposeConfig_standing _ _ _ _
      · split
        · exact Device.proposeConfig_standing _ _ _ _
        · rfl

/-! ### IDs (R258) -/

/-- IDs differ from one another, and every member of `known` has kept its own. -/
def KeepsIds (known ms : List Member) : Prop :=
  (ms.map Member.id).Nodup ∧ ∀ m ∈ known, ∃ n ∈ ms, n.serial = m.serial ∧ n.id = m.id

/-- An ID that none holds goes to one more device. -/
theorem KeepsIds.append {known ms : List Member} (h : KeepsIds known ms) (serial : Nat) {i : Nat}
    (hfree : (ms.any fun m => m.id == i) = false) : KeepsIds known (ms ++ [⟨serial, i, true⟩]) := by
  obtain ⟨hnodup, hkept⟩ := h
  have hnew : i ∉ ms.map Member.id := by simpa using hfree
  refine ⟨?_, fun m hm => ?_⟩
  · rw [List.map_append]
    exact hnodup.append (List.nodup_singleton i) (by simpa using hnew)
  · obtain ⟨n, hn, hsame⟩ := hkept m hm
    exact ⟨n, List.mem_append_left _ hn, hsame⟩

/-- A known device that joins again takes up its ID. -/
theorem KeepsIds.back {known : List Member} (back : Member → Bool) (hnodup : (known.map Member.id).Nodup) :
    KeepsIds known (known.map fun m => if back m then { m with active := true } else m) := by
  have hsame (m : Member) : let n := if back m then { m with active := true } else m
      n.serial = m.serial ∧ n.id = m.id := by
    dsimp only
    split <;> exact ⟨rfl, rfl⟩
  refine ⟨?_, fun m hm => ⟨_, List.mem_map_of_mem hm, hsame m⟩⟩
  rw [List.map_map, show Member.id ∘ _ = Member.id from funext fun m => (hsame m).2]
  exact hnodup

theorem assignIds_keepsIds {known : List Member} (batch : List Hello) (hnodup : (known.map Member.id).Nodup) :
    KeepsIds known (assignIds known batch).1 := by
  unfold assignIds
  extract_lets back new taken
  split
  next ms later heq =>
  have hproposed : KeepsIds known ms := by
    change KeepsIds known (ms, later).1
    rw [← heq]
    refine List.foldlRecOn (motive := fun acc : List Member × List Hello => KeepsIds known acc.1) _ _ (KeepsIds.back _ hnodup)
      fun acc hacc h _ => ?_
    split
    · next hfree => exact hacc.append h.serial hfree.2
    · exact hacc
  refine List.foldlRecOn (motive := fun acc : List Member × List Hello => KeepsIds known acc.1) _ _ hproposed
    fun acc hacc h _ => ?_
  split
  · next i hfound => exact hacc.append h.serial (by simpa [taken] using List.find?_some hfound)
  · exact hacc

/-- Exhaustion events leave the fabric, the time base and memory. -/
theorem Device.foldl_exhausted {α : Type} (d : Device) (l : List α) (code : Nat) :
    let e := l.foldl (fun d _ => d.exhausted code) d
    e.fab = d.fab ∧ e.tb = d.tb ∧ e.mem = d.mem := by
  refine ⟨foldl_keeps Device.fab ?_ l d, foldl_keeps Device.tb ?_ l d, foldl_keeps Device.mem ?_ l d⟩ <;> exact fun _ _ => rfl

/-- A king that has IDs to assign proposes a membership configuration for the next round boundary. -/
theorem Device.idAssign_proposes {d : Device} (hking : d.fab.king = true) (hel : d.fab.electing = false)
    (hwait : d.fab.electedAt + 16 ≤ d.tn) (hwork : (d.fab.stableConfig = none ∧ d.fab.pending = none) ∨ d.fab.joins ≠ []) :
    ∃ (e : Device) (ms : List Member), d.idAssign = e.proposeConfig ms true d.nextRound ∧ e.fab.joins = []
      ∧ e.fab.nextGen = d.fab.nextGen ∧ e.tb = d.tb ∧ e.mem = d.mem := by
  have hbatch : ¬(((if d.fab.stableConfig.isNone && d.fab.pending.isNone then [d.takeReleases.ownHello 0] else [])
      ++ d.fab.joins).isEmpty = true) := by
    rcases hwork with ⟨hstable, hpending⟩ | hjoins
    · simp [hstable, hpending]
    · simp [hjoins]
  unfold Device.idAssign
  rw [if_neg (by simp [hking, hel, Nat.not_lt.mpr hwait])]
  extract_lets d₁ f first all
  rw [if_neg (show ¬(all.isEmpty = true) from hbatch)]
  split
  next ms bad _ =>
  obtain ⟨hfab, htb, hmem⟩ := d₁.foldl_exhausted bad 0x02
  refine ⟨_, ms, congrArg (Device.proposeConfig _ ms true) ?_, rfl, (congrArg Fab.nextGen hfab :), htb, hmem⟩
  exact congrArg (fun t : TimeBase => (t.tn / 1000 + 1) * 1000) htb

/-- A release of an absent device's ID waits for the next configuration. -/
theorem Device.releaseId_of_absent {d : Device} {id : Nat} (hid : id < 32) (hking : d.fab.king = true)
    (habsent : ∃ m ∈ d.fab.known, m.id = id ∧ m.active = false) :
    ∃ rs, id ∈ rs ∧ d.releaseId id = (d.modFab fun f => { f with releases := rs }, 0) := by
  have hany : (d.fab.king && d.fab.known.any fun m => m.id == id && !m.active) = true := by simpa [hking] using habsent
  refine ⟨if d.fab.releases.contains id then d.fab.releases else d.fab.releases ++ [id], ?_, ?_⟩
  · split
    · next hin => simpa using hin
    · simp
  · exact (if_neg (Nat.not_le.mpr hid)).trans (if_pos hany)

theorem Device.releaseId_of_refused {d : Device} {id : Nat} (hid : id < 32)
    (h : d.fab.king = false ∨ ∀ m ∈ d.fab.known, m.id = id → m.active = true) : d.releaseId id = (d, abState) := by
  refine (if_neg (Nat.not_le.mpr hid)).trans (if_neg ?_)
  simpa [or_iff_not_imp_left] using h

/-! ### Parts (R276 to R278) -/

section Part

variable {d : Device} {c : FabConfig} {me : Nat} (hstable : d.fab.stableConfig = some c) (hid : d.fab.id = some me)
include hstable hid

/-- The part passes: the device stays, and is king where its own ID is that of the king, who belongs to the part. -/
theorem Device.partDecision_of_pass (hpass : ∀ g ∈ c :: d.fab.pending.toList, partPass g d.fab.part = true)
    (hothers : d.othersPass me d.fab.part = true) :
    ∃ e : Device, d.partDecision = e.kingConfig.kingConfig ∧ e.sansFabric = d.sansFabric ∧ e.fab.resignDue = false
      ∧ (c.king ∈ d.fab.part → (e.fab.king = true ↔ me = c.king)) := by
  have hall : (((c :: d.fab.pending.toList).all fun g => partPass g d.fab.part) && d.othersPass me d.fab.part) = true := by
    rw [Bool.and_eq_true, List.all_eq_true]
    exact ⟨hpass, hothers⟩
  unfold Device.partDecision
  rw [hstable, hid]
  dsimp only
  rw [if_pos hall]
  refine ⟨_, rfl, rfl, rfl, fun hking => ?_⟩
  change ((if d.fab.part.contains c.king then some c.king else _) == some me) = true ↔ _
  rw [if_pos (List.contains_iff_mem.mpr hking), beq_iff_eq, Option.some_inj, eq_comm]

/-- The part fails: the device resigns, unless it has. -/
theorem Device.partDecision_of_fail
    (h : (∃ g ∈ c :: d.fab.pending.toList, partPass g d.fab.part = false) ∨ d.othersPass me d.fab.part = false) :
    d.partDecision = { d with fab := { d.fab with resignDue := d.fab.st != .resigned }, fresh := d.fresh + 1 } := by
  have hnot : ¬((((c :: d.fab.pending.toList).all fun g => partPass g d.fab.part) && d.othersPass me d.fab.part) = true) := by
    rw [Bool.and_eq_true, List.all_eq_true]
    rintro ⟨hpass, hothers⟩
    rcases h with ⟨g, hg, hfail⟩ | hfail
    · exact Bool.false_ne_true (hfail.symm.trans (hpass g hg))
    · exact Bool.false_ne_true (hfail.symm.trans hothers)
  unfold Device.partDecision
  rw [hstable, hid]
  dsimp only
  rw [if_neg hnot]
  rfl

end Part

/-- Settles O41, clause by clause. -/
theorem membership : Obligations.Membership := by
  refine ⟨fun s hs => ?_, fun known batch hnodup => assignIds_keepsIds batch hnodup⟩
  intro f
  refine ⟨fun p m => ⟨fun hst hel hbetter => ?_, fun hworse => ?_, fun hlink => ⟨fun hking => ?_, fun q hking hparent => ?_⟩⟩,
    fun hel hstable => ⟨fun hown => ?_, fun q hother hparent => ?_⟩, fun hunstable => ?_, fun hking hel hwait hwork => ?_,
    fun c => ⟨fun hking hst hnew => ?_, fun href => ?_⟩, fun m hking => ?_,
    fun c m hpending => ⟨fun hking hgen => ⟨fun hall => ?_, fun hmissing => ?_⟩, fun hgen => ?_, fun hgen => ?_⟩,
    fun c me hstable hid => ⟨fun hpass hothers => ?_, fun hfail => ?_⟩,
    fun id hid => ⟨fun hking habsent => ?_, fun href => ?_⟩⟩
  · exact Runs.of_on hs (exec_elect p m s) (Device.elect_of_better p hst hel hbetter)
  · exact Runs.of_on hs (exec_elect p m s) (Device.elect_of_worse p hworse)
  · exact Runs.of_on hs (exec_join p m s) ((if_pos hlink).trans (Device.join_of_king m hking))
  · exact Runs.of_on hs (exec_join p m s) ((if_pos hlink).trans (Device.join_of_parent m hking hparent))
  · exact Runs.of_on hs (exec_electionEnd s) (Device.electionEnd_of_candidate hel hstable hown)
  · have hjoin := Device.electionEnd_of_parent hel hstable hother hparent
    have hfab := Device.fab_of_sansSends hjoin
    exact Runs.of_on hs (exec_electionEnd s) ⟨(congrArg Fab.electing hfab :), (congrArg Fab.kingSerial hfab :),
      (congrArg Fab.king hfab :), Device.eq_of_sends hjoin rfl⟩
  · exact Runs.of_on hs (exec_electionEnd s) (Device.electionEnd_of_unstable hunstable)
  · obtain ⟨e, ms, heq, hjoins, hnext, htb, hmem⟩ := Device.idAssign_proposes hking hel hwait hwork
    have hframe := ((Device.Told.refl e).proposeConfig ms true s.dev.nextRound).frame
    have hstanding := e.proposeConfig_standing ms true s.dev.nextRound
    obtain ⟨c, x, hx, hpending, hgen, happly, hmember, -⟩ := e.proposeConfig_pends ms true s.dev.nextRound
    refine Runs.of_on hs (exec_idAssign s) ?_
    rw [heq]
    refine ⟨(congrArg Fab.joins hstanding :).trans hjoins, (congrArg Device.tb hframe :).trans htb,
      (congrArg Device.mem hframe :).trans hmem, c, ?_, happly, hmember, hgen.trans hnext⟩
    rw [hx]
    exact Device.commitIfAcked_carries hpending
  · have hkept := Device.takeConfig_of_newer hking hst hnew
    have hfab := Device.fab_of_sansSends hkept
    exact Runs.of_on hs (exec_config c s) ⟨(congrArg Fab.pending hfab :), (congrArg Fab.config hfab :),
      (congrArg Fab.stableConfig hfab :), Device.eq_of_sends hkept rfl⟩
  · exact Runs.of_on hs (exec_config c s) (Device.takeConfig_of_refused href)
  · exact Runs.of_on hs (exec_configAck m s) (if_pos (by simpa using hking))
  · refine Runs.of_on hs (exec_configAck m s) ?_
    rw [Device.configAck_of_king hking hpending hgen]
    have hcommit := Device.commitIfAcked_sends_commit
      (d := s.dev.modFab fun f => { f with acks := s.dev.fab.acksWith m.src }) hpending hking hall
    have hfab := Device.fab_of_sansSends hcommit
    refine ⟨(congrArg Fab.acks hfab :), (congrArg Fab.pending hfab :), (congrArg Fab.stableConfig hfab :),
      (congrArg Fab.cfgGen hfab :), ?_, Device.eq_of_sends hcommit rfl⟩
    rw [hfab]
    exact List.mem_append_right _ (List.mem_singleton_self c)
  · refine Runs.of_on hs (exec_configAck m s) ?_
    obtain ⟨i, hi, hpart, hno⟩ := hmissing
    rw [Device.configAck_of_king hking hpending hgen]
    exact Device.commitIfAcked_of_missing hpending fun hall => hno (hall i hi hpart)
  · exact Runs.of_on hs (exec_commit m s) (Device.commitConfig_of_gen hpending hgen)
  · exact Runs.of_on hs (exec_commit m s) (Device.commitConfig_of_other hpending hgen)
  · obtain ⟨e, heq, hframe, hstay, hking⟩ := Device.partDecision_of_pass hstable hid hpass hothers
    have hstanding := (e.kingConfig.kingConfig_standing).trans e.kingConfig_standing
    have hall := (Device.Told.refl e).kingConfig.kingConfig.frame.trans hframe
    refine Runs.of_on hs (exec_partDecision s) ?_
    rw [heq]
    have hsame : e.kingConfig.kingConfig.fab.king = e.fab.king := (congrArg Fab.king hstanding :)
    refine ⟨(congrArg Fab.resignDue hstanding :).trans hstay, (congrArg Device.tb hall :), (congrArg Device.jobs hall :),
      fun hin => ?_⟩
    rw [hsame]
    exact hking hin
  · exact Runs.of_on hs (exec_partDecision s) (Device.partDecision_of_fail hstable hid hfail)
  · obtain ⟨rs, hin, heq⟩ := Device.releaseId_of_absent hid hking habsent
    refine Runs.of_on hs (exec_releaseId id s) ?_
    rw [heq]
    exact ⟨hin, rfl, rfl⟩
  · refine Runs.of_on hs (exec_releaseId id s) ?_
    rw [Device.releaseId_of_refused hid href]
    rfl

end Sys2Proof.Machine

/-! SUPPORT. The motion check engine (R285 to R290, R296 to R298, R308, R310, R314): bricks, batches, delivery of the record, the
wavefront search and ray mode. -/

namespace Sys2Proof.Machine

open Sys2Proof

/-! ### A read by the MCE (R184, R235, R240) -/

/-- A read of the MCE is served, or refused and logged. -/
def Device.mceRead (d : Device) (may : Bool) (a n : Nat) : Device :=
  if may then d.served Port.mce false a n else d.logRefusal Port.mce a false true

theorem Device.mceRead_def (d : Device) (may : Bool) (a n : Nat) :
    (if may then d.served Port.mce false a n else d.logRefusal Port.mce a false true) = d.mceRead may a n := rfl

theorem Device.mceRead_eq (d : Device) (may : Bool) (a n : Nat) :
    d.mceRead may a n = { d with noc := (d.mceRead may a n).noc, out := (d.mceRead may a n).out, fresh := (d.mceRead may a n).fresh } := by
  cases may with
  | true => rw [Device.mceRead, if_pos rfl, Device.served_eq]
  | false => rfl

theorem Device.mceRead_out (d : Device) (may : Bool) (a n : Nat) :
    (d.mceRead may a n).out = if may then d.out else .irqNoc 2 :: d.out := by
  cases may with
  | true => exact (congrArg Device.out (d.served_eq Port.mce false a n) :)
  | false => rfl

theorem Device.mceRead_mce (d : Device) (may : Bool) (a n : Nat) : (d.mceRead may a n).mce = d.mce := by
  rw [Device.mceRead_eq]

theorem Device.mceRead_bytes (d : Device) (may : Bool) (a n b k : Nat) : (d.mceRead may a n).bytes b k = d.bytes b k := by
  rw [Device.mceRead_eq]; rfl

theorem Device.mceRead_tn (d : Device) (may : Bool) (a n : Nat) : (d.mceRead may a n).tn = d.tn := by
  rw [Device.mceRead_eq]; rfl

theorem Device.modMce_mce (d : Device) (f : Mce → Mce) : (d.modMce f).mce = f d.mce := rfl

theorem Device.modMce_tn (d : Device) (f : Mce → Mce) : (d.modMce f).tn = d.tn := rfl

theorem Device.modMce_bytes (d : Device) (f : Mce → Mce) (a n : Nat) : (d.modMce f).bytes a n = d.bytes a n := rfl

theorem Device.modMce_batchMay (d : Device) (f : Mce → Mce) (a n : Nat) : (d.modMce f).batchMay a n = d.batchMay a n := rfl

theorem Device.modMce_count (d : Device) (f : Mce → Mce) (a n : Nat) : (d.modMce f).count a n = (d.count a n).modMce f := rfl

theorem Device.modMce_resample (d : Device) (f : Mce → Mce) (p : Port) : (d.modMce f).resample p = (d.resample p).modMce f := rfl

theorem Device.modMce_served (d : Device) (f : Mce → Mce) (p : Port) (write : Bool) (a n : Nat) :
    (d.modMce f).served p write a n = (d.served p write a n).modMce f := by
  have hlevel : (d.modMce f).nextLevel p = d.nextLevel p := rfl
  simp only [Device.served, hlevel, Device.modMce_count]
  split
  · rfl
  · split <;> exact Device.modMce_resample _ f p

/-- The read does not look at the engine's own state. -/
theorem Device.modMce_mceRead (d : Device) (f : Mce → Mce) (may : Bool) (a n : Nat) :
    (d.modMce f).mceRead may a n = (d.mceRead may a n).modMce f := by
  cases may with
  | true => exact d.modMce_served f Port.mce false a n
  | false => rfl

/-! ### Bricks (R286) -/

theorem Device.syncBricks_of_valid {d : Device} (h : d.bricksValid = true) : d.syncBricks = d := if_pos h

/-- The brick of an entry at an address; an entry that may not be read fails its check. -/
def Device.entryBrick (d : Device) (ok : Bool) (a n total : Nat) : Brick :=
  .ofEntry (if ok then d.bytes a 1088 else zeros 1088) ok d.tn n total

/-- A brick joins the fetched ones. -/
def Device.brickTaken (d : Device) (b : Brick) : Device := d.modMce fun m => { m with bricks := m.bricks ++ [b] }

theorem Device.brickTaken_out (d : Device) (b : Brick) : (d.brickTaken b).out = d.out := rfl

theorem Device.mceRead_brickTaken_mce (d : Device) (may : Bool) (a n : Nat) (b : Brick) :
    ((d.mceRead may a n).brickTaken b).mce = { d.mce with bricks := d.mce.bricks ++ [b] } := by
  rw [Device.mceRead_eq]; rfl

theorem Device.mceRead_brickTaken_frame (d : Device) (may : Bool) (a n : Nat) (b : Brick) :
    let e := (d.mceRead may a n).brickTaken b
    e = { d with mce := e.mce, noc := e.noc, out := e.out, fresh := e.fresh } := by
  rw [Device.mceRead_eq]; rfl

section BrickFetch

variable {d : Device} {n : Nat} (hvalid : d.bricksValid = true) (hring : d.ringReg (d.mceSw 0x70) = some n)
include hvalid hring

theorem Device.brickFetch_of_entry (hsize : (d.ring n).entrySize = 1088) (hfill : d.mce.bricks.length < (d.ring n).fill)
    (hreach : d.reaches .hub ((d.ring n).entryAddr (d.ring n).head d.mce.bricks.length) = true) :
    let a := (d.ring n).entryAddr (d.ring n).head d.mce.bricks.length
    let ok := d.hubMay .hub true false a 1088
    d.brickFetch = (d.mceRead ok a 1088).brickTaken
      (d.entryBrick ok a n (((d.ring n).head.total + d.mce.bricks.length) % 2 ^ 32)) := by
  intro a ok
  rw [Device.entryBrick, ← d.mceRead_bytes ok a 1088 a 1088, ← d.mceRead_tn ok a 1088]
  simp only [Device.brickFetch, Device.syncBricks_of_valid hvalid, hring]
  exact if_pos ⟨hsize, hfill, hreach⟩

theorem Device.brickFetch_of_cut
    (hreach : d.reaches .hub ((d.ring n).entryAddr (d.ring n).head d.mce.bricks.length) = false) : d.brickFetch = d := by
  simp only [Device.brickFetch, Device.syncBricks_of_valid hvalid, hring]
  exact if_neg fun ⟨_, _, h⟩ => Bool.false_ne_true (hreach.symm.trans h)

end BrickFetch

/-! ### Batches (R296 to R298) -/

/-- A batch is taken in. -/
def Device.batchTaken (d : Device) (b : BatchIn) : Device :=
  (d.modMce fun m => { m with sel := none, taken := m.taken ++ [b] }).count (mceBase + 0x160) 1

/-- A batch is refused with a code and its sequence number. -/
def Device.batchRefused (d : Device) (code seq : Nat) : Device :=
  (d.modMce fun m => { m with sel := none, batchErr := code + 256 * (seq % 2 ^ 24) }).count (mceBase + 0x168) 1

theorem Device.batchRefused_out (d : Device) (code seq : Nat) : (d.batchRefused code seq).out = d.out := rfl

section AfterRead

variable {d e : Device} (he : e = { d with noc := e.noc, out := e.out, fresh := e.fresh })
include he

theorem Device.batchTaken_mce (b : BatchIn) : (e.batchTaken b).mce = { d.mce with sel := none, taken := d.mce.taken ++ [b] } := by
  rw [he]; rfl

theorem Device.batchTaken_frame (b : BatchIn) :
    let x := e.batchTaken b
    x = { d with mce := x.mce, noc := x.noc, out := x.out, fresh := x.fresh } := by
  rw [he]; rfl

theorem Device.batchRefused_mce (code seq : Nat) :
    (e.batchRefused code seq).mce = { d.mce with sel := none, batchErr := code + 256 * (seq % 2 ^ 24) } := by
  rw [he]; rfl

theorem Device.batchRefused_frame (code seq : Nat) :
    let x := e.batchRefused code seq
    x = { d with mce := x.mce, noc := x.noc, out := x.out, fresh := x.fresh } := by
  rw [he]; rfl

/-- A refusal clears the selection, keeps the batches taken in and leaves its code in the error register. -/
theorem Device.batchRefused_refuses {code : Nat} (seq : Nat) (hcode : code < 256) :
    let x := e.batchRefused code seq
    x.mce.sel = none ∧ x.mce.taken = d.mce.taken ∧ x.mce.batchErr % 256 = code
      ∧ x = { d with mce := x.mce, noc := x.noc, out := x.out, fresh := x.fresh } := by
  have hmce := Device.batchRefused_mce he code seq
  refine ⟨(congrArg Mce.sel hmce :), (congrArg Mce.taken hmce :), ?_, Device.batchRefused_frame he code seq⟩
  rw [hmce]
  exact (Nat.add_mul_mod_self_left code 256 _).trans (Nat.mod_eq_of_lt hcode)

end AfterRead

theorem Device.count_val (d : Device) (a : Nat) : ((d.count a 1).noc.counter a).val = ((d.noc.counter a).val + 1) % 2 ^ 64 :=
  congrArg Counter.val (d.count_counter_same a 1)

section BatchFetch

variable {d : Device} {b : BatchSel} (hsel : d.mce.sel = some b)
include hsel

theorem Device.batchFetch_of_cut (hreach : d.reaches .hub b.addr = false) (err : Bool) : d.batchFetch err = d := by
  simp [Device.batchFetch, hsel, hreach]

variable (hreach : d.reaches .hub b.addr = true)
include hreach

theorem Device.batchFetch_of_long (hlen : 65536 < b.len) (err : Bool) : d.batchFetch err = d.batchRefused 2 0 := by
  have hshort : ¬b.len ≤ 65536 := Nat.not_le.mpr hlen
  simp only [Device.batchFetch, hsel, hreach, hlen, hshort, decide_true, decide_false, Bool.and_false, Bool.false_and, if_true,
    Bool.not_true, Bool.false_eq_true, if_false]
  rfl

variable (hlen : b.len ≤ 65536)
include hlen

/-- A batch that meets an error, or that may not be read, is refused with code 8. -/
theorem Device.batchFetch_of_unread {err : Bool} (h : err = true ∨ d.batchMay b.addr b.len = false) :
    d.batchFetch err = (d.mceRead (d.batchMay b.addr b.len) b.addr b.len).batchRefused 8 0 := by
  have hlong : ¬65536 < b.len := Nat.not_lt.mpr hlen
  have hok : (!err && d.batchMay b.addr b.len) = false := by simpa [or_iff_not_imp_left] using h
  simp only [Device.batchFetch, hsel, hreach, hlong, hlen, Device.mceRead_def, Device.modMce_mceRead, decide_true, decide_false,
    Bool.and_true, Bool.not_true, Bool.false_eq_true, if_false]
  simp only [Device.modMce_batchMay, hok]
  rfl

/-- A batch that is read is taken in or refused by the code of its check. -/
theorem Device.batchFetch_of_read {md : List Byte} (hmay : d.batchMay b.addr b.len = true) (hmodel : d.mce.model = some md) :
    let e := d.mceRead true b.addr b.len
    let bytes := d.bytes b.addr b.len
    let code := batchCode md bytes b.len d.tn d.mce.planA
    d.batchFetch false = if code = 0 then e.batchTaken ⟨bytes, b.repair, d.tn, 0⟩ else e.batchRefused code (batchSeq bytes) := by
  have hlong : ¬65536 < b.len := Nat.not_lt.mpr hlen
  simp only [Device.batchFetch, hsel, hreach, hlong, hlen, Device.mceRead_def, Device.modMce_mceRead, decide_true, decide_false,
    Bool.and_true, Bool.not_true, Bool.false_eq_true, if_false]
  simp only [Device.modMce_batchMay, hmay, Bool.not_false, Device.modMce_bytes, Device.mceRead_bytes,
    Device.modMce_tn, Device.mceRead_tn, Device.modMce_mce, Device.mceRead_mce, hmodel]
  rfl

end BatchFetch

/-! ### Delivery of the record (R314, R380, R410) -/

theorem Device.hubPut_sansNews (d : Device) (p : Port) (secure : Bool) (a : Nat) (bs : List Byte) :
    (d.hubPut p secure a bs).sansNews = d.sansNews := by
  unfold Device.hubPut
  split_ifs
  · rfl
  · rw [Device.served_eq, Device.put_eq]; rfl
  · rfl

theorem Device.hubPublish_sansNews {d e : Device} {p : Port} {secure : Bool} {n : Nat} {bs : List Byte}
    (h : d.hubPublish p secure n bs = some e) : e.sansNews = d.sansNews := by
  simp only [Device.hubPublish] at h
  split at h <;> cases h
  rw [Device.moveRing_sansNews, Device.hubPut_sansNews]

theorem Device.verdictRing_sansNews (d : Device) (bs : List Byte) : (d.verdictRing bs).sansNews = d.sansNews := by
  unfold Device.verdictRing
  split
  · rfl
  · next n _ =>
    cases h : d.hubPublish Port.mce true n bs with
    | none => rfl
    | some e => exact Device.hubPublish_sansNews h

/-- The device without what the delivery of a record touches beside the engine's own state, the Arbiter's records and the gateway. -/
def Device.sansDelivery (d : Device) : Device := { d.sansNews with arb := { d.arb with tasks := [] } }

/-- What the obligation says of a delivery, read off the device without the rest. -/
theorem Device.of_sansDelivery {d e : Device} (h : e.sansDelivery = d.sansDelivery) :
    e.mce = d.mce ∧ e.fgw = d.fgw ∧ e.tb = d.tb ∧ e.moves = d.moves
      ∧ e.arb.recs = d.arb.recs ∧ e.arb.safe = d.arb.safe ∧ e.arb.gateOpen = d.arb.gateOpen := by
  refine ⟨(congrArg Device.mce h :), (congrArg Device.fgw h :), (congrArg Device.tb h :), (congrArg Device.moves h :), ?_, ?_, ?_⟩
  · exact (congrArg (fun x : Device => x.arb.recs) h :)
  · exact (congrArg (fun x : Device => x.arb.safe) h :)
  · exact (congrArg (fun x : Device => x.arb.gateOpen) h :)

theorem Device.completeTasks_sansDelivery (d : Device) (atBoundary : Bool) (p : Nat → TaskRec → Bool) :
    (d.completeTasks atBoundary p).sansDelivery = d.sansDelivery :=
  foldl_keeps Device.sansDelivery (fun d t => by split <;> rfl) _ d

theorem Device.verdictRing_sansDelivery (d : Device) (bs : List Byte) : (d.verdictRing bs).sansDelivery = d.sansDelivery :=
  congrArg (fun x : Device => { x with arb := { x.arb with tasks := [] } }) (d.verdictRing_sansNews bs)

/-- The record has left the engine, is counted, and is noted by the Arbiter. -/
def Device.recordNoted (d : Device) (r : Verdict) (ok : Bool) : Device :=
  { (d.modMce fun m => { m with out := none, last := r.bytes, rayDue := false }).count (mceBase + 0x180) 1 with
    arb := d.arb.noteRec ⟨ok, r.mode⟩ }

/-- The record arrives at the gateway, which takes it when its CRC is good (R380). -/
def Device.gatewayTakes (d : Device) (r : Verdict) (ok : Bool) : Device :=
  { d with fgw := if ok then { d.fgw with verdict := some ⟨r.tn, r.mode, r.batch, r.feasible, r.degraded⟩ } else d.fgw }

theorem Device.gatewayTakes_sansDelivery {d e : Device} (r : Verdict) (ok : Bool) (h : e.sansDelivery = d.sansDelivery) :
    (e.gatewayTakes r ok).sansDelivery = (d.gatewayTakes r ok).sansDelivery :=
  congrArg (fun x : Device => x.gatewayTakes r ok) h

/-- A delivery is the Arbiter's note and the gateway's record; the copy into the ring and the tasks that complete are the rest. -/
theorem Device.verdictRecord_sansDelivery {d : Device} {r : Verdict} (hout : d.mce.out = some r) (ok : Bool) :
    (d.verdictRecord ok).sansDelivery = ((d.recordNoted r ok).gatewayTakes r ok).sansDelivery := by
  have htasks (c : Bool) (e : Device) (p : Nat → TaskRec → Bool) :
      (if c then e.completeTasks false p else e).sansDelivery = e.sansDelivery := by
    split
    · exact e.completeTasks_sansDelivery false p
    · rfl
  have hnoted := htasks (ok && r.mode != modeOff) (d.recordNoted r ok) fun _ t => t.kind == 3
  simp only [Device.verdictRecord, hout, Device.verdictRing_sansDelivery]
  refine Eq.trans ?_ (Device.gatewayTakes_sansDelivery r ok hnoted)
  cases ok <;> rfl

/-! ### The wavefront search (R308) -/

theorem Device.waveStart_of_due {d : Device} (henable : d.mce.enable = true) (hidle : d.mce.wave = none)
    (hafter : d.mceSw 0x8C % 2 ^ 10 ≤ d.mce.nofeas) :
    d.waveStart = ({ d with fresh := d.fresh + 2 } : Device).modMce fun m =>
      { m with wave := some ⟨d.baseColumn.1, d.baseColumn.2, m.epoch, d.tn, []⟩ } :=
  if_pos (by simpa [henable, hidle] using hafter)

theorem Device.waveStart_of_early {d : Device} (h : d.mce.nofeas < d.mceSw 0x8C % 2 ^ 10) : d.waveStart = d :=
  if_neg (by simpa using fun _ _ => h)

theorem Device.waveDone_of_running {d : Device} {w : Wave} (h : d.mce.wave = some w) :
    ∃ path, d.waveDone = d.modMce fun m => { m with
      wave := none, waveResult := waveBytes d.tn w.epoch m.epoch path, waveDone := m.out.isNone,
      out := m.out.map fun r => { r with waveDone := true, waveRunning := false } } := by
  simp only [Device.waveDone, h]
  exact ⟨_, rfl⟩

/-! ### Ray mode (R310) -/

theorem Device.rayCycle_of_idle {d : Device} (h : d.mce.rayDue = false) : d.rayCycle = d := by
  simp [Device.rayCycle, h]

/-- The pending record becomes one of mode RAY. -/
theorem Device.rayCycle_of_pending {d : Device} {md : List Byte} {b : BatchIn} {r : Verdict} (hdue : d.mce.rayDue = true)
    (hmodel : d.mce.model = some md) (hbatch : d.liveBatch = some b) (hout : d.mce.out = some r) (hmode : r.mode = modeRayPending) :
    ∃ (v : Verdict) (mask : Nat), (v.mode = modeRay ∧ v.tn = r.tn ∧ v.batch = r.batch)
      ∧ d.rayCycle = ({ d with fresh := d.fresh + 4 } : Device).modMce fun m =>
        { m.countFeas mask with out := some v, rayDue := false } := by
  simp only [Device.rayCycle, hdue, hmodel, hbatch, hout, hmode, Bool.not_true, Bool.false_eq_true, if_false, if_true]
  refine ⟨_, _, ?_, rfl⟩
  exact ⟨rfl, rfl, rfl⟩

/-- Settles O44, clause by clause: each command's equation in the case of the clause, then what it leaves. -/
theorem motionChecks : Obligations.MotionChecks := by
  intro s hs m
  refine ⟨fun n hvalid hring hsize hfill => ⟨fun hreach => ?_, fun hcut => ?_⟩, ?_,
    fun b hsel => ⟨fun hcut err => ?_, fun hreach => ⟨fun hlong err => ?_, fun hshort => ?_, fun hshort hmay => ?_,
      fun md hshort hmay hmodel => ⟨fun hcode => ?_, fun hcode => ?_⟩⟩⟩, fun r ok hout => ?_, fun henable hidle hafter => ?_,
    fun hearly => ?_, fun w hwave => ?_, ?_, fun md b r hdue hmodel hbatch hout hmode => ?_, fun hidle => ?_⟩
  · refine Runs.of_on hs (exec_brickFetch s) ?_
    rw [Device.brickFetch_of_entry hvalid hring hsize hfill hreach]
    refine ⟨_, s.dev.mceRead_brickTaken_mce _ _ _ _, rfl, rfl, rfl, fun hmay => ⟨?_, ?_⟩, fun hmay => ⟨?_, ?_⟩,
      s.dev.mceRead_brickTaken_frame _ _ _ _⟩
    · rw [hmay]; rfl
    · rw [Device.brickTaken_out, Device.mceRead_out, hmay, if_pos rfl]
    · rw [hmay]; rfl
    · rw [Device.brickTaken_out, Device.mceRead_out, hmay, if_neg Bool.false_ne_true]
  · exact Runs.of_on hs (exec_brickFetch s) (Device.brickFetch_of_cut hvalid hring hcut)
  · exact Runs.of_on hs (exec_fieldReset s) rfl
  · exact Runs.of_on hs (exec_batchFetch err s) (Device.batchFetch_of_cut hsel hcut err)
  · refine Runs.of_on hs (exec_batchFetch err s) ?_
    rw [Device.batchFetch_of_long hsel hreach hlong]
    exact Device.batchRefused_refuses rfl 0 (by decide)
  · refine Runs.of_on hs (exec_batchFetch true s) ?_
    rw [Device.batchFetch_of_unread hsel hreach hshort (.inl rfl)]
    exact Device.batchRefused_refuses (s.dev.mceRead_eq _ _ _) 0 (by decide)
  · refine Runs.of_on hs (exec_batchFetch false s) ?_
    rw [Device.batchFetch_of_unread hsel hreach hshort (.inr hmay)]
    refine ⟨Device.batchRefused_refuses (s.dev.mceRead_eq _ _ _) 0 (by decide), ?_⟩
    rw [Device.batchRefused_out, Device.mceRead_out, hmay, if_neg Bool.false_ne_true]
  · refine Runs.of_on hs (exec_batchFetch false s) ?_
    rw [Device.batchFetch_of_read hsel hreach hshort hmay hmodel, if_pos hcode]
    have hread := s.dev.mceRead_eq true b.addr b.len
    exact ⟨Device.batchTaken_mce hread _, Device.count_val _ _, Device.batchTaken_frame hread _⟩
  · refine Runs.of_on hs (exec_batchFetch false s) ?_
    rw [Device.batchFetch_of_read hsel hreach hshort hmay hmodel, if_neg hcode]
    have hread := s.dev.mceRead_eq true b.addr b.len
    exact ⟨Device.batchRefused_mce hread _ _, Device.count_val _ _, Device.batchRefused_frame hread _ _⟩
  · obtain ⟨hmce, hfgw, htb, hmoves, hrecs, hsafe, hgate⟩ := Device.of_sansDelivery (Device.verdictRecord_sansDelivery hout ok)
    refine Runs.of_on hs (exec_verdictRecord ok s) ?_
    rw [hmce, hfgw, htb, hmoves, hrecs, hsafe, hgate]
    simp only [Device.gatewayTakes, Device.recordNoted, Device.modMce, Device.count, Arb.noteRec, true_and, and_true]
    cases ok with
    | true => rfl
    | false => rfl
  · refine Runs.of_on hs (exec_wavefrontStart s) ?_
    rw [Device.waveStart_of_due henable hidle hafter]
    exact ⟨_, rfl, rfl, rfl, rfl⟩
  · exact Runs.of_on hs (exec_wavefrontStart s) (Device.waveStart_of_early hearly)
  · refine Runs.of_on hs (exec_wavefrontDone s) ?_
    obtain ⟨path, heq⟩ := Device.waveDone_of_running hwave
    rw [heq]
    exact ⟨rfl, ⟨path, rfl⟩, fun hnone => congrArg Option.isNone hnone, fun r hr => congrArg (Option.map _) hr, rfl⟩
  · exact Runs.of_on hs (exec_waveAbort s) rfl
  · refine Runs.of_on hs (exec_rayCycle s) ?_
    obtain ⟨v, mask, hv, heq⟩ := Device.rayCycle_of_pending hdue hmodel hbatch hout hmode
    rw [heq]
    exact ⟨rfl, ⟨v, rfl, hv⟩, rfl⟩
  · exact Runs.of_on hs (exec_rayCycle s) (Device.rayCycle_of_idle hidle)

end Sys2Proof.Machine

/-! SUPPORT. Processors, worlds and instances (spec chapter 12): the life cycle of an instance, its reset, ring views, emulated
words, the mailbox and the firmware call. -/

namespace Sys2Proof.Machine

open Sys2Proof

/-! ### Writes of one instance -/

/-- A second write of a key replaces the first. -/
theorem tput_tput_same {α : Type} [DecidableEq α] (d : Nat → α) (t : Tab α) (k : Nat) (v w : α) :
    tput d (tput d t k v) k w = tput d t k w := by
  have hdel : tdel (tput d t k v) k = tdel t k := by
    have hins (l : Tab α) : tdel (tins l k v) k = tdel l k := by
      induction l with
      | nil => simp [tins, tdel]
      | cons p l ih =>
        obtain ⟨a, u⟩ := p
        by_cases hk : k < a
        · simp [tins, tdel, hk]
        · simp [tins, tdel, hk, ih]
    have htwice : tdel (tdel t k) k = tdel t k := by simp [tdel_eq_filter]
    rw [tput]
    split
    · exact htwice
    · rw [hins, htwice]
  unfold tput at hdel ⊢
  rw [hdel]

@[simp] theorem Proc.setInst_setInst (p : Proc) (i : Nat) (x y : Inst) : (p.setInst i x).setInst i y = p.setInst i y := by
  simp only [Proc.setInst, tput_tput_same]

@[simp] theorem Device.modInst_inst (d : Device) (i : Nat) (f : Inst → Inst) : (d.modInst i f).proc.inst i = f (d.proc.inst i) :=
  Proc.setInst_inst _ _ _

/-- Two changes of one instance are one. -/
theorem Device.modInst_modInst (d : Device) (i : Nat) (f g : Inst → Inst) :
    (d.modInst i f).modInst i g = d.modInst i fun x => g (f x) := by
  simp [Device.modInst]

/-- A byte shows the memory and the undefined ranges alone. -/
theorem Device.byte_congr {d e : Device} (hmem : e.mem = d.mem) (hscr : e.scrambles = d.scrambles) (a : Nat) : e.byte a = d.byte a := by
  simp only [Device.byte, hmem, hscr]

/-! ### Folds that reach an element once -/

/-- Where every other element keeps what `φ` shows, a fold over distinct elements shows what the step of one element makes of it. -/
theorem foldl_once {α β γ : Type} {φ : α → γ} {f : α → β → α} {l : List β} {x : β} (hl : l.Nodup) (hx : x ∈ l)
    (hother : ∀ a y, y ≠ x → φ (f a y) = φ a) (a : α) : ∃ b, φ b = φ a ∧ φ (l.foldl f a) = φ (f b x) := by
  induction l generalizing a with
  | nil => cases hx
  | cons y l ih =>
    obtain ⟨hy, hl⟩ := List.nodup_cons.mp hl
    rcases List.mem_cons.mp hx with rfl | hx
    · refine ⟨a, rfl, List.foldlRecOn (motive := fun b => φ b = φ (f a x)) l f rfl fun b hb z hz => ?_⟩
      exact (hother b z fun h => hy (h ▸ hz)).trans hb
    · obtain ⟨b, hb, hfold⟩ := ih hl hx (f a y)
      exact ⟨b, hb.trans (hother a y fun h => hy (h ▸ hx)), hfold⟩

/-! ### The deletion of a job, whatever its state (R215) -/

theorem Device.jobDelete_free {d : Device} {j : Nat} (h : (d.job j).st = .free) :
    d.jobDelete j = if (d.job j).nextSt.isNone then d
      else (d.mapRings Ring.unowned (d.ownedRings j)).setJob j { Job.init with createReason := (d.job j).createReason } := if_pos h

theorem Device.jobDelete_free_st {d : Device} {j : Nat} (h : (d.job j).st = .free) : ((d.jobDelete j).job j).st = .free := by
  rw [Device.jobDelete_free h]
  split
  · exact h
  · rw [Device.setJob_job]
    rfl

theorem Device.jobDelete_job_other (d : Device) {j k : Nat} (h : k ≠ j) : (d.jobDelete j).job k = d.job k := by
  by_cases hst : (d.job j).st = .free
  · rw [Device.jobDelete_free hst]
    split
    · rfl
    · rw [Device.setJob_job_if, if_neg h, Device.mapRings_eq]
      rfl
  · obtain ⟨-, -, -, -, hother, -, -⟩ := Device.jobDelete_leaves hst
    exact hother k h

/-- A job that is not FREE is in its deletion, and still not FREE. -/
theorem Device.jobDelete_job_same {d : Device} {j : Nat} (h : (d.job j).st ≠ .free) :
    ((d.jobDelete j).job j).st ≠ .free ∧ ((d.jobDelete j).job j).release = .delete := by
  obtain ⟨x, l, hsans, -, heq⟩ := Device.jobDelete_taken h
  have hjob : ((x.mapRings Ring.unowned (x.ownedRings j)).discards l).job j = d.job j := by
    rw [Device.discards_eq, Device.mapRings_eq]
    exact (congrArg (fun y : Device => y.job j) hsans :)
  rw [heq, Device.modJob_job, hjob]
  refine ⟨?_, rfl⟩
  simp only [Job.deleted]
  split
  · exact h
  · decide

/-- Every job of a list that is not FREE is in its deletion once the list was deleted. -/
theorem Device.foldl_jobDelete_release {l : List Nat} {k : Nat} (hk : k ∈ l) {d : Device} (h : (d.job k).st ≠ .free) :
    ((l.foldl Device.jobDelete d).job k).release = .delete := by
  have hfree (d : Device) (j : Nat) (h : (d.job k).st ≠ .free) : ((d.jobDelete j).job k).st ≠ .free := by
    by_cases hj : k = j
    · exact hj ▸ (Device.jobDelete_job_same h).1
    · rwa [Device.jobDelete_job_other _ hj]
  have hset (d : Device) (h : ((d.jobDelete k).job k).st ≠ .free) : ((d.jobDelete k).job k).release = .delete :=
    (Device.jobDelete_job_same fun h0 => h (Device.jobDelete_free_st h0)).2
  refine foldl_establishes (P := fun d : Device => (d.job k).st ≠ .free → (d.job k).release = .delete) hk hset
    (fun d j hd => ?_) d (List.foldlRecOn (motive := fun d : Device => (d.job k).st ≠ .free) l _ h fun d hd j _ => hfree d j hd)
  by_cases hj : k = j
  · exact hj ▸ hset d
  · rw [Device.jobDelete_job_other _ hj]
    exact hd

/-! ### What the reset of an instance touches (R355) -/

/-- The device without what deleting jobs, emptying rings and answering emulated reads touches. -/
def Device.sansReset (d : Device) : Device := { d.sansKills with moves := [], rings := [], jobs := [], out := [] }

theorem Device.sansReset_of_sansKills {d e : Device} (h : e.sansKills = d.sansKills) : e.sansReset = d.sansReset :=
  (congrArg (fun x : Device => { x with moves := [], rings := [], jobs := [], out := [] }) h :)

theorem Device.jobDelete_sansReset (d : Device) (j : Nat) : (d.jobDelete j).sansReset = d.sansReset := by
  by_cases h : (d.job j).st = .free
  · rw [Device.jobDelete_free h]
    split
    · rfl
    · rw [Device.mapRings_eq]
      rfl
  · obtain ⟨x, l, hsans, -, heq⟩ := Device.jobDelete_taken h
    rw [heq, Device.discards_eq, Device.mapRings_eq]
    exact (Device.sansReset_of_sansKills hsans :)

theorem Device.moveRing_sansReset (d : Device) (n : Nat) (r : Ring) : (d.moveRing n r).sansReset = d.sansReset :=
  Device.moveRing_keeps Device.sansReset (fun _ _ => rfl) (fun _ _ _ _ => rfl) d n r

theorem Device.emuGive_sansReset (d : Device) (i : Nat) (who : Option (Port × Nat)) (v : Nat) :
    (d.emuGive i who v).sansReset = d.sansReset := by
  cases who <;> rfl

/-- What a reset up to its drain leaves alone. -/
theorem Device.leaves_of_sansReset {d e : Device} (h : e.sansReset = d.sansReset) : e.proc = d.proc ∧ e.tb = d.tb ∧ e.arb = d.arb :=
  ⟨(congrArg Device.proc h :), (congrArg Device.tb h :), (congrArg Device.arb h :)⟩

theorem Device.emuGive_rings (d : Device) (i : Nat) (who : Option (Port × Nat)) (v : Nat) : (d.emuGive i who v).rings = d.rings := by
  cases who <;> rfl

theorem Device.emuGive_jobs (d : Device) (i : Nat) (who : Option (Port × Nat)) (v : Nat) : (d.emuGive i who v).jobs = d.jobs := by
  cases who <;> rfl

/-- The ring without its owner and with its head at its tail: what a reset of its instance leaves of it (R215, R355). -/
def Ring.emptied (r : Ring) : Ring := r.reset.unowned

theorem Ring.of_unowned {r g : Ring} (h : r.unowned = g.unowned) : r.inst = g.inst ∧ r.enable = g.enable ∧ r.emptied = g.emptied :=
  ⟨(congrArg Ring.inst h :), (congrArg Ring.enable h :), (congrArg Ring.reset h :)⟩

theorem Ring.of_emptied {r g : Ring} (h : r.emptied = g.emptied) : r.tail = g.tail ∧ r.enable = g.enable ∧ r.count = g.count :=
  ⟨(congrArg Ring.tail h :), (congrArg Ring.enable h :), (congrArg Ring.count h :)⟩

theorem Device.jobDelete_ring (d : Device) (j n : Nat) : ((d.jobDelete j).ring n).unowned = (d.ring n).unowned := by
  have hmap (x : Device) (l : List Nat) : ((x.mapRings Ring.unowned l).ring n).unowned = (x.ring n).unowned := by
    refine foldl_keeps (fun x : Device => (x.ring n).unowned) (fun x k => ?_) l x
    rw [Device.setRing_ring_if]
    split
    · next h => rw [h]; rfl
    · rfl
  by_cases h : (d.job j).st = .free
  · rw [Device.jobDelete_free h]
    split
    · rfl
    · exact hmap d _
  · obtain ⟨x, l, hsans, -, heq⟩ := Device.jobDelete_taken h
    rw [heq, Device.discards_eq]
    exact (hmap x _).trans (congrArg Ring.unowned (Device.ring_congr (congrArg Device.rings hsans :) n))

/-! ### The reset of an instance (R355, R356) -/

/-- An instance in its reset: its emulated words wait no longer. -/
def Inst.resetBegun (x : Inst) : Inst := { x with resetting := true, emuReads := [], emuWrites := [], emuHeld := [], staged := none }

/-- An instance whose reset ends: the next generation, an idle mailbox, and no binding where it is deleted. -/
def Inst.resetEnded (x : Inst) : Inst :=
  let y := { x with gen := (x.gen + 1) % 256, resetting := false, mboxBusy := false, mboxDone := false,
                    mboxOverrun := false, staged := none, answer := none, msixPending := [] }
  if x.deleting then { y with active := false, deleting := false, binding := .none, bindWord := 0, world := false, target := 0 }
  else y

theorem Inst.resetEnded_resetting (x : Inst) : x.resetEnded.resetting = false := by
  unfold Inst.resetEnded; split <;> rfl

theorem Inst.resetEnded_gen (x : Inst) : x.resetEnded.gen = (x.gen + 1) % 256 := by
  unfold Inst.resetEnded; split <;> rfl

theorem Inst.resetEnded_emu (x : Inst) : x.resetEnded.emuReads = x.emuReads ∧ x.resetEnded.emuWrites = x.emuWrites := by
  unfold Inst.resetEnded; split <;> exact ⟨rfl, rfl⟩

theorem Inst.resetEnded_active {x : Inst} (h : x.deleting = true) : x.resetEnded.active = false := by
  simp [Inst.resetEnded, h]

/-- The end of a reset writes the instance and clears memory of its page. -/
theorem Device.resetEnd_eq (d : Device) (i : Nat) :
    d.resetEnd i = { (d.zero (instPage i + 0x1000) (instPage i + 0x2000)).zero (instPage i + 0xE000) (instPage i + 0xF010) with
      proc := d.proc.setInst i (d.proc.inst i).resetEnded } := by
  simp only [Device.resetEnd, Device.modInst, Device.zero_proc]
  rfl

theorem Device.resetEnd_frame (d : Device) (i : Nat) :
    ∃ mem scr, d.resetEnd i = { d with mem := mem, scrambles := scr, proc := d.proc.setInst i (d.proc.inst i).resetEnded } := by
  rw [Device.resetEnd_eq, Device.zero_frame (d.zero _ _), Device.zero_frame d]
  exact ⟨_, _, rfl⟩

/-- The mailbox buffers read zero after a reset. -/
theorem Device.resetEnd_mailbox (d : Device) (i : Nat) {a : Nat} (hlo : instPage i + 0x1000 ≤ a) (hhi : a < instPage i + 0x2000) :
    (d.resetEnd i).byte a = 0 := by
  unfold Device.resetEnd
  rw [Device.byte_congr (Device.modInst_mem _ _ _) (Device.modInst_scrambles _ _ _)]
  generalize instPage i = p at *
  rw [Device.byte_zero _ (by omega), if_neg (by omega), Device.byte_zero _ (by omega), if_pos ⟨hlo, hhi⟩]

/-- A reset that does not drain ends. -/
theorem Device.drainEnd_cases (d : Device) (i : Nat) : d.drainEnd i = d ∨ d.drainEnd i = d.resetEnd i := by
  unfold Device.drainEnd
  split
  · exact .inr rfl
  · exact .inl rfl

/-- What neither an instance nor its page shows is as before the end of a drain. -/
theorem Device.drainEnd_frame (d : Device) (i : Nat) :
    ∃ mem scr proc, d.drainEnd i = { d with mem := mem, scrambles := scr, proc := proc }
      ∧ (proc = d.proc ∨ proc = d.proc.setInst i (d.proc.inst i).resetEnded) := by
  rcases d.drainEnd_cases i with h | h
  · exact ⟨d.mem, d.scrambles, d.proc, h, .inl rfl⟩
  · obtain ⟨mem, scr, hframe⟩ := d.resetEnd_frame i
    exact ⟨mem, scr, _, h.trans hframe, .inr rfl⟩

theorem Device.drainEnd_leaves (d : Device) (i : Nat) :
    (d.drainEnd i).rings = d.rings ∧ (d.drainEnd i).jobs = d.jobs ∧ (d.drainEnd i).tb = d.tb ∧ (d.drainEnd i).arb = d.arb := by
  obtain ⟨mem, scr, proc, heq, -⟩ := d.drainEnd_frame i
  rw [heq]
  exact ⟨rfl, rfl, rfl, rfl⟩

/-- The reset begins: waiting emulated reads are answered with all ones. -/
def Device.resetBegin (d : Device) (i : Nat) : Device :=
  (d.proc.inst i).emuReads.foldl (fun d q => d.emuGive i q.who (2 ^ 32 - 1)) (d.modInst i Inst.resetBegun)

/-- The jobs of an instance, in the order of their deletion. -/
def Device.instJobs (d : Device) (i : Nat) : List Nat := (List.range 64).filter fun j => (d.job j).taken && (d.job j).rc.inst == i

/-- The enabled rings of an instance. -/
def Device.instRings (d : Device) (i : Nat) : List Nat := (List.range 512).filter fun n => (d.ring n).inst == i && (d.ring n).enable

def Device.deleteInstJobs (d : Device) (i : Nat) : Device := (d.instJobs i).foldl Device.jobDelete d

def Device.emptyInstRings (d : Device) (i : Nat) : Device :=
  (d.instRings i).foldl (fun d n => d.moveRing n (d.ring n).reset) d

/-- A reset up to its drain. -/
def Device.resetRun (d : Device) (i : Nat) : Device := ((d.resetBegin i).deleteInstJobs i).emptyInstRings i

theorem Device.instReset_begins {d : Device} {i : Nat} (hact : (d.proc.inst i).active = true)
    (hidle : (d.proc.inst i).resetting = false) : d.instReset i = (d.resetRun i).drainEnd i :=
  if_neg (by simp [hact, hidle])

theorem Device.instReset_absorbed {d : Device} {i : Nat} (h : (d.proc.inst i).active = false ∨ (d.proc.inst i).resetting = true) :
    d.instReset i = d :=
  if_pos (by simpa using h)

/-- What neither an answer nor its instance shows, the begin of a reset leaves. -/
theorem Device.resetBegin_keeps {γ : Type} (φ : Device → γ) (hgive : ∀ (d : Device) i who v, φ (d.emuGive i who v) = φ d)
    (d : Device) (i : Nat) : φ (d.resetBegin i) = φ (d.modInst i Inst.resetBegun) :=
  foldl_keeps φ (fun d (q : EmuRead) => hgive d i q.who _) _ _

theorem Device.resetRun_leaves (d : Device) (i : Nat) :
    let e := d.resetRun i
    e.proc = d.proc.setInst i (d.proc.inst i).resetBegun ∧ e.tb = d.tb ∧ e.arb = d.arb :=
  Device.leaves_of_sansReset (calc
    (d.resetRun i).sansReset = ((d.resetBegin i).deleteInstJobs i).sansReset :=
        foldl_keeps Device.sansReset (fun d n => d.moveRing_sansReset n _) _ _
    _ = (d.resetBegin i).sansReset := foldl_keeps Device.sansReset Device.jobDelete_sansReset _ _
    _ = (d.modInst i Inst.resetBegun).sansReset := Device.resetBegin_keeps Device.sansReset Device.emuGive_sansReset d i)

theorem Device.resetBegin_ring (d : Device) (i n : Nat) : (d.resetBegin i).ring n = d.ring n :=
  Device.ring_congr (Device.resetBegin_keeps Device.rings Device.emuGive_rings d i) n

theorem Device.job_congr {d e : Device} (h : e.jobs = d.jobs) (j : Nat) : e.job j = d.job j := by
  simp only [Device.job, h]

theorem Device.resetBegin_job (d : Device) (i j : Nat) : (d.resetBegin i).job j = d.job j := by
  rw [Device.job, Device.resetBegin_keeps Device.jobs Device.emuGive_jobs d i]
  rfl

/-- The deletion of an instance's jobs changes a ring in its owner alone. -/
theorem Device.deleteInstJobs_ring (d : Device) (i n : Nat) : ((d.deleteInstJobs i).ring n).unowned = (d.ring n).unowned :=
  foldl_keeps (fun d : Device => (d.ring n).unowned) (fun d j => d.jobDelete_ring j n) _ _

theorem Device.emptyInstRings_ring (d : Device) (i n : Nat) : ((d.emptyInstRings i).ring n).emptied = (d.ring n).emptied := by
  refine foldl_keeps (fun d : Device => (d.ring n).emptied) (fun d k => ?_) _ _
  rw [Device.moveRing_ring]
  split
  · next h => rw [h]; rfl
  · rfl

/-- An enabled ring of the instance is emptied. -/
theorem Device.emptyInstRings_head {d : Device} {i n : Nat} (h : n ∈ d.instRings i) :
    ((d.emptyInstRings i).ring n).head = ((d.emptyInstRings i).ring n).tail := by
  refine foldl_establishes (P := fun d : Device => (d.ring n).head = (d.ring n).tail) h (fun d => ?_) (fun d k hk => ?_) d
  · rw [Device.moveRing_ring, if_pos rfl]
    rfl
  · rw [Device.moveRing_ring]
    split
    · rfl
    · exact hk

/-- Every enabled ring of the instance is empty and keeps its tail and its configuration. -/
theorem Device.resetRun_ring {d : Device} {i n : Nat} (hn : n < 512) (hinst : (d.ring n).inst = i) (hen : (d.ring n).enable = true) :
    let e := d.resetRun i
    (e.ring n).head = (e.ring n).tail ∧ (e.ring n).tail = (d.ring n).tail ∧ (e.ring n).enable = true
      ∧ (e.ring n).count = (d.ring n).count := by
  intro e
  obtain ⟨hinst', hen', hdel⟩ := Ring.of_unowned (((d.resetBegin i).deleteInstJobs_ring i n).trans
    (congrArg Ring.unowned (d.resetBegin_ring i n)))
  have hmem : n ∈ ((d.resetBegin i).deleteInstJobs i).instRings i := by
    simp [Device.instRings, hn, hinst', hen', hinst, hen]
  obtain ⟨htail, hene, hcount⟩ := Ring.of_emptied ((Device.emptyInstRings_ring _ i n).trans hdel)
  exact ⟨Device.emptyInstRings_head hmem, htail, hene.trans hen, hcount⟩

theorem Device.emptyInstRings_calm (d : Device) (i j : Nat) : ((d.emptyInstRings i).job j).calm = (d.job j).calm :=
  foldl_keeps (fun d : Device => (d.job j).calm) (fun d n => d.moveRing_calm n _ j) _ _

theorem Job.release_of_calm {x y : Job} (h : x.calm = y.calm) : x.release = y.release := (congrArg Job.release h :)

/-- Every job of the instance is in its deletion. -/
theorem Device.resetRun_job {d : Device} {i j : Nat} (hj : j < 64) (hst : (d.job j).st ≠ .free) (hinst : (d.job j).rc.inst = i) :
    ((d.resetRun i).job j).release = .delete := by
  have hmem : j ∈ (d.resetBegin i).instJobs i := by
    simp [Device.instJobs, hj, d.resetBegin_job, Job.taken, hst, hinst]
  have hdel : (((d.resetBegin i).deleteInstJobs i).job j).release = .delete :=
    Device.foldl_jobDelete_release hmem (by rwa [d.resetBegin_job])
  exact (Job.release_of_calm (Device.emptyInstRings_calm _ i j)).trans hdel

/-- A reset that begins leaves the instance in its drain, or with its reset ended; beside it, nothing of the processors changes. -/
theorem Device.instReset_proc {d : Device} {i : Nat} (hact : (d.proc.inst i).active = true)
    (hidle : (d.proc.inst i).resetting = false) :
    (d.instReset i).proc = d.proc.setInst i (d.proc.inst i).resetBegun
      ∨ (d.instReset i).proc = d.proc.setInst i (d.proc.inst i).resetBegun.resetEnded := by
  obtain ⟨mem, scr, proc, heq, hproc⟩ := (d.resetRun i).drainEnd_frame i
  rw [Device.instReset_begins hact hidle, heq]
  obtain ⟨hrun, -, -⟩ := d.resetRun_leaves i
  refine hproc.imp (fun h => h.trans hrun) fun h => h.trans ?_
  rw [hrun, Proc.setInst_inst, Proc.setInst_setInst]

/-- Of the processors, a reset writes its instance at most. -/
theorem Device.instReset_writes (d : Device) (i : Nat) :
    (d.instReset i).proc = d.proc ∨ ∃ y, (d.instReset i).proc = d.proc.setInst i y := by
  by_cases hrun : (d.proc.inst i).active = true ∧ (d.proc.inst i).resetting = false
  · exact .inr ((Device.instReset_proc hrun.1 hrun.2).elim (fun h => ⟨_, h⟩) fun h => ⟨_, h⟩)
  · rw [Device.instReset_absorbed (by simpa [Classical.or_iff_not_imp_left] using hrun)]
    exact .inl rfl

theorem Device.instReset_inst_other (d : Device) {i k : Nat} (h : k ≠ i) : (d.instReset i).proc.inst k = d.proc.inst k := by
  obtain hproc | ⟨y, hproc⟩ := d.instReset_writes i
  · rw [hproc]
  · rw [hproc, Proc.setInst_inst_if, if_neg h]

theorem Device.instReset_vfEnable (d : Device) (i : Nat) : (d.instReset i).proc.vfEnable = d.proc.vfEnable := by
  obtain hproc | ⟨y, hproc⟩ := d.instReset_writes i
  · rw [hproc]
  · rw [hproc]
    rfl

/-- The instance after the begin of its reset: it drains in its generation, or has the next one. -/
theorem Device.instReset_inst {d : Device} {i : Nat} (hact : (d.proc.inst i).active = true)
    (hidle : (d.proc.inst i).resetting = false) :
    let y := (d.instReset i).proc.inst i
    (y.resetting = true ∧ y.gen = (d.proc.inst i).gen ∧ y.deleting = (d.proc.inst i).deleting
        ∨ y.resetting = false ∧ y.gen = ((d.proc.inst i).gen + 1) % 256 ∧ ((d.proc.inst i).deleting = true → y.active = false))
      ∧ y.emuReads = [] ∧ y.emuWrites = [] := by
  intro y
  rcases Device.instReset_proc hact hidle with hproc | hproc
  · rw [show y = (d.proc.inst i).resetBegun from (congrArg (Proc.inst · i) hproc).trans (Proc.setInst_inst _ _ _)]
    exact ⟨.inl ⟨rfl, rfl, rfl⟩, rfl, rfl⟩
  · obtain ⟨hreads, hwrites⟩ := (d.proc.inst i).resetBegun.resetEnded_emu
    rw [show y = (d.proc.inst i).resetBegun.resetEnded from (congrArg (Proc.inst · i) hproc).trans (Proc.setInst_inst _ _ _)]
    exact ⟨.inr ⟨Inst.resetEnded_resetting _, Inst.resetEnded_gen _, fun h => Inst.resetEnded_active h⟩, hreads, hwrites⟩

/-- Rings and jobs after the begin of a reset, and what it leaves alone. -/
theorem Device.instReset_leaves {d : Device} {i : Nat} (hact : (d.proc.inst i).active = true)
    (hidle : (d.proc.inst i).resetting = false) :
    (d.instReset i).rings = (d.resetRun i).rings ∧ (d.instReset i).jobs = (d.resetRun i).jobs ∧ (d.instReset i).tb = d.tb
      ∧ (d.instReset i).arb = d.arb := by
  obtain ⟨-, htb, harb⟩ := d.resetRun_leaves i
  rw [Device.instReset_begins hact hidle, ← htb, ← harb]
  exact (d.resetRun i).drainEnd_leaves i

/-! ### The end of a drain by force (R356) -/

/-- The device with every read of the instance's generation an orphan. -/
def Device.retired (d : Device) (i : Nat) : Device :=
  { d with
    noc := { d.noc with ports := d.noc.ports.map fun (p : Nat × PortState) => (p.1, { p.2 with
      inflight := p.2.inflight.map fun (x : Inflight) => x.retire i (d.proc.inst i).gen }) },
    fab := d.fab.orphan fun t => t.inst == i && t.instGen == (d.proc.inst i).gen }

theorem Inflight.retire_done (x : Inflight) (i g : Nat) :
    (!(x.retire i g).write && !(x.retire i g).orphan && (x.retire i g).inst == i && (x.retire i g).gen == g) = false := by
  unfold Inflight.retire
  split
  · simp
  · next hother =>
    refine Bool.eq_false_iff.mpr fun h => hother ?_
    simp only [Bool.and_eq_true] at h ⊢
    obtain ⟨⟨⟨hread, -⟩, hinst⟩, hgen⟩ := h
    exact ⟨⟨hread, hinst⟩, hgen⟩

/-- No remote read that the condition names is left in use. -/
theorem Fab.orphan_done (f : Fab) (p : RTag → Bool) : ((f.orphan p).tags.any fun t => !t.2.orphan && p t.2) = false := by
  simp only [Fab.orphan, List.any_map, List.any_eq_false, Function.comp_apply]
  intro t _
  split
  · simp
  · next hkept => exact hkept

theorem Device.retired_instTags (d : Device) (i : Nat) : (d.retired i).instTags i = false := by
  have hports : ((d.retired i).noc.ports.any fun p => p.2.inflight.any fun x => !x.write && !x.orphan && x.inst == i
      && x.gen == (d.proc.inst i).gen) = false := by
    simp [Device.retired, Function.comp_def, Inflight.retire_done]
  have htags := d.fab.orphan_done fun t => t.inst == i && t.instGen == (d.proc.inst i).gen
  simp only [← Bool.and_assoc] at htags
  exact Bool.or_eq_false_iff.mpr ⟨hports, htags⟩

/-- With every read of the instance's generation an orphan, no tag carries it any more, and the drain ends. -/
theorem Device.forceRetire_eq {d : Device} {i : Nat} (h : (d.proc.inst i).resetting = true) :
    d.forceRetire i = (d.retired i).resetEnd i := by
  have hdrain : d.forceRetire i = (d.retired i).drainEnd i := if_neg (by simp [h])
  have hres : ((d.retired i).proc.inst i).resetting = true := h
  rw [hdrain]
  exact if_pos (by simp [hres, d.retired_instTags])

theorem Device.forceRetire_idle {d : Device} {i : Nat} (h : (d.proc.inst i).resetting = false) : d.forceRetire i = d :=
  if_pos (by simp [h])

/-! ### Function-level resets (R349) -/

theorem Device.flr_vf {d : Device} {fn : Nat} (hend : d.proc.endpoint = true) (hfn : fn < 32) (hvf : fn ≠ 0) :
    d.flr fn = if (d.proc.inst fn).binding = .pcie then d.instReset fn else d := by
  simp [Device.flr, hend, Nat.not_le.mpr hfn, hvf]

theorem Device.flr_pf {d : Device} (hend : d.proc.endpoint = true) :
    d.flr 0 = (d.modProc fun p => { p with vfEnable := false }).resetPcie := by
  simp [Device.flr, hend]

theorem Device.resetPcie_vfEnable (d : Device) : d.resetPcie.proc.vfEnable = d.proc.vfEnable := by
  unfold Device.resetPcie
  refine foldl_keeps (fun d : Device => d.proc.vfEnable) (fun d i => ?_) _ _
  split
  · exact d.instReset_vfEnable i
  · rfl

/-- An idle PCIe-bound instance is reset. -/
theorem Device.resetPcie_inst {d : Device} {k : Nat} (hk : k < 32) (hbind : (d.proc.inst k).binding = .pcie)
    (hact : (d.proc.inst k).active = true) (hidle : (d.proc.inst k).resetting = false) :
    (d.resetPcie.proc.inst k).resetting = true ∨ (d.resetPcie.proc.inst k).gen = ((d.proc.inst k).gen + 1) % 256 := by
  obtain ⟨b, hb, hfold⟩ := foldl_once (φ := fun d : Device => d.proc.inst k) (a := d)
    (f := fun d i => if (d.proc.inst i).binding = .pcie then d.instReset i else d)
    List.nodup_range (List.mem_range.mpr hk) fun d i hi => by
      split
      · exact d.instReset_inst_other hi.symm
      · rfl
  rw [show d.resetPcie.proc.inst k = _ from hfold, if_pos (hb ▸ hbind)]
  obtain ⟨hcases, -, -⟩ := Device.instReset_inst (d := b) (i := k) (hb ▸ hact) (hb ▸ hidle)
  rw [show b.proc.inst k = _ from hb] at hcases
  exact hcases.imp (fun h => h.1) fun h => h.2.1

/-! ### Creation and deletion (R348) -/

/-- The instance that a creation makes of `x`. -/
def Inst.created (x : Inst) (w : Nat) : Inst :=
  { Inst.init with
    active := true, binding := Binding.ofCode (w % 4), world := bitOf w 2, target := w / 256, bindWord := w,
    gen := x.gen, intTgt := x.intTgt, emuTimeouts := x.emuTimeouts }

theorem Device.instCreate_made {d : Device} {i w : Nat} (hi : i ≠ 0) (hw : w ≠ 0) (hact : (d.proc.inst i).active = false)
    (hbind : w % 4 ≠ 3) (hres : bits w 7 3 = 0) : d.instCreate i w = (d.modInst i fun x => x.created w, 0) := by
  simp [Device.instCreate, hi, hw, hact, hbind, hres, Inst.created]

theorem Device.instCreate_management (d : Device) (w : Nat) : d.instCreate 0 w = (d, abReadOnly) := by simp [Device.instCreate]

theorem Device.instDelete_inactive {d : Device} {i : Nat} (hi : i ≠ 0) (hact : (d.proc.inst i).active = false) :
    d.instDelete i = (d, 0) := by
  simp [Device.instDelete, Device.instCreate, hi, hact]

theorem Device.instDelete_active {d : Device} {i : Nat} (hi : i ≠ 0) (hact : (d.proc.inst i).active = true) :
    d.instDelete i = ((d.modInst i fun x => { x with deleting := true }).instReset i, 0) := by
  simp [Device.instDelete, Device.instCreate, hi, hact]

/-- A deletion that begins ends at once, or with the drain (R348). -/
theorem Device.instDelete_inst {d : Device} {i : Nat} (hi : i ≠ 0) (hact : (d.proc.inst i).active = true)
    (hidle : (d.proc.inst i).resetting = false) :
    let y := (d.instDelete i).1.proc.inst i
    y.active = false ∨ y.resetting = true ∧ y.deleting = true := by
  intro y
  have hmarked : (d.modInst i fun x => { x with deleting := true }).proc.inst i = { d.proc.inst i with deleting := true } :=
    Proc.setInst_inst _ _ _
  obtain ⟨hcases, -, -⟩ := Device.instReset_inst (d := d.modInst i fun x => { x with deleting := true }) (i := i)
    (by rw [hmarked]; exact hact) (by rw [hmarked]; exact hidle)
  rw [hmarked] at hcases
  rw [show y = _ from congrArg (fun r : Device × Nat => r.1.proc.inst i) (Device.instDelete_active hi hact)]
  exact hcases.elim (fun h => .inr ⟨h.1, h.2.2⟩) fun h => .inl (h.2.2 rfl)

/-! ### Ring views (R351) -/

theorem Device.viewMove_reset {d : Device} {i : Nat} (n : Nat) (f : Ring → Option Ring) (h : (d.proc.inst i).resetting = true) :
    d.viewMove i n f = d := if_pos h

theorem Device.viewMove_served {d : Device} {i n : Nat} {f : Ring → Option Ring} {r : Ring} (hidle : (d.proc.inst i).resetting = false)
    (hview : d.viewServes i n = true) (hf : f (d.ring n) = some r) : d.viewMove i n f = d.moveRing n r := by
  simp [Device.viewMove, hidle, hview, hf]

/-- A move that the view does not serve, or that R168 refuses, sets DB_ERR. -/
theorem Device.viewMove_refused {d : Device} {i n : Nat} {f : Ring → Option Ring} (hidle : (d.proc.inst i).resetting = false)
    (h : d.viewServes i n = false ∨ f (d.ring n) = none) :
    d.viewMove i n f = d.modInst i fun x => { x with dbErr := true } := by
  rcases h with h | h
  · simp [Device.viewMove, hidle, h]
  · simp [Device.viewMove, hidle, h]

theorem Device.ring_enabled_of_viewServes {d : Device} {i n : Nat} (h : d.viewServes i n = true) : (d.ring n).enable = true := by
  simp only [Device.viewServes, Bool.and_eq_true] at h
  exact h.2

theorem Ring.publish_fits {r : Ring} {n : Nat} (hen : r.enable = true) (h : n ≤ r.free) :
    r.publish n = some { r with tail := r.tail.move r.count n } := by simp [Ring.publish, hen, h]

theorem Ring.publish_refused {r : Ring} {n : Nat} (h : r.free < n) : r.publish n = none := by
  simp [Ring.publish, Nat.not_le.mpr h]

theorem Ring.advance_fits {r : Ring} {n : Nat} (hen : r.enable = true) (h : n ≤ r.fill) :
    r.advance n = some { r with head := r.head.move r.count n } := by simp [Ring.advance, hen, h]

theorem Ring.advance_refused {r : Ring} {n : Nat} (h : r.fill < n) : r.advance n = none := by
  simp [Ring.advance, Nat.not_le.mpr h]

/-- The device without rings and jobs. -/
def Device.sansJobs (d : Device) : Device := { d with rings := [], jobs := [] }

theorem Device.eq_of_sansJobs {d e : Device} (h : e.sansJobs = d.sansJobs) : e = { d with rings := e.rings, jobs := e.jobs } :=
  congrArg (fun x : Device => { x with rings := e.rings, jobs := e.jobs }) h

/-- A move of a tail marks no head as due: rings and jobs alone change. -/
theorem Device.moveRing_tail {d : Device} {n : Nat} {r : Ring} (h : r.head = (d.ring n).head) :
    d.moveRing n r = { d with rings := (d.moveRing n r).rings, jobs := (d.moveRing n r).jobs } := by
  have hmoved : ((d.ring n).head != r.head) = false := by rw [h, bne_self_eq_false]
  have hsans (e : Device) (c : Bool) (j : Nat) (p : Nat → Bool) :
      ((if c then e.modJob j fun x => { x with idleSince := none, dormant := false } else e).triggerBy p).sansJobs = e.sansJobs := by
    rw [Device.triggerBy_keeps Device.sansJobs (fun _ _ _ _ => rfl)]
    split <;> rfl
  refine Device.eq_of_sansJobs ?_
  simp only [Device.moveRing, hmoved, Bool.false_and, Bool.false_eq_true, if_false]
  split
  · exact hsans _ _ _ _
  · rfl

/-- Nothing is sent while no head is due. -/
theorem Device.sendHeads_none {d : Device} (h : d.fab.headDue = []) : d.sendHeads = d := by
  have hfab : ({ d.fab with headDue := [] } : Fab) = d.fab := by rw [← h]
  simp [Device.sendHeads, h, Device.modFab, hfab]

/-- Settles O47, command by command: creation and deletion, the reset of an instance, and the moves that a ring view serves. -/
theorem instances : Obligations.Instances := by
  intro s i hs x
  refine ⟨fun w hi hw hact hbind hres => ?_, fun hi w => ?_, fun hi hact => ?_, fun hi hact hidle => ?_, fun hact hidle => ?_,
    fun hreset => ?_, fun hidle => ?_, fun hend => ⟨fun hi hbind => ?_, fun hi hbind => ?_, ?_⟩,
    fun n c => ?view⟩
  case view =>
    intro r err
    refine ⟨fun hreset => ?_, fun hidle => ⟨fun hview hfits => ?_, fun hbad => ?_, fun hview hfits => ?_, fun hbad hdue => ?_⟩⟩
    · exact Runs.of_on hs (exec_doorbell i n c s) (Device.viewMove_reset _ _ hreset)
    · refine Runs.of_on hs (exec_doorbell i n c s) ?_
      rw [Device.viewMove_served hidle hview (Ring.publish_fits (Device.ring_enabled_of_viewServes hview) hfits)]
      exact ⟨(Device.moveRing_ring _ _ _ _).trans (if_pos rfl), fun k hk => (Device.moveRing_ring _ _ _ _).trans (if_neg hk),
        Device.moveRing_tail rfl⟩
    · exact Runs.of_on hs (exec_doorbell i n c s) (Device.viewMove_refused hidle (hbad.imp_right Ring.publish_refused))
    · refine Runs.of_on hs (exec_ringViewAdvance i n c s) ?_
      rw [Device.viewMove_served hidle hview (Ring.advance_fits (Device.ring_enabled_of_viewServes hview) hfits)]
      obtain ⟨⟨hframe, hother⟩, hring⟩ := s.dev.ringDo_sendHeads_onlyRing n (some { r with head := r.head.move r.count (c % 2 ^ 24) })
      exact ⟨hring, hother, hframe⟩
    · refine Runs.of_on hs (exec_ringViewAdvance i n c s) ?_
      rw [Device.viewMove_refused hidle (hbad.imp_right Ring.advance_refused)]
      exact Device.sendHeads_none hdue
  · refine Runs.of_on hs (exec_instanceCreate i w s) ?_
    rw [Device.instCreate_made hi (fun h => hw (BitVec.eq_of_toNat_eq h)) hact hbind hres]
    have hinst : (answer (s.dev.modInst i fun x => x.created w.toNat, 0)).proc.inst i = x.created w.toNat := Proc.setInst_inst _ _ _
    rw [hinst]
    exact ⟨rfl, rfl, rfl, rfl, rfl, fun k hk => (Proc.setInst_inst_if _ _ _ _).trans (if_neg hk), rfl⟩
  · refine Runs.of_on hs (exec_instanceCreate i w s) ?_
    rw [hi, Device.instCreate_management]
    rfl
  · refine Runs.of_on hs (exec_instanceDelete i s) ?_
    rw [Device.instDelete_inactive hi hact]
    rfl
  · refine Runs.of_on hs (exec_instanceDelete i s) ⟨Device.instDelete_inst hi hact hidle, ?_⟩
    rw [Device.instDelete_active hi hact]
    rfl
  · obtain ⟨hgen, hreads, hwrites⟩ := Device.instReset_inst hact hidle
    obtain ⟨hrings, hjobs, htb, harb⟩ := Device.instReset_leaves hact hidle
    refine Runs.of_on hs (exec_instanceReset i s) ⟨hgen.imp (fun h => ⟨h.1, h.2.1⟩) fun h => ⟨h.1, h.2.1⟩, hreads, hwrites,
      fun n hn hinst hen => ?_, fun j hj hst hinst => ?_, fun k hk => Device.instReset_inst_other _ hk, htb, harb⟩
    · rw [Device.ring_congr hrings]
      exact Device.resetRun_ring hn hinst hen
    · rw [Device.job_congr hjobs]
      exact Device.resetRun_job hj hst hinst
  · refine Runs.of_on hs (exec_tagForceRetire i s) ?_
    rw [Device.forceRetire_eq hreset]
    obtain ⟨mem, scr, hframe⟩ := (s.dev.retired i).resetEnd_frame i
    have hinst : ((s.dev.retired i).resetEnd i).proc.inst i = x.resetEnded := by
      rw [hframe]
      exact Proc.setInst_inst _ _ _
    rw [hinst]
    refine ⟨x.resetEnded_resetting, x.resetEnded_gen, fun a hlo hhi => Device.resetEnd_mailbox _ i hlo hhi,
      fun hdel => Inst.resetEnded_active hdel, ?_⟩
    rw [hframe]
    exact ⟨rfl, rfl, rfl⟩
  · exact Runs.of_on hs (exec_tagForceRetire i s) (Device.forceRetire_idle hidle)
  · exact Runs.of_on hs (exec_functionLevelReset i s) ((Device.flr_vf hend i.isLt hi).trans (if_pos hbind))
  · exact Runs.of_on hs (exec_functionLevelReset i s) ((Device.flr_vf hend i.isLt hi).trans (if_neg hbind))
  · refine Runs.of_on hs (exec_functionLevelReset 0 s) ?_
    rw [Device.flr_pf hend]
    exact ⟨Device.resetPcie_vfEnable _, fun k hk hbind hact hidle =>
      Device.resetPcie_inst (d := s.dev.modProc fun p => { p with vfEnable := false }) hk hbind hact hidle⟩

/-! ### Emulated words (R352, R355) -/

theorem Device.emuRead_waits {d : Device} {i : Nat} (off : Nat) (who : Option (Port × Nat)) (h : (d.proc.inst i).resetting = false) :
    d.emuRead i off who = d.modInst i fun x =>
      { x with emuReads := x.emuReads ++ [⟨off % 2 ^ 12, x.emuWrites.length + x.emuHeld.length, who⟩] } :=
  if_neg (by simp [h])

theorem Device.emuRead_reset {d : Device} {i : Nat} (off : Nat) (who : Option (Port × Nat)) (h : (d.proc.inst i).resetting = true) :
    d.emuRead i off who = d.emuGive i who (2 ^ 32 - 1) := if_pos h

theorem Device.emuWrite_queued {d : Device} {i : Nat} (off v : Nat)
    (h : (d.proc.inst i).emuWrites.length < 32 ∧ (d.proc.inst i).emuHeld = []) :
    d.emuWrite i off v = d.modInst i fun x => { x with emuWrites := x.emuWrites ++ [(off % 2 ^ 12, v % 2 ^ 32)] } :=
  congrArg (fun y : Inst => { d with proc := d.proc.setInst i y }) (if_pos h)

theorem Device.emuWrite_held {d : Device} {i : Nat} (off v : Nat)
    (h : ¬ ((d.proc.inst i).emuWrites.length < 32 ∧ (d.proc.inst i).emuHeld = [])) :
    d.emuWrite i off v = d.modInst i fun x => { x with emuHeld := x.emuHeld ++ [(off % 2 ^ 12, v % 2 ^ 32)] } :=
  congrArg (fun y : Inst => { d with proc := d.proc.setInst i y }) (if_neg h)

theorem Device.emuAnswer_read {d : Device} {i : Nat} {q : EmuRead} {rest : List EmuRead} (v : Nat)
    (h : (d.proc.inst i).emuReads = q :: rest) :
    d.emuAnswer i v = (d.modInst i fun x => { x with emuReads := rest }.writesDone q.ahead).emuGive i q.who (v % 2 ^ 32) := by
  simp only [Device.emuAnswer, h]

theorem Device.emuAnswer_write {d : Device} {i : Nat} (v : Nat) (h : (d.proc.inst i).emuReads = []) :
    d.emuAnswer i v = d.modInst i fun x => { x with emuReads := [] }.writesDone 1 := by
  have hdone : (d.proc.inst i).writesDone 1 = { d.proc.inst i with emuReads := [] }.writesDone 1 := by
    simp only [Inst.writesDone, h]
  simp only [Device.emuAnswer, h]
  exact congrArg (fun y : Inst => { d with proc := d.proc.setInst i y }) hdone

theorem Device.emuGive_port (d : Device) (i : Nat) (p : Port) (id v : Nat) :
    ((d.emuGive i (some (p, id)) v).noc.port p).inflight = (d.noc.port p).inflight.map fun r => if r.id = id then r.more v else r :=
  congrArg PortState.inflight (Noc.setPort_port d.noc p _)

/-- An instance with a time-out at an offset. -/
def Inst.timedOut (x : Inst) (off : Nat) : Inst :=
  { x with emuTimeout := true, emuErr := off, emuTimeouts := (x.emuTimeouts + 1) % 2 ^ 32 }

theorem Device.emuLate_inst (d : Device) (i off : Nat) : (d.emuLate i off).proc.inst i = (d.proc.inst i).timedOut off :=
  d.modInst_inst i fun x => x.timedOut off

/-- An instance whose oldest held write is dropped: a read that came after it no longer waits for it. -/
def Inst.heldDropped (x : Inst) (rest : List (Nat × Nat)) : Inst :=
  { x with emuHeld := rest, emuReads := x.emuReads.map fun r =>
      if x.emuWrites.length < r.ahead then { r with ahead := r.ahead - 1 } else r }

theorem Device.emuExpire_read {d : Device} {i : Nat} {q : EmuRead} {rest : List EmuRead} (h : (d.proc.inst i).emuReads = q :: rest) :
    d.emuExpire i false = ((d.modInst i fun x => { x with emuReads := rest }).emuLate i q.off).emuGive i q.who (2 ^ 32 - 1) := by
  simp only [Device.emuExpire, h, Bool.false_eq_true, if_false]

theorem Device.emuExpire_held {d : Device} {i : Nat} {w : Nat × Nat} {rest : List (Nat × Nat)} (h : (d.proc.inst i).emuHeld = w :: rest) :
    d.emuExpire i true = (d.modInst i fun x => x.heldDropped rest).emuLate i w.1 := by
  simp only [Device.emuExpire, h, if_true, Inst.heldDropped]

/-- A read that is not served in time ends with all ones. -/
theorem Device.emuExpire_read_leaves {d : Device} {i : Nat} {q : EmuRead} {rest : List EmuRead}
    (h : (d.proc.inst i).emuReads = q :: rest) (hwho : q.who = none) :
    (d.emuExpire i false).proc.inst i = { d.proc.inst i with emuReads := rest }.timedOut q.off
      ∧ (d.emuExpire i false).out = .inst i (2 ^ 32 - 1) :: d.out := by
  rw [Device.emuExpire_read h, hwho]
  refine ⟨(Device.emuLate_inst _ i q.off).trans ?_, rfl⟩
  rw [Device.modInst_inst]

/-- A held write that is not served in time is dropped. -/
theorem Device.emuExpire_held_leaves {d : Device} {i : Nat} {w : Nat × Nat} {rest : List (Nat × Nat)}
    (h : (d.proc.inst i).emuHeld = w :: rest) :
    (d.emuExpire i true).proc.inst i = ((d.proc.inst i).heldDropped rest).timedOut w.1 ∧ (d.emuExpire i true).out = d.out := by
  rw [Device.emuExpire_held h, Device.emuLate_inst, Device.modInst_inst]
  exact ⟨rfl, rfl⟩

/-! ### The mailbox (R353) -/

/-- The answer of a request is kept until the firmware writes it. -/
def Device.mboxPut (d : Device) (i : Nat) (a : MboxAnswer) : Device := d.modInst i fun x => { x with answer := some a }

theorem Device.mboxPut_answer (d : Device) (i : Nat) (a : MboxAnswer) : ((d.mboxPut i a).proc.inst i).answer = some a := by
  rw [Device.mboxPut, Device.modInst_inst]

theorem Device.mboxPut_mem (d : Device) (i : Nat) (a : MboxAnswer) : (d.mboxPut i a).mem = d.mem := rfl

/-- The request that lies in the mailbox of an instance. -/
def Device.mboxRequest (d : Device) (i : Nat) : PartReq := PartReq.ofBytes (d.bytes (instPage i + 0x1000) 2048) mboxMax

/-- The tag of the request. -/
def Device.mboxTag (d : Device) (i : Nat) : List Byte := ((d.bytes (instPage i + 0x1000) 2048).drop 12).take 4

/-- A request is taken: its instance is BUSY. -/
def Device.mboxTaken (d : Device) (i len : Nat) : Device := d.modInst i fun x => { x with mboxBusy := true, mboxLen := len }

theorem Device.mboxTaken_inst (d : Device) (i len : Nat) :
    (d.mboxTaken i len).proc.inst i = { d.proc.inst i with mboxBusy := true, mboxLen := len } := d.modInst_inst _ _

/-- The path of a mailbox shows of its instance the world alone. -/
theorem Device.mboxTaken_mboxPath (d : Device) (i len : Nat) : (d.mboxTaken i len).mboxPath i = d.mboxPath i := by
  simp only [Device.mboxPath, d.mboxTaken_inst]

theorem Device.dictRead_mem (d : Device) (p : DPath) (ix sub : Nat) : (d.dictRead p ix sub).1.mem = d.mem := by
  simp only [Device.dictRead]
  split
  · rfl
  · split
    · split <;> rfl
    · rfl

theorem Device.partRead_mem (d : Device) (p : DPath) (r : PartReq) (max : Nat) : (d.partRead p r max).1.mem = d.mem := by
  have hread := d.dictRead_mem p r.index r.sub
  simp only [Device.partRead]
  split
  · exact hread
  · split
    · exact hread
    · exact hread

section Doorbell

variable {d : Device} {i : Nat} (hact : (d.proc.inst i).active = true) (hidle : (d.proc.inst i).resetting = false)
include hact hidle

theorem Device.mboxDoorbell_busy (len op : Nat) (hbusy : (d.proc.inst i).mboxBusy = true) :
    d.mboxDoorbell i len op = d.modInst i fun x => { x with mboxOverrun := true } := by
  simp [Device.mboxDoorbell, hact, hidle, hbusy]

theorem Device.mboxDoorbell_read (len : Nat) (hfree : (d.proc.inst i).mboxBusy = false) :
    let a := (d.mboxTaken i len).partRead (d.mboxPath i) (d.mboxRequest i) mboxMax
    d.mboxDoorbell i len 1 = a.1.mboxPut i ⟨d.mboxTag i, a.2.1, a.2.2⟩ := by
  rw [← d.mboxTaken_mboxPath i len]
  simp only [Device.mboxDoorbell, hact, hidle, hfree, Bool.not_true, Bool.or_false, Bool.false_eq_true, if_false, if_true,
    Device.mboxPut, Device.mboxTaken, Device.mboxRequest, Device.mboxTag]

/-- A part of a write is staged; a whole value is written by the path of the mailbox. -/
theorem Device.mboxDoorbell_write (len : Nat) (hfree : (d.proc.inst i).mboxBusy = false)
    {t : Option StagedParts × Nat × Option (List Byte)} (ht : (d.mboxRequest i).take (d.proc.inst i).staged = t) :
    let e := (d.mboxTaken i len).modInst i fun x => { x with staged := t.1 }
    d.mboxDoorbell i len 2 = match t.2.2 with
      | some v => let a := e.dictWrite (e.mboxPath i) (d.mboxRequest i).index (d.mboxRequest i).sub v
                  a.1.mboxPut i ⟨d.mboxTag i, a.2, []⟩
      | none => e.mboxPut i ⟨d.mboxTag i, t.2.1, []⟩ := by
  rw [← ht]
  simp only [Device.mboxDoorbell, hact, hidle, hfree, Bool.not_true, Bool.or_false, Bool.false_eq_true, if_false, if_true]
  rfl

/-- A request for reading is answered with its tag, and writes no memory. -/
theorem Device.mboxDoorbell_read_leaves (len : Nat) (hfree : (d.proc.inst i).mboxBusy = false) :
    let a := (d.mboxTaken i len).partRead (d.mboxPath i) (d.mboxRequest i) mboxMax
    ((d.mboxDoorbell i len 1).proc.inst i).answer = some ⟨d.mboxTag i, a.2.1, a.2.2⟩ ∧ (d.mboxDoorbell i len 1).mem = d.mem := by
  rw [Device.mboxDoorbell_read hact hidle len hfree]
  exact ⟨Device.mboxPut_answer _ _ _, (Device.mboxPut_mem _ _ _).trans ((d.mboxTaken i len).partRead_mem _ _ _)⟩

/-- A request for writing is answered with its tag; a part that is staged, or refused, changes its instance alone. -/
theorem Device.mboxDoorbell_write_leaves (len : Nat) (hfree : (d.proc.inst i).mboxBusy = false) :
    let t := (d.mboxRequest i).take (d.proc.inst i).staged
    ∃ c, ((d.mboxDoorbell i len 2).proc.inst i).answer = some ⟨d.mboxTag i, c, []⟩
      ∧ (t.2.2 = none → c = t.2.1 ∧ ((d.mboxDoorbell i len 2).proc.inst i).mboxBusy = true
          ∧ ((d.mboxDoorbell i len 2).proc.inst i).staged = t.1
          ∧ d.mboxDoorbell i len 2 = { d with proc := d.proc.setInst i ((d.mboxDoorbell i len 2).proc.inst i) }) := by
  generalize ht : (d.mboxRequest i).take (d.proc.inst i).staged = t
  rw [Device.mboxDoorbell_write hact hidle len hfree ht]
  rcases t with ⟨st, c, _ | v⟩
  · refine ⟨c, Device.mboxPut_answer _ _ _, fun _ => ?_⟩
    rw [Device.mboxPut, Device.mboxTaken, Device.modInst_modInst, Device.modInst_modInst, Device.modInst_inst]
    exact ⟨rfl, rfl, rfl, rfl⟩
  · exact ⟨_, Device.mboxPut_answer _ _ _, fun h => nomatch h⟩

end Doorbell

/-! ### Interrupts of an instance (R343) -/

theorem Device.instIrq_pcie {d : Device} {i : Nat} (id : Nat) (h : (d.proc.inst i).binding = .pcie) :
    d.instIrq i id = if d.msixOpen i id then d.note (.irqInst i id) else d.modInst i fun x =>
      { x with msixPending := if x.msixPending.contains id then x.msixPending else x.msixPending ++ [id] } := by
  simp only [Device.instIrq, h]

/-- A vector stays masked or open while its interrupt is raised. -/
theorem Device.instIrq_msixOpen {d : Device} {i : Nat} (id : Nat) (h : (d.proc.inst i).binding = .pcie) :
    (d.instIrq i id).msixOpen i id = d.msixOpen i id := by
  rw [Device.instIrq_pcie id h]
  split <;> rfl

/-- An interrupt touches processors, the fabric, outputs and free values. -/
theorem Device.instIrq_frame (d : Device) (i id : Nat) :
    ∃ proc fab out fresh, d.instIrq i id = { d with proc := proc, fab := fab, out := out, fresh := fresh }
      ∧ ((d.proc.inst i).binding ≠ .pcie → proc.inst i = d.proc.inst i)
      ∧ ((d.proc.inst i).binding ≠ .fabric → fab = d.fab ∧ fresh = d.fresh) := by
  cases hbind : (d.proc.inst i).binding with
  | vm =>
    simp only [Device.instIrq, hbind]
    split
    · exact ⟨_, d.fab, _, d.fresh, rfl, fun _ => rfl, fun _ => ⟨rfl, rfl⟩⟩
    · exact ⟨d.proc, d.fab, d.out, d.fresh, rfl, fun _ => rfl, fun _ => ⟨rfl, rfl⟩⟩
  | none =>
    simp only [Device.instIrq, hbind]
    exact ⟨d.proc, d.fab, d.out, d.fresh, rfl, fun _ => rfl, fun _ => ⟨rfl, rfl⟩⟩
  | fabric =>
    simp only [Device.instIrq, hbind]
    split
    · exact ⟨d.proc, d.fab, d.out, d.fresh, rfl, fun _ => rfl, fun _ => ⟨rfl, rfl⟩⟩
    · exact ⟨d.proc, _, _, _, Device.eq_of_sansFabric (Device.sansFabric_of_sansSends (d.send_sansSends _ rfl)), fun _ => rfl,
        fun h => absurd rfl h⟩
  | pcie =>
    rw [Device.instIrq_pcie id hbind]
    split
    · exact ⟨d.proc, d.fab, _, d.fresh, rfl, fun _ => rfl, fun _ => ⟨rfl, rfl⟩⟩
    · exact ⟨_, d.fab, d.out, d.fresh, rfl, fun h => absurd rfl h, fun _ => ⟨rfl, rfl⟩⟩

/-! ### The response of the mailbox (R353) -/

/-- The bytes of a response. -/
def MboxAnswer.bytes (a : MboxAnswer) : List Byte := a.tag ++ leBytes 4 a.abort ++ leBytes 2 a.data.length ++ zeros 6 ++ a.data

/-- An instance whose request was answered. -/
def Inst.answered (x : Inst) : Inst := { x with mboxBusy := false, mboxDone := true, answer := none }

/-- The response lies in the buffer, and the client is to be told. -/
def Device.responded (d : Device) (i : Nat) (a : MboxAnswer) : Device := (d.put (instPage i + 0x1800) a.bytes).modInst i Inst.answered

theorem Device.mboxAnswer_some {d : Device} {i : Nat} {a : MboxAnswer} (h : (d.proc.inst i).answer = some a) :
    d.mboxAnswer i = (d.responded i a).instIrq i 1 := by
  simp only [Device.mboxAnswer, h]
  rfl

theorem Device.responded_eq (d : Device) (i : Nat) (a : MboxAnswer) :
    d.responded i a = { d with mem := (d.responded i a).mem, proc := d.proc.setInst i (d.proc.inst i).answered } := by
  simp only [Device.responded, Device.modInst]
  rw [Device.put_eq]

theorem Device.responded_byte (d : Device) (i : Nat) (a : MboxAnswer) (c : Nat) :
    (d.responded i a).byte c = if instPage i + 0x1800 ≤ c ∧ c < instPage i + 0x1800 + a.bytes.length
      then a.bytes.getD (c - (instPage i + 0x1800)) 0 else d.byte c :=
  d.byte_put _ _ c

theorem Device.responded_out (d : Device) (i : Nat) (a : MboxAnswer) : (d.responded i a).out = d.out := by
  rw [Device.responded_eq]

theorem Device.responded_inst (d : Device) (i : Nat) (a : MboxAnswer) : (d.responded i a).proc.inst i = (d.proc.inst i).answered := by
  rw [Device.responded_eq]
  exact Proc.setInst_inst _ _ _

section Response

variable {d : Device} {i : Nat} {a : MboxAnswer} (h : (d.proc.inst i).answer = some a)
include h

/-- A response lies in its buffer, and no other byte changes. -/
theorem Device.mboxAnswer_byte (c : Nat) : (d.mboxAnswer i).byte c
    = if instPage i + 0x1800 ≤ c ∧ c < instPage i + 0x1800 + a.bytes.length then a.bytes.getD (c - (instPage i + 0x1800)) 0 else d.byte c := by
  obtain ⟨proc, fab, out, fresh, heq, -, -⟩ := (d.responded i a).instIrq_frame i 1
  rw [Device.mboxAnswer_some h, ← d.responded_byte i a, heq]
  exact Device.byte_congr rfl rfl c

/-- A response touches memory, processors, the fabric, outputs and free values; the fabric and free values for a fabric host alone. -/
theorem Device.mboxAnswer_frame : ∃ mem proc fab out fresh,
    d.mboxAnswer i = { d with mem := mem, proc := proc, fab := fab, out := out, fresh := fresh }
      ∧ ((d.proc.inst i).binding ≠ .pcie → proc.inst i = (d.proc.inst i).answered)
      ∧ ((d.proc.inst i).binding ≠ .fabric → fab = d.fab ∧ fresh = d.fresh) := by
  obtain ⟨proc, fab, out, fresh, heq, hinst, hfab⟩ := (d.responded i a).instIrq_frame i 1
  rw [d.responded_inst] at hinst hfab
  rw [Device.mboxAnswer_some h, heq, d.responded_eq]
  rw [d.responded_eq] at hfab
  exact ⟨_, proc, fab, out, fresh, rfl, hinst, hfab⟩

/-- To a PCIe function the response sends its message, or leaves it pending where the vector is masked. -/
theorem Device.mboxAnswer_pcie (hbind : (d.proc.inst i).binding = .pcie) :
    d.mboxAnswer i = if (d.mboxAnswer i).msixOpen i 1 then (d.responded i a).note (.irqInst i 1)
      else (d.responded i a).modInst i fun x =>
        { x with msixPending := if x.msixPending.contains 1 then x.msixPending else x.msixPending ++ [1] } := by
  have hpcie : ((d.responded i a).proc.inst i).binding = .pcie := by rw [d.responded_inst]; exact hbind
  rw [Device.mboxAnswer_some h, Device.instIrq_msixOpen 1 hpcie]
  exact Device.instIrq_pcie 1 hpcie

end Response

/-! ### The firmware call (R390) -/

/-- The device with other harts. -/
def Device.withHarts (d : Device) (t : Tab Hart) : Device := { d with proc := { d.proc with harts := t } }

theorem Device.hartRuns_eq (d : Device) (h : Nat) : d.hartRuns h = d.withHarts (d.hartRuns h).proc.harts := rfl

theorem Device.mceLoad_withHarts (d : Device) (t : Tab Hart) (a n : Nat) :
    (d.withHarts t).mceLoad a n = ((d.mceLoad a n).1.withHarts t, (d.mceLoad a n).2) := by
  have hmay : ((d.withHarts t).hubMay .hub true false a n && (d.withHarts t).reaches .hub a)
      = (d.hubMay .hub true false a n && d.reaches .hub a) := rfl
  simp only [Device.mceLoad, hmay]
  split <;> rfl

theorem Device.modelLoad_withHarts (d : Device) (t : Tab Hart) (a : Nat) :
    (d.withHarts t).modelLoad a = ((d.modelLoad a).1.withHarts t, (d.modelLoad a).2) := by
  simp only [Device.modelLoad, Device.mceLoad_withHarts]
  split
  · rfl
  · rcases d.mceLoad a 64 with ⟨e, _ | ⟨b, bs⟩⟩
    · rfl
    · exact e.mceLoad_withHarts t a _

theorem Device.planLoad_withHarts (d : Device) (t : Tab Hart) (a n : Nat) :
    (d.withHarts t).planLoad a n = ((d.planLoad a n).1.withHarts t, (d.planLoad a n).2) := by
  simp only [Device.planLoad, Device.mceLoad_withHarts]
  split <;> rfl

theorem Device.setBlk_withHarts (d : Device) (t : Tab Hart) (b : BlockId) (v : MoveBlk) :
    (d.withHarts t).setBlk b v = (d.setBlk b v).withHarts t := rfl

/-- A seal neither reads nor writes a hart. -/
theorem Device.sealBlk_withHarts (d : Device) (t : Tab Hart) (b : BlockId) (g : Nat) :
    (d.withHarts t).sealBlk b g = (d.sealBlk b g).withHarts t := by
  have hallowed : (d.withHarts t).sealAllowed b g = d.sealAllowed b g := rfl
  have hblk : (d.withHarts t).blk b = d.blk b := rfl
  have hstage (e : Device) : (e.withHarts t).swStage b = e.swStage b := rfl
  simp only [Device.sealBlk, hallowed, hblk, Device.setBlk_withHarts, hstage, Device.modelLoad_withHarts, Device.planLoad_withHarts]
  split
  · split
    · rfl
    · rfl
    · rfl
    · rfl
  · rfl

theorem Device.moveValid_withHarts (d : Device) (t : Tab Hart) (b : BlockId) : (d.withHarts t).moveValid b = d.moveValid b := by
  cases b <;> rfl

/-- A block accepts a value whatever harts there are: the seal that it is tried on needs none. -/
theorem Device.homeAccepts_withHarts (d : Device) (t : Tab Hart) (h : Home) (v : Nat) :
    (d.withHarts t).homeAccepts h v = d.homeAccepts h v := by
  have htry (m : MoveBlk) : (((d.withHarts t).setBlk h.blk m).sealBlk h.blk 0).moveValid h.blk
      = ((d.setBlk h.blk m).sealBlk h.blk 0).moveValid h.blk := by
    rw [Device.setBlk_withHarts, Device.sealBlk_withHarts, Device.moveValid_withHarts]
  exact htry _

theorem Device.rangeOk_withHarts (d : Device) (t : Tab Hart) (ix sub : Nat) (v : List Byte) :
    (d.withHarts t).rangeOk ix sub v = d.rangeOk ix sub v := by
  have hjob : (d.withHarts t).reservationOk sub (leNat v) = d.reservationOk sub (leNat v) := rfl
  have hmap : (d.withHarts t).mapOk v = d.mapOk v := rfl
  simp only [Device.rangeOk, Device.homeAccepts_withHarts, hjob, hmap]

theorem Device.writeCheck_withHarts (d : Device) (t : Tab Hart) (p : DPath) (ix sub : Nat) (v : List Byte) :
    (d.withHarts t).writeCheck p ix sub v = d.writeCheck p ix sub v := by
  have hworld : (d.withHarts t).jobWorldOk p ix = d.jobWorldOk p ix := rfl
  have hscope (i : Nat) : (d.withHarts t).inScope i ix = d.inScope i ix := rfl
  simp only [Device.writeCheck, Device.rangeOk_withHarts, hworld, hscope]

theorem Device.readCheck_withHarts (d : Device) (t : Tab Hart) (p : DPath) (ix sub : Nat) :
    (d.withHarts t).readCheck p ix sub = d.readCheck p ix sub := rfl

theorem Device.dictVal_withHarts (d : Device) (t : Tab Hart) (ix sub : Nat) : (d.withHarts t).dictVal ix sub = d.dictVal ix sub := by
  rfl

theorem Device.dictWrite_refused {d : Device} {p : DPath} {ix sub : Nat} {v : List Byte} (h : d.writeCheck p ix sub v ≠ 0) :
    d.dictWrite p ix sub v = (d, d.writeCheck p ix sub v) := if_pos (by simpa using h)

theorem Device.dictRead_refused {d : Device} {p : DPath} {ix sub : Nat} (h : d.readCheck p ix sub ≠ 0) :
    d.dictRead p ix sub = (d, d.readCheck p ix sub, []) := if_pos (by simpa using h)

theorem Device.dictRead_allowed {d : Device} {p : DPath} {ix sub : Nat} (h : d.readCheck p ix sub = 0)
    (hreport : ¬ (ix = 0x2300 ∧ sub = 2)) : d.dictRead p ix sub = (d, 0, d.dictVal ix sub) := by
  simp only [Device.dictRead, h, bne_self_eq_false, Bool.false_eq_true, if_false, if_neg hreport]

/-- A call whose access is refused, or that reads a value in effect, lets its hart run and gives its answer. -/
theorem Device.firmwareCall_write {d : Device} {h : Nat} {r : DictReq} (hw : r.write = true)
    (hrefused : d.writeCheck (.plain (d.proc.hart h).mworld) r.index r.sub r.data ≠ 0) :
    d.firmwareCall h r = (d.hartRuns h).note (.dict (d.writeCheck (.plain (d.proc.hart h).mworld) r.index r.sub r.data) []) := by
  rw [← d.writeCheck_withHarts (d.hartRuns h).proc.harts, ← d.hartRuns_eq] at hrefused ⊢
  simp only [Device.firmwareCall, hw, if_true, Device.dictWrite_refused hrefused]

theorem Device.firmwareCall_refusedRead {d : Device} {h : Nat} {r : DictReq} (hr : r.write = false)
    (hrefused : d.readCheck (.plain (d.proc.hart h).mworld) r.index r.sub ≠ 0) :
    d.firmwareCall h r = (d.hartRuns h).note (.dict (d.readCheck (.plain (d.proc.hart h).mworld) r.index r.sub) []) := by
  rw [← d.readCheck_withHarts (d.hartRuns h).proc.harts, ← d.hartRuns_eq] at hrefused ⊢
  simp only [Device.firmwareCall, hr, Bool.false_eq_true, if_false, Device.dictRead_refused hrefused]

theorem Device.firmwareCall_read {d : Device} {h : Nat} {r : DictReq} (hr : r.write = false)
    (hallowed : d.readCheck (.plain (d.proc.hart h).mworld) r.index r.sub = 0) (hreport : ¬ (r.index = 0x2300 ∧ r.sub = 2)) :
    d.firmwareCall h r = (d.hartRuns h).note (.dict 0 (d.dictVal r.index r.sub)) := by
  rw [← d.readCheck_withHarts (d.hartRuns h).proc.harts, ← d.hartRuns_eq] at hallowed
  rw [← d.dictVal_withHarts (d.hartRuns h).proc.harts, ← d.hartRuns_eq]
  simp only [Device.firmwareCall, hr, Bool.false_eq_true, if_false, Device.dictRead_allowed hallowed hreport]

/-- Settles O48, command by command: emulated words, the mailbox and its response, and the firmware call. -/
theorem emulationMailbox : Obligations.EmulationMailbox := by
  intro s i hs x inst
  refine ⟨fun off => ⟨fun hidle => ?_, fun hreset => ?_, fun v => ⟨fun hroom hheld => ?_, fun hfull => ?_⟩⟩,
    fun v => ?answers, fun q rest hreads hwho => ?_, fun w rest hheld => ?_,
    fun hact hidle len => ⟨fun hbusy => ⟨?_, ?_⟩, fun hfree => ?doorbells⟩, fun a ha => ?response, fun h r => ?calls⟩
  case answers =>
    intro done
    refine ⟨fun q rest hreads hwho => ?_, fun q port id rest hreads hwho => ?_, fun hreads => ?_⟩
    · refine Runs.of_on hs (exec_emuAnswer i v s) ?_
      rw [Device.emuAnswer_read v hreads, hwho]
      rfl
    · refine Runs.of_on hs (exec_emuAnswer i v s) ?_
      rw [Device.emuAnswer_read v hreads, hwho]
      exact ⟨Device.emuGive_port _ _ _ _ _, rfl⟩
    · exact Runs.of_on hs (exec_emuAnswer i v s) (Device.emuAnswer_write v hreads)
  case doorbells =>
    intro b r e
    have htag : (b.drop 12).take 4 = s.dev.mboxTag i := rfl
    have hreq : r = s.dev.mboxRequest i := rfl
    have htaken : e = s.dev.mboxTaken i len := rfl
    rw [htag, hreq, htaken]
    refine ⟨?_, ?_⟩
    · exact Runs.of_on hs (exec_mailboxRead i len s) (Device.mboxDoorbell_read_leaves hact hidle len hfree)
    · exact Runs.of_on hs (exec_mailboxWrite i len s) (Device.mboxDoorbell_write_leaves hact hidle len hfree)
  case response =>
    refine Runs.of_on hs (exec_mailboxResponse i s) ?_
    intro b y
    obtain ⟨mem, proc, fab, out, fresh, heq, hinst, hfab⟩ := Device.mboxAnswer_frame ha
    refine ⟨fun hbind hopen => ?_, fun hbind hmasked => ?_, fun hbind => ?_, fun k hk => ?_, fun c hc => ?_, ?_, fun hbind => ?_⟩
    · rw [(Device.mboxAnswer_pcie ha hbind).trans (if_pos hopen)]
      exact ⟨s.dev.responded_inst i a, congrArg (Note.irqInst i 1 :: ·) (s.dev.responded_out i a)⟩
    · rw [(Device.mboxAnswer_pcie ha hbind).trans (if_neg (by simp [hmasked])), Device.modInst_inst, s.dev.responded_inst]
      exact ⟨rfl, s.dev.responded_out i a⟩
    · rw [heq]
      exact hinst hbind
    · rw [Device.mboxAnswer_byte ha, if_pos ⟨Nat.le_add_right _ _, Nat.add_lt_add_left hk _⟩, Nat.add_sub_cancel_left]
      rfl
    · rw [Device.mboxAnswer_byte ha, if_neg fun h => hc.elim (fun hlo => absurd h.1 (Nat.not_le.mpr hlo))
        fun hhi => absurd h.2 (Nat.not_lt.mpr hhi)]
    · rw [heq]
    · rw [heq]
      exact hfab hbind
  case calls =>
    intro p quiet
    refine ⟨fun hw hrefused => ?_, fun hr hrefused => ?_, fun hr hallowed hreport => ?_⟩
    · refine Runs.of_on hs (exec_firmwareCall h r s) ?_
      rw [Device.firmwareCall_write hw hrefused]
      exact ⟨rfl, rfl⟩
    · refine Runs.of_on hs (exec_firmwareCall h r s) ?_
      rw [Device.firmwareCall_refusedRead hr hrefused]
      exact ⟨rfl, rfl⟩
    · refine Runs.of_on hs (exec_firmwareCall h r s) ?_
      rw [Device.firmwareCall_read hr hallowed hreport]
      exact ⟨rfl, rfl⟩
  · exact Runs.of_on hs (exec_emulatedRead i off s) (Device.emuRead_waits off none hidle)
  · exact Runs.of_on hs (exec_emulatedRead i off s) (Device.emuRead_reset off none hreset)
  · exact Runs.of_on hs (exec_emulatedWrite i off v s) (Device.emuWrite_queued off v ⟨hroom, hheld⟩)
  · exact Runs.of_on hs (exec_emulatedWrite i off v s)
      (Device.emuWrite_held off v fun h => hfull.elim (fun hlen => absurd h.1 (Nat.not_lt.mpr hlen)) fun hne => hne h.2)
  · refine Runs.of_on hs (exec_emuTimeout i false s) ?_
    obtain ⟨hinst, hout⟩ := Device.emuExpire_read_leaves hreads hwho
    rw [hinst]
    exact ⟨rfl, rfl, rfl, rfl, hout⟩
  · refine Runs.of_on hs (exec_emuTimeout i true s) ?_
    obtain ⟨hinst, hout⟩ := Device.emuExpire_held_leaves hheld
    rw [hinst]
    exact ⟨rfl, rfl, rfl, rfl, hout⟩
  · exact Runs.of_on hs (exec_mailboxRead i len s) (Device.mboxDoorbell_busy hact hidle len 1 hbusy)
  · exact Runs.of_on hs (exec_mailboxWrite i len s) (Device.mboxDoorbell_busy hact hidle len 2 hbusy)

end Sys2Proof.Machine

/-! SUPPORT. Frames that the gateway sends and receives (R361, R362, R375, R378, R381): what a sent frame touches, where a frame of
node 0 goes, and what a delivered frame meets. -/

namespace Sys2Proof.Machine

open Sys2Proof

/-! ### A frame that a port sends -/

theorem FPort.sends_iff (p : FPort) : p.sends = true ↔ p.st = .active := by simp [FPort.sends]

theorem Device.handFrame_frame (d : Device) (p : Nat) (f : CFrame) :
    ∃ noc out, d.handFrame p f = { d with noc := noc, out := out } := by
  unfold Device.handFrame
  split
  · exact ⟨_, _, rfl⟩
  · exact ⟨_, _, rfl⟩

theorem Device.handFrame_out {d : Device} {p : Nat} (f : CFrame) (hst : (d.fgw.port p).st = .active) (hshut : d.portShut p = false) :
    (d.handFrame p f).out = .frame p f :: d.out := by
  simp [Device.handFrame, (FPort.sends_iff _).mpr hst, hshut]

/-- Sending takes no output away. -/
theorem Device.handFrame_keeps_out {d : Device} {p : Nat} {f : CFrame} {x : Note} (h : x ∈ d.out) : x ∈ (d.handFrame p f).out := by
  unfold Device.handFrame
  split
  · exact List.mem_cons_of_mem _ h
  · exact h

/-! ### A frame of node 0 on every port (R361, R375) -/

/-- A frame of node 0 to every node, on each port that sends. -/
def Device.broadcast (d : Device) (func : Nat) (b : List Byte) : Device :=
  fieldPorts.foldl (fun d p => d.handFrame p (d.ownFrame p func 0xFFF 0 0x21 b)) d

theorem Device.broadcast_frame (d : Device) (func : Nat) (b : List Byte) :
    ∃ noc out, d.broadcast func b = { d with noc := noc, out := out } := by
  refine List.foldlRecOn (motive := fun e => ∃ noc out, e = { d with noc := noc, out := out }) fieldPorts _
    ⟨d.noc, d.out, rfl⟩ ?_
  rintro _ ⟨noc, out, rfl⟩ p -
  exact Device.handFrame_frame _ _ _

/-- Every active port below 32 that is not being castled sends the frame. -/
theorem Device.broadcast_sends {d : Device} {p : Nat} (func : Nat) (b : List Byte) (hp : p < 32)
    (hst : (d.fgw.port p).st = .active) (hshut : d.portShut p = false) :
    .frame p (d.ownFrame p func 0xFFF 0 0x21 b) ∈ (d.broadcast func b).out := by
  have hsent : (d.broadcast func b).fgw = d.fgw → (d.broadcast func b).proc = d.proc →
      .frame p (d.ownFrame p func 0xFFF 0 0x21 b) ∈ (d.broadcast func b).out := by
    refine foldl_establishes (l := fieldPorts) (x := p)
      (P := fun e => e.fgw = d.fgw → e.proc = d.proc → .frame p (d.ownFrame p func 0xFFF 0 0x21 b) ∈ e.out)
      (List.mem_range.mpr hp) (fun e hfgw hproc => ?_) (fun e q ih hfgw hproc => ?_) d
    all_goals
      obtain ⟨noc, out, he⟩ := e.handFrame_frame _ (e.ownFrame _ func 0xFFF 0 0x21 b)
      replace hfgw : e.fgw = d.fgw := by rwa [he] at hfgw
      replace hproc : e.proc = d.proc := by rwa [he] at hproc
    · have hown : e.ownFrame p func 0xFFF 0 0x21 b = d.ownFrame p func 0xFFF 0 0x21 b := by simp only [Device.ownFrame, hfgw]
      rw [Device.handFrame_out _ (by rwa [hfgw]) (by rwa [Device.portShut, hproc]), hown]
      exact List.mem_cons_self
    · exact Device.handFrame_keeps_out (ih hfgw hproc)
  obtain ⟨noc, out, h⟩ := d.broadcast_frame func b
  exact hsent (by rw [h]) (by rw [h])

theorem Device.sendEmcy_eq (d : Device) :
    ∃ b, d.sendEmcy = ({ d with fresh := d.fresh + 3 } : Device).broadcast fnEmcy b := ⟨_, rfl⟩

theorem Device.sendEmcy_frame (d : Device) : ∃ noc out, d.sendEmcy = { d with noc := noc, out := out, fresh := d.fresh + 3 } := by
  obtain ⟨b, h⟩ := d.sendEmcy_eq
  rw [h]
  exact Device.broadcast_frame _ _ _

theorem Device.sendEmcy_sends {d : Device} {p : Nat} (hp : p < 32) (hst : (d.fgw.port p).st = .active)
    (hshut : d.portShut p = false) : ∃ fr, .frame p fr ∈ d.sendEmcy.out ∧ fr.func = fnEmcy ∧ fr.src = 0 := by
  obtain ⟨b, h⟩ := d.sendEmcy_eq
  rw [h]
  exact ⟨_, Device.broadcast_sends fnEmcy b hp hst hshut, rfl, rfl⟩

/-! ### A frame that the rules deliver (R378) -/

theorem Runs.of_delivered {c : Instr} {s : State} {f0 : CFrame} {func : Nat} {core : Device → CFrame → Device} {e : Device}
    {Q : Device → Prop} (hs : s.live) (hc : exec c s = s.on fun d => d.received f0 func core)
    (h : s.dev.ingress { f0 with func := func } = (e, true)) (hQ : Q (core e { f0 with func := func })) : Runs c s Q :=
  Runs.of_on hs hc (by simpa only [Device.received, h, if_true] using hQ)

theorem Device.portOpen_of_on {d : Device} {p : Nat} (hst : (d.fgw.port p).st = .active ∨ (d.fgw.port p).st = .alone)
    (hshut : d.portShut p = false) : d.portOpen p := by
  rcases hst with hst | hst <;> simp [Device.portOpen, hst, hshut]

/-- A frame that gets past the port came in on an open one. -/
theorem Device.portOpen_of_delivered {d e : Device} {f : CFrame} (h : d.ingress f = (e, true)) : d.portOpen f.port := by
  by_contra hclosed
  have hshut : (d.fgw.port f.port).st = .off ∨ (d.fgw.port f.port).st = .busOff ∨ d.portShut f.port = true := by
    simp only [Device.portOpen, not_and_or, not_not, Bool.not_eq_false] at hclosed
    exact hclosed
  rw [Device.ingress_of_closed hshut] at h
  simp at h

end Sys2Proof.Machine

/-! SUPPORT. The node table (R364 to R367, R374, R375, R393): joins case by case, heartbeats, emergencies and removals. -/

namespace Sys2Proof.Machine

open Sys2Proof

/-! ### One entry of the table -/

@[simp] theorem Device.modNode_node (d : Device) (n : Nat) (f : Node → Node) : (d.modNode n f).fgw.node n = f (d.fgw.node n) :=
  Gateway.setNode_node _ _ _

theorem Device.modNode_node_other (d : Device) {n k : Nat} (f : Node → Node) (h : k ≠ n) :
    (d.modNode n f).fgw.node k = d.fgw.node k := (Gateway.setNode_node_if _ _ _ _).trans (if_neg h)

/-- What a change of one entry keeps of it, it keeps of every entry. -/
theorem Device.modNode_keeps {α : Type} (φ : Node → α) (d : Device) (n k : Nat) (f : Node → Node) (h : ∀ x, φ (f x) = φ x) :
    φ ((d.modNode n f).fgw.node k) = φ (d.fgw.node k) := by
  by_cases hk : k = n
  · rw [hk, Device.modNode_node, h]
  · rw [Device.modNode_node_other _ _ hk]

/-- A time stamp lies in the running tempo (R34). -/
theorem TimeBase.instant_tempo (t : TimeBase) (ns : Nat → Fin 1000) (fresh : Nat) : t.instant ns fresh / 1000 = t.tn := by
  have hns : ((List.range (fresh + 1 - t.mark)).map fun k => (ns (t.mark + k)).val).foldl max 0 < 1000 := by
    refine List.foldlRecOn (motive := (· < 1000)) _ _ (by decide) fun b hb x hx => ?_
    obtain ⟨k, -, rfl⟩ := List.mem_map.mp hx
    exact max_lt hb (ns _).isLt
  unfold TimeBase.instant TimeBase.tn
  omega

theorem Device.stamp_tempo {d : Device} (h : d.tb.started = true) : d.stamp.1 / 1000 = d.tn := by
  simp only [Device.stamp, h, if_true, TimeBase.instant_tempo, Device.tn]

/-! ### The answer to a join (R364) -/

theorem Device.joinAnswer_frame (d : Device) (f : CFrame) (result version number : Nat) :
    ∃ noc out, d.joinAnswer f result version number = { d with noc := noc, out := out, fresh := d.fresh + 1 } :=
  Device.handFrame_frame _ _ _

@[simp] theorem Device.joinAnswer_fgw (d : Device) (f : CFrame) (result version number : Nat) :
    (d.joinAnswer f result version number).fgw = d.fgw := Device.handFrame_fgw _ _ _

/-- Where the port of the request sends, as device `e` has it, `d` has answered the request with a result. -/
def Device.JoinTold (f : CFrame) (e d : Device) (result : Nat) : Prop :=
  (e.fgw.port f.port).sends = true → e.portShut f.port = false → ∃ fr rest b, d.out = .frame f.port fr :: rest
    ∧ fr.func = fnJoinRsp ∧ fr.payload = f.payload.take 4 ++ leBytes 1 result ++ b

/-- The device that answers may differ from `e`, but not in its ports and worlds. -/
theorem Device.joinAnswer_told {e d : Device} {f : CFrame} (result version number : Nat) (hports : d.fgw.ports = e.fgw.ports)
    (hproc : d.proc = e.proc) : Device.JoinTold f e (d.joinAnswer f result version number) result := by
  intro hsends hshut
  have hport : d.fgw.port f.port = e.fgw.port f.port := congrArg (tget fportDef · f.port) hports
  refine ⟨_, d.out, _, Device.handFrame_out _ ?_ ?_, rfl, List.append_assoc _ _ _⟩
  · exact (FPort.sends_iff _).mp (hport.symm ▸ hsends)
  · simpa only [Device.portShut, hproc] using hshut

/-- A refused join, answered by a device that differs from `e` in neither gateway, worlds nor time. -/
theorem Device.joinAnswer_refuses {e d : Device} {f : CFrame} (result version number : Nat) (hfgw : d.fgw = e.fgw)
    (hproc : d.proc = e.proc) (htb : d.tb = e.tb) :
    Device.JoinTold f e (d.joinAnswer f result version number) result ∧ (d.joinAnswer f result version number).fgw = e.fgw
      ∧ (d.joinAnswer f result version number).tb = e.tb :=
  ⟨Device.joinAnswer_told _ _ _ (congrArg _ hfgw) hproc, (d.joinAnswer_fgw _ _ _ _).trans hfgw,
    (d.joinAnswer_tb _ _ _ _).trans htb⟩

/-! ### A join that the rules deliver (R365, R366) -/

/-- The number of a new node (R366): the proposed one where it is legal and free, else the lowest free one. -/
def Device.GivesNumber (d : Device) (f : CFrame) (num : Nat) : Prop :=
  1 ≤ f.src ∧ f.src ≤ 0xFFE ∧ d.fgw.find (segmentOf f.port) f.src = none ∧ num = f.src
    ∨ ¬(1 ≤ f.src ∧ f.src ≤ 0xFFE ∧ d.fgw.find (segmentOf f.port) f.src = none) ∧ d.fgw.freeNumber (segmentOf f.port) = some num

theorem Device.givesNumber_eq {d : Device} {f : CFrame} {num : Nat} (h : d.GivesNumber f num) :
    (if decide (1 ≤ f.src) && decide (f.src ≤ 0xFFE) && (d.fgw.find (segmentOf f.port) f.src).isNone then some f.src
      else d.fgw.freeNumber (segmentOf f.port)) = some num := by
  simp only [Bool.and_eq_true, decide_eq_true_eq, Option.isNone_iff_eq_none, and_assoc]
  rcases h with ⟨hlo, hhi, hfree, rfl⟩ | ⟨hwish, hnum⟩
  · exact if_pos ⟨hlo, hhi, hfree⟩
  · exact (if_neg hwish).trans hnum

section Join

variable {d : Device} {f : CFrame} {v : Nat}

theorem Device.joinNode_no_version (h : chooseVersion (field f.payload 6 1) (field f.payload 7 1) f.medium = none) :
    d.joinNode f = d.joinAnswer f 1 0 0 := by
  simp only [Device.joinNode, h]

variable (hv : chooseVersion (field f.payload 6 1) (field f.payload 7 1) f.medium = some v)
include hv

theorem Device.joinNode_taken (h : d.serialTaken (segmentOf f.port) (field f.payload 0 4) (field f.payload 4 2) = true) :
    d.joinNode f = d.joinAnswer f 4 0 0 := by
  simp only [Device.joinNode, hv, h, if_true]

variable (htaken : d.serialTaken (segmentOf f.port) (field f.payload 0 4) (field f.payload 4 2) = false)
include htaken

/-- A node that the table knows: its entry is active again. -/
theorem Device.joinNode_known {n : Nat} (h : d.fgw.findSerial (segmentOf f.port) (field f.payload 0 4) (field f.payload 4 2) = some n)
    (hst : (d.fgw.node n).st ≠ .removed) :
    d.joinNode f = (({ d with fresh := d.fresh + 1 } : Device).modNode n fun x =>
      { x with st := .active, version := v, port := f.port, lastHb := d.stamp.1 }).joinAnswer f 0 v (d.fgw.node n).number := by
  have hold : (d.stamp.2.fgw.findSerial (segmentOf f.port) (field f.payload 0 4) (field f.payload 4 2)).filter
      (fun n => (d.stamp.2.fgw.node n).st != .removed) = some n := by
    show (d.fgw.findSerial _ _ _).filter (fun n => (d.fgw.node n).st != .removed) = some n
    rw [h, Option.filter_some, if_pos (by simpa using hst)]
  simp only [Device.joinNode, hv, htaken, Bool.false_eq_true, if_false, hold, Device.modNode_node]
  rfl

variable (hnew : d.fgw.findSerial (segmentOf f.port) (field f.payload 0 4) (field f.payload 4 2) = none)
include hnew

theorem Device.joinNode_full (h : d.fgw.freeEntry = none) : d.joinNode f = (d.stamp.2.exhausted 0x05).joinAnswer f 2 0 0 := by
  have hnew' : d.stamp.2.fgw.findSerial (segmentOf f.port) (field f.payload 0 4) (field f.payload 4 2) = none := hnew
  have hfull : d.stamp.2.fgw.freeEntry = none := h
  simp only [Device.joinNode, hv, htaken, Bool.false_eq_true, if_false, hnew', Option.filter_none, hfull]

/-- A new node takes the lowest free entry; its key slot, period and rate are free (log entry 80). -/
theorem Device.joinNode_new {n num : Nat} (h : d.fgw.freeEntry = some n) (hnum : d.GivesNumber f num) :
    ∃ key period rate t, d.joinNode f = (({ d with fresh := d.fresh + 2 } : Device).modNode n fun _ =>
      { Node.init with serial := field f.payload 0 4, vendor := field f.payload 4 2, version := v, st := .active, port := f.port
                       number := num, keySlot := key, period := period, rate := rate, tokens := 4 * rate, lastHb := t }).joinAnswer
        f 0 v num := by
  have hnew' : d.stamp.2.fgw.findSerial (segmentOf f.port) (field f.payload 0 4) (field f.payload 4 2) = none := hnew
  have hfree : d.stamp.2.fgw.freeEntry = some n := h
  have hwish : (if decide (1 ≤ f.src) && decide (f.src ≤ 0xFFE) && (d.stamp.2.fgw.find (segmentOf f.port) f.src).isNone
      then some f.src else d.stamp.2.fgw.freeNumber (segmentOf f.port)) = some num := Device.givesNumber_eq hnum
  simp only [Device.joinNode, hv, htaken, Bool.false_eq_true, if_false, hnew', Option.filter_none, hfree, hwish]
  exact ⟨_, _, _, _, rfl⟩

end Join

/-! ### What a join leaves -/

/-- A join that is accepted: entry `n` changes, and outputs, counters and free values apart nothing else does. -/
theorem Device.joined_leaves (e : Device) (f : CFrame) (n fresh version number : Nat) (g : Node → Node) :
    let d := (({ e with fresh := fresh } : Device).modNode n g).joinAnswer f 0 version number
    d.fgw.node n = g (e.fgw.node n) ∧ (∀ k, k ≠ n → d.fgw.node k = e.fgw.node k) ∧ Device.JoinTold f e d 0
      ∧ d = { e with fgw := { e.fgw with nodes := d.fgw.nodes }, noc := d.noc, out := d.out, fresh := d.fresh } := by
  intro d
  have hfgw : d.fgw = (({ e with fresh := fresh } : Device).modNode n g).fgw := Device.joinAnswer_fgw _ _ _ _ _
  refine ⟨?_, fun k hk => ?_, Device.joinAnswer_told _ _ _ rfl rfl, ?_⟩
  · rw [hfgw, Device.modNode_node]
  · rw [hfgw, Device.modNode_node_other _ _ hk]
  · obtain ⟨noc, out, h⟩ := (({ e with fresh := fresh } : Device).modNode n g).joinAnswer_frame f 0 version number
    simp only [d, h]
    rfl

/-! ### JOIN_REQ (R364, R378) -/

theorem Device.joinReq_delivered {d e : Device} {f0 : CFrame} (h : d.ingress { f0 with func := fnJoinReq } = (e, true)) :
    d.joinReq f0 = if f0.dst = 0 then e.joinNode { f0 with func := fnJoinReq } else e := by
  obtain ⟨hoff, hbus, hshut⟩ := Device.portOpen_of_delivered h
  simp only [Device.joinReq, h, if_true]
  exact if_neg (by simp [hoff, hbus, hshut])

/-- A request that fits and that no rule delivers is refused. -/
theorem Device.joinReq_undelivered {d e : Device} {f0 : CFrame} (h : d.ingress { f0 with func := fnJoinReq } = (e, false))
    (hopen : d.portOpen f0.port) (hfits : d.frameFits { f0 with func := fnJoinReq } = true) :
    d.joinReq f0 = e.joinAnswer { f0 with func := fnJoinReq } 3 0 0 := by
  obtain ⟨hoff, hbus, hshut⟩ := hopen
  simp only [Device.joinReq, h, hfits, Bool.false_eq_true, if_false, if_true]
  exact if_neg (by simp [hoff, hbus, hshut])

/-! ### Heartbeats (R374) -/

theorem Device.nodeBeat_of_other {d : Device} {f : CFrame} (h : f.dst ≠ 0) : d.nodeBeat f = d := by
  unfold Device.nodeBeat
  split
  · rfl
  · exact if_pos (by simpa using h)

theorem Device.nodeBeat_of_partner {d : Device} {f : CFrame} {n : Nat} (hn : d.nodeOf f = some n) (h : f.dst = 0) :
    d.nodeBeat f = d.stamp.2.modNode n fun x => { x with lastHb := d.stamp.1, st := if x.st = .lost then .active else x.st } := by
  simp only [Device.nodeBeat, hn, h, bne_self_eq_false, Bool.false_eq_true, if_false]

theorem Device.nodeLost_of_silent {d : Device} {n : Nat} (hst : (d.fgw.node n).st = .active)
    (hdue : (d.fgw.node n).lastHb + 3 * d.hbTempos n * 1000 ≤ d.tb.dt) :
    d.nodeLost n = (d.modNode n fun x => { x with st := .lost }).sendEmcy := if_pos ⟨hst, hdue⟩

theorem Device.nodeLost_of_heard {d : Device} {n : Nat}
    (h : (d.fgw.node n).st ≠ .active ∨ d.tb.dt < (d.fgw.node n).lastHb + 3 * d.hbTempos n * 1000) : d.nodeLost n = d :=
  if_neg fun ⟨hst, hdue⟩ => h.elim (fun hne => hne hst) fun hlt => absurd hdue (Nat.not_le.mpr hlt)

/-! ### Emergencies (R375, R393) -/

/-- The first emergency of a node in 10 rounds goes on. -/
theorem Device.emcyIn_passed {d : Device} {f : CFrame} {n : Nat} (hn : d.nodeOf f = some n)
    (h : (d.fgw.node n).emcyTn = none ∨ ∃ t, (d.fgw.node n).emcyTn = some t ∧ t + 10000 ≤ d.tn) :
    d.emcyIn f = (d.modNode n fun x => { x with emcyTn := some d.tn }).note (.deliver f) := by
  rcases h with h | ⟨t, h, ht⟩
  · simp [Device.emcyIn, hn, h]
  · simp [Device.emcyIn, hn, h, Nat.not_lt.mpr ht]

theorem Device.emcyIn_early {d : Device} {f : CFrame} {n t : Nat} (hn : d.nodeOf f = some n) (h : (d.fgw.node n).emcyTn = some t)
    (ht : d.tn < t + 10000) :
    d.emcyIn f = (d.modNode n fun x => { x with rateDrops := (x.rateDrops + 1) % 2 ^ 32 }).count fgwRateDrops 1 := by
  simp [Device.emcyIn, hn, h, ht]

theorem Device.errorSample_rises {d : Device} (h0 : d.dict.errSample = 0) (h : d.errorReg ≠ 0) :
    d.errorSample = (d.broadcast fnEmcy (leBytes 2 0x1001 ++ leBytes 1 d.errorReg ++ leBytes 4 d.tn ++ zeros 1)).modDict
      fun x => { x with errSample := d.errorReg } := by
  simp only [Device.errorSample, h0, h, ne_eq, not_false_eq_true, and_self, if_true]
  rfl

theorem Device.errorSample_quiet {d : Device} (h : d.dict.errSample ≠ 0 ∨ d.errorReg = 0) :
    d.errorSample = d.modDict fun x => { x with errSample := d.errorReg } := by
  have hno : ¬(d.dict.errSample = 0 ∧ d.errorReg ≠ 0) := fun ⟨h0, hv⟩ => h.elim (fun hne => hne h0) hv
  simp only [Device.errorSample, if_neg hno]

/-! ### The obligation -/

/-- Settles O50, command by command; a join case by case. -/
theorem nodeTable : Obligations.NodeTable := by
  intro s f0 hs
  refine ⟨?join, ?beat, fun n => ⟨fun hst hdue => ?_, fun h => ?_⟩, ?emcy, fun h0 hv => ?rises, fun h => ?quiet,
    fun hst => ?_, fun hst => ?_⟩
  case join =>
    intro f seg serial vendor told refused
    have deliver {e : Device} {Q : Device → Prop} (h : s.dev.ingress f = (e, true)) (hdst : f.dst = 0) (hQ : Q (e.joinNode f)) :
        Runs (.joinReq f0) s Q :=
      Runs.of_on hs (exec_joinReq f0 s) (by rwa [Device.joinReq_delivered h, if_pos hdst])
    refine ⟨fun e h hdst => ?_, fun e h hdst => ⟨fun hv => deliver h hdst ?_, fun v hv => ⟨fun htaken => deliver h hdst ?_,
      fun htaken => ⟨fun n hn hst => deliver h hdst ?_, fun hnew => ⟨fun hfull => deliver h hdst ?_,
        fun n num hn hnum => deliver h hdst ?_⟩⟩⟩⟩,
      fun e h hst hshut hfits => ?_⟩
    · exact Runs.of_on hs (exec_joinReq f0 s) ((Device.joinReq_delivered h).trans (if_neg hdst))
    · rw [Device.joinNode_no_version hv]
      exact e.joinAnswer_refuses 1 0 0 rfl rfl rfl
    · rw [Device.joinNode_taken hv htaken]
      exact e.joinAnswer_refuses 4 0 0 rfl rfl rfl
    · rw [Device.joinNode_known hv htaken hn hst]
      obtain ⟨hnode, hothers, htold, hframe⟩ := e.joined_leaves f n (e.fresh + 1) v (e.fgw.node n).number
        fun x => { x with st := .active, version := v, port := f.port, lastHb := e.stamp.1 }
      exact ⟨by rw [hnode], hothers, htold, hframe⟩
    · rw [Device.joinNode_full hv htaken hnew hfull]
      exact Device.joinAnswer_refuses 2 0 0 rfl rfl rfl
    · obtain ⟨key, period, rate, t, hjoin⟩ := Device.joinNode_new hv htaken hnew hn hnum
      rw [hjoin]
      obtain ⟨hnode, hothers, htold, hframe⟩ := e.joined_leaves f n (e.fresh + 2) v num _
      intro x
      rw [show x = _ from hnode]
      exact ⟨rfl, rfl, rfl, rfl, rfl, rfl, rfl, rfl, rfl, hothers, htold, hframe⟩
    · refine Runs.of_on hs (exec_joinReq f0 s) ?_
      rw [Device.joinReq_undelivered h (Device.portOpen_of_on hst hshut) hfits]
      exact e.joinAnswer_refuses 3 0 0 rfl rfl rfl
  case beat =>
    intro f e n h hn
    refine ⟨fun hdst => ?_, fun hdst => ?_⟩
    · exact Runs.of_delivered hs (exec_nodeHeartbeat f0 s) h (Device.nodeBeat_of_other hdst)
    · refine Runs.of_delivered hs (exec_nodeHeartbeat f0 s) h ?_
      rw [Device.nodeBeat_of_partner hn hdst]
      refine ⟨?_, fun hstart => ?_, fun k hk => Device.modNode_node_other _ _ hk, rfl⟩
      · rw [Device.modNode_node]
        rfl
      · rw [Device.modNode_node]
        exact Device.stamp_tempo hstart
  case emcy =>
    intro f e n h hn
    refine ⟨fun hfirst => ?_, fun t ht hearly => ?_⟩
    · exact Runs.of_delivered hs (exec_emcy f0 s) h (Device.emcyIn_passed hn hfirst)
    · refine Runs.of_delivered hs (exec_emcy f0 s) h ?_
      rw [Device.emcyIn_early hn ht hearly]
      exact ⟨rfl, rfl⟩
  case rises =>
    rw [Device.errorSample_rises h0 hv]
    refine ⟨rfl, fun p hp hst hshut => ?_⟩
    rw [Device.modDict_out]
    exact ⟨_, Device.broadcast_sends _ _ hp hst hshut, rfl, rfl, rfl, rfl⟩
  case quiet =>
    rw [Device.errorSample_quiet h]
    rfl
  · refine Runs.of_on hs (exec_nodeLost n s) ?_
    rw [Device.nodeLost_of_silent hst hdue]
    refine ⟨Device.sendEmcy_fgw _, ?_, fun p hp hact hshut => Device.sendEmcy_sends hp hact hshut⟩
    obtain ⟨noc, out, h⟩ := (s.dev.modNode n fun x => { x with st := .lost }).sendEmcy_frame
    rw [h]
    rfl
  · exact Runs.of_on hs (exec_nodeLost n s) (Device.nodeLost_of_heard h)
  · exact Runs.of_on hs (exec_nodeRemove s) (congrArg answer (if_neg hst))
  · exact Runs.of_on hs (exec_nodeRemove s) (congrArg answer (if_pos hst))

end Sys2Proof.Machine

/-! SUPPORT. Maps of the field (R371, R373, R377, R380): what a received frame leaves of its map, the silence of a receive map, and the
expiry of covered frames. -/

namespace Sys2Proof.Machine

open Sys2Proof

/-! ### One map -/

@[simp] theorem Device.modMap_map (d : Device) (m : Nat) (f : MapRun → MapRun) : (d.modMap m f).fgw.map m = f (d.fgw.map m) :=
  Gateway.setMap_map _ _ _

theorem Device.modMap_map_other (d : Device) {m k : Nat} (f : MapRun → MapRun) (h : k ≠ m) :
    (d.modMap m f).fgw.map k = d.fgw.map k := (Gateway.setMap_map_if _ _ _ _).trans (if_neg h)

/-- A map after it has taken the data of a frame: data of the same cycle is overwritten (R373). -/
def MapRun.taken (x : MapRun) (data : List Byte) : MapRun :=
  { x with got := some data, overwritten := (x.overwritten + b2n x.got.isSome) % 2 ^ 32 }

/-! ### A received frame of a map (R373, R377) -/

/-- Frames of a map with direction `dir` end in a trailer (R371, R376). -/
def MapCfg.trailed (c : MapCfg) (dir : MapDir) : Bool := c.auth || dir == .safetyIn

/-- A frame of node `n` suits map `c`, which is used, in direction `dir` (R371, R373). -/
def Device.suitsMap (d : Device) (f : CFrame) (dir : MapDir) (c : MapCfg) (n : Nat) : Prop :=
  d.mapUsed c = true ∧ c.dir = dir ∧ c.node = n ∧ f.payload.length = c.len + (if c.trailed dir then 8 else 0)

section MapFrame

variable {d : Device} {f : CFrame} {dir : MapDir} {c : MapCfg} {n : Nat} (hc : d.mapCfg f.dst = some c) (hn : d.nodeOf f = some n)
include hc hn

theorem Device.mapFrame_unsuited (h : d.mapUsed c = false ∨ c.dir ≠ dir ∨ c.node ≠ n
    ∨ f.payload.length ≠ c.len + (if c.trailed dir then 8 else 0)) : d.mapFrame f dir = d.ruleDrop := by
  simp only [Device.mapFrame, hc, hn]
  refine if_pos ?_
  simpa [MapCfg.trailed, or_assoc] using h

variable (hsuits : d.suitsMap f dir c n)
include hsuits

theorem Device.mapFrame_suited : d.mapFrame f dir =
    if !c.trailed dir then d.modMap f.dst fun x => x.taken (f.payload.take c.len)
    else if f.authentic && (d.fgw.node n).keySlot.isSome && freshOk (field f.payload c.len 4) (d.fgw.map f.dst).fRx then
      (d.modMap f.dst fun x => { x with fRx := field f.payload c.len 4 }).modMap f.dst fun x => x.taken (f.payload.take c.len)
    else d.authFail n := by
  obtain ⟨hused, hdir, hnode, hlen⟩ := hsuits
  simp only [Device.mapFrame, hc, hn]
  refine if_neg ?_
  simp only [MapCfg.trailed] at hlen
  simp [hused, hdir, hnode, hlen]

theorem Device.mapFrame_plain (h : c.trailed dir = false) :
    d.mapFrame f dir = d.modMap f.dst fun x => x.taken (f.payload.take c.len) := by
  rw [Device.mapFrame_suited hc hn hsuits, h]
  rfl

theorem Device.mapFrame_fresh (h : c.trailed dir = true) (hauth : f.authentic = true) (hkey : (d.fgw.node n).keySlot ≠ none)
    (hlo : (d.fgw.map f.dst).fRx < field f.payload c.len 4) (hhi : field f.payload c.len 4 ≤ (d.fgw.map f.dst).fRx + 1000) :
    d.mapFrame f dir = (d.modMap f.dst fun x => { x with fRx := field f.payload c.len 4 }).modMap f.dst
      fun x => x.taken (f.payload.take c.len) := by
  rw [Device.mapFrame_suited hc hn hsuits, if_neg (by simp [h])]
  exact if_pos (by simp [hauth, Option.isSome_iff_ne_none.mpr hkey, freshOk, hlo, hhi])

theorem Device.mapFrame_unproved (h : c.trailed dir = true)
    (hbad : f.authentic = false ∨ (d.fgw.node n).keySlot = none ∨ field f.payload c.len 4 ≤ (d.fgw.map f.dst).fRx
      ∨ (d.fgw.map f.dst).fRx + 1000 < field f.payload c.len 4) : d.mapFrame f dir = d.authFail n := by
  rw [Device.mapFrame_suited hc hn hsuits, if_neg (by simp [h])]
  refine if_neg fun hgood => ?_
  simp only [Bool.and_eq_true, Option.isSome_iff_ne_none, freshOk, decide_eq_true_eq] at hgood
  obtain ⟨⟨hauth, hkey⟩, hlo, hhi⟩ := hgood
  rcases hbad with hbad | hbad | hbad | hbad
  · simp [hauth] at hbad
  · exact hkey hbad
  · omega
  · omega

end MapFrame

/-! ### A write by a hub block (R219, R235, R240) -/

theorem Device.hubPut_frame (d : Device) (p : Port) (secure : Bool) (a : Nat) (bs : List Byte) :
    ∃ mem noc out fresh, d.hubPut p secure a bs = { d with mem := mem, noc := noc, out := out, fresh := fresh } := by
  unfold Device.hubPut
  split_ifs
  · exact ⟨_, _, _, _, rfl⟩
  · rw [Device.served_eq, Device.put_eq]
    exact ⟨_, _, _, _, rfl⟩
  · exact ⟨_, _, _, _, rfl⟩

/-- An allowed write that reaches its die puts its bytes. -/
theorem Device.hubPut_byte {d : Device} {p : Port} {secure : Bool} {a : Nat} {bs : List Byte} (hreach : d.reaches p.die a = true)
    (hmay : d.hubMay p.group secure true a bs.length = true) (k : Nat) :
    (d.hubPut p secure a bs).byte k = if a ≤ k ∧ k < a + bs.length then bs.getD (k - a) 0 else d.byte k := by
  simp only [Device.hubPut, hreach, hmay, Bool.not_true, Bool.false_eq_true, if_false, if_true]
  rw [← d.byte_put a bs k, Device.served_eq]
  rfl

/-! ### The silence of a receive map (R373) -/

/-- The device that has noticed a map's silence. -/
def Device.markStale (d : Device) (m : Nat) : Device := d.modMap m fun x => { x with stale := true }

theorem Device.mapTimeout_of_silent {d : Device} {m : Nat} {c : MapCfg} (hc : d.mapCfg m = some c)
    (hdir : c.dir = .rx ∨ c.dir = .safetyIn) (hpos : 0 < c.timeout) (hdue : c.timeout ≤ (d.fgw.map m).silent)
    (hfresh : (d.fgw.map m).stale = false) :
    d.mapTimeout m = ((d.markStale m).hubPut Port.fgw true (c.buffer + 8) (leBytes 8 1)).sendEmcy := by
  simp only [Device.mapTimeout, hc]
  exact if_pos (by simpa [hpos, hdue, hfresh] using hdir)

theorem Device.mapTimeout_of_heard {d : Device} {m : Nat} {c : MapCfg} (hc : d.mapCfg m = some c)
    (h : c.timeout = 0 ∨ (d.fgw.map m).silent < c.timeout ∨ (d.fgw.map m).stale = true) : d.mapTimeout m = d := by
  simp only [Device.mapTimeout, hc]
  refine if_neg fun hsilent => ?_
  simp only [Bool.and_eq_true, decide_eq_true_eq, Bool.not_eq_true'] at hsilent
  obtain ⟨⟨⟨-, hpos⟩, hdue⟩, hfresh⟩ := hsilent
  rcases h with h | h | h
  · omega
  · omega
  · simp [hfresh] at h

theorem Device.sendEmcy_byte (d : Device) (a : Nat) : d.sendEmcy.byte a = d.byte a := by
  obtain ⟨noc, out, h⟩ := d.sendEmcy_frame
  rw [h]
  rfl

/-! ### Covered frames that expire (R380) -/

/-- A covered frame of map `m` has waited FRESH tempos since its check. -/
def Device.expired (d : Device) (m : Nat) (q : QFrame) : Bool := q.map == m && decide (q.checkTn + d.fgwFresh ≤ d.tn)

theorem Device.gatedExpire_of_expired {d : Device} {p m : Nat} {q : QFrame} (hq : q ∈ (d.fgw.port p).queue)
    (h : d.expired m q = true) :
    d.gatedExpire p m = (d.modFport p fun x => { x with queue := x.queue.filter fun q => !d.expired m q }).count fgwGatedExpired
      ((d.fgw.port p).queue.filter (d.expired m)).length :=
  if_pos (List.any_eq_true.mpr ⟨q, hq, h⟩)

/-! ### The obligation -/

/-- The two kinds of received map frames, with their directions. -/
theorem mapRows_received {s : State} {f0 : CFrame} {row : Nat × MapDir × Instr}
    (hrow : row ∈ [(fnRxmap, MapDir.rx, Instr.rxmap f0), (fnSafety, MapDir.safetyIn, Instr.safety f0)]) :
    exec row.2.2 s = s.on fun d => d.received f0 row.1 fun d f => d.mapFrame f row.2.1 := by
  simp only [List.mem_cons, List.not_mem_nil, or_false] at hrow
  rcases hrow with rfl | rfl
  · rfl
  · rfl

/-- Settles O51: the frames of a map, the silence of a receive map, and covered frames that expire. -/
theorem maps : Obligations.Maps := by
  intro s f0 hs
  refine ⟨fun row hrow => ?frames, fun m c hc => ?silence, fun p m q hq hmap hdue => ?expiry⟩
  case frames =>
    intro f e c n h hc hn auth m data fr
    refine ⟨fun hunfit => ?_, fun hused hdir hnode hlen => ?_⟩
    · exact Runs.of_delivered hs (mapRows_received hrow) h (Device.mapFrame_unsuited hc hn hunfit)
    · have hsuits : e.suitsMap f row.2.1 c n := ⟨hused, hdir, hnode, hlen⟩
      refine ⟨fun hplain => ?_, fun htrail hauth hkey hlo hhi => ?_, fun htrail hbad => ?_⟩
      · exact Runs.of_delivered hs (mapRows_received hrow) h (Device.mapFrame_plain hc hn hsuits hplain)
      · refine Runs.of_delivered hs (mapRows_received hrow) h ?_
        dsimp only
        rw [Device.mapFrame_fresh hc hn hsuits htrail hauth hkey hlo hhi]
        refine ⟨?_, fun k hk => ?_, rfl⟩
        · rw [Device.modMap_map, Device.modMap_map]
          rfl
        · rw [Device.modMap_map_other _ _ hk, Device.modMap_map_other _ _ hk]
      · refine Runs.of_delivered hs (mapRows_received hrow) h ?_
        dsimp only
        rw [Device.mapFrame_unproved hc hn hsuits htrail hbad]
        exact ⟨congrArg Node.authFail (Gateway.setNode_node e.fgw n _), rfl, rfl⟩
  case silence =>
    intro x
    refine ⟨fun hdir hpos hdue hfresh => Runs.of_on hs (exec_mapTimeout m s) ?_,
      fun hheard => Runs.of_on hs (exec_mapTimeout m s) (Device.mapTimeout_of_heard hc hheard)⟩
    rw [Device.mapTimeout_of_silent hc hdir hpos hdue hfresh]
    obtain ⟨mem, noc, out, fresh, hput⟩ :=
      (s.dev.markStale m).hubPut_frame Port.fgw true (c.buffer + 8) (leBytes 8 1)
    refine ⟨?_, fun p hp hst hshut => ?_, fun hreach hmay => ?_⟩
    · rw [Device.sendEmcy_fgw, hput]
      rfl
    · rw [hput]
      obtain ⟨fr, hsent, hfunc, -⟩ := Device.sendEmcy_sends
        (d := { s.dev.markStale m with mem := mem, noc := noc, out := out, fresh := fresh }) hp hst hshut
      exact ⟨fr, hsent, hfunc⟩
    · have hbyte := Device.hubPut_byte (d := s.dev.markStale m) (p := Port.fgw) (secure := true) (bs := leBytes 8 1) hreach hmay
      refine ⟨fun k hk => ?_, fun a ha => ?_⟩
      · rw [Device.sendEmcy_byte, hbyte, if_pos ⟨by omega, Nat.add_lt_add_left hk _⟩, Nat.add_sub_cancel_left]
      · have hout : ¬(c.buffer + 8 ≤ a ∧ a < c.buffer + 8 + (leBytes 8 1).length) := by
          rw [show (leBytes 8 1).length = 8 from rfl]
          omega
        rw [Device.sendEmcy_byte, hbyte, if_neg hout]
        rfl
  case expiry =>
    have hexp : s.dev.expired m q = true := by simp [Device.expired, hmap, hdue]
    refine Runs.of_on hs (exec_gatedExpire p m s) ?_
    rw [Device.gatedExpire_of_expired hq hexp]
    have hport : ((s.dev.modFport p fun x => { x with queue := x.queue.filter fun q => !s.dev.expired m q }).fgw.port p).queue
        = (s.dev.fgw.port p).queue.filter fun q => !s.dev.expired m q := by rw [Device.modFport_port]
    rw [Device.count_fgw, hport]
    refine ⟨?_, fun r hr hother => ?_, fun k hk => ?_, rfl, ?_⟩
    · simp [hexp]
    · exact List.mem_filter.mpr ⟨hr, by simp [Device.expired, hother]⟩
    · exact (Gateway.setPort_port_if _ _ _ _).trans (if_neg hk)
    · have hcount : (s.dev.fgw.port p).queue.length - ((s.dev.fgw.port p).queue.filter fun q => !s.dev.expired m q).length
          = ((s.dev.fgw.port p).queue.filter (s.dev.expired m)).length := by
        rw [List.length_eq_length_filter_add (l := (s.dev.fgw.port p).queue) (s.dev.expired m)]
        omega
      rw [hcount]
      rfl

end Sys2Proof.Machine

/-! SUPPORT. Dictionary transfers over the field network (R368 to R370, R377, R391): what a transfer frame touches, the transfers that
are open, and each request, response and silence. -/

namespace Sys2Proof.Machine

open Sys2Proof

/-! ### What a transfer frame touches (R376, R377) -/

/-- A node to which one more authenticated transfer frame went. -/
def Node.sentXfer (x : Node) : Node := { x with xferTx := x.xferTx + 1 }

/-- A transfer frame touches freshness and worn keys, counters, outputs and free values; every node keeps its port and number. -/
theorem Device.sendXfer_frame (d : Device) (n : Nat) (rsp auth : Bool) (b : List Byte) : ∃ nodes worn noc out fresh,
    d.sendXfer n rsp auth b
      = { d with fgw := { d.fgw with nodes := nodes, wornKeys := worn }, noc := noc, out := out, fresh := fresh }
    ∧ ∀ k, (tget nodeDef nodes k).port = (d.fgw.node k).port ∧ (tget nodeDef nodes k).number = (d.fgw.node k).number := by
  unfold Device.sendXfer
  extract_lets x func t
  split
  · obtain ⟨noc, out, h⟩ := d.handFrame_frame x.port (d.ownFrame x.port func x.number 0 x.version b)
    exact ⟨d.fgw.nodes, _, _, _, _, h, fun k => ⟨rfl, rfl⟩⟩
  split
  · exact ⟨d.fgw.nodes, _, _, _, _, rfl, fun k => ⟨rfl, rfl⟩⟩
  split
  · obtain ⟨noc, out, h⟩ := (d.modFgw fun g => { g with wornKeys := x.keySlot.getD 0xFF :: g.wornKeys }).sendEmcy_frame
    exact ⟨d.fgw.nodes, _, _, _, _, h, fun k => ⟨rfl, rfl⟩⟩
  · obtain ⟨noc, out, h⟩ := (d.modNode n Node.sentXfer).handFrame_frame x.port
      (d.ownFrame x.port func x.number 0 x.version (b ++ t))
    exact ⟨_, _, _, _, _, h, fun k =>
      ⟨d.modNode_keeps Node.port n k Node.sentXfer fun _ => rfl, d.modNode_keeps Node.number n k Node.sentXfer fun _ => rfl⟩⟩

@[simp] theorem Device.sendXfer_dict (d : Device) (n : Nat) (rsp auth : Bool) (b : List Byte) :
    (d.sendXfer n rsp auth b).dict = d.dict := by
  obtain ⟨nodes, worn, noc, out, fresh, h, -⟩ := d.sendXfer_frame n rsp auth b
  rw [h]

@[simp] theorem Device.sendXfer_mem (d : Device) (n : Nat) (rsp auth : Bool) (b : List Byte) :
    (d.sendXfer n rsp auth b).mem = d.mem := by
  obtain ⟨nodes, worn, noc, out, fresh, h, -⟩ := d.sendXfer_frame n rsp auth b
  rw [h]

/-- Sending opens and ends no transfer of the device as server. -/
@[simp] theorem Device.sendXfer_openXfer (d : Device) (n k : Nat) (rsp auth : Bool) (b : List Byte) :
    (d.sendXfer n rsp auth b).openXfer k = d.openXfer k := by
  obtain ⟨nodes, worn, noc, out, fresh, h, hnode⟩ := d.sendXfer_frame n rsp auth b
  obtain ⟨hport, hnum⟩ := hnode k
  rw [h]
  simp only [Device.openXfer, Device.segOf, Gateway.node, hport, hnum]

/-- Nor one of the device as client. -/
@[simp] theorem Device.sendXfer_clientOf (d : Device) (n k : Nat) (rsp auth : Bool) (b : List Byte) :
    (d.sendXfer n rsp auth b).clientOf k = d.clientOf k := by
  obtain ⟨nodes, worn, noc, out, fresh, h, hnode⟩ := d.sendXfer_frame n rsp auth b
  obtain ⟨hport, hnum⟩ := hnode k
  rw [h]
  simp only [Device.clientOf, Device.segOf, Gateway.node, hport, hnum]

@[simp] theorem Device.sendAbort_dict (d : Device) (n : Nat) (rsp auth : Bool) (ix sub code : Nat) :
    (d.sendAbort n rsp auth ix sub code).dict = d.dict := d.sendXfer_dict _ _ _ _

@[simp] theorem Device.sendAbort_openXfer (d : Device) (n k : Nat) (rsp auth : Bool) (ix sub code : Nat) :
    (d.sendAbort n rsp auth ix sub code).openXfer k = d.openXfer k := d.sendXfer_openXfer _ _ _ _ _

@[simp] theorem Device.sendAbort_clientOf (d : Device) (n k : Nat) (rsp auth : Bool) (ix sub code : Nat) :
    (d.sendAbort n rsp auth ix sub code).clientOf k = d.clientOf k := d.sendXfer_clientOf _ _ _ _ _

/-! ### Open transfers -/

/-- A served transfer is that of node `n`. -/
def Device.ofNode (d : Device) (n : Nat) (x : Xfer) : Bool := x.seg == d.segOf n && x.client == (d.fgw.node n).number

/-- No element of a list without those that satisfy `p` satisfies `p`. -/
theorem find?_filter_not {α : Type} (p : α → Bool) (l : List α) : (l.filter fun x => !p x).find? p = none := by
  simp [List.find?_eq_none]

@[simp] theorem Device.closeXfer_dict (d : Device) (n : Nat) : (d.closeXfer n).dict = d.dict := rfl

@[simp] theorem Device.closeXfer_openXfer (d : Device) (n : Nat) : (d.closeXfer n).openXfer n = none :=
  find?_filter_not (d.ofNode n) _

@[simp] theorem Device.closeClient_clientOf (d : Device) (n : Nat) : (d.closeClient n).clientOf n = none :=
  find?_filter_not (fun x : ClientXfer => x.seg == d.segOf n && x.server == (d.fgw.node n).number) _

/-- A transfer that names its node is the one that is open after it is set. -/
theorem Device.setXfer_openXfer {d : Device} {n : Nat} {x : Xfer} (hseg : x.seg = d.segOf n)
    (hclient : x.client = (d.fgw.node n).number) : (d.setXfer n x).openXfer n = some x := by
  have hnone : (d.closeXfer n).fgw.xfers.find? (d.ofNode n) = none := d.closeXfer_openXfer n
  show ((d.closeXfer n).fgw.xfers ++ [x]).find? (d.ofNode n) = some x
  rw [List.find?_append, hnone, Option.none_or, List.find?_singleton, if_pos]
  simp [Device.ofNode, hseg, hclient]

/-- An open transfer names its node. -/
theorem Device.openXfer_names {d : Device} {n : Nat} {x : Xfer} (h : d.openXfer n = some x) :
    x.seg = d.segOf n ∧ x.client = (d.fgw.node n).number := by
  simpa using List.find?_some h

/-! ### A frame for the transfers (R377, R391) -/

/-- What a frame of node `n` that claims no authentication asks for (R368). -/
def CFrame.plainXfer (f : CFrame) (n : Nat) : XferIn :=
  ⟨n, false, bitOf (field f.payload 0 1) 3, field f.payload 0 1 % 8, field f.payload 1 2, field f.payload 3 1, f.payload.drop 4⟩

section XferIn

variable {d : Device} {f : CFrame} {n : Nat} (hn : d.nodeOf f = some n) (hdst : f.dst = 0)
include hn hdst

theorem Device.xferIn_plain (core : Device → XferIn → Device) (hauth : bitOf (field f.payload 0 1) 4 = false) :
    d.xferIn f core = core d (f.plainXfer n) := by
  simp only [Device.xferIn, hn, hdst, hauth]
  rfl

/-- A frame that claims authentication without being authentic is counted and does nothing. -/
theorem Device.xferIn_forged (core : Device → XferIn → Device) (hauth : bitOf (field f.payload 0 1) 4 = true)
    (hforged : f.authentic = false) : d.xferIn f core = d.authFail n := by
  simp [Device.xferIn, hn, hdst, hauth, hforged]

end XferIn

/-! ### Requests (R368, R370) -/

section Request

variable {s : State} {f0 : CFrame} {e : Device} {n : Nat} {c : Instr} {core : Device → XferIn → Device} {Q : Device → Prop}
  (hs : s.live) (h : s.dev.ingress { f0 with func := fnXferReq } = (e, true)) (hn : e.nodeOf { f0 with func := fnXferReq } = some n)
  (hdst : f0.dst = 0) (hc : exec c s = s.on fun d => d.xferReq f0 core)
include hs h hn hdst hc

theorem Runs.of_forged_request (hauth : bitOf (field f0.payload 0 1) 4 = true) (hforged : f0.authentic = false)
    (hQ : Q (e.authFail n)) : Runs c s Q :=
  Runs.of_delivered hs hc h (by simpa only [Device.xferIn_forged hn hdst _ hauth hforged] using hQ)

theorem Runs.of_unknown_request (hauth : bitOf (field f0.payload 0 1) 4 = false) (hcmd : cmdKnown (field f0.payload 0 1 % 8) = false)
    (hQ : Q (e.sendAbort n true false (field f0.payload 1 2) (field f0.payload 3 1) abUnknownCmd)) : Runs c s Q := by
  refine Runs.of_delivered hs hc h ?_
  rw [Device.xferIn_plain hn hdst _ hauth]
  have hunknown : ¬cmdKnown (CFrame.plainXfer { f0 with func := fnXferReq } n).cmd = true := Bool.eq_false_iff.mp hcmd
  rwa [if_neg hunknown]

theorem Runs.of_request (hauth : bitOf (field f0.payload 0 1) 4 = false) (hcmd : cmdKnown (field f0.payload 0 1 % 8) = true)
    (hQ : Q (core e (f0.plainXfer n))) : Runs c s Q := by
  refine Runs.of_delivered hs hc h ?_
  rw [Device.xferIn_plain hn hdst _ hauth]
  have hknown : cmdKnown (CFrame.plainXfer { f0 with func := fnXferReq } n).cmd = true := hcmd
  rwa [if_pos hknown]

end Request

/-- The five requests go the same way to the core. -/
theorem requests_received {s : State} {f0 : CFrame} {c : Instr}
    (hc : c ∈ [Instr.xferRead f0, .xferWrite f0, .xferWriteInit f0, .xferSegment f0, .xferReadNext f0]) :
    ∃ core, exec c s = s.on fun d => d.xferReq f0 core := by
  simp only [List.mem_cons, List.not_mem_nil, or_false] at hc
  rcases hc with rfl | rfl | rfl | rfl | rfl
  all_goals exact ⟨_, rfl⟩

/-- Three of them begin a transfer. -/
theorem freshRequests_received {s : State} {f0 : CFrame} {c : Instr}
    (hc : c ∈ [Instr.xferRead f0, .xferWrite f0, .xferWriteInit f0]) :
    ∃ g : XferIn → Device → Device, exec c s = s.on fun d => d.xferReq f0 fun d q => d.freshReq q (g q) := by
  simp only [List.mem_cons, List.not_mem_nil, or_false] at hc
  rcases hc with rfl | rfl | rfl
  all_goals exact ⟨_, rfl⟩

theorem Device.freshReq_of_free {d : Device} {q : XferIn} (h : d.openXfer q.node = none) (f : Device → Device) :
    d.freshReq q f = f d := by
  simp only [Device.freshReq, h]

/-- A request while a transfer of its node is open ends that transfer and begins none (R370). -/
theorem Device.freshReq_of_open {d : Device} {q : XferIn} {x : Xfer} (h : d.openXfer q.node = some x) (f : Device → Device) :
    (d.freshReq q f).openXfer q.node = none ∧ (d.freshReq q f).dict = d.dict := by
  simp [Device.freshReq, h]

/-! ### The answer to a write -/

theorem Device.confirm_done (d : Device) (q : XferIn) (cmd : Nat) :
    d.confirm q cmd 0 = d.sendXfer q.node true q.auth (xferHead cmd q.toggle q.auth q.index q.sub) := rfl

theorem Device.confirm_answers (d : Device) (q : XferIn) (cmd code : Nat) :
    (code = 0 → d.confirm q cmd code = d.sendXfer q.node true q.auth (xferHead cmd q.toggle q.auth q.index q.sub)) ∧
    (code ≠ 0 → d.confirm q cmd code = d.sendAbort q.node true q.auth q.index q.sub code) :=
  ⟨fun h => if_pos h, fun h => if_neg h⟩

/-! ### READ, WRITE and WRITE_INIT (R368, R369) -/

section Fresh

variable {d : Device} {q : XferIn} (hfree : d.openXfer q.node = none)
include hfree

theorem Device.xferRead_refused (h : d.readCheck (fieldPath q.auth) q.index q.sub ≠ 0) :
    d.xferRead q = d.sendAbort q.node true q.auth q.index q.sub (d.readCheck (fieldPath q.auth) q.index q.sub) := by
  simp only [Device.xferRead, Device.freshReq_of_free hfree, Device.dictRead_refused h]
  exact if_pos (by simpa using h)

/-- A value that fits goes out with the answer. -/
theorem Device.xferRead_whole (h : d.readCheck (fieldPath q.auth) q.index q.sub = 0) (hreport : ¬(q.index = 0x2300 ∧ q.sub = 2))
    (hlen : (d.dictVal q.index q.sub).length ≤ d.xferLimit q.node q.auth) :
    d.xferRead q = d.sendXfer q.node true q.auth (xferHead cmdRead false q.auth q.index q.sub ++ d.dictVal q.index q.sub) := by
  simp only [Device.xferRead, Device.freshReq_of_free hfree, Device.dictRead_allowed h hreport]
  exact if_pos hlen

/-- The transfer that a read of a longer value opens. -/
def Device.readXfer (d : Device) (q : XferIn) : Xfer :=
  ⟨d.segOf q.node, (d.fgw.node q.node).number, q.index, q.sub, false, (d.dictVal q.index q.sub).length, d.dictVal q.index q.sub, 0,
   false, d.tn, q.auth⟩

theorem Device.xferRead_long (h : d.readCheck (fieldPath q.auth) q.index q.sub = 0) (hreport : ¬(q.index = 0x2300 ∧ q.sub = 2))
    (hlen : d.xferLimit q.node q.auth < (d.dictVal q.index q.sub).length) :
    d.xferRead q = (d.setXfer q.node (d.readXfer q)).sendXfer q.node true q.auth
      (xferHead cmdInit false q.auth q.index q.sub ++ leBytes 4 (d.dictVal q.index q.sub).length) := by
  simp only [Device.xferRead, Device.freshReq_of_free hfree, Device.dictRead_allowed h hreport]
  exact if_neg (Nat.not_le.mpr hlen)

theorem Device.xferWrite_of_free : d.xferWrite q = (d.dictWrite (fieldPath q.auth) q.index q.sub q.data).1.confirm q cmdWrite
    (d.dictWrite (fieldPath q.auth) q.index q.sub q.data).2 := by
  simp only [Device.xferWrite, Device.freshReq_of_free hfree]

/-- The transfer that a WRITE_INIT opens. -/
def Device.writeXfer (d : Device) (q : XferIn) : Xfer :=
  ⟨d.segOf q.node, (d.fgw.node q.node).number, q.index, q.sub, true, leNat q.data, [], 0, false, d.tn, q.auth⟩

theorem Device.xferInit_opens (hlen : q.data.length = 4) (hsize : leNat q.data ≤ 2 ^ 24) :
    d.xferInit q = (d.setXfer q.node (d.writeXfer q)).confirm q cmdInit 0 := by
  simp only [Device.xferInit, Device.freshReq_of_free hfree]
  exact if_neg (by simpa [hlen] using hsize)

theorem Device.xferInit_refused (h : q.data.length ≠ 4 ∨ 2 ^ 24 < leNat q.data) :
    d.xferInit q = d.sendAbort q.node true q.auth q.index q.sub abSize := by
  simp only [Device.xferInit, Device.freshReq_of_free hfree]
  exact if_pos (by simpa using h)

end Fresh

/-! ### SEGMENT (R369) -/

/-- A transfer after one more segment of a write. -/
def Xfer.gathered (x : Xfer) (q : XferIn) (tn : Nat) : Xfer :=
  { x with data := x.data ++ q.data, toggle := !x.toggle, lastTn := tn, auth := x.auth && q.auth }

theorem Xfer.gathered_plain (x : Xfer) {q : XferIn} (h : q.auth = false) (tn : Nat) :
    x.gathered q tn = { x with data := x.data ++ q.data, toggle := !x.toggle, lastTn := tn, auth := false } := by
  simp [Xfer.gathered, h]

section Open

variable {d : Device} {q : XferIn} {x : Xfer} (hopen : d.openXfer q.node = some x)
include hopen

theorem Device.xferSegment_toggle (hw : x.write = true) (ht : x.toggle ≠ q.toggle) :
    d.xferSegment q = (d.closeXfer q.node).sendAbort q.node true q.auth x.index x.sub abToggle := by
  simp only [Device.xferSegment, hopen, hw, Bool.not_true, Bool.false_eq_true, if_false]
  exact if_pos (by simpa using ht)

theorem Device.xferSegment_of_toggle (hw : x.write = true) (ht : x.toggle = q.toggle) : d.xferSegment q =
    if x.size < (x.data ++ q.data).length then (d.closeXfer q.node).sendAbort q.node true q.auth x.index x.sub abSize
    else if (x.data ++ q.data).length = x.size then
      ((d.closeXfer q.node).dictWrite (fieldPath (x.auth && q.auth)) x.index x.sub (x.data ++ q.data)).1.confirm
        { q with index := x.index, sub := x.sub } cmdSegment
        ((d.closeXfer q.node).dictWrite (fieldPath (x.auth && q.auth)) x.index x.sub (x.data ++ q.data)).2
    else
      (d.setXfer q.node (x.gathered q d.tn)).confirm { q with index := x.index, sub := x.sub } cmdSegment 0 := by
  simp only [Device.xferSegment, Xfer.gathered, hopen, hw, ht, Bool.not_true, Bool.false_eq_true, if_false, bne_self_eq_false]

theorem Device.xferSegment_long (hw : x.write = true) (ht : x.toggle = q.toggle) (hlen : x.size < (x.data ++ q.data).length) :
    d.xferSegment q = (d.closeXfer q.node).sendAbort q.node true q.auth x.index x.sub abSize :=
  (Device.xferSegment_of_toggle hopen hw ht).trans (if_pos hlen)

/-- The last segment writes the value. -/
theorem Device.xferSegment_last (hw : x.write = true) (ht : x.toggle = q.toggle) (hlen : (x.data ++ q.data).length = x.size) :
    d.xferSegment q = ((d.closeXfer q.node).dictWrite (fieldPath (x.auth && q.auth)) x.index x.sub (x.data ++ q.data)).1.confirm
      { q with index := x.index, sub := x.sub } cmdSegment
      ((d.closeXfer q.node).dictWrite (fieldPath (x.auth && q.auth)) x.index x.sub (x.data ++ q.data)).2 :=
  (Device.xferSegment_of_toggle hopen hw ht).trans ((if_neg (Nat.not_lt.mpr hlen.le)).trans (if_pos hlen))

theorem Device.xferSegment_more (hw : x.write = true) (ht : x.toggle = q.toggle) (hlen : (x.data ++ q.data).length < x.size) :
    d.xferSegment q = (d.setXfer q.node (x.gathered q d.tn)).sendXfer q.node true q.auth
      (xferHead cmdSegment q.toggle q.auth x.index x.sub) :=
  (Device.xferSegment_of_toggle hopen hw ht).trans ((if_neg (Nat.not_lt.mpr hlen.le)).trans (if_neg hlen.ne))

/-! ### READ_NEXT (R369) -/

theorem Device.xferNext_toggle (hr : x.write = false) (ht : x.toggle ≠ q.toggle) :
    d.xferNext q = (d.closeXfer q.node).sendAbort q.node true q.auth x.index x.sub abToggle := by
  simp only [Device.xferNext, hopen, hr, Bool.false_eq_true, if_false]
  exact if_pos (by simpa using ht)

/-- The next segment goes out, and the last one ends the transfer. -/
theorem Device.xferNext_of_toggle (hr : x.write = false) (ht : x.toggle = q.toggle) : d.xferNext q =
    (if x.size ≤ x.pos + d.xferLimit q.node q.auth then d.closeXfer q.node
      else d.setXfer q.node { x with pos := x.pos + d.xferLimit q.node q.auth, toggle := !x.toggle, lastTn := d.tn }).sendXfer
        q.node true q.auth
        (xferHead cmdSegment x.toggle q.auth x.index x.sub ++ (x.data.drop x.pos).take (d.xferLimit q.node q.auth)) := by
  simp only [Device.xferNext, hopen, hr, ht, Bool.false_eq_true, if_false, bne_self_eq_false]

theorem Device.xferNext_last (hr : x.write = false) (ht : x.toggle = q.toggle) (hlen : x.size ≤ x.pos + d.xferLimit q.node q.auth) :
    d.xferNext q = (d.closeXfer q.node).sendXfer q.node true q.auth
      (xferHead cmdSegment q.toggle q.auth x.index x.sub ++ (x.data.drop x.pos).take (d.xferLimit q.node q.auth)) := by
  rw [Device.xferNext_of_toggle hopen hr ht, if_pos hlen, ht]

theorem Device.xferNext_more (hr : x.write = false) (ht : x.toggle = q.toggle) (hlen : x.pos + d.xferLimit q.node q.auth < x.size) :
    d.xferNext q = (d.setXfer q.node { x with pos := x.pos + d.xferLimit q.node q.auth, toggle := !x.toggle, lastTn := d.tn }).sendXfer
      q.node true q.auth
      (xferHead cmdSegment q.toggle q.auth x.index x.sub ++ (x.data.drop x.pos).take (d.xferLimit q.node q.auth)) := by
  rw [Device.xferNext_of_toggle hopen hr ht, if_neg (Nat.not_le.mpr hlen), ht]

end Open

/-! ### ABORT (R370) -/

theorem Device.xferAbort_served {d : Device} {q : XferIn} (h : d.clientOf q.node = none) :
    d.xferAbort q = (d.closeXfer q.node).closeClient q.node := by
  simp [Device.xferAbort, h]

theorem Device.xferAbort_client {d : Device} {q : XferIn} {x : ClientXfer} (h : d.clientOf q.node = some x) :
    d.xferAbort q = ((d.closeXfer q.node).closeClient q.node).note (.dict (leNat (q.data.take 4)) []) := by
  simp [Device.xferAbort, h]

theorem exec_xferAbort_request {s : State} {f0 : CFrame} (h : f0.func ≠ fnXferRsp) :
    exec (.xferAbort f0) s = s.on fun d => d.received f0 fnXferReq fun d f => d.xferIn f Device.xferAbort := by
  rw [exec_xferAbort, execXferAbort, if_neg h]

/-! ### Responses to the device as client (R368) -/

section Client

variable {d : Device} {q : XferIn} {x : ClientXfer} (hx : d.clientOf q.node = some x)
include hx

theorem Device.xferRsp_read (hcmd : q.cmd = cmdRead) (hr : x.write = false) :
    d.xferRsp q = (d.closeClient q.node).note (.dict 0 q.data) := by
  simp [Device.xferRsp, hx, hcmd, hr, cmdRead, cmdAbort]

theorem Device.xferRsp_write (hcmd : q.cmd = cmdWrite) (hw : x.write = true) :
    d.xferRsp q = (d.closeClient q.node).note (.dict 0 []) := by
  simp [Device.xferRsp, hx, hcmd, hw, cmdWrite, cmdAbort]

theorem Device.xferRsp_abort (hcmd : q.cmd = cmdAbort) : d.xferRsp q = d.xferAbort q := by
  simp only [Device.xferRsp, hx, hcmd, if_true]

end Client

/-! ### Silence (R369) -/

section Silence

variable {d : Device} {seg client n : Nat} (hn : d.fgw.find seg client = some n)
include hn

theorem Device.xferTimeout_server {x : Xfer} (hx : d.openXfer n = some x) : d.xferTimeout seg client true =
    if x.lastTn + 100000 ≤ d.tn then (d.closeXfer n).sendAbort n true x.auth x.index x.sub abTimeout else d := by
  simp only [Device.xferTimeout, hn, hx, if_true]

theorem Device.xferTimeout_client {x : ClientXfer} (hx : d.clientOf n = some x) : d.xferTimeout seg client false =
    if x.lastTn + 100000 ≤ d.tn then d.clientFails n x abTimeout else d := by
  simp only [Device.xferTimeout, hn, hx, Bool.false_eq_true, if_false]

end Silence

theorem Device.clientFails_leaves (d : Device) (n : Nat) (x : ClientXfer) (code : Nat) :
    (d.clientFails n x code).clientOf n = none ∧ (d.clientFails n x code).out.head? = some (.dict code [])
      ∧ (d.clientFails n x code).dict = d.dict := by
  refine ⟨?_, rfl, ?_⟩
  · exact (Device.sendAbort_clientOf _ _ _ _ _ _ _ _).trans (d.closeClient_clientOf n)
  · exact Device.sendAbort_dict _ _ _ _ _ _ _

/-! ### The obligation -/

/-- Settles O53, request by request, then the responses and the silences. -/
theorem transfers : Obligations.Transfers := by
  intro s f0 hs
  refine ⟨?requests, ?responses, fun seg client n hn x hx => ⟨fun hdue => ?_, fun hearly => ?_⟩,
    fun seg client n hn x hx => ⟨fun hdue => ?_, fun hearly => ?_⟩⟩
  case requests =>
    intro f head ix sub data t path e n h hn hdst
    refine ⟨fun hauth hforged c hc => ?_, fun hauth hcmd c hc => ?_, fun hauth hcmd => ?_⟩
    · obtain ⟨core, hexec⟩ := requests_received hc
      exact Runs.of_forged_request hs h hn hdst hexec hauth hforged rfl
    · obtain ⟨core, hexec⟩ := requests_received hc
      exact Runs.of_unknown_request hs h hn hdst hexec hauth hcmd rfl
    have request {c : Instr} {core : Device → XferIn → Device} {Q : Device → Prop}
        (hc : exec c s = s.on fun d => d.xferReq f0 core) (hQ : Q (core e (f0.plainXfer n))) : Runs c s Q :=
      Runs.of_request hs h hn hdst hc hauth hcmd hQ
    refine ⟨fun hfree => ?free, fun x hx => ?busy⟩
    case free =>
      have hfree' : e.openXfer (f0.plainXfer n).node = none := hfree
      refine ⟨fun hread hreport => ⟨fun hlen => ?_, fun hlen => ?_⟩, fun hread => ?_, ?_, fun hlen hsize => ?_,
        fun hsize => ?_⟩
      · exact request (exec_xferRead f0 s) (Device.xferRead_whole hfree' hread hreport hlen)
      · refine request (exec_xferRead f0 s) ?_
        rw [Device.xferRead_long hfree' hread hreport hlen, Device.sendXfer_openXfer, Device.sendXfer_dict, Device.sendXfer_mem]
        exact ⟨_, Device.setXfer_openXfer rfl rfl, rfl, rfl, rfl, rfl, rfl, rfl⟩
      · exact request (exec_xferRead f0 s) (Device.xferRead_refused hfree' hread)
      · refine request (exec_xferWrite f0 s) ?_
        rw [Device.xferWrite_of_free hfree']
        exact Device.confirm_answers _ _ _ _
      · refine request (exec_xferWriteInit f0 s) ?_
        rw [Device.xferInit_opens hfree' hlen hsize, Device.confirm_done, Device.sendXfer_openXfer, Device.sendXfer_dict]
        exact ⟨_, Device.setXfer_openXfer rfl rfl, rfl, rfl, rfl, rfl, rfl⟩
      · exact request (exec_xferWriteInit f0 s) (Device.xferInit_refused hfree' hsize)
    case busy =>
      have hx' : e.openXfer (f0.plainXfer n).node = some x := hx
      obtain ⟨hseg, hclient⟩ := Device.openXfer_names hx
      intro ends
      have aborted {code : Nat} {d : Device} (hd : d = (e.closeXfer n).sendAbort n true false x.index x.sub code) : ends code d :=
        ⟨hd, hd ▸ Device.sendAbort_dict _ _ _ _ _ _ _⟩
      refine ⟨fun c hc => ?_, fun hw ht => ?_, fun hw ht hlen => ?_, fun hw ht hlen => ?_, fun hw ht hlen => ?_, fun hr ht => ?_,
        fun hr ht => ⟨fun hlast => ?_, fun hmore => ?_⟩, fun hfunc hnone => ?_⟩
      · obtain ⟨g, hexec⟩ := freshRequests_received hc
        exact request hexec (Device.freshReq_of_open hx' _)
      · exact request (exec_xferSegment f0 s) (aborted (Device.xferSegment_toggle hx' hw ht))
      · exact request (exec_xferSegment f0 s) (aborted (Device.xferSegment_long hx' hw ht hlen))
      · refine request (exec_xferSegment f0 s) ?_
        rw [Device.xferSegment_more hx' hw ht hlen, x.gathered_plain (q := f0.plainXfer n) rfl, Device.sendXfer_openXfer,
          Device.sendXfer_dict]
        exact ⟨Device.setXfer_openXfer hseg hclient, rfl⟩
      · refine request (exec_xferSegment f0 s) ?_
        rw [Device.xferSegment_last hx' hw ht hlen, show (x.auth && (f0.plainXfer n).auth) = false from Bool.and_false _]
        exact Device.confirm_answers _ _ _ _
      · exact request (exec_xferReadNext f0 s) (aborted (Device.xferNext_toggle hx' hr ht))
      · exact request (exec_xferReadNext f0 s) (Device.xferNext_last hx' hr ht hlast)
      · exact request (exec_xferReadNext f0 s) (Device.xferNext_more hx' hr ht hmore)
      · refine Runs.of_delivered hs (exec_xferAbort_request hfunc) h ?_
        rw [Device.xferIn_plain hn hdst _ hauth, Device.xferAbort_served (q := f.plainXfer n) hnone]
        exact ⟨Device.closeXfer_openXfer e n, rfl, rfl⟩
  case responses =>
    intro f head e n x h hn hdst hauth hx
    have hx' : e.clientOf (f.plainXfer n).node = some x := hx
    have respond {Q : Device → Prop} (hQ : Q (e.xferRsp (f.plainXfer n))) : Runs (.xferRsp f0) s Q :=
      Runs.of_delivered hs (exec_xferRsp f0 s) h (by rwa [Device.xferIn_plain hn hdst _ hauth])
    refine ⟨fun hcmd hr => respond (Device.xferRsp_read hx' hcmd hr), fun hcmd hw => respond (Device.xferRsp_write hx' hcmd hw),
      fun hcmd => respond ?_⟩
    rw [Device.xferRsp_abort hx' hcmd, Device.xferAbort_client hx']
    exact ⟨Device.closeClient_clientOf (e.closeXfer n) n, rfl⟩
  · refine Runs.of_on hs (exec_xferTimeout seg client true s) ?_
    rw [Device.xferTimeout_server hn hx, if_pos hdue]
    exact ⟨rfl, Device.sendAbort_dict _ _ _ _ _ _ _⟩
  · exact Runs.of_on hs (exec_xferTimeout seg client true s)
      ((Device.xferTimeout_server hn hx).trans (if_neg (Nat.not_le.mpr hearly)))
  · refine Runs.of_on hs (exec_xferTimeout seg client false s) ?_
    rw [Device.xferTimeout_client hn hx, if_pos hdue]
    exact s.dev.clientFails_leaves n x abTimeout
  · exact Runs.of_on hs (exec_xferTimeout seg client false s)
      ((Device.xferTimeout_client hn hx).trans (if_neg (Nat.not_le.mpr hearly)))

end Sys2Proof.Machine

/-! SUPPORT. Profiles (R395 to R402): what the commands answer, and what a device keeps while it takes a profile's values. -/

namespace Sys2Proof.Machine

open Sys2Proof

/-! ### What a device keeps while values take effect (R388, R399) -/

/-- The Arbiter and the profile store: what values that take effect leave alone. -/
def Device.arbAndSlots (d : Device) : Arb × Tab (List Byte) := (d.arb, d.dict.slots)

@[simp] theorem Device.setBlk_arbAndSlots (d : Device) (b : BlockId) (m : MoveBlk) : (d.setBlk b m).arbAndSlots = d.arbAndSlots := rfl

@[simp] theorem Device.putOpen_arbAndSlots (d : Device) (h : Home) (v : Nat) : (d.putOpen h v).arbAndSlots = d.arbAndSlots := rfl

theorem Device.takeBack_arbAndSlots (d : Device) (j : Nat) : (d.takeBack j).arbAndSlots = d.arbAndSlots := by
  by_cases h : (d.job j).st = .running
  · obtain ⟨x, hsans, -, he⟩ := Device.takeBack_running h
    rw [he]
    exact (congrArg Device.arbAndSlots hsans :)
  · rw [Device.takeBack_idle h]

theorem Device.reserve_arbAndSlots (d : Device) (sub v : Nat) : (d.reserve sub v).arbAndSlots = d.arbAndSlots :=
  foldl_keeps Device.arbAndSlots Device.takeBack_arbAndSlots _ _

theorem Device.putRegs_arbAndSlots (d : Device) (a : Nat) (bs : List Byte) : (d.putRegs a bs).arbAndSlots = d.arbAndSlots := by
  unfold Device.putRegs
  refine foldl_keeps Device.arbAndSlots (fun d i => ?_) _ _
  rfl

@[simp] theorem Device.takeEffect_arbAndSlots (d : Device) (ix sub : Nat) (v : List Byte) :
    (d.takeEffect ix sub v).arbAndSlots = d.arbAndSlots := by
  unfold Device.takeEffect
  split_ifs
  · exact d.reserve_arbAndSlots _ _
  · rfl
  · rfl
  · exact d.putRegs_arbAndSlots _ _
  · exact d.putRegs_arbAndSlots _ _
  · rfl
  · rfl

@[simp] theorem Device.sealBlk_arbAndSlots (d : Device) (b : BlockId) (g : Nat) : (d.sealBlk b g).arbAndSlots = d.arbAndSlots := by
  by_cases h : d.sealAllowed b g = true
  · obtain ⟨fgw, mce, noc, out, he, -⟩ := Device.sealBlk_allowed h
    rw [he]
    rfl
  · rw [Device.sealBlk, if_neg h]
    rfl

/-- The blocks that hold entries are no region checkers. -/
theorem homeBlocks_rgnSet {b : BlockId} (hb : b ∈ homeBlocks) : b.rgnSet = none := by
  revert b
  decide

theorem Device.moveLoaded_arbAndSlots (d : Device) {b : BlockId} (hb : b ∈ homeBlocks) :
    (d.moveLoaded b).arbAndSlots = d.arbAndSlots := by
  obtain ⟨pwr, out, he, -⟩ := Device.moveLoaded_frame (d := d) (homeBlocks_rgnSet hb)
  rw [he]
  rfl

@[simp] theorem Device.fwSeal_arbAndSlots (d : Device) (b : BlockId) (n : Nat) : (d.fwSeal b n).arbAndSlots = d.arbAndSlots := by
  simp only [Device.fwSeal, Device.sealBlk_arbAndSlots, Device.setBlk_arbAndSlots]
  refine foldl_keeps Device.arbAndSlots (fun d s => ?_) _ d
  split <;> rfl

@[simp] theorem Device.fwPump_arbAndSlots (d : Device) (b : BlockId) : (d.fwPump b).arbAndSlots = d.arbAndSlots := by
  simp only [Device.fwPump]
  split
  · rfl
  · exact d.fwSeal_arbAndSlots _ _

theorem Device.firmwareSeal_arbAndSlots (d : Device) {b : BlockId} (hb : b ∈ homeBlocks) (es : List (Nat × Nat))
    (val : Nat → Nat → List Byte) : (d.firmwareSeal b es val).arbAndSlots = d.arbAndSlots := by
  simp only [Device.firmwareSeal]
  split
  · rfl
  · rw [Device.moveLoaded_arbAndSlots _ hb, Device.sealBlk_arbAndSlots, Device.setBlk_arbAndSlots]

theorem Device.timeMove_arbAndSlots (d old : Device) : (d.timeMove old).arbAndSlots = d.arbAndSlots := by
  simp only [Device.timeMove]
  split <;> split <;> rfl

theorem Device.applyBlk_arbAndSlots (d : Device) {b : BlockId} (hb : b ∈ homeBlocks) :
    (d.applyBlk b).arbAndSlots = d.arbAndSlots := by
  simp only [homeBlocks, List.mem_cons, List.not_mem_nil, or_false] at hb
  obtain rfl | rfl | rfl | rfl := hb
  case inl => exact Device.timeMove_arbAndSlots _ _
  all_goals rfl

/-- Values that take effect or are staged leave the Arbiter and the profile store. -/
theorem Device.takeValues_arbAndSlots (d : Device) (es : List (Nat × Nat)) (val : Nat → Nat → List Byte) (wait : Bool) :
    (d.takeValues es val wait).arbAndSlots = d.arbAndSlots := by
  unfold Device.takeValues
  extract_lets seq stage plain
  have hstage (d : Device) (e : Nat × Nat) (k : BKind) (h : Option Nat) : (stage d e k h).arbAndSlots = d.arbAndSlots := rfl
  have hplain : plain.arbAndSlots = d.arbAndSlots := by
    refine foldl_keeps Device.arbAndSlots (fun d e => ?_) _ d
    split_ifs <;> simp [hstage]
  refine List.foldlRecOn (motive := fun e : Device => e.arbAndSlots = d.arbAndSlots) _ _ hplain fun e he b hb => ?_
  extract_lets mine sealed
  have hsealed : sealed.arbAndSlots = d.arbAndSlots := by
    simp only [sealed]
    split
    · exact he
    · exact (e.firmwareSeal_arbAndSlots hb _ _).trans he
  split
  · exact he
  · split
    · exact (Device.applyBlk_arbAndSlots _ hb).trans hsealed
    · rw [Device.fwPump_arbAndSlots]
      exact (foldl_keeps Device.arbAndSlots (fun d m => hstage d _ _ _) _ _).trans hsealed

@[simp] theorem Device.takeValues_arb (d : Device) (es : List (Nat × Nat)) (val : Nat → Nat → List Byte) (wait : Bool) :
    (d.takeValues es val wait).arb = d.arb :=
  congrArg Prod.fst (d.takeValues_arbAndSlots es val wait)

@[simp] theorem Device.takeValues_slot (d : Device) (es : List (Nat × Nat)) (val : Nat → Nat → List Byte) (wait : Bool) (n : Nat) :
    (d.takeValues es val wait).dict.slot n = d.dict.slot n :=
  congrArg (fun p : Arb × Tab (List Byte) => tget slotImgDef p.2 n) (d.takeValues_arbAndSlots es val wait)

/-! ### A switch of profiles (R400) -/

theorem Device.profileSwitch_of_bad {d : Device} {n : Nat} (h : 3 < n ∨ d.dict.active = some n) : d.profileSwitch n = (d, abRange) :=
  if_pos h

theorem Device.profileSwitch_of_ok {d : Device} {n : Nat} (hn : n ≤ 3) (hactive : d.dict.active ≠ some n) :
    d.profileSwitch n = (d.modDict fun x =>
      { x with seq := x.seq + 1, switchSeq := x.seq + 1, switchTo := some n,
               switchSt := if x.switchTo.isSome then .superseded else .verifying }, 0) :=
  if_neg (by simp [hactive, hn])

/-- The end of a verification that finds no reason: READY at the second or third tempo from now. -/
theorem Device.profileVerified_ready {d : Device} {n : Nat} (hto : d.dict.switchTo = some n) (hst : d.dict.switchSt ≠ .ready)
    (hr : d.switchReason n = 0) :
    d.profileVerified = d.stamp.2.modDict fun x =>
      { x with switchSt := .ready, readyTn := (d.stamp.1 + 2999) / 1000,
               verified := if x.verified.contains n then x.verified else n :: x.verified } := by
  simp only [Device.profileVerified, hto, if_neg hst, if_pos hr]

/-- The end of a verification that finds a reason. -/
theorem Device.profileVerified_refused {d : Device} {n : Nat} (hto : d.dict.switchTo = some n) (hst : d.dict.switchSt ≠ .ready)
    (hr : d.switchReason n ≠ 0) :
    d.profileVerified = (d.modDict fun x =>
      { x with switchTo := none, switchSt := .refused, switchReason := d.switchReason n }).event evProfileRefused none (d.switchReason n) := by
  simp only [Device.profileVerified, hto, if_neg hst, if_neg hr]

theorem Device.profileVerified_idle {d : Device} (h : d.dict.switchTo = none ∨ d.dict.switchSt = .ready) : d.profileVerified = d := by
  unfold Device.profileVerified
  split
  · next n hto => exact if_pos (h.resolve_left (by simp [hto]))
  · rfl

/-- A slot that is noted as verified. -/
theorem mem_noted (n : Nat) (l : List Nat) : n ∈ if l.contains n then l else n :: l := by
  split
  · next h => exact List.contains_iff_mem.mp h
  · exact List.mem_cons_self

@[simp] theorem Device.event_arb (d : Device) (code : Nat) (source : Option Nat) (arg : Nat) :
    (d.event code source arg).arb = d.arb := rfl

theorem Device.event_head (d : Device) (code : Nat) (source : Option Nat) (arg : Nat) :
    (d.event code source arg).dict.log.head?.map Event.code = some code := rfl

/-! ### The profile store (R398) -/

theorem Device.storeStart_free {d : Device} {n : Nat} (img : List Byte) (hstore : d.dict.store = none) (hto : d.dict.switchTo ≠ some n) :
    d.storeStart n img = (d.modDict fun x => { x with store := some ⟨n, img⟩ }, 0) :=
  if_pos (by simp [Device.storeFree, hstore, hto])

theorem Device.storeStart_busy {d : Device} {n : Nat} (img : List Byte) (h : d.dict.store ≠ none ∨ d.dict.switchTo = some n) :
    d.storeStart n img = (d, abState) :=
  if_neg (by simpa [Device.storeFree, ← Option.ne_none_iff_isSome, or_iff_not_imp_left] using h)

/-- A command that starts a store operation does so where one may begin, and is refused with STATE elsewhere. -/
theorem Runs.storeStart {s : State} {c : Instr} {f : Device → Device × Nat} {n : Nat} {img : List Byte} (hs : s.live)
    (hc : exec c s = s.on fun d => answer (f d)) (hf : f s.dev = s.dev.storeStart n img) :
    (s.dev.dict.store = none → s.dev.dict.switchTo ≠ some n → Runs c s fun d =>
      d = { s.dev with dict := { s.dev.dict with store := some ⟨n, img⟩ }, out := .dict 0 [] :: s.dev.out })
    ∧ (s.dev.dict.store ≠ none ∨ s.dev.dict.switchTo = some n → Runs c s fun d =>
      d = { s.dev with dict := s.dev.dict, out := .dict abState [] :: s.dev.out }) := by
  refine ⟨fun hstore hto => Runs.of_on hs hc ?_, fun h => Runs.of_on hs hc ?_⟩
  · rw [hf, Device.storeStart_free img hstore hto]
    rfl
  · rw [hf, Device.storeStart_busy img h]
    rfl

/-- A command that is refused with a code changes nothing else. -/
theorem Runs.refusedWith {s : State} {c : Instr} {f : Device → Device × Nat} {code : Nat} (hs : s.live)
    (hc : exec c s = s.on fun d => answer (f d)) (hf : f s.dev = (s.dev, code)) :
    Runs c s fun d => d = { s.dev with dict := s.dev.dict, out := .dict code [] :: s.dev.out } :=
  Runs.of_on hs hc (by rw [hf]; rfl)

theorem Device.profileImport_valid {d : Device} {img : List Byte} (hlen : img.length ≤ 2 ^ 20) (hr : d.imageReason img = 0) :
    d.profileImport img = d.storeStart (field img 6 1) img := by
  rw [Device.profileImport, if_neg (Nat.not_lt.mpr hlen), if_neg (by simp [hr])]

theorem Device.profileImport_invalid {d : Device} {img : List Byte} (hlen : img.length ≤ 2 ^ 20) (hr : d.imageReason img ≠ 0) :
    d.profileImport img = (d, abRange) := by
  rw [Device.profileImport, if_neg (Nat.not_lt.mpr hlen), if_pos (by simpa using hr)]

/-- The end of a store operation. -/
theorem Device.storeDone_of_some {d : Device} {o : StoreOp} (h : d.dict.store = some o) :
    ∃ verified, d.storeDone = { d with dict := { d.dict with
      store := none, slots := tput slotImgDef d.dict.slots o.slot o.image, verified := verified } } := by
  simp only [Device.storeDone, h]
  exact ⟨_, rfl⟩

theorem Device.storeDone_of_none {d : Device} (h : d.dict.store = none) : d.storeDone = d := by
  simp only [Device.storeDone, h]

/-! ### The profile of a reset (R399) -/

/-- The device once the profile of the reset has been tried. -/
def Device.profileTry (d : Device) : Device := d.modPwr fun p => { p with profileTried := true }

/-- Every persistent entry at its default, for want of a valid profile. -/
def Device.takeDefaults (d : Device) : Device :=
  d.profileTry.takeValues persistent (fun ix sub => dictDefault (dictKey ix sub)) false

@[simp] theorem Device.takeDefaults_arb (d : Device) : d.takeDefaults.arb = d.arb := by
  rw [Device.takeDefaults, Device.takeValues_arb, Device.profileTry, Device.modPwr_arb]

theorem Device.profileLoad_not_due {d : Device} (h : d.pwr.profileTried = true ∨ d.pwr.bringUp < 2) : d.profileLoad = d :=
  if_pos (by simpa using h)

section Load

variable {d : Device} (htried : d.pwr.profileTried = false) (hup : 2 ≤ d.pwr.bringUp)

include htried hup

theorem Device.profileLoad_due : ¬(d.pwr.profileTried || decide (d.pwr.bringUp < 2)) = true := by
  simpa [htried, Nat.lt_iff_add_one_le] using hup

theorem Device.profileLoad_valid {rs : List ProfRec} (hr : d.imageReason (d.dict.slot d.dict.profileSel) = 0)
    (hrs : d.dict.slotRecords d.dict.profileSel = some rs) :
    d.profileLoad = ((d.profileTry.takeValues persistent (profileValue rs) false).profileIn d.dict.profileSel).fieldReady := by
  have hrs' : d.profileTry.dict.slotRecords d.dict.profileSel = some rs := hrs
  rw [Device.profileLoad, if_neg (Device.profileLoad_due htried hup)]
  refine congrArg Device.fieldReady ?_
  split
  · next rs' _ h =>
    obtain rfl : rs = rs' := Option.some.inj (hrs'.symm.trans h)
    rfl
  · next h => exact absurd hrs' (h rs hr)

theorem Device.profileLoad_defaults (hr : d.imageReason (d.dict.slot d.dict.profileSel) ≠ 0) :
    d.profileLoad = ((d.takeDefaults.event evProfileNotLoaded none (d.imageReason (d.dict.slot d.dict.profileSel))).arbGate
      0x0F none).fieldReady := by
  rw [Device.profileLoad, if_neg (Device.profileLoad_due htried hup)]
  refine congrArg Device.fieldReady ?_
  split
  · next h _ => exact absurd h hr
  · rw [if_neg hr]
    rfl

end Load

theorem Device.profileIn_active (d : Device) (n : Nat) : (d.profileIn n).dict.active = some n := rfl

theorem Device.profileIn_profileOk (d : Device) (n : Nat) : (d.profileIn n).arb.profileOk = true := rfl

theorem Device.profileIn_digest (d : Device) (n : Nat) : (d.profileIn n).sec.profileDigest = sha48 (d.dict.slot n) := rfl

@[simp] theorem Device.fieldReady_dict (d : Device) : d.fieldReady.dict = d.dict := by rw [Device.fieldReady_frame]

@[simp] theorem Device.fieldReady_arb (d : Device) : d.fieldReady.arb = d.arb := by rw [Device.fieldReady_frame]

@[simp] theorem Device.fieldReady_sec (d : Device) : d.fieldReady.sec = d.sec := by rw [Device.fieldReady_frame]

@[simp] theorem Device.arbGate_dict (d : Device) (cause : Nat) (source : Option Nat) : (d.arbGate cause source).dict = d.dict := by
  obtain ⟨t, s, a, n, h⟩ := d.arbReport_eq cause source reactGate 0
  rw [Device.arbGate, h]

/-- The GATE reaction closes the gate and logs its cause (R409, R430). -/
theorem Device.arbGate_arb (d : Device) (cause : Nat) (source : Option Nat) :
    (d.arbGate cause source).arb.gateOpen = false
      ∧ ((d.arbGate cause source).arb.entry d.arb.logNext).cause = cause
      ∧ ((d.arbGate cause source).arb.entry d.arb.logNext).reaction = reactGate := by
  obtain ⟨t, s, a, n, h⟩ := d.arbReport_eq cause source reactGate 0
  have hentry := d.arb.report_entry t cause s reactGate 0 a
  rw [Device.arbGate, h]
  exact ⟨rfl, (congrArg LogEntry.cause hentry :), (congrArg LogEntry.reaction hentry :)⟩

/-! ### The obligation -/

/-- Settles O54, command by command. -/
theorem profiles : Obligations.Profiles := by
  intro s hs x answers stores
  refine ⟨fun n => ⟨fun h => ?_, fun hn hactive => ?_, fun hn => ?_, fun hn => ?_, fun hn => ?_, fun hn => ?_⟩,
    fun img => ⟨fun hlen hr => ?_, fun hlen hr => ?_, fun hlen => ?_⟩,
    fun n hto hst => ⟨fun hr => ?_, fun hr => ?_⟩, fun h => ?_, fun o ho => ?_, fun ho => ?_, fun h => ?_,
    fun htried hup => ⟨fun rs hr hrs => ?_, fun hr => ?_⟩⟩
  · exact Runs.refusedWith hs (exec_profileSwitch n s) (Device.profileSwitch_of_bad h)
  · refine Runs.of_on hs (exec_profileSwitch n s) ?_
    rw [Device.profileSwitch_of_ok hn hactive]
    rfl
  · exact Runs.storeStart hs (exec_profileSave n s) (if_neg (Nat.not_lt.mpr hn))
  · exact Runs.refusedWith hs (exec_profileSave n s) (if_pos hn)
  · exact Runs.storeStart hs (exec_profileErase n s) (if_neg (Nat.not_lt.mpr hn))
  · exact Runs.refusedWith hs (exec_profileErase n s) (if_pos hn)
  · exact Runs.storeStart hs (exec_profileImport img s) (Device.profileImport_valid hlen hr)
  · exact Runs.refusedWith hs (exec_profileImport img s) (Device.profileImport_invalid hlen hr)
  · exact Runs.refusedWith hs (exec_profileImport img s) (if_pos hlen)
  · refine Runs.of_on hs (exec_profileVerified s) ?_
    rw [Device.profileVerified_ready hto hst hr]
    refine ⟨rfl, hto, mem_noted n _, fun hstarted => ?_, rfl, rfl⟩
    have htempo := Device.stamp_tempo hstarted
    change s.dev.tn + 2 ≤ (s.dev.stamp.1 + 2999) / 1000 ∧ (s.dev.stamp.1 + 2999) / 1000 ≤ s.dev.tn + 3
    omega
  · refine Runs.of_on hs (exec_profileVerified s) ?_
    rw [Device.profileVerified_refused hto hst hr]
    exact ⟨rfl, rfl, rfl, rfl, Device.event_head _ _ _ _, rfl, rfl⟩
  · exact Runs.of_on hs (exec_profileVerified s) (Device.profileVerified_idle h)
  · refine Runs.of_on hs (exec_profileStoreDone s) ?_
    obtain ⟨verified, he⟩ := Device.storeDone_of_some ho
    rw [he]
    exact ⟨tget_tput_same _ _ _ _, fun k hk => tget_tput_other _ _ _ hk, rfl, rfl⟩
  · exact Runs.of_on hs (exec_profileStoreDone s) (Device.storeDone_of_none ho)
  · exact Runs.of_on hs (exec_profileLoad s) (Device.profileLoad_not_due h)
  · refine Runs.of_on hs (exec_profileLoad s) ?_
    rw [Device.profileLoad_valid htried hup hr hrs, Device.fieldReady_dict, Device.fieldReady_arb, Device.fieldReady_sec,
      Device.profileIn_active, Device.profileIn_profileOk, Device.profileIn_digest, Device.takeValues_slot]
    exact ⟨rfl, rfl, rfl, rfl⟩
  · refine Runs.of_on hs (exec_profileLoad s) ?_
    rw [Device.profileLoad_defaults htried hup hr, Device.fieldReady_dict, Device.fieldReady_arb, Device.arbGate_dict]
    have hgate := (s.dev.takeDefaults.event evProfileNotLoaded none (s.dev.imageReason (s.dev.dict.slot s.dev.dict.profileSel))).arbGate_arb
      0x0F none
    rw [Device.event_arb, Device.takeDefaults_arb] at hgate
    exact ⟨Device.event_head _ _ _ _, hgate⟩

end Sys2Proof.Machine

/-! SUPPORT. The queue and the thermal trip (R428, R460, R463, R486): what a step does to the queue, what a trip holds, and that it lasts until a
power-on reset. -/

namespace Sys2Proof.Machine

open Sys2Proof

/-! ### Steps, the queue and the commands of the held dies (R460, R486) -/

/-- Every command answers a state with its own queue, but for a supply above its absolute maximum rating (R486). -/
theorem exec_next (c : Instr) (s : State) : (∃ d, exec c s = .next { s with dev := d }) ∨ ∃ n, c = .supplyFault n true := by
  cases c
  case supplyFault n overMax =>
    cases overMax
    · exact .inl ⟨_, rfl⟩
    · exact .inr ⟨n, rfl⟩
  all_goals exact .inl ⟨_, rfl⟩

/-- Settles O3: every command outside the keep-alive domain answers through `State.on`. -/
theorem tripHoldsDies : Obligations.TripHoldsDies := by
  intro c s hheld hkeep
  cases c
  all_goals cases hkeep
  all_goals simp
  all_goals exact State.on_held s _ hheld

/-- Settles O1: `step` is a match on the queue. -/
theorem stepRunsFront : Obligations.StepRunsFront := by
  refine ⟨fun c rest s => rfl, fun s h => ?_⟩
  rw [step, h]

/-- Settles O7: the meaning of SUPPLY_FAULT stops at once above the rating. -/
theorem aboveMaximum : Obligations.AboveMaximum := fun s n => exec_supplyFault n true s

/-- Settles O2: every command but the one that stops answers its own queue. -/
theorem queueUntouched : Obligations.QueueUntouched := by
  intro c s
  obtain ⟨d, hd⟩ | ⟨n, rfl⟩ := exec_next c s
  · rw [hd]
    exact ⟨fun t ht => by cases ht; rfl, fun r => nofun, fun e => nofun⟩
  · rw [aboveMaximum s n]
    exact ⟨fun t => nofun, fun r => nofun, fun e _ => ⟨n, rfl⟩⟩


/-! ### What the keep-alive commands leave of the Arbiter and the power domain (R460) -/

/-- The Arbiter and the power domain. -/
def Device.guards (d : Device) : Arb × Power := (d.arb, d.pwr)

@[simp] theorem Device.note_guards (d : Device) (n : Note) : (d.note n).guards = d.guards := rfl

@[simp] theorem Device.modDbg_guards (d : Device) (f : Dbg → Dbg) : (d.modDbg f).guards = d.guards := rfl

@[simp] theorem Device.tapLoad_guards (d : Device) (t : TapInstr) : (d.tapLoad t).guards = d.guards := rfl

theorem Device.calTick_guards (d : Device) : d.calTick.guards = d.guards := by
  cases h : d.cal.tick.2 <;> simp only [Device.calTick, h] <;> rfl

theorem Device.guards_of_sansFabric {d e : Device} (h : e.sansFabric = d.sansFabric) : e.guards = d.guards :=
  (congrArg Device.guards h :)

theorem Device.linkDown_idle {d : Device} {p : Nat} (h : ¬(d.fab.port p).isUp) : d.linkDown p = d :=
  if_pos (by simpa [LPort.isUp, or_iff_not_imp_left] using h)

theorem Device.linkDown_guards (d : Device) (p : Nat) : (d.linkDown p).guards = d.guards := by
  by_cases h : (d.fab.port p).isUp
  · exact Device.guards_of_sansFabric (Device.linkDown_leaves h).2
  · rw [Device.linkDown_idle h]

theorem Device.tamper_guards (d : Device) : d.tamper.guards = d.guards := by
  refine (foldl_keeps Device.guards (fun e p => ?_) _ _).trans rfl
  split
  · exact e.linkDown_guards p
  · rfl

theorem Device.challengeRead_guards (d : Device) : d.challengeRead.guards = d.guards := by
  unfold Device.challengeRead
  split_ifs <;> rfl

theorem Device.unlock_guards (d : Device) (v : Nat) : (d.unlock v).guards = d.guards := by
  unfold Device.unlock
  split <;> rfl

theorem Device.unlockVerified_guards (d : Device) (r : UnlockOutcome) : (d.unlockVerified r).guards = d.guards := by
  unfold Device.unlockVerified
  split_ifs <;> rfl

theorem Device.portWrite_guards (d : Device) (o v hw : Nat) : (d.portWrite o v hw).guards = d.guards := by
  unfold Device.portWrite
  split_ifs
  · rfl
  · rfl
  · exact d.unlock_guards v
  all_goals rfl

/-- A request of the debug port completes: beside the port's own state, the networks alone change. -/
theorem Device.requestComplete_debug (d : Device) (id ns : Nat) :
    ∃ noc dbg, d.requestComplete Port.debug id ns = { d with noc := noc, dbg := dbg } := by
  unfold Device.requestComplete
  split
  · exact ⟨_, _, rfl⟩
  · next i _ =>
    split
    · exact ⟨_, _, rfl⟩
    · rw [if_pos rfl, Device.leavePort_eq, Device.dbgArrive]
      split
      · exact ⟨_, _, rfl⟩
      · exact ⟨_, _, rfl⟩

theorem Device.dbgRefused_guards (d : Device) : d.dbgRefused.guards = d.guards := by
  unfold Device.dbgRefused
  split
  · next i _ =>
    obtain ⟨noc, dbg, h⟩ := d.requestComplete_debug i.id (Config.freeNs d.fresh).val
    rw [h]
    rfl
  · rfl

theorem Device.dbgDeliver_guards (d : Device) : d.dbgDeliver.guards = d.guards := by
  unfold Device.dbgDeliver
  split
  · rfl
  · split
    · rfl
    · split
      · rfl
      · split <;> rfl

theorem Device.dbgTimeout_guards (d : Device) : d.dbgTimeout.guards = d.guards := by
  unfold Device.dbgTimeout
  split <;> rfl

theorem Device.dbgFrame_guards (d : Device) (h : DbgHeader) {again access : Device → Device}
    (hagain : (again d).guards = d.guards) (haccess : (access d).guards = d.guards) :
    (d.dbgFrame h again access).guards = d.guards := by
  unfold Device.dbgFrame
  split
  · rfl
  · split
    · rfl
    · split
      · rfl
      · split
        · rfl
        · split
          · split
            · exact hagain
            · rfl
          · split
            · rfl
            · split
              · rfl
              · exact haccess

/-! ### The debug port while a thermal trip holds the dies (R460, R473) -/

section Held

variable {d : Device} (hheld : d.pwr.held = true)

include hheld

theorem Device.edbgCmd_guards (j : Nat) (f : Eng → Eng) : (d.edbgCmd j f).guards = d.guards := by
  unfold Device.edbgCmd
  rw [if_pos hheld]
  split_ifs <;> rfl

theorem Device.dbgAsk_guards (h : DbgHeader) (r : DbgArrival) : (d.dbgAsk h r).guards = d.guards := by
  unfold Device.dbgAsk
  split
  · rw [if_pos hheld]
  · rw [if_pos hheld]
  · rw [if_pos hheld]
  · split_ifs <;> rfl

theorem Device.dbgAgain_guards (h : DbgHeader) (r : DbgArrival) : (d.dbgAgain h r).guards = d.guards := by
  rw [Device.dbgAgain, Device.dbgDeliver_guards]
  split
  · exact Device.dbgAsk_guards hheld h r
  · rfl

theorem Device.dbgRead_guards (h : DbgHeader) (r : DbgArrival) : (d.dbgRead h r).guards = d.guards := by
  have hask : ((d.modDbg fun g => { g with pending := some ⟨h, [], false⟩ }).dbgAsk h r).guards = d.guards :=
    Device.dbgAsk_guards (d := d.modDbg _) hheld h r
  simp only [Device.dbgRead]
  split_ifs
  · rfl
  · exact hask
  · exact (Device.dbgDeliver_guards _).trans hask

theorem Device.dbgPut_guards {e : Device} {h : DbgHeader} {a : Nat} {bs : List Byte} {hw : Nat}
    (hp : d.dbgPut h a bs hw = some e) : e.guards = d.guards := by
  unfold Device.dbgPut at hp
  split at hp
  · cases hp
    rw [if_pos hheld]
  · cases hp
    rw [if_pos hheld]
  · rw [if_pos (.inl hheld)] at hp
    cases hp
    rfl
  · cases hp
    split
    · rfl
    · exact d.portWrite_guards _ _ _

theorem Device.dbgWrite_guards (h : DbgHeader) (x : DbgData) : (d.dbgWrite h x).guards = d.guards := by
  simp only [Device.dbgWrite]
  split
  · rfl
  · refine List.foldlRecOn (motive := fun p : Device × Bool => p.1.guards = d.guards) _ _ rfl fun p hp a _ => ?_
    split
    · next e he => exact (Device.dbgPut_guards ((congrArg (fun g => g.2.held) hp).trans hheld) he).trans hp
    · exact hp

theorem Device.readFrame_guards (w : BitVec 72) (r : DbgArrival) : (d.readFrame w r).guards = d.guards := by
  refine d.dbgFrame_guards _ (Device.dbgAgain_guards hheld _ _) ?_
  split
  · exact Device.dbgRead_guards hheld _ _
  · exact Device.dbgWrite_guards hheld _ _

theorem Device.writeFrame_guards (w : BitVec 72) (x : DbgData) (late : Bool) : (d.writeFrame w x late).guards = d.guards := by
  refine d.dbgFrame_guards _ (Device.dbgAgain_guards hheld _ _) ?_
  split
  · exact Device.dbgRead_guards hheld _ _
  · exact Device.dbgWrite_guards hheld _ _

end Held

/-! ### Tripped devices (R428, R460) -/

/-- The dies are held by a thermal trip, and the device is in the safe state with SAFE_n low and the gate closed. -/
def Device.tripped (d : Device) : Prop :=
  d.pwr.held = true ∧ d.arb.safe = true ∧ d.arb.safeN = false ∧ d.arb.gateOpen = false

theorem tripped_iff (s : State) : Tripped s ↔ s.dev.tripped ∧ ∀ c ∈ s.pending, ∀ x b, c ≠ .powerOnReset x b := by
  simp only [Tripped, Device.tripped, and_assoc]

theorem Device.tripped_of_guards {d e : Device} (hd : d.tripped) (h : e.guards = d.guards) : e.tripped := by
  obtain ⟨harb, hpwr⟩ := Prod.ext_iff.mp h
  rw [Device.tripped, show e.arb = d.arb from harb, show e.pwr = d.pwr from hpwr]
  exact hd

section Tripped

variable {d : Device} (hd : d.tripped)

include hd

/-- A change of the Arbiter that leaves the safe state, SAFE_n and the gate. -/
theorem Device.tripped_setArb {a : Arb} (hsafe : a.safe = d.arb.safe) (hsafeN : a.safeN = d.arb.safeN)
    (hgate : a.gateOpen = d.arb.gateOpen) : Device.tripped { d with arb := a } :=
  ⟨hd.1, hsafe.trans hd.2.1, hsafeN.trans hd.2.2.1, hgate.trans hd.2.2.2⟩

/-- The SAFE reaction finds the device in the safe state and keeps it there. -/
theorem Device.safeCause_tripped (cause : Nat) (source : Option Nat) : (d.safeCause cause source).tripped := by
  by_cases hvalid : d.arb.valid = true
  · obtain ⟨t, s, a, n, h⟩ := d.safeCause_eq cause source hvalid
    rw [h]
    exact ⟨hd.1, rfl, rfl, rfl⟩
  · rw [Device.safeCause, if_neg hvalid]
    exact hd

theorem Device.reportCause_tripped (cause : Nat) (source : Option Nat) : (d.reportCause cause source).tripped := by
  by_cases hvalid : d.arb.valid = true
  · obtain ⟨t, s, a, n, h⟩ := d.reportCause_eq cause source hvalid
    rw [h]
    exact hd
  · rw [Device.reportCause, if_neg hvalid]
    exact hd

theorem Device.pairMismatch_tripped (p : Nat) : (d.pairMismatch p).tripped := by
  unfold Device.pairMismatch
  split
  · refine Device.reportCause_tripped ?_ _ _
    exact Device.tripped_setArb hd rfl rfl rfl
  · exact hd

theorem Device.dmiFrame_tripped (w : BitVec 72) (x : DbgData) (o : DmiOutcome) : (d.dmiFrame w x o).tripped := by
  have hframe : (d.writeFrame w x o.late).tripped := Device.tripped_of_guards hd (Device.writeFrame_guards hd.1 w x o.late)
  simp only [Device.dmiFrame]
  split_ifs
  · exact hd
  · exact Device.pairMismatch_tripped hframe _
  · exact hframe

theorem Device.heldTempo_tripped (env : TempoEnv) : (d.heldTempo env).tripped := by
  unfold Device.heldTempo
  split
  · refine ⟨hd.1, ?_⟩
    split
    · exact hd.2
    · exact hd.2
  · exact hd

theorem Device.estop_tripped : d.estop.tripped := by
  unfold Device.estop
  split
  · refine Device.safeCause_tripped ?_ _ _
    exact Device.tripped_setArb hd rfl rfl rfl
  · exact hd

theorem Device.tempoLost_tripped : d.tempoLost.tripped := by
  unfold Device.tempoLost
  split
  · refine Device.safeCause_tripped ?_ _ _
    exact Device.tripped_setArb hd rfl rfl rfl
  · exact hd

theorem Device.supplyFault_tripped (n : Nat) : (d.supplyFault n).tripped := by
  unfold Device.supplyFault
  split
  · refine Device.safeCause_tripped ?_ _ _
    exact Device.tripped_setArb hd rfl rfl rfl
  · exact hd

theorem Device.arbOwnFault_tripped (cause : Nat) : (d.arbOwnFault cause).tripped := by
  unfold Device.arbOwnFault
  split
  · exact Device.tripped_setArb (Device.safeCause_tripped hd _ _) rfl rfl rfl
  · exact hd

theorem Device.aliveToggle_tripped : d.aliveToggle.tripped := by
  unfold Device.aliveToggle
  split
  · exact Device.tripped_setArb hd rfl rfl rfl
  · exact hd

theorem Device.wake_tripped : d.wake.tripped := by
  unfold Device.wake
  split
  · exact hd
  · exact hd

/-- A milestone leaves the trip's hold on the dies. -/
theorem Device.milestone_tripped (k : Nat) : (d.milestone k).tripped := by
  unfold Device.milestone
  extract_lets f prev t
  split
  · exact hd
  · exact hd

theorem Device.arbiterValid_tripped : d.arbiterValid.tripped := by
  unfold Device.arbiterValid
  split
  · refine Device.milestone_tripped ?_ 1
    exact ⟨hd.1, rfl, rfl, rfl⟩
  · exact hd

end Tripped

/-- Only a power-on reset ends the trip: every other command of the keep-alive domain leaves the device tripped. -/
theorem exec_tripped {c : Instr} {s t : State} (hs : s.dev.tripped) (hpor : ∀ x b, c ≠ .powerOnReset x b)
    (hkeep : keepAliveCommand c = true) (h : exec c s = .next t) : t.dev.tripped := by
  have keeps {f : Device → Device} (hc : exec c s = s.onKeep f) (hf : (f s.dev).tripped) : t.dev.tripped := by
    cases hc.symm.trans h
    exact hf
  have frames {f : Device → Device} (hc : exec c s = s.onKeep f) (hf : (f s.dev).guards = s.dev.guards) : t.dev.tripped :=
    keeps hc (Device.tripped_of_guards hs hf)
  cases c
  case powerOnReset x b => exact absurd rfl (hpor x b)
  case tempoBoundary env =>
    exact keeps (exec_tempoBoundary env s) (by rw [if_pos hs.1]; exact Device.heldTempo_tripped hs env)
  case thermalTrip n => exact keeps (exec_thermalTrip n s) (by rw [Device.thermalTrip, if_pos hs.1]; exact hs)
  case supplyFault n overMax =>
    cases overMax
    · exact keeps (exec_supplyFault n false s) (Device.supplyFault_tripped hs n)
    · rw [aboveMaximum s n] at h
      cases h
  case estop => exact keeps (exec_estop s) (Device.estop_tripped hs)
  case estopRelease => exact keeps (exec_estopRelease s) (Device.tripped_setArb hs rfl rfl rfl)
  case tempoLoss => exact keeps (exec_tempoLoss s) (Device.tempoLost_tripped hs)
  case arbiterMismatch => exact keeps (exec_arbiterMismatch s) (Device.arbOwnFault_tripped hs _)
  case oscillatorFault => exact keeps (exec_oscillatorFault s) (Device.arbOwnFault_tripped hs _)
  case safeAliveToggle => exact keeps (exec_safeAliveToggle s) (Device.aliveToggle_tripped hs)
  case supplyBackInWindow n => exact keeps (exec_supplyBackInWindow n s) (Device.tripped_setArb hs rfl rfl rfl)
  case arbiterValid => exact keeps (exec_arbiterValid s) (Device.arbiterValid_tripped hs)
  case wake => exact keeps (exec_wake s) (Device.wake_tripped hs)
  case dmiAccess w x o => exact keeps (exec_dmiAccess w x o s) (Device.dmiFrame_tripped hs w x o)
  case calendarTick => exact frames (exec_calendarTick s) s.dev.calTick_guards
  case tamper => exact frames (exec_tamper s) s.dev.tamper_guards
  case challengeRead => exact frames (exec_challengeRead s) s.dev.challengeRead_guards
  case debugUnlock w => exact frames (exec_debugUnlock w s) (s.dev.unlock_guards _)
  case unlockVerified r => exact frames (exec_unlockVerified r s) (s.dev.unlockVerified_guards r)
  case debugRead w r => exact frames (exec_debugRead w r s) (Device.readFrame_guards hs.1 w r)
  case debugWrite w x => exact frames (exec_debugWrite w x s) (Device.writeFrame_guards hs.1 w x true)
  case debugAccessTimeout => exact frames (exec_debugAccessTimeout s) s.dev.dbgTimeout_guards
  case debugWriteRefused => exact frames (exec_debugWriteRefused s) s.dev.dbgRefused_guards
  case engineHalt j => exact frames (exec_engineHalt j s) (Device.edbgCmd_guards hs.1 j _)
  case engineResume j => exact frames (exec_engineResume j s) (Device.edbgCmd_guards hs.1 j _)
  case engineStep j n => exact frames (exec_engineStep j n s) (Device.edbgCmd_guards hs.1 j _)
  all_goals cases hkeep
  case uartLogDump => exact frames (exec_uartLogDump s) rfl
  case uartStatus => exact frames (exec_uartStatus s) rfl
  case debugClose => exact frames (exec_debugClose s) rfl
  case framerReset => exact frames (exec_framerReset s) rfl
  case bypass => exact frames (exec_bypass s) rfl
  case idcode => exact frames (exec_idcode s) rfl
  case samplePreload v => exact frames (exec_samplePreload v s) (by simp)
  case extest => exact frames (exec_extest s) rfl
  case extestPulse => exact frames (exec_extestPulse s) rfl
  case extestTrain => exact frames (exec_extestTrain s) rfl
  case clamp => exact frames (exec_clamp s) rfl
  case highz => exact frames (exec_highz s) rfl
  case tapReset => exact frames (exec_tapReset s) rfl

/-- Settles O4: an idle step stays, a command of the held dies changes nothing, and one of the keep-alive domain leaves the trip. -/
theorem trippedStays : Obligations.TrippedStays := by
  intro s t hs h
  obtain ⟨hdev, hqueue⟩ := (tripped_iff s).mp hs
  cases hpend : s.pending with
  | nil =>
    rw [stepRunsFront.2 s hpend] at h
    cases h
    exact hs
  | cons c rest =>
    have hstep : exec c { s with pending := rest } = .next t := by rw [← h, step, hpend]
    have hrest : t.pending = rest := (queueUntouched c _).1 t hstep
    rw [hpend] at hqueue
    refine (tripped_iff t).mpr ⟨?_, fun e he => hqueue e (List.mem_cons_of_mem c (hrest ▸ he))⟩
    cases hkeep : keepAliveCommand c with
    | true => exact exec_tripped (s := { s with pending := rest }) hdev (hqueue c List.mem_cons_self) hkeep hstep
    | false =>
      cases (tripHoldsDies c { s with pending := rest } hdev.1 hkeep).symm.trans hstep
      exact hdev

end Sys2Proof.Machine

/-! SUPPORT. The Arbiter's causes, pins, commands, pairs and self-tests (R406 to R430): each is one reaction of the Arbiter or one field of it,
with the rest of the device as it was. -/

namespace Sys2Proof.Machine

open Sys2Proof

/-! ### Commands of the keep-alive domain -/

/-- A command of the keep-alive domain runs in every state. -/
theorem Runs.of_onKeep {c : Instr} {s : State} {f : Device → Device} {Q : Device → Prop}
    (hc : exec c s = s.onKeep f) (hQ : Q (f s.dev)) : Runs c s Q := ⟨f s.dev, hc, hQ⟩

/-! ### Reactions (R409, R430) -/

/-- A cause with reaction SAFE is logged and enters the safe state; of the Arbiter it touches what `Arb.enterSafe` does. `d` stands for
the device before a change of the Arbiter that came with the cause. -/
theorem Device.safeCause_reaction {d e : Device} {a : Arb} (cause : Nat) (source : Option Nat) (he : e = { d with arb := a })
    (hvalid : a.valid = true) (hnext : a.logNext = d.arb.logNext) :
    SafeReaction cause d (e.safeCause cause source)
      ∧ ∃ t n x, (e.safeCause cause source).arb = a.enterSafe t cause n 0 x := by
  subst he
  obtain ⟨t, n, x, fresh, h⟩ := Device.safeCause_eq { d with arb := a } cause source hvalid
  rw [h]
  refine ⟨⟨rfl, rfl, rfl, rfl, ?_, ?_, ?_⟩, t, n, x, rfl⟩
  · rw [← hnext, Arb.enterSafe_entry]
  · rw [← hnext, Arb.enterSafe_entry]
  · rw [← hnext]
    rfl

/-- A cause with reaction REPORT is logged; of the Arbiter it touches what `Arb.report` does. -/
theorem Device.reportCause_reaction {d e : Device} {a : Arb} (cause : Nat) (source : Option Nat) (he : e = { d with arb := a })
    (hvalid : a.valid = true) (hnext : a.logNext = d.arb.logNext) :
    OnlyArb d (e.reportCause cause source) ∧ ((e.reportCause cause source).arb.entry d.arb.logNext).cause = cause
      ∧ ∃ t n x, (e.reportCause cause source).arb = a.report t cause n reactReport 0 x := by
  subst he
  obtain ⟨t, n, x, fresh, h⟩ := Device.reportCause_eq { d with arb := a } cause source hvalid
  rw [h]
  refine ⟨rfl, ?_, t, n, x, rfl⟩
  rw [← hnext, Arb.report_entry]

@[simp] theorem Arb.enterSafe_pair (a : Arb) (dt cause source falls arg p : Nat) :
    (a.enterSafe dt cause source falls arg).pair p = a.pair p := rfl

@[simp] theorem Arb.report_pair (a : Arb) (dt cause source reaction falls arg p : Nat) :
    (a.report dt cause source reaction falls arg).pair p = a.pair p := rfl

/-! ### The thermal trip (R428, R460) -/

theorem bitOf_lor_two_pow (v i : Nat) : bitOf (v.lor (2 ^ i)) i = true := by
  have h : (v ||| 2 ^ i).testBit i = true := by simp [Nat.testBit_or]
  rwa [Nat.testBit_eq_decide_div_mod_eq] at h

/-- Settles O5: the SAFE reaction, and the reset of the dies that keeps the Arbiter, the calendar and the session. -/
theorem tripEntered : Obligations.TripEntered := by
  intro s n hs hvalid hqueue
  obtain ⟨t, src, x, fresh, h⟩ := s.dev.safeCause_eq 0x08 (some n.val) hvalid
  refine ⟨{ s with dev := s.dev.thermalTrip n.val }, exec_thermalTrip n s, ?_⟩
  rw [show s.dev.thermalTrip n.val = _ from if_neg (by simp [show s.dev.pwr.held = false from hs]), h]
  exact ⟨⟨rfl, rfl, rfl, rfl, hqueue⟩, rfl, rfl, rfl, bitOf_lor_two_pow _ 5, rfl, rfl⟩

/-! ### Causes of the safe state (R407 to R409, R449, R452) -/

/-- A fault of the Arbiter itself is latched with its SAFE reaction (R406, R409). -/
theorem Device.arbOwnFault_reaction {d : Device} (cause : Nat) (hvalid : d.arb.valid = true) :
    SafeReaction cause d (d.arbOwnFault cause) ∧ (d.arbOwnFault cause).arb.arbFault = true := by
  rw [Device.arbOwnFault, if_pos hvalid]
  obtain ⟨t, n, x, fresh, h⟩ := d.safeCause_eq cause none hvalid
  have hentry := d.arb.enterSafe_entry t cause n 0 x
  rw [h]
  exact ⟨⟨rfl, rfl, rfl, rfl, (congrArg LogEntry.cause hentry :), (congrArg LogEntry.reaction hentry :), rfl⟩, rfl⟩

/-- A command of the keep-alive domain that changes the Arbiter and then raises a SAFE cause. -/
theorem Runs.of_safeCause {c : Instr} {s : State} {f : Device → Device} {g : Arb → Arb} {cause : Nat} {source : Option Nat}
    {P : Arb → Prop} (hc : exec c s = s.onKeep f) (hf : f s.dev = (s.dev.modArb g).safeCause cause source)
    (hvalid : (g s.dev.arb).valid = true) (hnext : (g s.dev.arb).logNext = s.dev.arb.logNext)
    (hP : ∀ t n x, P ((g s.dev.arb).enterSafe t cause n 0 x)) : Runs c s fun d => SafeReaction cause s.dev d ∧ P d.arb := by
  refine Runs.of_onKeep hc ?_
  rw [hf]
  obtain ⟨hsafe, t, n, x, harb⟩ := Device.safeCause_reaction (d := s.dev) (e := s.dev.modArb g) cause source rfl hvalid hnext
  rw [harb]
  exact ⟨hsafe, hP t n x⟩

/-- Settles O6: each cause records its own condition and goes to the SAFE reaction. -/
theorem safeCauses : Obligations.SafeCauses := by
  intro s hvalid
  refine ⟨fun hestop => ?_, fun hstart hloss => ?_, ?_, ?_, fun n hn => ?_⟩
  · exact Runs.of_safeCause (P := fun a => a.estop = true) (exec_estop s) (if_pos (by simp [hvalid, hestop])) hvalid rfl
      fun _ _ _ => rfl
  · exact Runs.of_safeCause (P := fun a => a.tempoLoss = true ∧ a.goodPulses = 0) (exec_tempoLoss s)
      (if_pos (by simp [hvalid, hstart, hloss])) hvalid rfl fun _ _ _ => ⟨rfl, rfl⟩
  · exact Runs.of_onKeep (exec_arbiterMismatch s) (Device.arbOwnFault_reaction 0x03 hvalid)
  · exact Runs.of_onKeep (exec_oscillatorFault s) (Device.arbOwnFault_reaction 0x05 hvalid)
  · exact Runs.of_safeCause (P := fun a => a.supplyOut = n.val :: s.dev.arb.supplyOut) (exec_supplyFault n false s)
      (if_pos (by simp [hvalid, hn])) hvalid rfl fun _ _ _ => rfl

/-! ### Signals and commands of the Arbiter (R406, R407, R410 to R413, R426, R430) -/

theorem Device.crossCheckDone_of_running {d : Device} (h : d.arb.xcheck.isSome = true) (bad : Bool) :
    d.crossCheckDone bad = { d with arb := { d.arb with xcheck := none },
                                    mce := { d.mce with fieldFault := d.mce.fieldFault || bad } } := by
  rw [Device.crossCheckDone, if_pos h]
  cases bad
  · rw [Bool.or_false]
    rfl
  · rw [Bool.or_true]
    rfl

/-- Settles O8: each signal writes its one field, or puts its words out. -/
theorem arbiterSignals : Obligations.ArbiterSignals := by
  intro s
  refine ⟨Runs.of_onKeep (exec_estopRelease s) rfl, fun n => Runs.of_onKeep (exec_supplyBackInWindow n s) rfl,
    fun hvalid hfault => Runs.of_onKeep (exec_safeAliveToggle s) ?_, Runs.of_onKeep (exec_uartLogDump s) rfl,
    Runs.of_onKeep (exec_uartStatus s) rfl, fun hs hx bad => Runs.of_on hs (exec_crossCheckDone bad s) ?_⟩
  · rw [Device.aliveToggle, if_pos (by simp [hvalid, hfault])]
    rfl
  · exact Device.crossCheckDone_of_running hx bad

theorem Device.arbCommand_allowed (d : Device) (f : Device → Device) : d.arbCommand true f = f d := rfl

theorem Device.arbCommand_refused (d : Device) (f : Device → Device) : d.arbCommand false f = d.modArb Arb.refuse := rfl

/-- Settles O9: the sender's right is judged first, then the condition of the command. -/
theorem armRelease : Obligations.ArmRelease := by
  intro s r hs
  have arm {Q : Device → Prop} (hQ : Q (s.dev.arm r)) : Runs (.arm r) s Q := Runs.of_on hs (exec_arm r s) hQ
  have release {Q : Device → Prop} (hQ : Q (s.dev.releaseSafe r)) : Runs (.release r) s Q := Runs.of_on hs (exec_release r s) hQ
  refine ⟨fun hmay hallowed => arm ?_, fun hmay hallowed => arm ?_, fun hmay hallowed => release ?_,
    fun hmay hallowed => release ?_, fun hmay => ⟨arm ?_, release ?_⟩⟩
  · rw [Device.arm, hmay, Device.arbCommand_allowed, if_pos hallowed]
    rfl
  · rw [Device.arm, hmay, Device.arbCommand_allowed, if_neg (by simp [hallowed])]
  · rw [Device.releaseSafe, hmay, Device.arbCommand_allowed, if_pos hallowed]
    rfl
  · rw [Device.releaseSafe, hmay, Device.arbCommand_allowed, if_neg (by simp [hallowed])]
  · rw [Device.arm, hmay, Device.arbCommand_refused]
    rfl
  · rw [Device.releaseSafe, hmay, Device.arbCommand_refused]
    rfl

/-- What R410 asks of the last verdict records. -/
theorem Arb.recsAllow_iff (a : Arb) : a.recsAllow = true ↔ a.recs.length = 16
    ∧ (∀ v ∈ a.recs, v.good = true ∧ (v.mode = 1 ∨ v.mode = 2 ∨ v.mode = 3)) ∧ ∃ v ∈ a.recs, v.mode = 1 ∨ v.mode = 2 := by
  simp [Arb.recsAllow, and_assoc, or_assoc]

/-- ARM that opens a closed gate meets the condition of R410. -/
theorem Device.armAllowed_of_opens {d : Device} {r : ArbReq} (hclosed : d.arb.gateOpen = false)
    (hopen : (d.arm r).arb.gateOpen = true) : d.arb.armAllowed = true := by
  rw [Device.arm, Device.arbCommand] at hopen
  split_ifs at hopen with hmay hallowed
  · exact hallowed
  · exact absurd hopen (by simp [hclosed])
  · exact absurd hopen (by simp [Device.modArb, Arb.refuse, hclosed])

/-- Settles O10: a gate that ARM opens was allowed to open. -/
theorem gateNeeds : Obligations.GateNeeds := by
  intro s t r h hclosed hopen
  rw [exec_arm] at h
  by_cases hheld : s.dev.pwr.held = true
  · rw [execArm, State.on_held s _ hheld] at h
    cases h
    exact absurd hopen (by simp [hclosed])
  · rw [execArm, State.on_live s _ (by simpa using hheld)] at h
    cases h
    have hallowed := Device.armAllowed_of_opens hclosed hopen
    simp only [Arb.armAllowed, Bool.and_eq_true, Bool.not_eq_true'] at hallowed
    obtain ⟨⟨hsafe, hprofile⟩, hrecs⟩ := hallowed
    exact ⟨hsafe, hprofile, (Arb.recsAllow_iff _).mp hrecs⟩

/-- An entry that the ring holds is acknowledged (R413, R430). -/
theorem Arb.ack_entry {a : Arb} {e : Nat} (h : a.holds e = true) : ((a.ack e).entry e).ack = true := by
  rw [Arb.ack, if_pos h, Arb.entry, tget_tput_same]

theorem Device.ack_allowed {d : Device} {r : ArbReq} (hsender : (d.isPair r.sender || r.sender == .fwc) = true) (harg : r.arg < 64) :
    d.ack r = { d with arb := d.arb.ack r.arg } := by
  rw [Device.ack, hsender, decide_eq_true harg, Bool.and_true, Device.arbCommand_allowed]
  rfl

theorem Device.xcheckCmd_starts {d : Device} {r : ArbReq} (hsender : d.isPair r.sender = true) (hidle : d.arb.xcheck = none) :
    d.xcheckCmd r = { d with arb := { d.arb with xcheck := some 16 } } := by
  rw [Device.xcheckCmd, hsender, Device.arbCommand_allowed]
  exact congrArg (fun a => ({ d with arb := a } : Device)) (if_neg (by simp [hidle]))

theorem Device.done_allowed {d : Device} {r : ArbReq} (hsender : d.isPair r.sender = true) (hruns : r.runs = true) (harg : r.arg < 128)
    (hkind : (d.taskRec r.arg).kind = 2) :
    d.done r = { d with arb := d.arb.setTask r.arg ((d.arb.task r.arg).complete false) } := by
  have hright : (d.isPair r.sender && r.runs && decide (r.arg < 128) && (d.taskRec r.arg).kind == 2) = true := by
    simp [hsender, hruns, harg, hkind]
  rw [Device.done, hright, Device.arbCommand_allowed]
  rfl

/-- Settles O11, command by command. -/
theorem arbiterCommands : Obligations.ArbiterCommands := by
  intro s r hs
  exact ⟨fun hsender harg hholds => Runs.of_on hs (exec_ack r s)
      ⟨Device.ack_allowed hsender harg, by rw [Device.ack_allowed hsender harg]; exact Arb.ack_entry hholds⟩,
    fun e he hholds => Runs.of_on hs (exec_logAcknowledge e s)
      ⟨by rw [Device.logAck, if_pos he]; rfl, by rw [Device.logAck, if_pos he]; exact Arb.ack_entry hholds⟩,
    fun hsender hidle => Runs.of_on hs (exec_xcheck r s) (Device.xcheckCmd_starts hsender hidle),
    fun hsender hruns harg hkind => Runs.of_on hs (exec_done r s) (Device.done_allowed hsender hruns harg hkind)⟩

/-! ### Redundant pairs (R420, R421) -/

/-- A removed pair is a SAFE reaction (R421). -/
theorem Device.removePair_reaction {d : Device} (p : Nat) (hvalid : d.arb.valid = true) :
    SafeReaction 0x0D d (d.removePair p) ∧ ((d.removePair p).arb.pair p).st = .removed := by
  obtain ⟨hsafe, t, n, x, harb⟩ := Device.safeCause_reaction (d := d) (e := d.modArb fun a => a.setPair p { a.pair p with st := .removed })
    0x0D (some p) rfl hvalid rfl
  refine ⟨hsafe, ?_⟩
  rw [Device.removePair, harb, Arb.enterSafe_pair, Arb.setPair_pair]

/-- The state of a pair changes with a REPORT (R421). -/
def Device.pairReport (d : Device) (p : Nat) (v : Pair) (cause : Nat) : Device :=
  Device.reportCause { d with arb := d.arb.setPair p v } cause (some p)

theorem Device.pairReport_reaction {d : Device} (p : Nat) (v : Pair) (cause : Nat) (hvalid : d.arb.valid = true) :
    OnlyArb d (d.pairReport p v cause) ∧ (d.pairReport p v cause).arb.pair p = v
      ∧ ((d.pairReport p v cause).arb.entry d.arb.logNext).cause = cause := by
  obtain ⟨honly, hcause, t, n, x, harb⟩ := Device.reportCause_reaction (d := d) (a := d.arb.setPair p v) cause (some p) rfl hvalid rfl
  refine ⟨honly, ?_, hcause⟩
  rw [Device.pairReport, harb, Arb.report_pair, Arb.setPair_pair]

theorem Device.pairMismatch_normal {d : Device} {p : Nat} (h : (d.arb.pair p).st = .normal) :
    d.pairMismatch p = d.pairReport p { d.arb.pair p with st := .adjudicating } 0x0A := if_pos h

section Adjudicating

variable {d : Device} {p : Nat} (h : (d.arb.pair p).st = .adjudicating)

include h

/-- Adjudication that finds one replica broken. -/
theorem Device.adjudicated_one {o : AdjOutcome} (ho : o = .replicaA ∨ o = .replicaB) :
    d.adjudicated p o = d.pairReport p
      { d.arb.pair p with st := .degraded, degradedMin := d.dict.num 0x5020 0x01, degradedAt := d.tn } 0x0B := by
  obtain rfl | rfl := ho
  · exact if_pos h
  · exact if_pos h

theorem Device.adjudicated_both : d.adjudicated p .both = d.removePair p := if_pos h

/-- The first transient of a pair. -/
theorem Device.adjudicated_transient (hnone : (d.arb.pair p).transients = []) :
    d.adjudicated p .transient = d.pairReport p { d.arb.pair p with st := .normal, transients := [d.tn] } 0x0C := by
  simp only [Device.adjudicated, if_pos h, hnone, List.filter_nil, List.length_singleton]
  rfl

end Adjudicating

/-- Settles O13: a change of the pair with its report, or its removal. -/
theorem pairs : Obligations.Pairs := by
  intro s p hs hvalid
  have judged (o : AdjOutcome) {Q : Device → Prop} (hQ : Q (s.dev.adjudicated p o)) : Runs (.adjudicationDone p o) s Q :=
    Runs.of_on hs (exec_adjudicationDone p o s) hQ
  refine ⟨fun hst => Runs.of_on hs (exec_pairMismatch p s) ?_,
    fun hst => ⟨fun o ho => judged o ?_, judged .both ?_, fun hnone => judged .transient ?_⟩,
    fun hst => ⟨fun hover => Runs.of_on hs (exec_degradedExpiry p s) ?_,
      fun hloss htime => Runs.of_on hs (exec_degradedExpiry p s) ?_⟩⟩
  · rw [Device.pairMismatch_normal hst]
    obtain ⟨honly, hpair, hcause⟩ := Device.pairReport_reaction p { s.dev.arb.pair p with st := .adjudicating } 0x0A hvalid
    exact ⟨honly, congrArg Pair.st hpair, hcause⟩
  · rw [Device.adjudicated_one hst ho]
    obtain ⟨honly, hpair, hcause⟩ := Device.pairReport_reaction p
      { s.dev.arb.pair p with st := .degraded, degradedMin := s.dev.dict.num 0x5020 0x01, degradedAt := s.dev.tn } 0x0B hvalid
    exact ⟨honly, congrArg Pair.st hpair, congrArg Pair.degradedMin hpair, congrArg Pair.degradedAt hpair, hcause⟩
  · rw [Device.adjudicated_both hst]
    exact Device.removePair_reaction p hvalid
  · rw [Device.adjudicated_transient hst hnone]
    obtain ⟨honly, hpair, hcause⟩ := Device.pairReport_reaction p
      { s.dev.arb.pair p with st := .normal, transients := [s.dev.tn] } 0x0C hvalid
    exact ⟨honly, congrArg Pair.st hpair, hcause⟩
  · rw [Device.degradedEnd, if_pos (by simpa [Device.degradedOver, hst] using hover)]
    exact Device.removePair_reaction p hvalid
  · exact if_neg (by simpa [Device.degradedOver, hloss] using fun _ => htime)

/-! ### Self-tests (R419, R422 to R425, R458) -/

/-- Quads that are each changed by a function have what the function gives. -/
theorem Power.eachQuad_quad (p : Power) {qs : List Nat} {f : Quad → Quad} (P : Quad → Prop) (hf : ∀ x, P (f x)) {q : Nat}
    (hq : q ∈ qs) : P ((p.eachQuad qs f).quad q) := by
  refine foldl_establishes (P := fun p : Power => P (p.quad q)) hq (fun p => ?_) (fun p k hp => ?_) p
  · rw [Power.setQuad_quad]
    exact hf _
  · rw [Power.setQuad_quad_if]
    split
    · exact hf _
    · exact hp

/-- A hot sensor of a compute die (R458). -/
theorem Device.tjReport_compute {d : Device} {n : Nat} (hn : n < 32) :
    d.tjReport n = (d.reportCause 0x07 (some n)).modPwr fun p => p.eachQuad (quadsOf (n / 16)) fun x => { x with thermCeil := 0 } :=
  if_pos hn

theorem Device.latentTest_passed (d : Device) (c : CheckerId) : d.latentTest c true = d := by
  rw [Device.latentTest, if_pos (Bool.true_or _)]

theorem Device.lfInterval_logged {d : Device} (h : d.pwr.lfLogged = true) : d.lfInterval = d := by
  rw [Device.lfInterval, if_neg (by simp [h])]

/-- Settles O14, command by command. -/
theorem selfTests : Obligations.SelfTests := by
  intro s hs
  refine ⟨fun c => Runs.of_on hs (exec_latentFaultTest c true s) (s.dev.latentTest_passed c), fun hvalid hmode => ?_,
    fun hvalid hmode hhours => ⟨fun hlogged => Runs.of_on hs (exec_lfIntervalExceeded s) ?_,
      fun hlogged => Runs.of_on hs (exec_lfIntervalExceeded s) (Device.lfInterval_logged hlogged)⟩,
    fun e hsuspect hbound => Runs.of_on hs (exec_engineSelfTest e true s) ?_, fun hvalid n hn => Runs.of_on hs (exec_tjReport n s) ?_⟩
  · have tested (c : CheckerId) (hc : s.dev.latentFault c = s.dev.safeCause 0x0E (some c.source)) :
        Runs (.latentFaultTest c false) s fun d => SafeReaction 0x0E s.dev d := by
      refine Runs.of_on hs (exec_latentFaultTest c false s) ?_
      rw [Device.latentTest, if_neg (by simp [hmode]), hc]
      exact (Device.safeCause_reaction 0x0E _ rfl hvalid rfl).1
    exact ⟨fun p => tested (.display p) rfl, fun n => tested (.monitor n) rfl⟩
  · rw [Device.lfInterval, if_pos ⟨hmode, hhours, hlogged⟩]
    obtain ⟨honly, hcause, -⟩ := Device.reportCause_reaction (d := s.dev.modPwr fun p => { p with lfLogged := true })
      0x10 none rfl hvalid rfl
    exact ⟨hcause, honly⟩
  · rw [Device.selfTest, if_pos (by simp [hsuspect, hbound]), if_pos rfl, Device.modEng_engine]
    exact ⟨rfl, rfl⟩
  · obtain ⟨honly, hcause, -⟩ := Device.reportCause_reaction (d := s.dev) 0x07 (some n.val) rfl hvalid rfl
    have hquads (p : Power) (q : Nat) (hq : q ∈ quadsOf (n.val / 16)) :
        ((p.eachQuad (quadsOf (n.val / 16)) fun x => { x with thermCeil := 0 }).quad q).thermCeil = 0 :=
      Power.eachQuad_quad p (fun x => x.thermCeil = 0) (fun _ => rfl) hq
    rw [Device.tjReport_compute hn, honly]
    exact ⟨hcause, hquads s.dev.pwr, rfl⟩

end Sys2Proof.Machine

/-! SUPPORT. Bring-up and what the enclave's own operations touch (R408, R441, R466, R467): a sealed load that waits for a stack changes the
enclave and the checkers' blocks alone. -/

namespace Sys2Proof.Machine

open Sys2Proof

/-! ### What the enclave's operations touch -/

/-- The device without the enclave, the moves of settings, outputs and free values. -/
def Device.sansSec (d : Device) : Device := { d with sec := Sec.init, moves := [], out := [], fresh := 0 }

@[simp] theorem Device.modSec_sansSec (d : Device) (f : Sec → Sec) : (d.modSec f).sansSec = d.sansSec := rfl

@[simp] theorem Device.setBlk_sansSec (d : Device) (b : BlockId) (m : MoveBlk) : (d.setBlk b m).sansSec = d.sansSec := rfl

/-- The blocks of checkers load nothing with their moves. -/
theorem Device.sealBlk_rgn (d : Device) (h g : Nat) :
    d.sealBlk (rgnBlock h) g
      = d.setBlk (rgnBlock h) (if d.sealAllowed (rgnBlock h) g then (d.blk (rgnBlock h)).seal g
          else (d.blk (rgnBlock h)).refuseSeal g) := by
  unfold Device.sealBlk
  split
  · rcases h with _ | _ | _ | h <;> rfl
  · rfl

theorem Device.setBlk_setBlk (d : Device) (b : BlockId) (v w : MoveBlk) : (d.setBlk b v).setBlk b w = d.setBlk b w := by
  simp only [Device.setBlk, tput_tput_same]

/-- The move that the SEC seals is one write of the checkers' block. -/
theorem Device.secSeal_eq (d : Device) (h r attr : Nat) : ∃ v, d.secSeal h r attr = d.setBlk (rgnBlock h) v := by
  simp only [Device.secSeal, Device.sealBlk_rgn, Device.setOpen, Device.setBlk_setBlk]
  exact ⟨_, rfl⟩

theorem Device.secCheck_of (d : Device) (secure : Bool) {ok : Bool} (code : Nat) (f : Device → Device) (h : ok = true) :
    d.secCheck secure ok code f = f d := if_pos h

theorem Device.secCheck_sansSec (d : Device) (secure ok : Bool) (code : Nat) {f : Device → Device}
    (hf : (f d).sansSec = d.sansSec) : (d.secCheck secure ok code f).sansSec = d.sansSec := by
  cases ok
  · rfl
  · exact hf

@[simp] theorem Device.secSeal_sansSec (d : Device) (h r attr : Nat) : (d.secSeal h r attr).sansSec = d.sansSec := by
  obtain ⟨v, hv⟩ := d.secSeal_eq h r attr
  rw [hv, Device.setBlk_sansSec]

theorem Device.sealStart_sansSec (d : Device) (q : SealLoadReq) : (d.sealStart q).sansSec = d.sansSec := by
  unfold Device.sealStart
  refine d.secCheck_sansSec _ _ _ (d.secCheck_sansSec _ _ _ (d.secCheck_sansSec _ _ _ (d.secCheck_sansSec _ _ _ ?_)))
  split
  · rfl
  · rfl
  · split
    · rw [Device.secSeal_sansSec]
      rfl
    · rfl

theorem Device.sealNext_sansSec (d : Device) (n : Nat) : (d.sealNext n).sansSec = d.sansSec := by
  induction n generalizing d with
  | zero => rfl
  | succ n ih =>
    rw [Device.sealNext]
    split
    · rfl
    · split
      · rw [ih, Device.sealStart_sansSec, Device.modSec_sansSec]
      · rfl

theorem Device.sealPump_sansSec (d : Device) : d.sealPump.sansSec = d.sansSec := by
  unfold Device.sealPump
  split
  · exact d.sealNext_sansSec _
  · rfl

/-! ### Bring-up (R408, R466, R467) -/

theorem Device.milestone_bringUp {d : Device} {k : Nat} (h : d.pwr.bringUp + 1 = k) : (d.milestone k).pwr.bringUp = k := by
  simp only [Device.milestone, if_pos h]
  rfl

theorem Device.milestone_hs (d : Device) (k h : Nat) : (d.milestone k).pwr.hs h = d.pwr.hs h := by
  unfold Device.milestone
  extract_lets f prev t
  split
  · rfl
  · rfl

theorem Device.stacksReady_leaves (d : Device) (h : Nat) : d.stacksReady.pwr.hs h = d.pwr.hs h ∧ d.stacksReady.mem = d.mem := by
  unfold Device.stacksReady
  split
  · refine ⟨d.milestone_hs 4 h, ?_⟩
    change (d.milestone 4).mem = d.mem
    rw [Device.milestone_frame]
  · exact ⟨rfl, rfl⟩

theorem Power.setHs_hs (p : Power) (h : Fin 2) (t : Trained) (n : Nat) : (p.setHs h t n).hs h = t := by
  fin_cases h <;> rfl

/-- The end of a training attempt sets the stack's state, whatever load then begins (R441, R467). -/
theorem Device.trainEnd_leaves {d : Device} {h : Fin 2} (ok : Bool) (hup : 2 ≤ d.pwr.bringUp) (ht : d.pwr.hs h ≠ .trained)
    (hf : d.pwr.hs h ≠ .failed) :
    (d.trainEnd h ok).pwr.hs h = (if ok then .trained else if d.pwr.tries h + 1 = 3 then .failed else .training)
      ∧ (d.trainEnd h ok).mem = d.mem := by
  have hpump := (d.stackTrained h ok).sealPump_sansSec
  have hpwr : (d.trainEnd h ok).pwr = (d.stackTrained h ok).pwr := (congrArg Device.pwr hpump :)
  have hmem : (d.trainEnd h ok).mem = (d.stackTrained h ok).mem := (congrArg Device.mem hpump :)
  rw [hpwr, hmem, Device.stackTrained, if_neg (by simp [ht, hf]; omega)]
  obtain ⟨hhs, hm⟩ := Device.stacksReady_leaves (d.modPwr fun p => p.setHs h
    (if ok then .trained else if d.pwr.tries h + 1 = 3 then .failed else .training) (d.pwr.tries h + 1)) h
  exact ⟨hhs.trans (Power.setHs_hs _ _ _ _), hm⟩

/-- Settles O24, command by command. -/
theorem bringUp : Obligations.BringUp := by
  intro s
  refine ⟨fun hgood hvalid => Runs.of_onKeep (exec_arbiterValid s) ?_,
    fun hs h hup ht hf _ => ⟨Runs.of_on hs (exec_stackTrained h true s) ?_,
      fun htries => Runs.of_on hs (exec_stackTrained h false s) ?_⟩,
    fun hs hup hx => Runs.of_on hs (exec_readyForJobs s) ?_⟩
  · rw [Device.arbiterValid, if_pos (by simp [hgood, hvalid]), Device.milestone_frame]
    exact ⟨rfl, rfl, rfl, rfl, rfl⟩
  · exact (Device.trainEnd_leaves true hup ht hf).1
  · obtain ⟨hhs, hmem⟩ := Device.trainEnd_leaves false hup ht hf
    exact ⟨by simpa [htries] using hhs, hmem⟩
  · rw [Device.readyForJobs, if_pos ⟨hup, by simp [hx]⟩]
    exact ⟨Device.milestone_bringUp (by rw [hup]), Device.milestone_frame _ _⟩

end Sys2Proof.Machine

/-! SUPPORT. The commands of the root of trust (R431 to R438, R443): the mailbox answers with a result posted to the side that asked, and a
command changes the enclave, the response buffer and the free values alone. -/

namespace Sys2Proof.Machine

open Sys2Proof

/-! ### Mailboxes (R432, R436) -/

/-- What the answer of a command leaves: its code in its mailbox, and nothing else beside a note and free values. `y` is the enclave
as the command made it. -/
structure Device.Posted (d : Device) (secure : Bool) (y : Sec) (code : Nat) (e : Device) : Prop where
  sec : ∃ tag, e.sec = y.post secure code tag
  out : e.out = .sec code :: d.out
  frame : e = { d with sec := e.sec, out := e.out, fresh := e.fresh }

theorem Device.secResult_posted (d : Device) (secure : Bool) (y : Sec) (code : Nat) :
    d.Posted secure y code (Device.secResult { d with sec := y } secure code) := ⟨⟨_, rfl⟩, rfl, rfl⟩

/-- A refusal without a stated code has some code other than done (log entry 79). -/
theorem Device.secRefuse_posted (d : Device) (secure : Bool) (y : Sec) :
    ∃ code, code ≠ secDone ∧ d.Posted secure y code (Device.secRefuse { d with sec := y } secure) :=
  ⟨1 + (Config.freeWord d.fresh).toNat % 10, by rw [secDone]; omega, ⟨_, rfl⟩, rfl, rfl⟩

/-- The mailbox after an answer, with the tag that it holds. -/
theorem Device.Posted.secure {d e : Device} {y : Sec} {code : Nat} (h : d.Posted true y code e) :
    e.sec = { y with secure := ⟨y.runs, code, e.sec.secure.tag, y.secure.started⟩ } := by
  obtain ⟨tag, hsec⟩ := h.sec
  rw [hsec]
  rfl

theorem Device.Posted.nonSecure {d e : Device} {y : Sec} {code : Nat} (h : d.Posted false y code e) :
    e.sec = { y with nonSecure := ⟨false, code, e.sec.nonSecure.tag, y.nonSecure.started⟩ } := by
  obtain ⟨tag, hsec⟩ := h.sec
  rw [hsec]
  rfl

theorem Device.secCommand_dead {d : Device} (hlive : d.secLive = false) (code : Nat) (secure both : Bool) (f : Device → Device) :
    d.secCommand code secure both f = d := if_pos (by simp [hlive])

theorem Device.secCommand_refused {d : Device} (hlive : d.secLive = true) (code : Nat) (f : Device → Device) :
    d.secCommand code false false f = d.secResult false secNotAllowed := by
  simp [Device.secCommand, hlive]

theorem Device.secCommand_taken {d : Device} (hlive : d.secLive = true) (code : Nat) {secure both : Bool} (f : Device → Device)
    (h : secure = true ∨ both = true) : d.secCommand code secure both f = f { d with sec := d.sec.takeUp secure code } := by
  obtain rfl | rfl := h
  · simp only [Device.secCommand, hlive]
    rfl
  · simp only [Device.secCommand, hlive, Bool.not_true, Bool.and_false]
    rfl

/-- A command through a mailbox answers nothing while the SEC takes none, and from the other mailbox that it may not give it. -/
theorem Runs.of_secCommand {c : Instr} {s : State} {code : Nat} {secure : Bool} {f : Device → Device} (hs : s.live)
    (hc : exec c s = s.on fun d => d.secCommand code secure false f) :
    (s.dev.secLive = false → Runs c s fun d => d = s.dev) ∧
    (s.dev.secLive = true → secure = false → Runs c s fun d =>
      d.sec = { s.dev.sec with nonSecure := ⟨false, secNotAllowed, d.sec.nonSecure.tag, s.dev.sec.nonSecure.started⟩ }
        ∧ d = { s.dev with sec := d.sec, out := d.out, fresh := d.fresh }) := by
  refine ⟨fun hlive => Runs.of_on hs hc (Device.secCommand_dead hlive _ _ _ _), ?_⟩
  rintro hlive rfl
  refine Runs.of_on hs hc ?_
  rw [Device.secCommand_refused hlive]
  have hpost := s.dev.secResult_posted false s.dev.sec secNotAllowed
  exact ⟨hpost.nonSecure, hpost.frame⟩

/-! ### Checks of the commands (R431 to R435) -/

section Checks

variable {d e : Device} {y : Sec} {secure ok : Bool} {code failed : Nat} {f : Device → Device}

theorem Device.Posted.pass (h : ok = true) (hf : d.Posted secure y code (f e)) :
    d.Posted secure y code (e.secCheck secure ok failed f) := by rwa [Device.secCheck, if_pos h]

theorem Device.Posted.fail (h : ok = false) : d.Posted secure y code (Device.secCheck { d with sec := y } secure ok code f) := by
  rw [Device.secCheck, if_neg (by simp [h])]
  exact d.secResult_posted secure y code

/-- A command that is taken up. -/
theorem Device.Posted.taken {started : Nat} {both : Bool} (hlive : d.secLive = true) (h : secure = true ∨ both = true)
    (hf : d.Posted secure y code (f { d with sec := d.sec.takeUp secure started })) :
    d.Posted secure y code (d.secCommand started secure both f) := by rwa [Device.secCommand_taken hlive _ _ h]

end Checks

section Commands

variable {d : Device} {r : SecReq} (hlive : d.secLive = true) (hsecure : r.secure = true)

include hlive hsecure

/-! ### Owners, steps and the lifecycle (R431, R433 to R435) -/

theorem Device.ownerAdd_unsigned (harg : r.arg < 4) (hfree : bitOf d.sec.owners r.arg = false)
    (h : d.sec.lifecycle ≠ .owned ∨ d.sec.owners ≠ 0 ∧ d.sec.signed r.sig = false) :
    d.Posted true (d.sec.takeUp true 0x30) secSignature (d.ownerAdd r) := by
  have hright : (d.sec.lifecycle == .owned && (d.sec.owners == 0 || d.sec.signed r.sig)) = false := by
    obtain h | ⟨h, hs⟩ := h
    · simp [h]
    · simp [h, hs]
  rw [Device.ownerAdd, hsecure]
  exact .taken hlive (.inl rfl) (.pass (decide_eq_true harg) (.pass ((Bool.not_eq_true' _).mpr hfree) (.fail hright)))

theorem Device.ownerAdd_signed (harg : r.arg < 4) (hfree : bitOf d.sec.owners r.arg = false) (howned : d.sec.lifecycle = .owned)
    (hsigned : d.sec.owners = 0 ∨ d.sec.signed r.sig = true) (hotp : r.sig.otpOk = true) :
    d.Posted true ((d.sec.takeUp true 0x30).setOwner r.arg (Config.sha384 r.bytes)) secDone (d.ownerAdd r) := by
  have hright : (d.sec.lifecycle == .owned && (d.sec.owners == 0 || d.sec.signed r.sig)) = true := by simpa [howned] using hsigned
  rw [Device.ownerAdd, hsecure]
  exact .taken hlive (.inl rfl) (.pass (decide_eq_true harg) (.pass ((Bool.not_eq_true' _).mpr hfree) (.pass hright (.pass hotp
    (d.secResult_posted _ _ _)))))

theorem Device.ownerRevoke_unsigned (harg : r.arg < 4) (h : d.sec.signed r.sig = false ∨ r.sig.owner = r.arg) :
    d.Posted true (d.sec.takeUp true 0x31) secSignature (d.ownerRevoke r) := by
  have hright : (d.sec.signed r.sig && r.sig.owner != r.arg) = false := by
    obtain h | h := h
    · simp [h]
    · simp [h]
  rw [Device.ownerRevoke, hsecure]
  exact .taken hlive (.inl rfl) (.pass (decide_eq_true harg) (.fail hright))

theorem Device.ownerRevoke_signed (harg : r.arg < 4) (hsigned : d.sec.signed r.sig = true) (hother : r.sig.owner ≠ r.arg)
    (howner : bitOf d.sec.owners r.arg = true) (hrev : bitOf d.sec.revoked r.arg = false) (hotp : r.sig.otpOk = true) :
    d.Posted true { d.sec.takeUp true 0x31 with revoked := d.sec.revoked + 2 ^ r.arg } secDone (d.ownerRevoke r) := by
  have hright : (d.sec.signed r.sig && r.sig.owner != r.arg) = true := by simp [hsigned, hother]
  have husable : ¬(!bitOf (d.sec.takeUp true 0x31).owners r.arg || bitOf (d.sec.takeUp true 0x31).revoked r.arg) = true := by
    simp [Sec.takeUp, howner, hrev]
  rw [Device.ownerRevoke, hsecure]
  refine .taken hlive (.inl rfl) (.pass (decide_eq_true harg) (.pass hright ?_))
  rw [if_neg husable]
  exact .pass hotp (d.secResult_posted _ _ _)

theorem Device.rollback_low (harg : r.arg ≤ 64) (hsigned : d.sec.signed r.sig = true) (hstep : r.arg ≤ d.sec.step) :
    d.Posted true (d.sec.takeUp true 0x32) secRollback (d.rollback r) := by
  rw [Device.rollback, hsecure]
  exact .taken hlive (.inl rfl) (.pass (decide_eq_true harg) (.pass hsigned (.fail (decide_eq_false (Nat.not_lt.mpr hstep)))))

theorem Device.rollback_high (harg : r.arg ≤ 64) (hsigned : d.sec.signed r.sig = true) (hstep : d.sec.step < r.arg)
    (hotp : r.sig.otpOk = true) : d.Posted true { d.sec.takeUp true 0x32 with step := r.arg } secDone (d.rollback r) := by
  rw [Device.rollback, hsecure]
  exact .taken hlive (.inl rfl) (.pass (decide_eq_true harg) (.pass hsigned (.pass (decide_eq_true hstep) (.pass hotp
    (d.secResult_posted _ _ _)))))

section Lifecycle

variable {l : Lifecycle} (hl : Lifecycle.ofCode r.arg = some l)

include hl

/-- A transition that the lifecycle table lacks. -/
theorem Device.lifecycleCmd_barred (hgo : d.sec.lifecycle.canGo l = false) :
    ∃ code, code ≠ secDone ∧ d.Posted true (d.sec.takeUp true 0x33) code (d.lifecycleCmd r) := by
  obtain ⟨code, hcode, hpost⟩ := d.secRefuse_posted true (d.sec.takeUp true 0x33)
  refine ⟨code, hcode, ?_⟩
  have hgo' : (!(d.sec.takeUp true 0x33).lifecycle.canGo l) = true := by simp [Sec.takeUp, hgo]
  rw [Device.lifecycleCmd, hsecure]
  refine .taken hlive (.inl rfl) ?_
  simp only [hl]
  rwa [if_pos hgo']

variable (hgo : d.sec.lifecycle.canGo l = true)

include hgo

theorem Device.lifecycleCmd_unsigned (hsigned : d.sec.lifecycleSigned r.sig = false) :
    d.Posted true (d.sec.takeUp true 0x33) secSignature (d.lifecycleCmd r) := by
  have hgo' : ¬(!(d.sec.takeUp true 0x33).lifecycle.canGo l) = true := by simp [Sec.takeUp, hgo]
  rw [Device.lifecycleCmd, hsecure]
  refine .taken hlive (.inl rfl) ?_
  simp only [hl]
  rw [if_neg hgo']
  exact .fail hsigned

theorem Device.lifecycleCmd_signed (hsigned : d.sec.lifecycleSigned r.sig = true) (hotp : r.sig.otpOk = true) :
    d.Posted true { d.sec.takeUp true 0x33 with
      nextLifecycle := some l, claim := if l = .owned then Config.sha384 r.bytes else d.sec.claim } secDone (d.lifecycleCmd r) := by
  have hgo' : ¬(!(d.sec.takeUp true 0x33).lifecycle.canGo l) = true := by simp [Sec.takeUp, hgo]
  rw [Device.lifecycleCmd, hsecure]
  refine .taken hlive (.inl rfl) ?_
  simp only [hl]
  rw [if_neg hgo']
  exact .pass hsigned (.pass hotp (d.secResult_posted _ _ _))

end Lifecycle

end Commands

/-! ### Keys (R437, R438) -/

/-- A key load while the source is in error. -/
theorem Device.loadKey_err {d : Device} (h : d.sec.entropyErr = true) (k : Nat) : d.loadKey k = d.secResult true secEntropy := if_pos h

theorem Device.loadKey_named {d : Device} (h : d.sec.entropyErr = false) {k : Nat} (hk : d.slotNamed k = true) :
    d.loadKey k = d.secResult true secSlotInUse := by
  rw [Device.loadKey, if_neg (by simp [h]), if_pos hk]

/-- The slots that hold keys once slot `k` is loaded. -/
def keysWith (k : Nat) (l : List Nat) : List Nat := if l.contains k then l else k :: l

theorem mem_keysWith {k x : Nat} {l : List Nat} : x ∈ keysWith k l ↔ x = k ∨ x ∈ l := by
  unfold keysWith
  split
  · next h =>
    have hk : k ∈ l := List.contains_iff_mem.mp h
    exact ⟨.inr, fun hx => hx.elim (fun e => e ▸ hk) id⟩
  · exact List.mem_cons

theorem Device.loadKey_free {d : Device} (h : d.sec.entropyErr = false) {k : Nat} (hk : d.slotNamed k = false) :
    d.loadKey k = Device.secResult { d with sec := { d.sec with keys := keysWith k d.sec.keys } } true secDone := by
  rw [Device.loadKey, if_neg (by simp [h]), if_neg (by simp [hk])]
  rfl

section KeySlot

variable {d : Device} {r : SecReq} (hlive : d.secLive = true) (hsecure : r.secure = true) (hlo : 2 ≤ r.arg) (hhi : r.arg ≤ 15)

include hlive hsecure hlo hhi

/-- A key slot that may be loaded: the request waits while the source restarts. -/
theorem Device.keySlot_taken : d.keySlot r =
    if (d.sec.entropyStalled && !d.sec.entropyErr) = true then { d with sec := { d.sec.takeUp true 0x40 with
      stalledKeys := d.sec.stalledKeys ++ [r.arg], secure := { (d.sec.takeUp true 0x40).secure with busy := true } } }
    else Device.loadKey { d with sec := d.sec.takeUp true 0x40 } r.arg := by
  rw [Device.keySlot, Device.secCommand_taken hlive _ _ (.inl hsecure), hsecure, Device.secCheck_of _ _ _ _ (by simp [hlo, hhi])]
  rfl

theorem Device.keySlot_err (herr : d.sec.entropyErr = true) :
    d.Posted true (d.sec.takeUp true 0x40) secEntropy (d.keySlot r) := by
  rw [Device.keySlot_taken hlive hsecure hlo hhi, if_neg (by simp [herr])]
  rw [Device.loadKey_err (d := { d with sec := d.sec.takeUp true 0x40 }) herr]
  exact d.secResult_posted _ _ _

variable (herr : d.sec.entropyErr = false) (hstall : d.sec.entropyStalled = false)

include herr hstall

theorem Device.keySlot_named (hname : d.slotNamed r.arg = true) :
    d.Posted true (d.sec.takeUp true 0x40) secSlotInUse (d.keySlot r) := by
  rw [Device.keySlot_taken hlive hsecure hlo hhi, if_neg (by simp [hstall])]
  rw [Device.loadKey_named (d := { d with sec := d.sec.takeUp true 0x40 }) herr hname]
  exact d.secResult_posted _ _ _

theorem Device.keySlot_free (hname : d.slotNamed r.arg = false) :
    d.Posted true { d.sec.takeUp true 0x40 with keys := keysWith r.arg d.sec.keys } secDone (d.keySlot r) := by
  rw [Device.keySlot_taken hlive hsecure hlo hhi, if_neg (by simp [hstall])]
  rw [Device.loadKey_free (d := { d with sec := d.sec.takeUp true 0x40 }) herr hname]
  exact d.secResult_posted _ _ _

end KeySlot

/-! ### Stalled requests go on (R437) -/

/-- What keys that are loaded in a row leave: the slots of the list that no enabled checker names are loaded, unless the source is in
error, and nothing but the enclave, outputs and free values changes. -/
structure Device.Loaded (d : Device) (ks : List Nat) (e : Device) : Prop where
  frame : e = { d with sec := e.sec, out := e.out, fresh := e.fresh }
  rest : ({ e.sec with keys := [], secure := SecBox.init } : Sec) = { d.sec with keys := [], secure := SecBox.init }
  keeps : ∀ k ∈ d.sec.keys, k ∈ e.sec.keys
  loads : ∀ k ∈ ks, d.sec.entropyErr = false → d.slotNamed k = false → k ∈ e.sec.keys
  fails : d.sec.entropyErr = true → e.sec.keys = d.sec.keys

theorem Device.Loaded.entropyErr {d e : Device} {ks : List Nat} (h : d.Loaded ks e) : e.sec.entropyErr = d.sec.entropyErr :=
  (congrArg Sec.entropyErr h.rest :)

theorem Device.Loaded.slotNamed {d e : Device} {ks : List Nat} (h : d.Loaded ks e) (k : Nat) : e.slotNamed k = d.slotNamed k := by
  rw [h.frame]
  rfl

theorem Device.loadKey_loaded (d : Device) (k : Nat) : d.Loaded [k] (d.loadKey k) := by
  cases herr : d.sec.entropyErr with
  | true =>
    rw [Device.loadKey_err herr]
    exact ⟨rfl, rfl, fun _ h => h, fun _ _ h => absurd h (by simp [herr]), fun _ => rfl⟩
  | false =>
    cases hname : d.slotNamed k with
    | true =>
      rw [Device.loadKey_named herr hname]
      refine ⟨rfl, rfl, fun _ h => h, fun x hx _ hfree => ?_, fun _ => rfl⟩
      rw [List.mem_singleton.mp hx, hname] at hfree
      cases hfree
    | false =>
      rw [Device.loadKey_free herr hname]
      exact ⟨rfl, rfl, fun x hx => mem_keysWith.mpr (.inr hx), fun x hx _ _ => mem_keysWith.mpr (.inl (List.mem_singleton.mp hx)),
        fun h => absurd h (by simp [herr])⟩

theorem Device.Loaded.trans {d e f : Device} {ks ks' : List Nat} (h : d.Loaded ks e) (h' : e.Loaded ks' f) :
    d.Loaded (ks ++ ks') f := by
  refine ⟨h'.frame.trans (congrArg (fun x : Device => { x with sec := f.sec, out := f.out, fresh := f.fresh }) h.frame),
    h'.rest.trans h.rest, fun x hx => h'.keeps x (h.keeps x hx), fun x hx herr hfree => ?_,
    fun herr => (h'.fails (h.entropyErr.trans herr)).trans (h.fails herr)⟩
  rcases List.mem_append.mp hx with hx | hx
  · exact h'.keeps x (h.loads x hx herr hfree)
  · exact h'.loads x hx (h.entropyErr.trans herr) ((h.slotNamed x).trans hfree)

theorem Device.loadKeys_loaded (ks : List Nat) (d : Device) : d.Loaded ks (ks.foldl (fun d k => d.loadKey k) d) := by
  induction ks generalizing d with
  | nil => exact ⟨rfl, rfl, fun _ h => h, fun _ h => absurd h List.not_mem_nil, fun _ => rfl⟩
  | cons k ks ih => exact (d.loadKey_loaded k).trans (ih _)

theorem Device.unstall_loaded (d : Device) :
    Device.Loaded { d with sec := { d.sec with stalledKeys := [] } } d.sec.stalledKeys d.unstall :=
  Device.loadKeys_loaded _ _

/-! ### Attestation (R443) -/

/-- The plain registers after bytes are put into them. -/
def regsPut (t : Tab Word) (a : Nat) (bs : List Byte) : Tab Word :=
  (List.range ((bs.length + 3) / 4)).foldl (fun t i => tput wordDef t (a + 4 * i) (BitVec.ofNat 32 (field bs (4 * i) 4))) t

theorem Device.putRegs_eq (d : Device) (a : Nat) (bs : List Byte) : d.putRegs a bs = { d with regs := regsPut d.regs a bs } :=
  List.foldl_hom (fun t => ({ d with regs := t } : Device)) fun _ _ => rfl

/-- The report is signed at an instant of the present tempo, and its bytes stand in the response buffer of the mailbox that asked. -/
theorem Device.attest_eq {d : Device} {r : SecReq} (hlive : d.secLive = true) (hlen : r.bytes.length = 48) :
    ∃ tag, d.attest r = { d with
      sec := (d.sec.takeUp r.secure 0x20).post r.secure secDone tag
      regs := (d.putRegs (responseBase r.secure) (d.sec.makeReport d.stamp.1 Config.serial.toNat r.bytes)).regs
      out := .sec secDone :: d.out
      fresh := d.fresh + 2 } := by
  have hreport : (d.sec.takeUp r.secure 0x20).makeReport d.stamp.1 Config.serial.toNat r.bytes
      = d.sec.makeReport d.stamp.1 Config.serial.toNat r.bytes := by
    cases r.secure <;> rfl
  rw [Device.attest, Device.secCommand_taken hlive _ _ (.inr rfl), Device.secCheck_of _ _ _ _ (beq_iff_eq.mpr hlen), Device.putRegs_eq,
    ← hreport]
  change ∃ tag, Device.secResult (Device.putRegs { d with sec := d.sec.takeUp r.secure 0x20, fresh := d.fresh + 1 } _ _) _ _ = _
  rw [Device.putRegs_eq]
  exact ⟨_, rfl⟩

/-! ### The entropy source (R437) -/

/-- The enclave after another failed health test that leaves the source in error or not. -/
def Sec.failed (x : Sec) (err : Bool) : Sec :=
  { x with entropyFails := x.entropyFails + 1, entropyStalled := true, entropyErr := err }

theorem Device.entropyFail_again {d : Device} (herr : d.sec.entropyErr = false) (h : d.sec.entropyFails < 2) :
    d.entropyFail = { d with sec := d.sec.failed d.sec.entropyErr } := by
  have hstill : (d.sec.entropyErr || decide (3 ≤ d.sec.entropyFails + 1)) = false := by simp [herr]; omega
  exact (if_neg (Bool.eq_false_iff.mp hstill)).trans
    (congrArg (fun b => ({ d with sec := d.sec.failed b } : Device)) (hstill.trans herr.symm))

theorem Device.entropyFail_third {d : Device} (h : 2 ≤ d.sec.entropyFails) :
    d.entropyFail = Device.unstall { d with sec := d.sec.failed true } := by
  have herr : (d.sec.entropyErr || decide (3 ≤ d.sec.entropyFails + 1)) = true := by
    rw [decide_eq_true (Nat.succ_le_succ h), Bool.or_true]
  exact (if_pos herr).trans (congrArg (fun b => Device.unstall { d with sec := d.sec.failed b }) herr)

/-! ### The obligation -/

/-- Settles O55, command by command. -/
theorem secCommands : Obligations.SecCommands := by
  refine ⟨fun s r hs => ?mailbox, fun s hs => ?entropy⟩
  case mailbox =>
    intro x up frame done
    have answered {c : Instr} {y : Sec} {code : Nat} {e : Device} (hc : Runs c s fun d => d = e) (h : s.dev.Posted true y code e) :
        Runs c s (done y code) := by
      obtain ⟨d, hexec, rfl⟩ := hc
      exact ⟨d, hexec, h.secure, h.out, h.frame⟩
    have ownerAdd : Runs (.ownerAdd r) s fun d => d = s.dev.ownerAdd r := Runs.of_on hs (exec_ownerAdd r s) rfl
    have ownerRevoke : Runs (.ownerRevoke r) s fun d => d = s.dev.ownerRevoke r := Runs.of_on hs (exec_ownerRevoke r s) rfl
    have rollback : Runs (.rollbackAdvance r) s fun d => d = s.dev.rollback r := Runs.of_on hs (exec_rollbackAdvance r s) rfl
    have lifecycle : Runs (.lifecycle r) s fun d => d = s.dev.lifecycleCmd r := Runs.of_on hs (exec_lifecycle r s) rfl
    have keySlot : Runs (.keySlot r) s fun d => d = s.dev.keySlot r := Runs.of_on hs (exec_keySlot r s) rfl
    refine ⟨fun hlive c hc => ?dead, fun hlive hsecure c hc => ?refused, fun hlive hsecure =>
      ⟨fun harg hfree => ⟨fun howned hsigned hotp => ?_, fun h => answered ownerAdd (Device.ownerAdd_unsigned hlive hsecure harg hfree h)⟩,
        fun harg hsigned hother howner hrev hotp =>
          answered ownerRevoke (Device.ownerRevoke_signed hlive hsecure harg hsigned hother howner hrev hotp),
        fun harg h => answered ownerRevoke (Device.ownerRevoke_unsigned hlive hsecure harg h),
        fun harg hsigned => ⟨fun hstep hotp => answered rollback (Device.rollback_high hlive hsecure harg hsigned hstep hotp),
          fun hstep => answered rollback (Device.rollback_low hlive hsecure harg hsigned hstep)⟩,
        fun l hl => ⟨fun hgo hsigned hotp => answered lifecycle (Device.lifecycleCmd_signed hlive hsecure hl hgo hsigned hotp),
          fun hgo hsigned => answered lifecycle (Device.lifecycleCmd_unsigned hlive hsecure hl hgo hsigned), fun hgo => ?_⟩,
        fun hlo hhi => ?keys⟩, fun hlive hlen => ?attest⟩
    case dead =>
      simp only [List.mem_cons, List.not_mem_nil, or_false] at hc
      obtain rfl | rfl | rfl | rfl | rfl | rfl | rfl := hc
      case inr.inr.inr.inr.inr.inr => exact Runs.of_on hs (exec_attest r s) (Device.secCommand_dead hlive _ _ _ _)
      · exact (Runs.of_secCommand hs (exec_ownerAdd r s)).1 hlive
      · exact (Runs.of_secCommand hs (exec_ownerRevoke r s)).1 hlive
      · exact (Runs.of_secCommand hs (exec_rollbackAdvance r s)).1 hlive
      · exact (Runs.of_secCommand hs (exec_lifecycle r s)).1 hlive
      · exact (Runs.of_secCommand hs (exec_keySlot r s)).1 hlive
      · exact (Runs.of_secCommand hs (exec_regionRelease r s)).1 hlive
    case refused =>
      simp only [List.mem_cons, List.not_mem_nil, or_false] at hc
      obtain rfl | rfl | rfl | rfl | rfl | rfl := hc
      · exact (Runs.of_secCommand hs (exec_ownerAdd r s)).2 hlive hsecure
      · exact (Runs.of_secCommand hs (exec_ownerRevoke r s)).2 hlive hsecure
      · exact (Runs.of_secCommand hs (exec_rollbackAdvance r s)).2 hlive hsecure
      · exact (Runs.of_secCommand hs (exec_lifecycle r s)).2 hlive hsecure
      · exact (Runs.of_secCommand hs (exec_keySlot r s)).2 hlive hsecure
      · exact (Runs.of_secCommand hs (exec_regionRelease r s)).2 hlive hsecure
    case keys =>
      refine ⟨fun herr => answered keySlot (Device.keySlot_err hlive hsecure hlo hhi herr),
        fun herr hstall => Runs.of_on hs (exec_keySlot r s) ?_,
        fun herr hstall hname => answered keySlot (Device.keySlot_named hlive hsecure hlo hhi herr hstall hname),
        fun herr hstall hname => Runs.of_on hs (exec_keySlot r s) ?_⟩
      · exact (Device.keySlot_taken hlive hsecure hlo hhi).trans
          (if_pos (by simp [show s.dev.sec.entropyErr = false from herr, show s.dev.sec.entropyStalled = true from hstall]))
      · have hpost := Device.keySlot_free hlive hsecure hlo hhi herr hstall hname
        obtain ⟨tag, hsec⟩ := hpost.sec
        have hkeys : (s.dev.keySlot r).sec.keys = keysWith r.arg x.keys := (congrArg Sec.keys hsec :)
        rw [hkeys]
        exact ⟨mem_keysWith.mpr (.inl rfl), fun k hk => mem_keysWith.mpr (.inr hk), fun k hk => mem_keysWith.mp hk,
          hpost.secure, hpost.out, hpost.frame⟩
    case attest =>
      refine Runs.of_on hs (exec_attest r s) ?_
      obtain ⟨tag, he⟩ := Device.attest_eq hlive hlen
      refine ⟨s.dev.stamp.1, fun hstarted => Device.stamp_tempo hstarted, ?_⟩
      rw [he]
      generalize r.secure = secure
      cases secure
      · exact ⟨rfl, rfl, rfl, rfl⟩
      · exact ⟨rfl, rfl, rfl, rfl⟩
    · have hpost := Device.ownerAdd_signed hlive hsecure harg hfree howned hsigned hotp
      refine Runs.of_on hs (exec_ownerAdd r s) ⟨⟨hpost.secure, hpost.out, hpost.frame⟩, ?_⟩
      obtain ⟨tag, hsec⟩ := hpost.sec
      rw [hsec]
      exact ⟨bitOf_lor_two_pow _ _, tget_tput_same _ _ _ _⟩
    · obtain ⟨code, hcode, hpost⟩ := Device.lifecycleCmd_barred hlive hsecure hl hgo
      exact Runs.of_on hs (exec_lifecycle r s) ⟨code, hcode, hpost.secure, hpost.out, hpost.frame⟩
  case entropy =>
    intro x
    refine ⟨fun n => ⟨fun hlen => Runs.of_on hs (exec_attestNonce n s) ?_, fun hlen => Runs.of_on hs (exec_attestNonce n s) ?_⟩,
      fun herr hfails => Runs.of_on hs (exec_entropyHealthFail s) (Device.entropyFail_again herr hfails),
      fun hfails => Runs.of_on hs (exec_entropyHealthFail s) ?_, Runs.of_on hs (exec_entropySourceRestarted s) ?_⟩
    · rw [Device.setNonce, if_pos hlen]
      rfl
    · rw [Device.setNonce, if_neg hlen]
      rfl
    · have hloaded := Device.unstall_loaded { s.dev with sec := s.dev.sec.failed true }
      rw [Device.entropyFail_third hfails]
      exact ⟨hloaded.entropyErr, (congrArg Sec.stalledKeys hloaded.rest :), hloaded.fails rfl, hloaded.frame⟩
    · have hloaded := Device.unstall_loaded (s.dev.modSec fun x => { x with entropyFails := 0, entropyStalled := false })
      exact ⟨(congrArg Sec.entropyFails hloaded.rest :), (congrArg Sec.entropyStalled hloaded.rest :),
        (congrArg Sec.stalledKeys hloaded.rest :), hloaded.entropyErr, hloaded.keeps, hloaded.loads, hloaded.frame⟩

end Sys2Proof.Machine

/-! SUPPORT. Sealed regions, tamper and secure boot (R432, R436, R439 to R442, R445, R467): what a sealed load claims, what its end puts in
place, and what a tamper event leaves of links and keys. -/

namespace Sys2Proof.Machine

open Sys2Proof

/-! ### Zeros over ranges (R439) -/

/-- A range that is cleared reads zero, and every other byte as before; an empty range changes nothing. -/
theorem Device.byte_zero_if (d : Device) (lo hi a : Nat) : (d.zero lo hi).byte a = if lo ≤ a ∧ a < hi then 0 else d.byte a := by
  by_cases h : lo < hi
  · exact d.byte_zero h a
  · rw [Device.zero, if_pos (Nat.not_lt.mp h), if_neg (by omega)]

section ZeroRanges

variable {α : Type} (lo hi : α → Nat) (l : List α)

theorem Device.byte_foldl_zero_out {a : Nat} (h : ∀ x ∈ l, a < lo x ∨ hi x ≤ a) (d : Device) :
    (l.foldl (fun d x => d.zero (lo x) (hi x)) d).byte a = d.byte a := by
  refine List.foldlRecOn (motive := fun e : Device => e.byte a = d.byte a) l _ rfl fun e he x hx => ?_
  have hout := h x hx
  rw [Device.byte_zero_if, if_neg (by omega), he]

theorem Device.byte_foldl_zero_in {a : Nat} {x : α} (hx : x ∈ l) (h : lo x ≤ a ∧ a < hi x) (d : Device) :
    (l.foldl (fun d x => d.zero (lo x) (hi x)) d).byte a = 0 := by
  refine foldl_establishes (P := fun e : Device => e.byte a = 0) hx (fun e => ?_) (fun e y he => ?_) d
  · rw [Device.byte_zero_if, if_pos h]
  · rw [Device.byte_zero_if, he, ite_self]

theorem Device.foldl_zero_frame (d : Device) :
    ∃ m sc, l.foldl (fun d x => d.zero (lo x) (hi x)) d = { d with mem := m, scrambles := sc } := by
  refine List.foldlRecOn (motive := fun e : Device => ∃ m sc, e = { d with mem := m, scrambles := sc }) l _ ⟨_, _, rfl⟩ ?_
  rintro _ ⟨m, sc, rfl⟩ x -
  exact ⟨_, _, Device.zero_frame _ _ _⟩

end ZeroRanges

/-! ### The start of a sealed load (R433, R434, R440, R441) -/

/-- The checks of a sealed load pass. -/
structure Device.SealChecked (d : Device) (q : SealLoadReq) : Prop where
  form : q.package.formOk = true ∧ q.package.step ≤ 64
  signed : d.sec.signed q.sig = true ∧ q.sig.owner = q.package.owner
  step : d.sec.step ≤ q.package.step
  fits : (q.package.size + 127) / 128 * 128 ≤ d.openSize (q.region.val / 64) (q.region.val % 64)

section SealStart

variable {d : Device} {q : SealLoadReq} (hq : d.SealChecked q)

include hq

theorem Device.sealStart_keyless (hkey : q.package.modelKey = none) : d.sealStart q = d.secRefuse true := by
  obtain ⟨hform, hsigned, hstep, hfits⟩ := hq
  rw [Device.sealStart, Device.secCheck_of _ _ _ _ (by simp [hform]), Device.secCheck_of _ _ _ _ (by simp [hsigned]),
    Device.secCheck_of _ _ _ _ (decide_eq_true hstep), Device.secCheck_of _ _ _ _ (decide_eq_true hfits), hkey]

/-- A load with a key: it is refused where no slot is free or its region is in use. -/
theorem Device.sealStart_full (hkey : q.package.modelKey ≠ none)
    (h : d.sec.freeSlot = none ∨ (d.sec.region q.region.val).phase ≠ .none) : d.sealStart q = d.secResult true secSlotInUse := by
  obtain ⟨hform, hsigned, hstep, hfits⟩ := hq
  obtain ⟨key, hkey⟩ := Option.ne_none_iff_exists'.mp hkey
  rw [Device.sealStart, Device.secCheck_of _ _ _ _ (by simp [hform]), Device.secCheck_of _ _ _ _ (by simp [hsigned]),
    Device.secCheck_of _ _ _ _ (decide_eq_true hstep), Device.secCheck_of _ _ _ _ (decide_eq_true hfits), hkey]
  cases hslot : d.sec.freeSlot with
  | none => rfl
  | some slot => exact if_neg (h.resolve_left (by simp [hslot]))

/-- The region of a load that begins, and the enclave that runs it. -/
def Sec.claims (x : Sec) (q : SealLoadReq) (slot tag : Nat) (key : List Byte) : Sec :=
  { x.setRegion q.region.val ⟨.moving, slot, q.package.size, q.package.digest, key, tag, secDone⟩ with
    keys := slot :: x.keys, secure := { x.secure with busy := true } }

theorem Device.sealStart_claims {key : List Byte} {slot : Nat} (hkey : q.package.modelKey = some key) (hslot : d.sec.freeSlot = some slot)
    (hphase : (d.sec.region q.region.val).phase = .none) : ∃ tag v, d.sealStart q =
      Device.setBlk { d with sec := d.sec.claims q slot tag key, fresh := d.fresh + 1 } (rgnBlock (q.region.val / 64)) v := by
  obtain ⟨hform, hsigned, hstep, hfits⟩ := hq
  rw [Device.sealStart, Device.secCheck_of _ _ _ _ (by simp [hform]), Device.secCheck_of _ _ _ _ (by simp [hsigned]),
    Device.secCheck_of _ _ _ _ (decide_eq_true hstep), Device.secCheck_of _ _ _ _ (decide_eq_true hfits), hkey, hslot]
  obtain ⟨v, hv⟩ := Device.secSeal_eq
    { d with sec := d.sec.claims q slot ((Config.freeWord d.fresh).toNat % 2 ^ 24) key, fresh := d.fresh + 1 }
    (q.region.val / 64) (q.region.val % 64) (sealAttr (d.attrOpen (q.region.val / 64) (q.region.val % 64)) slot)
  exact ⟨_, v, (if_pos hphase).trans hv⟩

end SealStart

theorem Sec.claims_region (x : Sec) (q : SealLoadReq) (slot tag : Nat) (key : List Byte) (j : Nat) :
    (x.claims q slot tag key).region j
      = if j = q.region.val then ⟨.moving, slot, q.package.size, q.package.digest, key, tag, secDone⟩ else x.region j :=
  Sec.setRegion_region_if x q.region.val j ⟨.moving, slot, q.package.size, q.package.digest, key, tag, secDone⟩

section SealLoad

variable {d : Device} {q : SealLoadReq} (hlive : d.secLive = true) (hsecure : q.secure = true)

include hlive hsecure

/-- A load whose stack is not trained, or behind a command that runs, waits (R441, R467). -/
theorem Device.sealLoad_waits (h : d.pwr.hs (q.region.val / 64) ≠ .trained ∨ d.sec.runs = true) :
    d.sealLoad q = { d with sec := { d.sec.takeUp true 0x10 with
      waiting := d.sec.waiting ++ [q], secure := { (d.sec.takeUp true 0x10).secure with busy := true } } } := by
  rw [Device.sealLoad, Device.secCommand_taken hlive _ _ (.inl hsecure), hsecure]
  refine if_neg fun hgo => ?_
  obtain ⟨htrained, hidle⟩ := hgo
  exact h.elim (fun h => h htrained) fun h => Bool.false_ne_true (hidle.symm.trans h)

theorem Device.sealLoad_starts (ht : d.pwr.hs (q.region.val / 64) = .trained) (hruns : d.sec.runs = false) :
    d.sealLoad q = Device.sealStart { d with sec := d.sec.takeUp true 0x10 } q := by
  rw [Device.sealLoad, Device.secCommand_taken hlive _ _ (.inl hsecure), hsecure]
  exact if_pos ⟨ht, hruns⟩

end SealLoad

/-! ### The end of a sealed load and of a region (R441, R442) -/

theorem SealRegion.plain_length {y : SealRegion} {chunks : List (List Byte × List Byte)} {p : List Byte} (h : y.plain chunks = some p) :
    p.length = y.size := by
  unfold SealRegion.plain at h
  split at h
  · split_ifs at h with hgood
    obtain ⟨hlen, -⟩ := hgood
    exact (Option.some.inj h) ▸ hlen
  · cases h

theorem Sec.setRegion_setRegion (x : Sec) (k : Nat) (v w : SealRegion) : (x.setRegion k v).setRegion k w = x.setRegion k w :=
  congrArg (fun t => ({ x with regions := t } : Sec)) (tput_tput_same _ _ _ _ _)

/-- A region whose pairs are wiped: no byte outside its range changes. -/
theorem Device.regionWipe_leaves (d : Device) (h r : Nat) :
    (d.regionWipe h r).sec = d.sec.setRegion (h * 64 + r) { d.sec.region (h * 64 + r) with phase := .releasing }
    ∧ (∀ b, b < (d.regionRange h r).1 ∨ (d.regionRange h r).2 ≤ b → (d.regionWipe h r).byte b = d.byte b)
    ∧ ∃ sec moves mem scr, d.regionWipe h r = { d with sec := sec, moves := moves, mem := mem, scrambles := scr } := by
  obtain ⟨m, sc, hwiped, hbyte⟩ : ∃ m sc,
      (if bitOf (d.sw (rgnBlock h) (rgnBase h + r * 0x20 + 0x10)) 0 then d.zero (d.regionRange h r).1 (d.regionRange h r).2 else d)
        = { d with mem := m, scrambles := sc }
      ∧ ∀ b, b < (d.regionRange h r).1 ∨ (d.regionRange h r).2 ≤ b →
          Device.byte { d with mem := m, scrambles := sc } b = d.byte b := by
    split
    · refine ⟨_, _, d.zero_frame _ _, fun b hb => ?_⟩
      rw [← Device.zero_frame, Device.byte_zero_if, if_neg (by omega)]
    · exact ⟨d.mem, d.scrambles, rfl, fun _ _ => rfl⟩
  simp only [Device.regionWipe, hwiped]
  obtain ⟨v, hv⟩ := Device.secSeal_eq
    { d with sec := d.sec.setRegion (h * 64 + r) { d.sec.region (h * 64 + r) with phase := .releasing }, mem := m, scrambles := sc }
    h r (d.attrOpen h r / 2 * 2)
  refine ⟨(congrArg Device.sec hv).trans rfl, fun b hb => (congrArg (fun e : Device => e.byte b) hv).trans (hbyte b hb), _, _, _, _, hv⟩

/-- A load whose chunks open: the plaintext stands in the range with zeros behind it, and the region goes to its next move. -/
theorem Device.sealDone_opens {d : Device} {k : Nat} {chunks : List (List Byte × List Byte)} {p : List Byte}
    (hphase : (d.sec.region k).phase = .loading) (hp : (d.sec.region k).plain chunks = some p) :
    let a := (d.regionRange (k / 64) (k % 64)).1
    let top := a + ((d.sec.region k).size + 127) / 128 * 128
    ∃ v, d.sealDone k chunks = Device.setBlk { d with
      sec := d.sec.setRegion k { d.sec.region k with phase := .readying }
      mem := ((d.zero a top).put a p).mem, scrambles := ((d.zero a top).put a p).scrambles } (rgnBlock (k / 64)) v := by
  intro a top
  have hput : (d.zero a top).put a p = { d with mem := ((d.zero a top).put a p).mem, scrambles := ((d.zero a top).put a p).scrambles } := by
    rw [Device.put_eq, Device.zero_frame]
  unfold Device.sealDone
  dsimp only
  rw [if_pos hphase, hp]
  dsimp only
  rw [hput]
  exact Device.secSeal_eq _ _ _ _

theorem Device.byte_put_zero (d : Device) {a n top : Nat} {p : List Byte} (hlen : p.length = n) (b : Nat) :
    ((d.zero a top).put a p).byte b
      = if a ≤ b ∧ b < a + n then p.getD (b - a) 0 else if a ≤ b ∧ b < top then 0 else d.byte b := by
  rw [Device.byte_put, hlen, Device.byte_zero_if]

theorem Device.sealDone_fails {d : Device} {k : Nat} {chunks : List (List Byte × List Byte)}
    (hphase : (d.sec.region k).phase = .loading) (hp : (d.sec.region k).plain chunks = none) :
    d.sealDone k chunks = Device.regionWipe { d with sec := d.sec.setRegion k { d.sec.region k with result := secDigest } }
      (k / 64) (k % 64) := by
  unfold Device.sealDone
  dsimp only
  rw [if_pos hphase, hp]
  rfl

theorem Device.sealDone_idle {d : Device} {k : Nat} (chunks : List (List Byte × List Byte)) (hphase : (d.sec.region k).phase ≠ .loading) :
    d.sealDone k chunks = d := if_neg hphase

section Release

variable {d : Device} {r : SecReq} (hlive : d.secLive = true) (hsecure : r.secure = true) (harg : r.arg < 128)

/-- The enclave as the release of a READY region runs: its tag is free (log entry 79). -/
def Sec.closes (x : Sec) (k tag : Nat) : Sec :=
  { x.setRegion k { x.region k with phase := .closing, tag := tag, result := secDone } with secure := { x.secure with busy := true } }

/-- The enclave as a load is aborted by the release of its region: the load is answered, and the release runs. -/
def Sec.aborts (x : Sec) (k tag : Nat) : Sec :=
  let y := x.post true secAborted (x.region k).tag
  { y.setRegion k { x.region k with tag := tag, result := secDone } with secure := { y.secure with busy := true } }

theorem Sec.closes_region (x : Sec) (k tag j : Nat) : (x.closes k tag).region j
    = if j = k then { x.region k with phase := .closing, tag := tag, result := secDone } else x.region j :=
  Sec.setRegion_region_if x k j { x.region k with phase := .closing, tag := tag, result := secDone }

theorem Sec.aborts_region (x : Sec) (k tag j : Nat) : (x.aborts k tag).region j
    = if j = k then { x.region k with tag := tag, result := secDone } else x.region j :=
  Sec.setRegion_region_if (x.post true secAborted (x.region k).tag) k j { x.region k with tag := tag, result := secDone }

theorem Sec.aborts_keys (x : Sec) (k tag : Nat) : (x.aborts k tag).keys = x.keys := rfl

include hlive hsecure harg

theorem Device.regionRelease_ready (hphase : (d.sec.region r.arg).phase = .ready) : ∃ tag v, d.regionRelease r =
    Device.setBlk { d with sec := (d.sec.takeUp true 0x11).closes r.arg tag, fresh := d.fresh + 1 } (rgnBlock (r.arg / 64)) v := by
  rw [Device.regionRelease, Device.secCommand_taken hlive _ _ (.inl hsecure), hsecure, Device.secCheck_of _ _ _ _ (decide_eq_true harg)]
  dsimp only
  rw [show ((d.sec.takeUp true 0x11).region r.arg).phase = .ready from hphase]
  obtain ⟨v, hv⟩ := Device.secSeal_eq
    { d with sec := (d.sec.takeUp true 0x11).closes r.arg ((Config.freeWord d.fresh).toNat % 2 ^ 24), fresh := d.fresh + 1 }
    (r.arg / 64) (r.arg % 64) _
  exact ⟨_, v, hv⟩

theorem Device.regionRelease_loading
    (hphase : (d.sec.region r.arg).phase = .moving ∨ (d.sec.region r.arg).phase = .loading ∨ (d.sec.region r.arg).phase = .readying) :
    ∃ tag, d.regionRelease r = Device.regionWipe { d with
      sec := (d.sec.takeUp true 0x11).aborts r.arg tag, out := .sec secAborted :: d.out, fresh := d.fresh + 1 }
      (r.arg / 64) (r.arg % 64) := by
  rw [Device.regionRelease, Device.secCommand_taken hlive _ _ (.inl hsecure), hsecure, Device.secCheck_of _ _ _ _ (decide_eq_true harg)]
  refine ⟨(Config.freeWord d.fresh).toNat % 2 ^ 24, ?_⟩
  simp only [Device.secTag, Device.modSec, Device.note, Sec.aborts]
  obtain h | h | h := hphase
  · rw [show ((d.sec.takeUp true 0x11).region r.arg).phase = .moving from h]
  · rw [show ((d.sec.takeUp true 0x11).region r.arg).phase = .loading from h]
  · rw [show ((d.sec.takeUp true 0x11).region r.arg).phase = .readying from h]

end Release

/-! ### Links that hold keys (R275, R445) -/

/-- The link of a port holds keys. -/
def Device.linkKeys (d : Device) (p : Nat) : Bool := (d.fab.port p).keyed

theorem Device.tx_linkKeys (d : Device) (p : Nat) (m : FMsg) : (d.tx p m).linkKeys = d.linkKeys := by
  funext q
  refine (Device.pump_keyed _ p q).trans ?_
  rw [show ((d.modLink p fun x => { x with queue := x.queue ++ [m] }).note (.fmsg p m)).fab.port q
    = (d.modLink p fun x => { x with queue := x.queue ++ [m] }).fab.port q from rfl, Device.modLink_port]
  split
  · next h => rw [h]; rfl
  · rfl

theorem Device.flood_linkKeys (d : Device) (except : Nat) (m : FMsg) : (d.flood except m).linkKeys = d.linkKeys :=
  foldl_keeps Device.linkKeys (fun d p => d.tx_linkKeys p m) _ _

theorem Device.sendConfig_linkKeys (d : Device) (c : FabConfig) : (d.sendConfig c).linkKeys = d.linkKeys :=
  foldl_keeps Device.linkKeys (f := fun (d : Device) p => d.note (.config p c)) (fun _ _ => rfl) _ _

theorem Device.commitIfAcked_linkKeys (d : Device) : d.commitIfAcked.linkKeys = d.linkKeys := by
  unfold Device.commitIfAcked
  split
  · rfl
  · dsimp only
    split
    · exact Device.flood_linkKeys _ _ _
    · rfl

theorem Device.proposeConfig_linkKeys (d : Device) (members : List Member) (membership : Bool) (applyTn : Nat) :
    (d.proposeConfig members membership applyTn).linkKeys = d.linkKeys :=
  (Device.commitIfAcked_linkKeys _).trans (Device.sendConfig_linkKeys _ _)

theorem Device.kingConfig_linkKeys (d : Device) : d.kingConfig.linkKeys = d.linkKeys := by
  have hacked : (if d.fab.pending.isSome then d.commitIfAcked else d).linkKeys = d.linkKeys := by
    split
    · exact d.commitIfAcked_linkKeys
    · rfl
  unfold Device.kingConfig
  generalize (if d.fab.pending.isSome then d.commitIfAcked else d) = x at hacked
  dsimp only
  split
  · exact hacked
  · split
    · exact hacked
    · split
      · exact (Device.proposeConfig_linkKeys _ _ _ _).trans hacked
      · split
        · exact (Device.proposeConfig_linkKeys _ _ _ _).trans hacked
        · exact hacked

theorem Device.linkChange_linkKeys (d : Device) (p : Nat) (l : FLink) (up : Bool) : (d.linkChange p l up).linkKeys = d.linkKeys := by
  unfold Device.linkChange
  dsimp only
  split
  · rfl
  · split
    · exact (Device.kingConfig_linkKeys _).trans ((Device.kingConfig_linkKeys _).trans (Device.flood_linkKeys _ _ _))
    · exact Device.flood_linkKeys _ _ _

/-- A link that goes down leaves the keys and the state of the other links. -/
theorem Device.linkDown_other (d : Device) {p q : Nat} (h : q ≠ p) :
    ((d.linkDown p).linkKeys q, (d.linkDown p).linkActive q) = (d.linkKeys q, d.linkActive q) := by
  by_cases hup : (d.fab.port p).isUp
  · have hport : (d.modLink p LPort.fallen).fab.port q = d.fab.port q := (d.modLink_port p q _).trans (if_neg h)
    have hset : ((d.modLink p LPort.fallen).linkKeys q, (d.modLink p LPort.fallen).linkActive q) = (d.linkKeys q, d.linkActive q) := by
      rw [Device.linkKeys, Device.linkActive, hport, Device.linkKeys, Device.linkActive]
    rw [Device.linkDown_eq hup]
    split
    · obtain ⟨ls, htold⟩ := (d.modLink p LPort.fallen).linkChange_told p (d.portLink p) false
      rw [Device.linkChange_linkKeys, htold.active q, hset]
    · exact hset
  · rw [Device.linkDown_idle hup]

/-- A link that went down is not ACTIVE. -/
theorem Device.linkDown_inactive (d : Device) (p : Nat) : (d.linkDown p).linkActive p = false := by
  by_cases hup : (d.fab.port p).isUp
  · obtain ⟨hport, -⟩ := Device.linkDown_leaves hup
    rw [Device.linkActive, hport]
    rfl
  · rw [Device.linkDown_idle hup, Device.linkActive, beq_eq_false_iff_ne]
    exact fun hst => hup (LPort.isUp_of_st hst (by decide))

/-- The links that hold keys fall one after the other. -/
def Device.dropKeyed (d : Device) (p : Nat) : Device := if (d.fab.port p).keyed then d.linkDown p else d

theorem Device.dropKeyed_other (d : Device) {p q : Nat} (h : q ≠ p) :
    ((d.dropKeyed p).linkKeys q, (d.dropKeyed p).linkActive q) = (d.linkKeys q, d.linkActive q) := by
  unfold Device.dropKeyed
  split
  · exact d.linkDown_other h
  · rfl

theorem Device.dropKeyed_sansFabric (d : Device) (p : Nat) : (d.dropKeyed p).sansFabric = d.sansFabric := by
  unfold Device.dropKeyed
  split
  · by_cases hup : (d.fab.port p).isUp
    · exact (Device.linkDown_leaves hup).2
    · rw [Device.linkDown_idle hup]
  · rfl

/-- No link that held keys is ACTIVE after a tamper event, which beside the enclave changes the fabric alone (R445). -/
theorem Device.tamper_links (d : Device) {p : Nat} (hp : p < 8) (hkeyed : (d.fab.port p).keyed = true) : d.tamper.linkActive p = false := by
  obtain ⟨e, he, hfold⟩ := foldl_once (φ := fun d : Device => (d.linkKeys p, d.linkActive p)) (f := Device.dropKeyed)
    List.nodup_range (List.mem_range.mpr hp) (fun a q hq => a.dropKeyed_other hq.symm)
    (d.modSec fun s => { s.zeroise with tampered := true, tamperCount := (s.tamperCount + 1) % 2 ^ 32, waiting := [], stalledKeys := [] })
  have hkeys : (e.fab.port p).keyed = true := (congrArg Prod.fst he).trans hkeyed
  refine (congrArg Prod.snd hfold).trans ?_
  dsimp only
  rw [Device.dropKeyed, if_pos hkeys, Device.linkDown_inactive]

theorem Device.tamper_sansFabric (d : Device) : d.tamper.sansFabric = Device.sansFabric { d with
    sec := { d.sec.zeroise with tampered := true, tamperCount := (d.sec.tamperCount + 1) % 2 ^ 32, waiting := [], stalledKeys := [] } } :=
  foldl_keeps Device.sansFabric (f := Device.dropKeyed) Device.dropKeyed_sansFabric _ _

theorem Device.kept_of_sansFabric {d e : Device} (h : e.sansFabric = d.sansFabric) : e.sec = d.sec ∧ e.mem = d.mem ∧ e.tb = d.tb :=
  ⟨(congrArg Device.sec h :), (congrArg Device.mem h :), (congrArg Device.tb h :)⟩

/-! ### Secure boot (R432, R436) -/

section Boot

variable {d : Device} (r : BootOutcome)

theorem Device.secureBoot_early (h : d.pwr.bringUp ≠ 1) : d.secureBoot r = d := if_pos (by simpa using h)

variable (h : d.pwr.bringUp = 1)

/-- The device as the SEC starts: a system reset has ended. -/
def Device.secStarts (d : Device) (x : Sec) : Device := { d with pwr := { d.pwr with inSysReset := false, sysPinLow := false }, sec := x }

/-- The milestone of a chain that ends well leaves the enclave, and touches the power domain and free values alone. -/
theorem Device.secStarts_milestone (d : Device) (x : Sec) (k : Nat) : ((d.secStarts x).milestone k).sec = x
    ∧ (d.secStarts x).milestone k = { d with
        pwr := ((d.secStarts x).milestone k).pwr, sec := ((d.secStarts x).milestone k).sec
        fresh := ((d.secStarts x).milestone k).fresh } := by
  have hframe := (d.secStarts x).milestone_frame k
  have hsec : ((d.secStarts x).milestone k).sec = x := (congrArg Device.sec hframe :)
  exact ⟨hsec, by rw [hsec]; exact hframe⟩

include h

theorem Device.secureBoot_barred (hbar : r.puf = false ∨ d.sec.lifecycle = .scrapped) :
    d.secureBoot r = d.secStarts { d.sec with boot := 0xE1 } := by
  unfold Device.secureBoot
  dsimp only
  rw [if_neg (by simp [h])]
  exact if_pos (by obtain hbar | hbar := hbar <;> simp [hbar])

variable (hpuf : r.puf = true) (hlife : d.sec.lifecycle ≠ .scrapped)

include hpuf hlife

theorem Device.secureBoot_recovery (hfw : d.sec.choose r.secFw = none) : d.secureBoot r = d.secStarts { d.sec with boot := 0xE2 } := by
  unfold Device.secureBoot
  dsimp only
  rw [if_neg (by simp [h])]
  exact (if_neg (by simp [hpuf, hlife])).trans (by simp only [Device.modPwr, hfw]; rfl)

section Chain

variable {i : BootImage} (hfw : d.sec.choose r.secFw = some i)

include hfw

/-- The first image is accepted, and the rest of the chain follows. -/
theorem Device.secureBoot_chain : d.secureBoot r =
    match d.sec.choose r.fwc, d.sec.choose r.spc, d.sec.choose r.apc with
    | some b, some c, some e =>
      (d.secStarts { d.sec with boot := 0, digests := [i, b, c, e].flatMap fun i => i.digest.toList }).milestone 2
    | _, _, _ => d.secStarts { d.sec with boot := 0 } := by
  unfold Device.secureBoot
  dsimp only
  rw [if_neg (by simp [h])]
  exact (if_neg (by simp [hpuf, hlife])).trans (by simp only [Device.modPwr, hfw]; rfl)

theorem Device.secureBoot_stops (hstop : d.sec.choose r.fwc = none ∨ d.sec.choose r.spc = none ∨ d.sec.choose r.apc = none) :
    d.secureBoot r = d.secStarts { d.sec with boot := 0 } := by
  rw [Device.secureBoot_chain r h hpuf hlife hfw]
  split
  · next hb hc he =>
    rw [hb, hc, he] at hstop
    simp at hstop
  · rfl

theorem Device.secureBoot_done {j k l : BootImage} (hj : d.sec.choose r.fwc = some j) (hk : d.sec.choose r.spc = some k)
    (hl : d.sec.choose r.apc = some l) : d.secureBoot r = (d.secStarts { d.sec with
      boot := 0, digests := i.digest.toList ++ j.digest.toList ++ k.digest.toList ++ l.digest.toList }).milestone 2 := by
  have hdigests : ([i, j, k, l].flatMap fun i => i.digest.toList)
      = i.digest.toList ++ j.digest.toList ++ k.digest.toList ++ l.digest.toList := by
    simp
  rw [Device.secureBoot_chain r h hpuf hlife hfw, hj, hk, hl, ← hdigests]

end Chain

end Boot

/-! ### The obligation -/

/-- Settles O56, command by command. -/
theorem sealedRegions : Obligations.SealedRegions := by
  refine ⟨fun s hs => ?live, fun s => Runs.of_onKeep (exec_tamper s) ?tamper⟩
  case tamper =>
    obtain ⟨hsec, hmem, htb⟩ := Device.kept_of_sansFabric s.dev.tamper_sansFabric
    exact ⟨hsec, congrArg Sec.keys hsec, fun p hp hk => s.dev.tamper_links hp hk, hmem, htb⟩
  case live =>
    intro x
    refine ⟨fun q hlive => ?load, fun r hphase => ?done,
      fun r hphase => Runs.of_on hs (exec_sealLoadDone r s) (Device.sealDone_idle _ hphase),
      fun r hlive hsecure harg => ⟨fun hphase => ?ready, fun hphase => ?abort⟩,
      fun b set hset hst hzero hvalid => ?zeroing, fun r => ?boot⟩
    case load =>
      intro k up fails
      have answered {code : Nat} (h : s.dev.Posted true up code (s.dev.sealLoad q)) : fails code :=
        Runs.of_on hs (exec_sealLoad q s) ⟨h.secure, h.out, h.frame⟩
      refine ⟨(Runs.of_secCommand hs (exec_sealLoad q s)).2 hlive,
        fun hsecure h => Runs.of_on hs (exec_sealLoad q s) (Device.sealLoad_waits hlive hsecure h), fun hsecure htrained hruns => ?_⟩
      have hstart := Device.sealLoad_starts hlive hsecure htrained hruns
      intro form signed fits
      have formed : form ↔ (q.package.formOk && decide (q.package.step ≤ 64)) = true := by simp [form]
      have owned : signed ↔ (x.signed q.sig && q.sig.owner == q.package.owner) = true := by simp [signed]
      have checked (hform : form) (hsigned : signed) (hstep : x.step ≤ q.package.step) (hfits : fits) :
          Device.SealChecked { s.dev with sec := up } q := ⟨hform, hsigned, hstep, hfits⟩
      refine ⟨fun hform => ?_, fun hform hsigned => ?_, fun hform hsigned hstep => ?_, fun hform hsigned hstep hfits => ?_,
        fun hform hsigned hstep hfits hkey => ?_, fun hform hsigned hstep hfits hkey h => ?_,
        fun key slot hform hsigned hstep hfits hkey hslot hphase => Runs.of_on hs (exec_sealLoad q s) ?_⟩
      · refine answered ?_
        rw [hstart, Device.sealStart]
        exact .fail (Bool.eq_false_iff.mpr fun h => hform (formed.mpr h))
      · refine answered ?_
        rw [hstart, Device.sealStart]
        exact .pass (formed.mp hform) (.fail (Bool.eq_false_iff.mpr fun h => hsigned (owned.mpr h)))
      · refine answered ?_
        rw [hstart, Device.sealStart]
        exact .pass (formed.mp hform) (.pass (owned.mp hsigned) (.fail (decide_eq_false (Nat.not_le.mpr hstep))))
      · refine answered ?_
        rw [hstart, Device.sealStart]
        exact .pass (formed.mp hform) (.pass (owned.mp hsigned) (.pass (decide_eq_true hstep) (.fail (decide_eq_false hfits))))
      · obtain ⟨code, hcode, hpost⟩ := s.dev.secRefuse_posted true up
        rw [← Device.sealStart_keyless (checked hform hsigned hstep hfits) hkey, ← hstart] at hpost
        exact ⟨code, hcode, answered hpost⟩
      · refine answered ?_
        rw [hstart, Device.sealStart_full (checked hform hsigned hstep hfits) hkey h]
        exact s.dev.secResult_posted true up _
      · obtain ⟨tag, v, hclaims⟩ := Device.sealStart_claims (checked hform hsigned hstep hfits) hkey hslot hphase
        rw [hstart, hclaims]
        have hregion := up.claims_region q slot tag key
        refine ⟨?_, rfl, rfl, fun j hj => (hregion j).trans (if_neg hj), fun c hc => Device.setBlk_blk_other _ _ hc.symm, rfl⟩
        have htag : (up.claims q slot tag key).region k = ⟨.moving, slot, q.package.size, q.package.digest, key, tag, secDone⟩ :=
          (hregion k).trans (if_pos rfl)
        exact htag.trans (congrArg (fun t => (⟨.moving, slot, q.package.size, q.package.digest, key, t, secDone⟩ : SealRegion))
          (congrArg SealRegion.tag htag).symm)
    case done =>
      intro k y a top
      refine ⟨fun p hp => Runs.of_on hs (exec_sealLoadDone r s) ?_, fun hp => Runs.of_on hs (exec_sealLoadDone r s) ?_⟩
      · obtain ⟨v, hdone⟩ := Device.sealDone_opens hphase hp
        have hlen := SealRegion.plain_length hp
        have htop : a + y.size ≤ top := show a + y.size ≤ a + (y.size + 127) / 128 * 128 by omega
        have hbyte (b : Nat) : (s.dev.sealDone k r.chunks).byte b
            = if a ≤ b ∧ b < a + y.size then p.getD (b - a) 0 else if a ≤ b ∧ b < top then 0 else s.dev.byte b :=
          (congrArg (fun e : Device => e.byte b) hdone).trans (s.dev.byte_put_zero hlen b)
        refine ⟨congrArg Device.sec hdone, hlen, fun i hi => ?_, fun b hlo hhi => ?_, fun b hb => ?_, ?_⟩
        · rw [hbyte, if_pos (by omega), Nat.add_sub_cancel_left]
        · rw [hbyte, if_neg (by omega), if_pos (by omega)]
        · rw [hbyte, if_neg (by omega), if_neg (by omega)]
        · rw [hdone]
          rfl
      · obtain ⟨hsec, hbyte, sec, moves, mem, scr, hframe⟩ := Device.regionWipe_leaves
          { s.dev with sec := x.setRegion k { y with result := secDigest } } (k / 64) (k % 64)
        have hk : k / 64 * 64 + k % 64 = k := by omega
        rw [Device.sealDone_fails hphase hp]
        refine ⟨?_, hbyte, ?_⟩
        · rw [hsec, hk, Sec.setRegion_region, Sec.setRegion_setRegion]
        · rw [hframe]
    case ready =>
      obtain ⟨tag, v, hready⟩ := Device.regionRelease_ready hlive hsecure harg hphase
      refine Runs.of_on hs (exec_regionRelease r s) ?_
      rw [hready]
      have hregion := (x.takeUp true 0x11).closes_region r.arg tag
      refine ⟨?_, rfl, fun j hj => (hregion j).trans (if_neg hj), rfl⟩
      have hsame := (hregion r.arg).trans (if_pos rfl)
      exact hsame.trans (congrArg (fun t => ({ x.region r.arg with phase := .closing, tag := t, result := secDone } : SealRegion))
        (congrArg SealRegion.tag hsame).symm)
    case abort =>
      obtain ⟨tag, habort⟩ := Device.regionRelease_loading hlive hsecure harg hphase
      obtain ⟨hsec, -, sec, moves, mem, scr, hframe⟩ := Device.regionWipe_leaves { s.dev with
        sec := (x.takeUp true 0x11).aborts r.arg tag, out := .sec secAborted :: s.dev.out, fresh := s.dev.fresh + 1 }
        (r.arg / 64) (r.arg % 64)
      have hk : r.arg / 64 * 64 + r.arg % 64 = r.arg := by omega
      have hregion := (x.takeUp true 0x11).aborts_region r.arg tag
      rw [hk] at hsec
      rw [← habort] at hsec hframe
      refine Runs.of_on hs (exec_regionRelease r s) ⟨?_, ?_, ?_, fun j hj => ?_, ?_⟩
      · rw [hsec, Sec.setRegion_region]
      · rw [hsec, Sec.setRegion_region, hregion, if_pos rfl]
        rfl
      · rw [hframe]
      · rw [hsec, Sec.setRegion_region_if, if_neg hj, hregion, if_neg hj]
        rfl
      · exact (congrArg Sec.keys hsec :).trans ((x.takeUp true 0x11).aborts_keys r.arg tag)
    case zeroing =>
      refine Runs.of_on hs (exec_zeroingDone b s) ?_
      have hready : (s.dev.blk b).loaded true = { s.dev.blk b with st := .ready } := if_pos hst
      have hin := fun r hr a ha => Device.byte_foldl_zero_in (fun r : Nat × Nat => setBase set + r.1 * granule set)
        (fun r => setBase set + r.2 * granule set) (s.dev.zeroRanges set) (a := a) (x := r) hr ha s.dev
      have hout := fun a ha => Device.byte_foldl_zero_out (fun r : Nat × Nat => setBase set + r.1 * granule set)
        (fun r => setBase set + r.2 * granule set) (s.dev.zeroRanges set) (a := a) ha s.dev
      obtain ⟨m, sc, hzeroed⟩ := Device.foldl_zero_frame (fun r : Nat × Nat => setBase set + r.1 * granule set)
        (fun r => setBase set + r.2 * granule set) (s.dev.zeroRanges set) s.dev
      rw [hzeroed] at hin hout
      have hdone : s.dev.zeroingDone b = Device.setBlk { s.dev with mem := m, scrambles := sc } b { s.dev.blk b with st := .ready } := by
        rw [← hready, Device.zeroingDone, hset]
        dsimp only
        rw [if_pos ⟨hst, hzero, hvalid⟩, hzeroed]
        rfl
      rw [hdone]
      exact ⟨Device.setBlk_blk _ _ _, fun r hr a hlo hhi => hin r hr a ⟨hlo, hhi⟩, hout,
        fun c hc => Device.setBlk_blk_other _ _ hc.symm, rfl⟩
    case boot =>
      refine ⟨fun h => Runs.of_on hs (exec_secureBoot r s) (Device.secureBoot_early r h), fun h =>
        ⟨fun hbar => Runs.of_on hs (exec_secureBoot r s) (Device.secureBoot_barred r h hbar), fun hpuf hlife =>
          ⟨fun hfw => Runs.of_on hs (exec_secureBoot r s) (Device.secureBoot_recovery r h hpuf hlife hfw), fun i hfw =>
            ⟨fun hstop => Runs.of_on hs (exec_secureBoot r s) (Device.secureBoot_stops r h hpuf hlife hfw hstop),
              fun j k l hj hk hl => Runs.of_on hs (exec_secureBoot r s) ?_⟩⟩⟩⟩
      rw [Device.secureBoot_done r h hpuf hlife hfw hj hk hl]
      obtain ⟨hsec, hframe⟩ := s.dev.secStarts_milestone
        { x with boot := 0, digests := i.digest.toList ++ j.digest.toList ++ k.digest.toList ++ l.digest.toList } 2
      exact ⟨hsec, Device.milestone_bringUp (congrArg (· + 1) h), hframe⟩

end Sys2Proof.Machine

/-! SUPPORT. The debug session, engine debug and the TAP (R437, R446, R473, R477, R479): challenges, levels and the engines of a job. -/

namespace Sys2Proof.Machine

open Sys2Proof

/-! ### Challenges and levels (R437, R446) -/

theorem Device.unlock_busy {d : Device} (v : Nat) (h : d.dbg.unlockBusy = true) : d.unlock v = d := if_pos h

/-- A response is good in the device time at which it is submitted. -/
def Device.responseFresh (d : Device) (v : Nat) : Bool :=
  d.dbg.challengeLive && decide (d.stamp.1 - d.dbg.challengeAt ≤ challengeNs) && decide (v % 2 ^ 16 ≤ 4096)

theorem Device.unlock_idle {d : Device} (v : Nat) (h : d.dbg.unlockBusy = false) : d.unlock v = { d with
    dbg := { d.dbg with unlockBusy := true, challengeLive := false, respFresh := d.responseFresh v }, fresh := d.fresh + 1 } :=
  if_neg (by simp [h])

theorem Device.responseFresh_needs {d : Device} {v : Nat} (h : d.responseFresh v = true) :
    d.dbg.challengeLive = true ∧ v % 2 ^ 16 ≤ 4096 := by
  simp only [Device.responseFresh, Bool.and_eq_true, decide_eq_true_eq] at h
  obtain ⟨⟨hlive, -⟩, hlen⟩ := h
  exact ⟨hlive, hlen⟩

/-- A response is submitted within the present tempo, so that the tempo's ends bound its age. -/
theorem Device.responseFresh_of_tempo {d : Device} {v : Nat} (hlive : d.dbg.challengeLive = true) (hlen : v % 2 ^ 16 ≤ 4096)
    (hstarted : d.tb.started = true) (h : d.tn * 1000 + 1000 ≤ d.dbg.challengeAt + challengeNs) : d.responseFresh v = true := by
  have hstamp := Device.stamp_tempo hstarted
  have hage : d.stamp.1 - d.dbg.challengeAt ≤ challengeNs := by omega
  simpa [Device.responseFresh, hlive, hage] using hlen

theorem Device.responseFresh_of_expired {d : Device} {v : Nat} (hstarted : d.tb.started = true)
    (h : d.dbg.challengeAt + challengeNs < d.tn * 1000) : d.responseFresh v = false := by
  have hstamp := Device.stamp_tempo hstarted
  have hage : ¬d.stamp.1 - d.dbg.challengeAt ≤ challengeNs := by omega
  simp [Device.responseFresh, hage]

theorem Device.unlockVerified_idle {d : Device} (r : UnlockOutcome) (h : d.dbg.unlockBusy = false) : d.unlockVerified r = d :=
  if_pos (by simp [h])

theorem Device.unlockVerified_grants {d : Device} {r : UnlockOutcome} (hbusy : d.dbg.unlockBusy = true) (hfresh : d.dbg.respFresh = true)
    (h : d.sec.unlocks r = true) :
    d.unlockVerified r = { d with dbg := { d.dbg with unlockBusy := false, respFresh := false, level := r.level } } := by
  rw [Device.unlockVerified, if_neg (by simp [hbusy]), if_pos (by simp [hfresh, h])]
  rfl

theorem Device.unlockVerified_fails {d : Device} {r : UnlockOutcome} (hbusy : d.dbg.unlockBusy = true)
    (h : d.dbg.respFresh = false ∨ d.sec.unlocks r = false) :
    d.unlockVerified r = { d with dbg := { d.dbg with unlockBusy := false, respFresh := false, unlockFail := true } } := by
  rw [Device.unlockVerified, if_neg (by simp [hbusy]), if_neg (by obtain h | h := h <;> simp [h])]
  rfl

/-- A response that names its level is good with the signature that the level needs (R446). -/
theorem Sec.unlocks_of_level {x : Sec} {r : UnlockOutcome} (hnamed : r.named = true)
    (h : (r.level = 1 ∨ r.level = 2) ∧ x.signed r.sig = true
      ∨ r.level = 3 ∧ x.lifecycle = .fieldReturn ∧ r.sig.good = true ∧ r.sig.zilvo = true) : x.unlocks r = true := by
  obtain ⟨hlevel | hlevel, hsigned⟩ | ⟨hlevel, hlife, hgood, hzilvo⟩ := h
  · simp [Sec.unlocks, hnamed, hlevel, hsigned]
  · simp [Sec.unlocks, hnamed, hlevel, hsigned]
  · simp [Sec.unlocks, hnamed, hlevel, hlife, hgood, hzilvo]

/-! ### Engines of a job under the debugger (R477) -/

section Engines

variable {f : Eng → Eng} (hf : ∀ g, f (f g) = f g)

include hf

/-- A change that repeats itself, made to the engines of a list. -/
theorem Device.foldl_modEng_engine (l : List Nat) (d : Device) (e : Nat) :
    (l.foldl (fun d e => d.modEng e f) d).engine e = if e ∈ l then f (d.engine e) else d.engine e := by
  induction l generalizing d with
  | nil => rfl
  | cons k l ih =>
    rw [List.foldl_cons, ih, Device.modEng_engine_if]
    by_cases hk : e = k
    · subst hk
      by_cases hl : e ∈ l
      · simp [hl, hf]
      · simp [hl]
    · simp [hk]

theorem Device.jobEngines_engine (d : Device) (j e : Nat) : (d.jobEngines j f).engine e
    = if e ∈ (d.job j).held ∧ (d.engine e).leaving = false then f (d.engine e) else d.engine e := by
  rw [Device.jobEngines, Device.foldl_modEng_engine hf]
  simp only [List.mem_filter, Bool.not_eq_true']

end Engines

theorem Device.jobEngines_frame (d : Device) (j : Nat) (f : Eng → Eng) :
    d.jobEngines j f = { d with eng := (d.jobEngines j f).eng } := by
  refine List.foldlRecOn (motive := fun e : Device => e = { d with eng := e.eng }) _ _ rfl fun e he k _ => ?_
  rw [he]
  rfl

theorem Eng.halt_halt (g : Eng) : g.halt.halt = g.halt := by
  unfold Eng.halt
  by_cases h : g.issued.isEmpty = true
  · simp [h]
  · simp [h]

theorem Eng.resume_resume (g : Eng) : g.resume.resume = g.resume := rfl

theorem Eng.stepFor_stepFor (n : Nat) (g : Eng) : (g.stepFor n).stepFor n = g.stepFor n := by
  by_cases h : (g.halted && n != 0) = true
  · simp [Eng.stepFor, h]
  · simp [Eng.stepFor, h]

section Edbg

variable {d : Device} {j : Nat} (f : Eng → Eng) (hwerr : d.dbg.werr = false)

include hwerr

theorem Device.edbgCmd_denied (h : d.dbgJob j = false) : d.edbgCmd j f = d.note (.dbg .denied []) := by
  rw [Device.edbgCmd, if_neg (by simp [hwerr]), if_pos (by simp [h])]
  rfl

theorem Device.edbgCmd_allowed (h : d.dbgJob j = true) (hheld : d.pwr.held = false) : d.edbgCmd j f = d.jobEngines j f := by
  rw [Device.edbgCmd, if_neg (by simp [hwerr]), if_neg (by simp [h]), if_neg (by simp [hheld])]

end Edbg

/-- A command of engine debug through its meaning. -/
theorem Runs.of_edbgCmd {c : Instr} {s : State} {j : Nat} {f : Eng → Eng} (hf : ∀ g, f (f g) = f g) (hwerr : s.dev.dbg.werr = false)
    (hc : exec c s = s.onKeep fun d => d.edbgCmd j f) :
    (s.dev.dbgJob j = false → Runs c s fun d => d = s.dev.note (.dbg .denied [])) ∧
    (s.dev.dbgJob j = true → s.dev.pwr.held = false → Runs c s fun d =>
      (∀ e, e ∈ (s.dev.job j).held → (s.dev.engine e).leaving = false → d.engine e = f (s.dev.engine e))
        ∧ (∀ e, e ∉ (s.dev.job j).held ∨ (s.dev.engine e).leaving = true → d.engine e = s.dev.engine e)
        ∧ d = { s.dev with eng := d.eng }) := by
  refine ⟨fun h => Runs.of_onKeep hc (Device.edbgCmd_denied f hwerr h), fun h hheld => Runs.of_onKeep hc ?_⟩
  rw [Device.edbgCmd_allowed f hwerr h hheld]
  refine ⟨fun e he hstay => ?_, fun e he => ?_, s.dev.jobEngines_frame j f⟩
  · rw [Device.jobEngines_engine hf, if_pos ⟨he, hstay⟩]
  · refine (Device.jobEngines_engine hf _ _ _).trans (if_neg fun hin => ?_)
    obtain ⟨hheld, hstay⟩ := hin
    exact he.elim (fun h => h hheld) fun h => Bool.false_ne_true (hstay.symm.trans h)

/-! ### The TAP (R479) -/

/-- An instruction that drives pins is loaded only while SYS_RST_n is low. -/
theorem Device.tapLoad_drives (d : Device) {t : TapInstr} (h : t.drives = true) :
    d.tapLoad t = { d with dbg := { d.dbg with tapReset := false, tap := if d.pwr.sysPinLow then t else .bypass } } := by
  unfold Device.tapLoad
  rw [h]
  cases d.pwr.sysPinLow
  · rfl
  · rfl

/-- Settles O58, command by command. -/
theorem debugSession : Obligations.DebugSession := by
  intro s g
  refine ⟨fun herr hstall => Runs.of_onKeep (exec_challengeRead s) ?draw, fun herr => Runs.of_onKeep (exec_challengeRead s) (if_pos herr),
    fun herr hstall => Runs.of_onKeep (exec_challengeRead s) ?stall, fun w => ?unlock, fun r => ?verified,
    Runs.of_onKeep (exec_debugClose s) ⟨rfl, rfl⟩, fun j n hwerr row hrow => ?engines, fun v => ?tap⟩
  case draw =>
    have hread : s.dev.challengeRead = s.dev.drawChallenge.note (.dbg .ok (s.dev.drawChallenge.dbg.challenge.take 4)) := by
      rw [Device.challengeRead, if_neg (by simp [herr]), if_neg (by simp [hstall])]
    rw [hread]
    exact ⟨rfl, (List.length_map _).trans List.length_range, rfl, rfl⟩
  case stall => exact (if_neg (by simp [herr])).trans (if_pos hstall)
  case unlock =>
    refine ⟨fun hbusy => Runs.of_onKeep (exec_debugUnlock w s) (Device.unlock_busy _ hbusy),
      fun hidle => Runs.of_onKeep (exec_debugUnlock w s) ?_⟩
    rw [Device.unlock_idle _ hidle]
    exact ⟨rfl, Device.responseFresh_needs, Device.responseFresh_of_tempo, Device.responseFresh_of_expired, rfl⟩
  case verified =>
    exact ⟨fun hidle => Runs.of_onKeep (exec_unlockVerified r s) (Device.unlockVerified_idle r hidle),
      fun hbusy hfresh hnamed h => Runs.of_onKeep (exec_unlockVerified r s)
        (Device.unlockVerified_grants hbusy hfresh (Sec.unlocks_of_level hnamed h)),
      fun hbusy h => Runs.of_onKeep (exec_unlockVerified r s) (Device.unlockVerified_fails hbusy h)⟩
  case engines =>
    simp only [List.mem_cons, List.not_mem_nil, or_false] at hrow
    obtain rfl | rfl | rfl := hrow
    · exact Runs.of_edbgCmd Eng.halt_halt hwerr (exec_engineHalt j s)
    · exact Runs.of_edbgCmd Eng.resume_resume hwerr (exec_engineResume j s)
    · exact Runs.of_edbgCmd (Eng.stepFor_stepFor _) hwerr (exec_engineStep j n s)
  case tap =>
    exact ⟨Runs.of_onKeep (exec_bypass s) rfl, Runs.of_onKeep (exec_idcode s) ⟨rfl, rfl, rfl⟩,
      Runs.of_onKeep (exec_samplePreload v s) ⟨rfl, rfl, rfl⟩, Runs.of_onKeep (exec_extest s) (s.dev.tapLoad_drives rfl),
      Runs.of_onKeep (exec_extestPulse s) (s.dev.tapLoad_drives rfl), Runs.of_onKeep (exec_extestTrain s) (s.dev.tapLoad_drives rfl),
      Runs.of_onKeep (exec_clamp s) (s.dev.tapLoad_drives rfl), Runs.of_onKeep (exec_highz s) (s.dev.tapLoad_drives rfl),
      Runs.of_onKeep (exec_tapReset s) rfl⟩

end Sys2Proof.Machine

/-! SUPPORT. Frames of the debug port (R468 to R471, R473 to R476): what answers a frame before it reaches its space, and the port's own
words and the debug modules' behind it. -/

namespace Sys2Proof.Machine

open Sys2Proof

/-! ### What answers a frame before its access (R468 to R471, R473) -/

section Frame

variable {d : Device} {h : DbgHeader} (again access : Device → Device)

theorem Device.dbgFrame_silent (hstart : h.start = false) : d.dbgFrame h again access = d := if_pos (by simp [hstart])

section Started

variable (hstart : h.start = true)

include hstart

theorem Device.dbgFrame_badCrc (hcrc : h.crcOk = false) : d.dbgFrame h again access = d.dbgAck .crc := by
  rw [Device.dbgFrame, if_neg (by simp [hstart]), if_pos (by simp [hcrc])]

variable (hcrc : h.crcOk = true)

include hcrc

theorem Device.dbgFrame_faultNext (hfault : d.dbg.faultNext = true) :
    d.dbgFrame h again access = (d.modDbg fun g => { g with faultNext := false }).dbgAck .fault := by
  rw [Device.dbgFrame, if_neg (by simp [hstart]), if_neg (by simp [hcrc]), if_pos hfault]

variable (hfault : d.dbg.faultNext = false)

include hfault

theorem Device.dbgFrame_werr (hwerr : d.dbg.werr = true) (hspace : h.space < 3) : d.dbgFrame h again access = d.dbgAck .fault := by
  rw [Device.dbgFrame, if_neg (by simp [hstart]), if_neg (by simp [hcrc]), if_neg (by simp [hfault]), if_pos (by simp [hwerr, hspace])]

variable (hopen : d.dbg.werr = false ∨ h.space = 3)

include hopen

theorem Device.dbgFrame_wait {p : DbgPending} (hpending : d.dbg.pending = some p) (hother : p.header ≠ h) :
    d.dbgFrame h again access = d.dbgAck .wait := by
  rw [Device.dbgFrame, if_neg (by simp [hstart]), if_neg (by simp [hcrc]), if_neg (by simp [hfault]),
    if_neg (by obtain hw | hs := hopen <;> simp [*])]
  simp only [hpending, if_neg hother]

variable (hfree : d.dbg.pending = none)

include hfree

theorem Device.dbgFrame_malformed (hbad : h.reservedOk = false ∨ h.op ≠ 1 ∧ h.op ≠ 2) :
    d.dbgFrame h again access = d.dbgAck .fault := by
  rw [Device.dbgFrame, if_neg (by simp [hstart]), if_neg (by simp [hcrc]), if_neg (by simp [hfault]),
    if_neg (by obtain hw | hs := hopen <;> simp [*])]
  simp only [hfree]
  exact if_pos (by simpa using hbad)

variable (hreserved : h.reservedOk = true) (hop : h.op = 1 ∨ h.op = 2)

include hreserved hop

theorem Device.dbgFrame_denied (hdenied : d.dbgAllows h = false) : d.dbgFrame h again access = d.dbgAck .denied := by
  rw [Device.dbgFrame, if_neg (by simp [hstart]), if_neg (by simp [hcrc]), if_neg (by simp [hfault]),
    if_neg (by obtain hw | hs := hopen <;> simp [*])]
  simp only [hfree]
  exact (if_neg (by obtain hop | hop := hop <;> simp [hreserved, hop])).trans (if_pos (by simp [hdenied]))

theorem Device.dbgFrame_access (hallows : d.dbgAllows h = true) : d.dbgFrame h again access = access d := by
  rw [Device.dbgFrame, if_neg (by simp [hstart]), if_neg (by simp [hcrc]), if_neg (by simp [hfault]),
    if_neg (by obtain hw | hs := hopen <;> simp [*])]
  simp only [hfree]
  exact (if_neg (by obtain hop | hop := hop <;> simp [hreserved, hop])).trans (if_neg (by simp [hallows]))

end Started

end Frame

/-- A frame of SPACE 1 that leaves the debug modules makes no pair differ. -/
theorem Device.dmiFrame_same {d : Device} {w : BitVec 72} {x : DbgData} {o : DmiOutcome} (hspace : (DbgHeader.ofBits w.toNat).space = 1)
    (hsame : (d.writeFrame w x o.late).dbg.modules = d.dbg.modules) : d.dmiFrame w x o = d.writeFrame w x o.late := by
  have hmodule : (d.writeFrame w x o.late).dbg.module 1 = d.dbg.module 1 := congrArg (fun t => tget dmDef t 1) hsame
  unfold Device.dmiFrame
  dsimp only
  rw [if_neg (not_not.mpr hspace), if_neg]
  rintro ⟨-, -, -, hdiffer, -⟩
  exact hdiffer (by rw [hmodule])

/-- A frame that is answered before its access is answered alike by every command that carries it. -/
theorem Runs.of_dbgFrame {s : State} {w : BitVec 72} {r : DbgArrival} {x : DbgData} {o : DmiOutcome} {e : Device}
    (hframe : ∀ again access, s.dev.dbgFrame (DbgHeader.ofBits w.toNat) again access = e) (hsame : e.dbg.modules = s.dev.dbg.modules) :
    ∀ c ∈ [Instr.debugRead w r, .debugWrite w x] ++ (if (DbgHeader.ofBits w.toNat).space = 1 then [Instr.dmiAccess w x o] else []),
      Runs c s fun d => d = e := by
  intro c hc
  have hwrite (late : Bool) : s.dev.writeFrame w x late = e := by
    unfold Device.writeFrame
    exact hframe _ _
  simp only [List.cons_append, List.nil_append, List.mem_cons] at hc
  obtain rfl | rfl | hc := hc
  · refine Runs.of_onKeep (exec_debugRead w r s) ?_
    unfold Device.readFrame
    exact hframe _ _
  · exact Runs.of_onKeep (exec_debugWrite w x s) (hwrite true)
  · split at hc
    · next hspace =>
      obtain rfl := List.mem_singleton.mp hc
      exact Runs.of_onKeep (exec_dmiAccess w x o s)
        ((Device.dmiFrame_same hspace (by rw [hwrite]; exact hsame)).trans (hwrite o.late))
    · cases hc

/-! ### Words that the port obtains at once (R471, R473, R474) -/

theorem find?_map_key {f : Nat → BusResp} {l : List Nat} {a : Nat} (h : a ∈ l) :
    (l.map fun a => (a, f a)).find? (fun x => x.1 == a) = some (a, f a) := by
  induction l with
  | nil => cases h
  | cons b l ih =>
    by_cases hb : b = a
    · simp [hb]
    · simpa [hb] using ih ((List.mem_cons.mp h).resolve_left (Ne.symm hb))

/-- An access all of whose words are there. -/
theorem DbgPending.word_of_map {h : DbgHeader} {f : Nat → BusResp} {closed : Bool} {a : Nat} (ha : a ∈ h.words) :
    DbgPending.word ⟨h, h.words.map fun a => (a, f a), closed⟩ a = some (f a) := by
  simp [DbgPending.word, find?_map_key ha]

theorem DbgPending.complete_of_map (h : DbgHeader) (f : Nat → BusResp) (closed : Bool) :
    DbgPending.complete ⟨h, h.words.map fun a => (a, f a), closed⟩ = true := by
  rw [DbgPending.complete, List.all_eq_true]
  intro a ha
  rw [DbgPending.word_of_map ha]
  rfl

/-- Words that are joined one after the other. -/
theorem foldl_append_flatMap {β : Type} {f : BusResp → β → BusResp} {g : β → List Byte} {l : List β}
    (hf : ∀ x, ∀ b ∈ l, f (.data x) b = .data (x ++ g b)) (x : List Byte) : l.foldl f (.data x) = .data (x ++ l.flatMap g) := by
  induction l generalizing x with
  | nil => simp
  | cons b l ih =>
    rw [List.foldl_cons, hf x b List.mem_cons_self, ih (fun x c hc => hf x c (List.mem_cons_of_mem b hc)), List.flatMap_cons,
      List.append_assoc]

/-- The words of an access joined, in ascending order. -/
theorem DbgPending.reply_of_map (h : DbgHeader) (v : Nat → Nat) (closed : Bool) :
    DbgPending.reply ⟨h, h.words.map fun a => (a, wordData (v a)), closed⟩ = .data (h.words.flatMap fun a => leBytes 4 (v a)) := by
  unfold DbgPending.reply
  refine (foldl_append_flatMap (g := fun a => leBytes 4 (v a)) (fun x a ha => ?_) []).trans (congrArg BusResp.data (List.nil_append _))
  rw [DbgPending.word_of_map ha]
  rfl

/-- An access whose words are there is delivered at once, and no access is pending any more. -/
theorem Device.dbgDeliver_got {d : Device} {h : DbgHeader} {v : Nat → Nat}
    (hpending : d.dbg.pending = some ⟨h, h.words.map fun a => (a, wordData (v a)), false⟩) :
    d.dbgDeliver = { d with
      dbg := { d.dbg with pending := none }, out := .dbg .ok (h.words.flatMap fun a => leBytes 4 (v a)) :: d.out } := by
  unfold Device.dbgDeliver
  rw [hpending]
  dsimp only
  rw [DbgPending.complete_of_map, if_neg (by simp), if_neg (by simp), DbgPending.reply_of_map]
  rfl

theorem DbgHeader.words_aligned {h : DbgHeader} (haddr : h.addr % 4 = 0) {a : Nat} (ha : a ∈ h.words) : a % 4 = 0 := by
  obtain ⟨k, -, rfl⟩ := List.mem_map.mp ha
  omega

theorem DbgHeader.words_length (h : DbgHeader) : h.words.length = h.count := (List.length_map _).trans List.length_range

section Reads

variable {d : Device} {h : DbgHeader} (r : DbgArrival) (hfree : d.dbg.pending = none)

/-- The port with the access of a header pending. -/
def Device.dbgPends (d : Device) (h : DbgHeader) (got : List (Nat × BusResp)) : Device :=
  d.modDbg fun g => { g with pending := some ⟨h, got, false⟩ }

include hfree

theorem Device.dbg_free : ({ d.dbg with pending := none } : Dbg) = d.dbg := by rw [← hfree]

/-- The port space answers with its words (R473). -/
theorem Device.dbgRead_port (hspace : h.space = 3) (haddr : h.addr % 4 = 0) (hchallenge : 0x100 ∉ h.words) :
    d.dbgRead h r = d.note (.dbg .ok (h.words.flatMap fun a => leBytes 4 (d.portWord a))) := by
  have hword (a : Nat) : ((d.dbgPends h []).modDbg fun g => { g with pending := none }).portWord a = d.portWord a := by
    rw [show ((d.dbgPends h []).modDbg fun g => { g with pending := none }) = { d with dbg := { d.dbg with pending := none } } from rfl,
      Device.dbg_free hfree]
  have hask : (d.dbgPends h []).dbgAsk h r = d.dbgPends h (h.words.map fun a => (a, wordData (d.portWord a))) := by
    simp only [Device.dbgAsk, hspace, hword]
    rw [if_neg (not_not.mpr haddr), if_neg (by simpa using hchallenge)]
    rfl
  unfold Device.dbgRead
  dsimp only
  rw [if_neg (by simp [hspace]), show (d.modDbg fun g => { g with pending := some ⟨h, [], false⟩ }) = d.dbgPends h [] from rfl, hask,
    if_neg (by simp [hspace]), Device.dbgDeliver_got (v := d.portWord) rfl]
  exact congrArg (fun g => ({ d with dbg := g, out := .dbg .ok (h.words.flatMap fun a => leBytes 4 (d.portWord a)) :: d.out } : Device))
    (Device.dbg_free hfree)

/-- The debug modules answer with the words of their registers (R474). -/
theorem Device.dbgRead_dmi (hspace : h.space = 1) (hheld : d.pwr.held = false) (hlate : r.late = false) :
    d.dbgRead h r = { d with
      out := .dbg .ok (h.words.flatMap fun a => leBytes 4 (d.dmiWord (d.fresh + (a - h.addr) / 4) (h.addr + (a - h.addr) / 4))) :: d.out
      fresh := d.fresh + h.count } := by
  have hask : (d.dbgPends h []).dbgAsk h r = Device.dbgPends { d with fresh := d.fresh + h.count } h
      (h.words.map fun a => (a, wordData (d.dmiWord (d.fresh + (a - h.addr) / 4) (h.addr + (a - h.addr) / 4)))) := by
    simp only [Device.dbgAsk, hspace]
    exact if_neg (by simp [Device.dbgPends, Device.modDbg, hheld])
  unfold Device.dbgRead
  dsimp only
  rw [if_neg (by simp [hspace]), show (d.modDbg fun g => { g with pending := some ⟨h, [], false⟩ }) = d.dbgPends h [] from rfl, hask,
    if_neg (by simp [hlate]),
    Device.dbgDeliver_got (v := fun a => d.dmiWord (d.fresh + (a - h.addr) / 4) (h.addr + (a - h.addr) / 4)) rfl]
  exact congrArg (fun g => ({ d with
    dbg := g
    out := .dbg .ok (h.words.flatMap fun a => leBytes 4 (d.dmiWord (d.fresh + (a - h.addr) / 4) (h.addr + (a - h.addr) / 4))) :: d.out
    fresh := d.fresh + h.count } : Device)) (Device.dbg_free hfree)

end Reads

/-! ### Words that a frame writes (R470, R471, R473, R474) -/

/-- A fold that carries a flag, which no element of the list clears while `P` holds. -/
theorem foldl_flagged {α β : Type} {P : α → Prop} {f : α × Bool → β → α × Bool} {put : α → β → α} {l : List β}
    (hput : ∀ a, ∀ b ∈ l, P a → f (a, true) b = (put a b, true)) (hkeep : ∀ a b, P a → P (put a b)) {a : α} (ha : P a) :
    l.foldl f (a, true) = (l.foldl put a, true) := by
  induction l generalizing a with
  | nil => rfl
  | cons b l ih =>
    rw [List.foldl_cons, List.foldl_cons, hput a b List.mem_cons_self ha]
    exact ih (fun a c hc => hput a c (List.mem_cons_of_mem b hc)) (hkeep a b ha)

section Writes

variable {d : Device} {h : DbgHeader} {x : DbgData}

/-- Data that fails its CRC writes nothing. -/
theorem Device.dbgWrite_badCrc
    (hbad : dbgCrc16 ((x.bytes ++ zeros (4 * h.count)).take (4 * h.count)) ≠ x.crc.toNat ∨ x.bytes.length ≠ 4 * h.count) :
    d.dbgWrite h x = { d with out := .dbg .crc [] :: .dbg .ok [] :: d.out } := if_pos hbad

/-- The word of the data at an address of the access. -/
def DbgData.word (x : DbgData) (h : DbgHeader) (a : Nat) : List Byte := (x.bytes.drop (a - h.addr)).take 4

/-- Data whose CRC is good is written word by word, in ascending order. -/
theorem Device.dbgWrite_puts {P : Device → Prop} {put : Device → Nat → Device} (hcrc : dbgCrc16 x.bytes = x.crc.toNat)
    (hlen : x.bytes.length = 4 * h.count) (hput : ∀ e, ∀ a ∈ h.words, P e → e.dbgPut h a (x.word h a) x.hwSet = some (put e a))
    (hkeep : ∀ e a, P e → P (put e a)) (hd : P (d.note (.dbg .ok []))) :
    d.dbgWrite h x = (h.words.foldl put (d.note (.dbg .ok []))).dbgAck .ok := by
  have hbytes : (x.bytes ++ zeros (4 * h.count)).take (4 * h.count) = x.bytes := List.take_left' hlen
  unfold Device.dbgWrite
  dsimp only
  rw [hbytes, if_neg (by simp [hcrc, hlen]), foldl_flagged (P := P) (put := put) (fun e a ha he => ?_) hkeep hd]
  · rfl
  · exact congrArg (fun o => match o with | some d => (d, true) | none => (e, false)) (hput e a ha he)

section Good

variable (hcrc : dbgCrc16 x.bytes = x.crc.toNat) (hlen : x.bytes.length = 4 * h.count)

include hcrc hlen

theorem Device.dbgWrite_port (hspace : h.space = 3) (haddr : h.addr % 4 = 0) : d.dbgWrite h x
    = (h.words.foldl (fun d a => d.portWrite a (leNat (x.word h a)) x.hwSet) (d.note (.dbg .ok []))).dbgAck .ok := by
  refine Device.dbgWrite_puts (P := fun _ => True) hcrc hlen (fun e a ha _ => ?_) (fun _ _ h => h) trivial
  simp only [Device.dbgPut, hspace]
  exact congrArg some (if_neg (not_not.mpr (DbgHeader.words_aligned haddr ha)))

theorem Device.dbgWrite_bus (hspace : h.space = 0) : d.dbgWrite h x
    = (h.words.foldl (fun d a => if d.pwr.held then d else d.offer (h.request true a (x.word h a) .clean))
        (d.note (.dbg .ok []))).dbgAck .ok := by
  refine Device.dbgWrite_puts (P := fun _ => True) hcrc hlen (fun e a _ _ => ?_) (fun _ _ h => h) trivial
  simp only [Device.dbgPut, hspace]

theorem Device.dbgWrite_dmi (hspace : h.space = 1) (hheld : d.pwr.held = false) : d.dbgWrite h x
    = (h.words.foldl (fun d a => d.dmiPut (h.addr + (a - h.addr) / 4) (leNat (x.word h a))) (d.note (.dbg .ok []))).dbgAck .ok := by
  refine Device.dbgWrite_puts (P := fun e => e.pwr.held = false) hcrc hlen (fun e a _ he => ?_) (fun _ _ h => h) hheld
  simp only [Device.dbgPut, hspace]
  exact congrArg some (if_neg (by simp [he]))

end Good

end Writes

/-- Writes of the debug modules change the modules alone, and draw two free values each. -/
theorem Device.foldl_dmiPut_frame (a v : Nat → Nat) (l : List Nat) (d : Device) :
    l.foldl (fun d k => d.dmiPut (a k) (v k)) d = { d with
      dbg := { d.dbg with modules := (l.foldl (fun d k => d.dmiPut (a k) (v k)) d).dbg.modules }, fresh := d.fresh + 2 * l.length } := by
  induction l generalizing d with
  | nil => rfl
  | cons k l ih =>
    rw [List.foldl_cons, ih, List.length_cons, Nat.mul_succ, Nat.add_comm (2 * l.length) 2, ← Nat.add_assoc]
    rfl

theorem Device.dmiFrame_eq {d e : Device} {w : BitVec 72} {x : DbgData} {o : DmiOutcome}
    (hspace : (DbgHeader.ofBits w.toNat).space = 1) (he : d.writeFrame w x o.late = e) :
    d.dmiFrame w x o = if o.differ ∧ (DbgHeader.ofBits w.toNat).op = 2 ∧ bits (DbgHeader.ofBits w.toNat).addr 9 8 = 1
        ∧ (e.dbg.module 1).hart (e.dbg.module 1).hartsel ≠ (d.dbg.module 1).hart (e.dbg.module 1).hartsel ∧ (e.dbg.module 1).hartsel < 4
      then e.pairMismatch (e.dbg.module 1).hartsel else e := by
  subst he
  exact if_neg (not_not.mpr hspace)

/-! ### Accesses that end (R468, R471) -/

theorem Device.dbgCancel_leaves (d : Device) : d.dbgCancel.dbg = { d.dbg with pending := none }
    ∧ (∀ p : Port, p.key ≠ Port.key Port.debug → d.dbgCancel.noc.port p = d.noc.port p)
    ∧ d.dbgCancel = { d with dbg := d.dbgCancel.dbg, noc := d.dbgCancel.noc } :=
  ⟨rfl, fun _ hp => tget_tput_other _ _ _ hp, rfl⟩

theorem Device.dbgCancel_held (d : Device) :
    (d.dbgCancel.noc.port Port.debug).held = (d.noc.port Port.debug).held.filter fun r => r.write :=
  congrArg PortState.held (Noc.setPort_port _ _ _)

/-- No write of the port is refused, and WERR is set all the same. -/
theorem Device.dbgRefused_none {d : Device}
    (h : (d.noc.port Port.debug).inflight.all (fun i => !(i.write && i.resp == .error)) = true) :
    d.dbgRefused = { d with dbg := { d.dbg with werr := true }, fresh := d.fresh + 1 } := by
  have hnone : (d.noc.port Port.debug).inflight.find? (fun i => i.write && i.resp == .error) = none :=
    List.find?_eq_none.mpr fun i hi hbad => absurd (List.all_eq_true.mp h i hi) (by rw [hbad]; decide)
  unfold Device.dbgRefused
  rw [hnone]
  rfl

/-! ### The obligation -/

/-- Settles O57: what answers a frame before its access, then the accesses space by space, then how accesses end. -/
theorem debugFrames : Obligations.DebugFrames := by
  refine ⟨fun s w r x o => ?frames, fun s => ?ends⟩
  case ends =>
    intro g noc
    obtain ⟨hdbg, hnoc, hframe⟩ := s.dev.dbgCancel_leaves
    refine ⟨Runs.of_onKeep (exec_framerReset s) ⟨hdbg, hnoc, hframe, s.dev.dbgCancel_held⟩,
      fun hpending => Runs.of_onKeep (exec_debugAccessTimeout s) ?_, fun hfree => Runs.of_onKeep (exec_debugAccessTimeout s) ?_,
      Runs.of_onKeep (exec_debugWriteRefused s) rfl, fun h => Runs.of_onKeep (exec_debugWriteRefused s) (Device.dbgRefused_none h)⟩
    · rw [Device.dbgTimeout, if_neg (by simpa using hpending)]
      exact ⟨rfl, hnoc, rfl⟩
    · exact if_pos (by simp [show s.dev.dbg.pending = none from hfree])
  case frames =>
    intro h g frames acked
    have answered {a : DbgAck} (ha : ∀ again access, s.dev.dbgFrame h again access = s.dev.dbgAck a) : acked a := Runs.of_dbgFrame ha rfl
    refine ⟨fun hstart => Runs.of_dbgFrame (fun _ _ => Device.dbgFrame_silent _ _ hstart) rfl,
      fun hstart hcrc => answered fun _ _ => Device.dbgFrame_badCrc _ _ hstart hcrc, fun hstart hcrc =>
        ⟨fun hfault => Runs.of_dbgFrame (fun _ _ => Device.dbgFrame_faultNext _ _ hstart hcrc hfault) rfl, fun hfault =>
          ⟨fun hwerr hspace => answered fun _ _ => Device.dbgFrame_werr _ _ hstart hcrc hfault hwerr hspace, fun hopen =>
            ⟨fun p hp hother => answered fun _ _ => Device.dbgFrame_wait _ _ hstart hcrc hfault hopen hp hother, fun hfree =>
              ⟨fun hbad => answered fun _ _ => Device.dbgFrame_malformed _ _ hstart hcrc hfault hopen hfree hbad,
                fun hres hop hdenied => answered fun _ _ => Device.dbgFrame_denied _ _ hstart hcrc hfault hopen hfree hres hop hdenied,
                fun hres hallows => ?access⟩⟩⟩⟩, fun hspace => Runs.of_onKeep (exec_dmiAccess w x o s) (if_pos hspace)⟩
    case access =>
      have passes (again access) (hop : h.op = 1 ∨ h.op = 2) : s.dev.dbgFrame h again access = access s.dev :=
        Device.dbgFrame_access again access hstart hcrc hfault hopen hfree hres hop hallows
      have writes (late : Bool) (hop : h.op = 2) : s.dev.writeFrame w x late = s.dev.dbgWrite h x := by
        unfold Device.writeFrame
        exact (passes _ _ (.inr hop)).trans (if_neg fun hread => absurd (hread.symm.trans hop) (by decide))
      refine ⟨fun hop hspace haddr hchallenge => Runs.of_onKeep (exec_debugRead w r s) ?port,
        fun hop hspace hheld hlate => Runs.of_onKeep (exec_dmiAccess w x o s) ?dmi, fun hop =>
          ⟨fun hbad => Runs.of_onKeep (exec_debugWrite w x s) ((writes true hop).trans (Device.dbgWrite_badCrc hbad)),
            fun hgood hlen => ⟨fun hspace haddr => Runs.of_onKeep (exec_debugWrite w x s)
                ((writes true hop).trans (Device.dbgWrite_port hgood hlen hspace haddr)),
              fun hspace => Runs.of_onKeep (exec_debugWrite w x s) ((writes true hop).trans (Device.dbgWrite_bus hgood hlen hspace)),
              fun hspace hheld => ?pairs⟩⟩⟩
      case port =>
        have hread : s.dev.readFrame w r = s.dev.dbgRead h r := by
          unfold Device.readFrame
          exact (passes _ _ (.inl hop)).trans (if_pos hop)
        exact hread.trans (Device.dbgRead_port r hfree hspace haddr hchallenge)
      case dmi =>
        have hread : s.dev.writeFrame w x o.late = s.dev.dbgRead h ⟨[], o.late, .clean, []⟩ := by
          unfold Device.writeFrame
          exact (passes _ _ (.inl hop)).trans (if_pos hop)
        have hdone := hread.trans (Device.dbgRead_dmi ⟨[], o.late, .clean, []⟩ hfree hspace hheld hlate)
        exact (Device.dmiFrame_same hspace (by rw [hdone])).trans hdone
      case pairs =>
        intro e p
        have hdone : s.dev.writeFrame w x o.late = e := (writes o.late hop).trans (Device.dbgWrite_dmi hgood hlen hspace hheld)
        have hframe := Device.foldl_dmiPut_frame (fun a => h.addr + (a - h.addr) / 4) (fun a => leNat (x.word h a)) h.words
          (s.dev.note (.dbg .ok []))
        rw [h.words_length] at hframe
        refine ⟨congrArg (fun d : Device => d.dbgAck .ok) hframe, fun hno => Runs.of_onKeep (exec_dmiAccess w x o s) ?_,
          fun hdiffer hbits hhart hp => Runs.of_onKeep (exec_dmiAccess w x o s) ?_⟩
        · refine (Device.dmiFrame_eq hspace hdone).trans (if_neg ?_)
          rintro ⟨hdiffer, -, hbits, -⟩
          exact hno.elim (fun h => Bool.false_ne_true (h.symm.trans hdiffer)) fun h => h hbits
        · exact (Device.dmiFrame_eq hspace hdone).trans (if_pos ⟨hdiffer, hop, hbits, hhart, hp⟩)

end Sys2Proof.Machine
